-- ==== Sys2Proof/Syntax.lean ====
section
/-! DEFINITION. The commands: one constructor for each row of spec/opcode_table.json, with the operands its rule
names. An operand with a default is one that most senders leave out: the port (U), code errors (none), a wake source within the
sleep entry (none), the I/O groups that stand (all). -/

namespace Sys2Proof

/-- The bus masters of R28. -/
inductive Master where
  | core | mover | link | display | mgmt | dap
  deriving DecidableEq, Repr

/-- The fields of a syllable other than its class and opcode, as R89 to R91 lay them out: S, PRED, D, A, B, MOD (IMM9 is
B and MOD, IMM19 is D, A, B and MOD), and the payload of a LIMM that directly follows it. With a LIMM, `stop` is the S of
the LIMM. -/
structure Syl where
  stop : Bool
  pred : BitVec 3
  d : BitVec 5
  a : BitVec 5
  b : BitVec 5
  mod : BitVec 4
  limm : Option (BitVec 28)
  deriving DecidableEq, Repr

/-- The 8-byte slot header of R228 as received, and the check byte as received. -/
structure SlotHdr where
  bits : BitVec 56
  scrc : Byte
  deriving DecidableEq, Repr

/-- How a frame ends unclean (R227). -/
inductive FrameEnd where
  | cut | start | idle | wake | portDown
  deriving DecidableEq, Repr

/-- The commands of the block. A link command names the port (0 U, 1 D1, 2 D2) whose receiver takes the characters; `bad` lists the
characters received as code errors, by lane and by place in the header or slot. -/
inductive Instr where
  /-- REGISTER_WRITE, R10. -/
  | registerWrite (m : Master) (addr v : Word)
  /-- ALIAS_WRITE, R175. -/
  | aliasWrite (m : Master) (addr v : Word)
  /-- LEVEL_REQUEST, R43. -/
  | levelRequest (m : Master) (v : Word)
  /-- AGENT_HOLD_ACK, R52. -/
  | agentHoldAck (k : Nat) (mid : Option (Nat × Nat) := none)
  /-- WAKE_EVENT, R63. -/
  | wakeEvent (src : Nat)
  /-- DOMAIN_DEMAND_START, R64. -/
  | domainDemandStart (d : Nat)
  /-- DOMAIN_DEMAND_TIMEOUT, R64. -/
  | domainDemandTimeout (d : Nat)
  /-- HARVEST_SAMPLE, R67. -/
  | harvestSample (n voc iop : Nat)
  /-- PRIMARY_LOSS, R73. -/
  | primaryLoss (vsto : Nat)
  /-- LEDGER_TICK, R77. -/
  | ledgerTick (vsto vbat charge : Nat) (vio : Nat := 15)
  /-- CAP_MEASURE_START, R79. -/
  | capMeasureStart (m : Master) (v : Word) (vsto : Nat)
  /-- CAP_MEASURE_DONE, R79. -/
  | capMeasureDone (v0 v1 v2 : Nat)
  /-- RESERVATION_PREREQUEST, R82. -/
  | reservationPrerequest (m : Master) (v : Word)
  /-- RESERVATION_RELEASE, R82. -/
  | reservationRelease (m : Master) (v : Word)
  /-- PRERESERVATION_TIMEOUT, R82. -/
  | prereservationTimeout (ticket : Nat)
  /-- ADD, R107. -/
  | add (unit : Bool) (x : Syl)
  /-- SUB, R107. -/
  | sub (unit : Bool) (x : Syl)
  /-- ADDI, R107. -/
  | addi (unit : Bool) (x : Syl)
  /-- ADDIS, R107. -/
  | addis (unit : Bool) (x : Syl)
  /-- RSUBI, R107. -/
  | rsubi (unit : Bool) (x : Syl)
  /-- NEG, R107. -/
  | neg (unit : Bool) (x : Syl)
  /-- ABS, R107. -/
  | absG (unit : Bool) (x : Syl)
  /-- AND, R107. -/
  | andG (unit : Bool) (x : Syl)
  /-- ANDI, R107. -/
  | andi (unit : Bool) (x : Syl)
  /-- OR, R107. -/
  | orG (unit : Bool) (x : Syl)
  /-- ORI, R107. -/
  | ori (unit : Bool) (x : Syl)
  /-- XOR, R107. -/
  | xorG (unit : Bool) (x : Syl)
  /-- XORI, R107. -/
  | xori (unit : Bool) (x : Syl)
  /-- ANDN, R107. -/
  | andn (unit : Bool) (x : Syl)
  /-- NOT, R107. -/
  | notG (unit : Bool) (x : Syl)
  /-- SHL, R107. -/
  | shl (unit : Bool) (x : Syl)
  /-- SHLI, R107. -/
  | shli (unit : Bool) (x : Syl)
  /-- SHR, R107. -/
  | shr (unit : Bool) (x : Syl)
  /-- SHRI, R107. -/
  | shri (unit : Bool) (x : Syl)
  /-- SAR, R107. -/
  | sar (unit : Bool) (x : Syl)
  /-- SARI, R107. -/
  | sari (unit : Bool) (x : Syl)
  /-- ROR, R107. -/
  | ror (unit : Bool) (x : Syl)
  /-- RORI, R107. -/
  | rori (unit : Bool) (x : Syl)
  /-- MIN, R107. -/
  | minG (unit : Bool) (x : Syl)
  /-- MAX, R107. -/
  | maxG (unit : Bool) (x : Syl)
  /-- MINU, R107. -/
  | minu (unit : Bool) (x : Syl)
  /-- MAXU, R107. -/
  | maxu (unit : Bool) (x : Syl)
  /-- CLZ, R107. -/
  | clz (unit : Bool) (x : Syl)
  /-- XTN, R107. -/
  | xtn (unit : Bool) (x : Syl)
  /-- EXTU, R107. -/
  | extu (unit : Bool) (x : Syl)
  /-- EXTS, R107. -/
  | exts (unit : Bool) (x : Syl)
  /-- MOV, R107. -/
  | mov (unit : Bool) (x : Syl)
  /-- MOVI, R107. -/
  | movi (unit : Bool) (x : Syl)
  /-- SEL, R107. -/
  | sel (unit : Bool) (x : Syl)
  /-- CMPEQ, R108. -/
  | cmpeq (unit : Bool) (x : Syl)
  /-- CMPNE, R108. -/
  | cmpne (unit : Bool) (x : Syl)
  /-- CMPLT, R108. -/
  | cmplt (unit : Bool) (x : Syl)
  /-- CMPLE, R108. -/
  | cmple (unit : Bool) (x : Syl)
  /-- CMPLTU, R108. -/
  | cmpltu (unit : Bool) (x : Syl)
  /-- CMPLEU, R108. -/
  | cmpleu (unit : Bool) (x : Syl)
  /-- CMPEQI, R108. -/
  | cmpeqi (unit : Bool) (x : Syl)
  /-- CMPNEI, R108. -/
  | cmpnei (unit : Bool) (x : Syl)
  /-- CMPLTI, R108. -/
  | cmplti (unit : Bool) (x : Syl)
  /-- CMPLEI, R108. -/
  | cmplei (unit : Bool) (x : Syl)
  /-- CMPLTUI, R108. -/
  | cmpltui (unit : Bool) (x : Syl)
  /-- CMPLEUI, R108. -/
  | cmpleui (unit : Bool) (x : Syl)
  /-- PAND, R107. -/
  | pand (unit : Bool) (x : Syl)
  /-- POR, R107. -/
  | por (unit : Bool) (x : Syl)
  /-- PXOR, R107. -/
  | pxor (unit : Bool) (x : Syl)
  /-- PANDN, R107. -/
  | pandn (unit : Bool) (x : Syl)
  /-- PNOT, R107. -/
  | pnot (unit : Bool) (x : Syl)
  /-- LDB, R110. -/
  | ldb (x : Syl)
  /-- LDBU, R110. -/
  | ldbu (x : Syl)
  /-- LDH, R110. -/
  | ldh (x : Syl)
  /-- LDHU, R110. -/
  | ldhu (x : Syl)
  /-- LDW, R110. -/
  | ldw (x : Syl)
  /-- LDD, R110. -/
  | ldd (x : Syl)
  /-- LDBX, R111. -/
  | ldbx (x : Syl)
  /-- LDBUX, R111. -/
  | ldbux (x : Syl)
  /-- LDHX, R111. -/
  | ldhx (x : Syl)
  /-- LDHUX, R111. -/
  | ldhux (x : Syl)
  /-- LDWX, R111. -/
  | ldwx (x : Syl)
  /-- LDDX, R111. -/
  | lddx (x : Syl)
  /-- LDBP, R110. -/
  | ldbp (x : Syl)
  /-- LDBUP, R110. -/
  | ldbup (x : Syl)
  /-- LDHP, R110. -/
  | ldhp (x : Syl)
  /-- LDHUP, R110. -/
  | ldhup (x : Syl)
  /-- LDWP, R110. -/
  | ldwp (x : Syl)
  /-- LDDP, R110. -/
  | lddp (x : Syl)
  /-- STB, R110. -/
  | stb (x : Syl)
  /-- STH, R110. -/
  | sth (x : Syl)
  /-- STW, R110. -/
  | stw (x : Syl)
  /-- STD, R110. -/
  | std (x : Syl)
  /-- STBX, R111. -/
  | stbx (x : Syl)
  /-- STHX, R111. -/
  | sthx (x : Syl)
  /-- STWX, R111. -/
  | stwx (x : Syl)
  /-- STDX, R111. -/
  | stdx (x : Syl)
  /-- STBP, R110. -/
  | stbp (x : Syl)
  /-- STHP, R110. -/
  | sthp (x : Syl)
  /-- STWP, R110. -/
  | stwp (x : Syl)
  /-- STDP, R110. -/
  | stdp (x : Syl)
  /-- SATST, R124. -/
  | satst (x : Syl)
  /-- SATSTX, R124. -/
  | satstx (x : Syl)
  /-- SATSTP, R124. -/
  | satstp (x : Syl)
  /-- SAVEM, R113. -/
  | savem (x : Syl)
  /-- LOADM, R113. -/
  | loadm (x : Syl)
  /-- BMOV, R113. -/
  | bmov (x : Syl)
  /-- FENCE, R114. -/
  | fence (x : Syl)
  /-- MUL, R115. -/
  | mul (unit : Bool) (x : Syl)
  /-- MULH, R115. -/
  | mulh (unit : Bool) (x : Syl)
  /-- MULHU, R115. -/
  | mulhu (unit : Bool) (x : Syl)
  /-- MULI, R115. -/
  | muli (unit : Bool) (x : Syl)
  /-- MACD, R121. -/
  | macd (unit : Bool) (x : Syl)
  /-- MSUD, R121. -/
  | msud (unit : Bool) (x : Syl)
  /-- MACX, R121. -/
  | macx (unit : Bool) (x : Syl)
  /-- MSUX, R121. -/
  | msux (unit : Bool) (x : Syl)
  /-- MULD, R121. -/
  | muld (unit : Bool) (x : Syl)
  /-- MACW, R121. -/
  | macw (unit : Bool) (x : Syl)
  /-- MSUW, R121. -/
  | msuw (unit : Bool) (x : Syl)
  /-- MULW, R121. -/
  | mulw (unit : Bool) (x : Syl)
  /-- MVA, R121. -/
  | mva (unit : Bool) (x : Syl)
  /-- MVAG, R115. -/
  | mvag (unit : Bool) (x : Syl)
  /-- MVTA, R115. -/
  | mvta (unit : Bool) (x : Syl)
  /-- MVTAG, R115. -/
  | mvtag (unit : Bool) (x : Syl)
  /-- ACLR, R115. -/
  | aclr (unit : Bool) (x : Syl)
  /-- ASAR, R121. -/
  | asar (unit : Bool) (x : Syl)
  /-- ASHL, R121. -/
  | ashl (unit : Bool) (x : Syl)
  /-- AADD, R121. -/
  | aadd (unit : Bool) (x : Syl)
  /-- BR, R116. -/
  | br (x : Syl)
  /-- BRR, R116. -/
  | brr (x : Syl)
  /-- CALL, R103. -/
  | call (x : Syl)
  /-- CALLR, R103. -/
  | callr (x : Syl)
  /-- RET, R103. -/
  | ret (x : Syl)
  /-- RETE, R153. -/
  | rete (x : Syl)
  /-- TRAP, R155. -/
  | trap (x : Syl)
  /-- CUSTOM, R135. -/
  | custom (n : Nat) (x : Syl)
  /-- MVFS, R101. -/
  | mvfs (x : Syl)
  /-- MVTS, R101. -/
  | mvts (x : Syl)
  /-- SLEEP, R50. -/
  | sleep (x : Syl)
  /-- REP, R129. -/
  | rep (x : Syl)
  /-- REPR, R129. -/
  | repr (x : Syl)
  /-- MICROSTORE_WRITE_LOW, R145. -/
  | microstoreWriteLow (m : Master) (v : Word)
  /-- MICROSTORE_WRITE_HIGH, R145. -/
  | microstoreWriteHigh (m : Master) (v : Word)
  /-- MICROSTORE_READ_LOW, R145. -/
  | microstoreReadLow (m : Master)
  /-- MICROSTORE_READ_HIGH, R145. -/
  | microstoreReadHigh (m : Master)
  /-- CYCLE_COUNTER_READ, R102. -/
  | cycleCounterRead (m : Master)
  /-- DRAM_SESSION_OPEN, R194. -/
  | dramSessionOpen (m : Master) (v : Word)
  /-- DRAM_SESSION_CLOSE, R194. -/
  | dramSessionClose (m : Master) (v : Word)
  /-- MOVER_START, R200. -/
  | moverStart (m : Master) (n : Nat) (v : Word)
  /-- MOVER_STOP, R200. -/
  | moverStop (m : Master) (n : Nat) (v : Word)
  /-- MOVER_DESCRIPTOR_FETCH, R203. -/
  | moverDescriptorFetch (n : Nat)
  /-- MOVER_TRIGGER, R207. -/
  | moverTrigger (n : Nat)
  /-- MOVER_ELEMENT, R204. -/
  | moverElement (n : Nat)
  /-- MOVER_BURST_STORE, R206. -/
  | moverBurstStore (n : Nat)
  /-- MOVER_DESCRIPTOR_END, R208. -/
  | moverDescriptorEnd (n : Nat)
  /-- LANE_LOCK, R216. -/
  | laneLock (p l : Nat)
  /-- PORT_TRAIN, R216. -/
  | portTrain (p : Nat)
  /-- PORT_UP, R216. -/
  | portUp (p : Nat) (two : Bool)
  /-- LANE_LOSS, R217. -/
  | laneLoss (p l : Nat) (codeErrors : Bool := false)
  /-- PORT_JOIN, R239. -/
  | portJoin (p : Nat)
  /-- FRAME_START, R227. -/
  | frameStart (p : Nat) (replicated : Bool) (cycles : Nat) (errs : Nat := 0)
  /-- CYCLE_HEADER, R225. -/
  | cycleHeader (bytes : List Byte) (cycles : Nat) (p : Nat := 0) (bad : List (Nat × Nat) := [])
  /-- CYCLE_START_EVENT, R236. -/
  | cycleStartEvent (cycles : Nat)
  /-- READ_SLOT, R258. -/
  | readSlot (h : SlotHdr) (genw : Word) (payload : List Word) (late : Option Nat) (cycles : Nat) (bad : List (Nat × Nat) := [])
  /-- WRITE_SLOT, R258. -/
  | writeSlot (h : SlotHdr) (genw : Word) (payload : List Word) (cycles : Nat) (bad : List (Nat × Nat) := [])
  /-- READ_WRITE_SLOT, R258. -/
  | readWriteSlot (h : SlotHdr) (genw : Word) (payload : List Word) (late : Option Nat) (cycles : Nat) (bad : List (Nat × Nat) := [])
  /-- EVENT_SLOT, R235. -/
  | eventSlot (h : SlotHdr) (genw : Word) (payload : List Word) (cycles : Nat) (bad : List (Nat × Nat) := [])
  /-- STATUS_SLOT, R234. -/
  | statusSlot (h : SlotHdr) (genw : Word) (payload : List Word) (cycles : Nat) (bad : List (Nat × Nat) := [])
  /-- COMMAND_CARRY_SLOT, R268. -/
  | commandCarrySlot (h : SlotHdr) (genw : Word) (payload : List Word) (cycles : Nat) (bad : List (Nat × Nat) := [])
  /-- FRAME_END_CLEAN, R227. -/
  | frameEndClean (cycles : Nat) (p : Nat := 0)
  /-- FRAME_END_UNCLEAN, R227. -/
  | frameEndUnclean (how : FrameEnd) (p : Nat := 0)
  /-- LINK_TRAIN_COMMAND, R241. -/
  | linkTrainCommand (m : Master) (v : Word)
  /-- TABLE_COMMIT_REQUEST, R253. -/
  | tableCommitRequest (m : Master) (v : Word)
  /-- TABLE_CANCEL, R255. -/
  | tableCancel (m : Master) (v : Word)
  /-- PING, R277. -/
  | ping (place : Nat)
  /-- GET_STATE, R277. -/
  | getState (place : Nat)
  /-- FIRE_EVENT, R291. -/
  | fireEvent (place : Nat)
  /-- SET_LEVEL, R277. -/
  | setLevel (place : Nat)
  /-- SLEEP_HINT, R277. -/
  | sleepHint (place : Nat)
  /-- TABLE_COMMIT, R253. -/
  | tableCommit (place : Nat)
  /-- TABLE_INFO, R277. -/
  | tableInfo (place : Nat)
  /-- TABLE_WRITE, R277. -/
  | tableWrite (place : Nat)
  /-- TABLE_READ, R277. -/
  | tableRead (place : Nat)
  /-- FIRMWARE_COMMAND, R276. -/
  | firmwareCommand (place : Nat)
  /-- FIRMWARE_REPLY, R405. -/
  | firmwareReply (m : Master) (v : Word)
  /-- COMMAND_TIMEOUT, R274. -/
  | commandTimeout (place : Nat)
  /-- SESSION_OPEN, R396. -/
  | sessionOpen (place : Nat)
  /-- SESSION_PROVE, R397. -/
  | sessionProve (place : Nat)
  /-- SESSION_CLOSE, R398. -/
  | sessionClose (place : Nat)
  /-- LC_QUERY, R278. -/
  | lcQuery (place : Nat)
  /-- LC_ADVANCE, R387. -/
  | lcAdvance (place : Nat)
  /-- LC_BLANK_TO_MADE, R386. -/
  | lcBlankToMade (m : Master) (v : Word)
  /-- NV_READ, R278. -/
  | nvRead (place : Nat)
  /-- NV_WRITE_PAGE, R305. -/
  | nvWritePage (place : Nat) (during : Bool := false)
  /-- RECORD_READ, R313. -/
  | recordRead (place : Nat)
  /-- RECORD_WRITE, R314. -/
  | recordWrite (place : Nat)
  /-- TALLY_READ, R319. -/
  | tallyRead (place : Nat)
  /-- TALLY_ADD, R318. -/
  | tallyAdd (place : Nat)
  /-- RTC_GET, R330. -/
  | rtcGet (place : Nat)
  /-- RTC_SET, R332. -/
  | rtcSet (place : Nat)
  /-- ENERGY_QUERY, R87. -/
  | energyQuery (place : Nat)
  /-- BURST_RESERVE, R82. -/
  | burstReserve (place : Nat)
  /-- LOG_READ, R278. -/
  | logRead (place : Nat)
  /-- RESET_DEVICE, R279. -/
  | resetDevice (place : Nat)
  /-- EVENT_FIRE, R291. -/
  | eventFire (m : Master) (v : Word)
  /-- EVENT_DELIVERY, R284. -/
  | eventDelivery (k : Nat)
  /-- CAPTURE_READ, R295. -/
  | captureRead (m : Master) (n : Nat)
  /-- CHANNEL_OWNER_WRITE, R293. -/
  | channelOwnerWrite (m : Master) (c : Nat) (v : Word)
  /-- ASYNC_MODE_WRITE, R288. -/
  | asyncModeWrite (m : Master) (v : Word)
  /-- PAGE_COMMAND, R305. -/
  | pageCommand (m : Master) (v : Word)
  /-- NVS_RECORD_READ, R313. -/
  | nvsRecordRead (m : Master) (v : Word)
  /-- NVS_RECORD_WRITE, R314. -/
  | nvsRecordWrite (m : Master) (v : Word)
  /-- NVS_TALLY_READ, R319. -/
  | nvsTallyRead (m : Master) (v : Word)
  /-- NVS_TALLY_ADD, R318. -/
  | nvsTallyAdd (m : Master) (v : Word)
  /-- SUBSECOND_EDGE, R327. -/
  | subsecondEdge (tdie : Int) (raw : Nat) (soon : Nat := 0)
  /-- RTC_SNAPSHOT, R329. -/
  | rtcSnapshot (m : Master)
  /-- RTC_COMMIT, R331. -/
  | rtcCommit (m : Master) (v : Word)
  /-- SEG_COMMIT, R345. -/
  | segCommit (m : Master) (v : Word)
  /-- SEG_ENABLE, R348. -/
  | segEnable (m : Master) (v : Word)
  /-- EPD_REQUEST, R362. -/
  | epdRequest (m : Master) (set : Nat) (v : Word)
  /-- EPD_ADMISSION, R364. -/
  | epdAdmission (tdie : Int) (raw : Nat)
  /-- EPD_INIT, R358. -/
  | epdInit (m : Master) (v : Word)
  /-- EPD_STATE_OK, R358. -/
  | epdStateOk (m : Master) (v : Word)
  /-- DEBUG_OPEN, R400. -/
  | debugOpen (m : Master) (v : Word)
  /-- DEBUG_PROVE, R400. -/
  | debugProve (m : Master) (v : Word)
  /-- DEBUG_END, R400. -/
  | debugEnd (m : Master) (v : Word)
  /-- DAPACC, R463. -/
  | dapacc (w : BitVec 40) (window : Option Word := none)
  /-- TAMPER_EDGE, R413. -/
  | tamperEdge (high : Bool) (fall : Bool := false)
  /-- WATCHDOG_SERVICE, R429. -/
  | watchdogService (m : Master) (v : Word)
  /-- SOFTWARE_RESET, R425. -/
  | softwareReset (cause : Nat)
  /-- CORE_SOFTWARE_RESET_WRITE, R148. -/
  | coreSoftwareResetWrite (m : Master) (v : Word)
  /-- POWER_ON_RELEASE, R420. -/
  | powerOnRelease (elapsed : Nat)
  /-- SPI_TRANSFER, R466. -/
  | spiTransfer (m : Master) (n : Nat) (v : Word)
  /-- SPI_TRANSFER_DONE, R466. -/
  | spiTransferDone (n : Nat) (received : List Byte)
  /-- SPI_TRANSMIT_DATA, R465. -/
  | spiTransmitData (m : Master) (n : Nat) (v : Word)
  /-- SPI_RECEIVE_DATA, R465. -/
  | spiReceiveData (m : Master) (n : Nat)
  /-- I2C_TRANSACTION, R467. -/
  | i2cTransaction (m : Master) (v : Word)
  /-- I2C_TRANSACTION_DONE, R467. -/
  | i2cTransactionDone (nackA nackD : Bool) (received : List Byte)
  /-- I2C_TRANSMIT_DATA, R465. -/
  | i2cTransmitData (m : Master) (v : Word)
  /-- I2C_RECEIVE_DATA, R465. -/
  | i2cReceiveData (m : Master)
  /-- UART_TRANSMIT_DATA, R465. -/
  | uartTransmitData (m : Master) (v : Word)
  /-- UART_RECEIVE_DATA, R465. -/
  | uartReceiveData (m : Master)
  /-- UART_CHARACTER_RECEIVED, R468. -/
  | uartCharacterReceived (b : Byte) (perr ferr : Bool) (start : Bool := false)
  /-- GPIO_EDGE, R464. -/
  | gpioEdge (n : Nat) (fall : Bool := false)
  /-- PRIMOK_CHANGE, R73. -/
  | primokChange (ok : Bool)
  /-- READ_CLEAR, R10. -/
  | readClear (m : Master) (addr : Word)
  /-- LINK_TIME_READ, R236. -/
  | linkTimeRead (m : Master) (cycles : Nat)
  /-- AGENT_HOLD_OVERRUN, R52. -/
  | agentHoldOverrun (k : Nat)
  /-- SRAM_ROW_MOVE, R178. -/
  | sramRowMove (bank row : Nat)
  /-- SRAM_COLUMN_REPLACE, R178. -/
  | sramColumnReplace (bank col : Nat)
  /-- BANK_WIPE, R180. -/
  | bankWipe (region : Nat)
  /-- DRAM_ROW_REMAP, R196. -/
  | dramRowRemap (row : Nat)
  /-- PORT_TRAIN_TIMEOUT, R216. -/
  | portTrainTimeout (p : Nat)
  /-- DOWN_PORT_PROBE, R238. -/
  | downPortProbe (p : Nat)
  /-- WAKE_ORDERED_SET, R244. -/
  | wakeOrderedSet (ds dl : Byte) (p : Nat := 0)
  /-- DISPLAY_REGION_UPDATE, R367. -/
  | displayRegionUpdate (place : Nat)
  /-- DISPLAY_STATUS, R366. -/
  | displayStatus (place : Nat)
  /-- SPARE_REPORT, R278. -/
  | spareReport (place : Nat)
  /-- NV_SCRUB_VISIT, R307. -/
  | nvScrubVisit (weak : List Nat)
  /-- NV_PAGE_MOVE, R309. -/
  | nvPageMove (page : Nat)
  /-- EPD_FRAME_START, R357. -/
  | epdFrameStart (late : List Nat) (upto : Option Nat := none)
  /-- REGION_LOCK, R360. -/
  | regionLock (n : Nat)
  /-- TOUCH_START, R377. -/
  | touchStart (m : Master) (v : Word) (sc mc : List Nat)
  /-- TOUCH_PAIR_END, R373. -/
  | touchPairEnd (sc mc : List Nat) (ms : Nat)
  /-- WAKE_SCAN_SAMPLE, R380. -/
  | wakeScanSample (sc : List Nat)
  /-- EXTEST, R463. -/
  | extest (bits : BitVec 171) (levels : BitVec 171 := 0)
  /-- SAMPLE_PRELOAD, R463. -/
  | samplePreload (pins preload : BitVec 171)
  /-- BYPASS, R463. -/
  | bypass (code : BitVec 5) (tdi : Bool)
  /-- SEAL, R407. -/
  | seal (slot : Nat)
  /-- SIGN, R408. -/
  | sign (slot : Nat)
  /-- PUBKEY, R406. -/
  | pubkey (slot : Nat)
  /-- VERIFY, R406. -/
  | verify (slot : Nat)
  /-- RANDOM, R406. -/
  | randomBytes (slot : Nat)
  /-- HASH, R406. -/
  | hash (slot : Nat)
  /-- LEVEL_TRANSITION_DONE, R45. -/
  | levelTransitionDone
  /-- LEVEL_DURATION_EXPIRY, R44. -/
  | levelDurationExpiry
  /-- SLEEP_AGENT_ANSWERS, R55. -/
  | sleepAgentAnswers (mid : Option (Nat × Nat) := none)
  /-- LINK_ACTIVITY_RAISE, R39. -/
  | linkActivityRaise
  /-- VSTO_BROWN, R72. -/
  | vstoBrown
  /-- FORCED_WAKE_GRANT, R61. -/
  | forcedWakeGrant
  /-- VSTO_HI, R72. -/
  | vstoHi
  /-- SHUNT_RELEASE, R72. -/
  | shuntRelease
  /-- LOAD_TO_PRIMARY, R72. -/
  | loadToPrimary
  /-- LOAD_TO_STORE, R72. -/
  | loadToStore
  /-- SUPPLY_LOSS, R74. -/
  | supplyLoss
  /-- FLOOR_TRIP, R83. -/
  | floorTrip
  /-- FLOOR_CLEAR, R83. -/
  | floorClear
  /-- INTERRUPT_ENTRY, R158. -/
  | interruptEntry
  /-- NMI_ENTRY, R160. -/
  | nmiEntry
  /-- MACHINE_CHECK_ENTRY, R163. -/
  | machineCheckEntry
  /-- BUFFERED_STORE_COMPLETE, R162. -/
  | bufferedStoreComplete
  /-- ECC_WRITEBACK, R176. -/
  | eccWriteback
  /-- DRAM_IDLE_SELF_REFRESH, R193. -/
  | dramIdleSelfRefresh
  /-- DRAM_SESSION_CUT, R194. -/
  | dramSessionCut
  /-- DRAM_SCRUB_BURST, R195. -/
  | dramScrubBurst
  /-- DRAM_WIPE_SEGMENT, R197. -/
  | dramWipeSegment
  /-- FRAME_OPEN_TIMEOUT, R227. -/
  | frameOpenTimeout (p : Nat := 0)
  /-- FRAME_MISSED, R227. -/
  | frameMissed
  /-- LANDING_DONE, R261. -/
  | landingDone
  /-- LISTEN_TO_TRAIN, R241. -/
  | listenToTrain
  /-- LINK_TRAIN_TIMEOUT, R241. -/
  | linkTrainTimeout
  /-- PROCESSING_POINT_JOIN, R241. -/
  | processingPointJoin
  /-- BACKOFF_EXPIRY, R241. -/
  | backoffExpiry
  /-- LINK_IDLE_TIMEOUT, R242. -/
  | linkIdleTimeout
  /-- ALL_PORTS_DOWN_TIMEOUT, R243. -/
  | allPortsDownTimeout
  /-- LINK_LEAVE_SERVICE, R243. -/
  | linkLeaveService
  /-- SESSION_TIMEOUT, R398. -/
  | sessionTimeout
  /-- LIFECYCLE_TRANSITION, R388. -/
  | lifecycleTransition
  /-- RESET_DEVICE_START, R279. -/
  | resetDeviceStart
  /-- NV_WORD_WRITE, R301. -/
  | nvWordWrite
  /-- HOLD_WAIT_TIMEOUT, R301. -/
  | holdWaitTimeout
  /-- PAGE_COMMAND_RESUME, R53. -/
  | pageCommandResume
  /-- PERIODIC_WAKE, R337. -/
  | periodicWake
  /-- CRYSTAL_STOP, R323. -/
  | crystalStop
  /-- CRYSTAL_RETURN, R323. -/
  | crystalReturn
  /-- RTC_COMMIT_EDGE, R331. -/
  | rtcCommitEdge (soon : Nat := 0)
  /-- SEG_FRAME_START, R344. -/
  | segFrameStart (soon : Bool := false)
  /-- HVPG_RISE, R351. -/
  | hvpgRise
  /-- HV_TIMEOUT, R351. -/
  | hvTimeout
  /-- EPD_POWER_DOWN, R351. -/
  | epdPowerDown
  /-- EPD_INIT_DONE, R358. -/
  | epdInitDone
  /-- HVPG_FALL, R368. -/
  | hvpgFall
  /-- TOUCH_PAIR_START, R371. -/
  | touchPairStart (mutPass : Bool := false)
  /-- IDCODE, R463. -/
  | idcode
  /-- TAP_RESET, R463. -/
  | tapReset
  /-- WATCHDOG_WARNING, R428. -/
  | watchdogWarning
  /-- WATCHDOG_EXPIRY, R428. -/
  | watchdogExpiry
  /-- MANAGEMENT_MONITOR_EXPIRY, R430. -/
  | managementMonitorExpiry
  /-- RESETN_LOW, R418. -/
  | resetnLow
  /-- I2C_TIMEOUT, R467. -/
  | i2cTimeout
  /-- UART_TRANSMIT_DONE, R468. -/
  | uartTransmitDone (taken : Option Nat := none)
  /-- COLD_START, R70. -/
  | coldStart
  /-- HOLD_CAPACITOR_READY, R301. -/
  | holdCapacitorReady
  deriving DecidableEq, Repr

end Sys2Proof
end

