-- ==== Sys2Proof/Decode.lean ====
section
/-! DEFINITION. The command a word spells. No row of spec/opcode_table.json gives bits (its rows are the commands of a block,
each with the operands its rule names), so by the table's bits no word spells one; a word of the DX core's code spells a syllable
by R89. -/

namespace Sys2Proof

/-- The command that a word spells by the table's bits: the table gives none. -/
def decodeTableWord (_nbits _w : Nat) : Option Instr := none

/-! ### Syllables (R89 to R91) -/

/-- The fields of a syllable's word, with the LIMM that follows it, if any: its payload, and its S (R89, R91). -/
def sylOf (w : BitVec 32) (limm : Option (BitVec 32)) : Syl :=
  ⟨(limm.getD w).getLsbD 31, w.extractLsb' 25 3, w.extractLsb' 14 5, w.extractLsb' 9 5, w.extractLsb' 4 5, w.extractLsb' 0 4,
   limm.map fun l => l.extractLsb' 0 28⟩

/-- The opcodes of ALU0 and ALU1 (R107). -/
def aluWord (unit : Bool) (x : Syl) : Nat → Option Instr
  | 0x00 => some (.add unit x)
  | 0x01 => some (.sub unit x)
  | 0x02 => some (.addi unit x)
  | 0x03 => some (.addis unit x)
  | 0x04 => some (.rsubi unit x)
  | 0x05 => some (.neg unit x)
  | 0x06 => some (.absG unit x)
  | 0x08 => some (.andG unit x)
  | 0x09 => some (.andi unit x)
  | 0x0A => some (.orG unit x)
  | 0x0B => some (.ori unit x)
  | 0x0C => some (.xorG unit x)
  | 0x0D => some (.xori unit x)
  | 0x0E => some (.andn unit x)
  | 0x0F => some (.notG unit x)
  | 0x10 => some (.shl unit x)
  | 0x11 => some (.shli unit x)
  | 0x12 => some (.shr unit x)
  | 0x13 => some (.shri unit x)
  | 0x14 => some (.sar unit x)
  | 0x15 => some (.sari unit x)
  | 0x16 => some (.ror unit x)
  | 0x17 => some (.rori unit x)
  | 0x18 => some (.minG unit x)
  | 0x19 => some (.maxG unit x)
  | 0x1A => some (.minu unit x)
  | 0x1B => some (.maxu unit x)
  | 0x1C => some (.clz unit x)
  | 0x1D => some (.xtn unit x)
  | 0x1E => some (.extu unit x)
  | 0x1F => some (.exts unit x)
  | 0x20 => some (.mov unit x)
  | 0x21 => some (.movi unit x)
  | 0x22 => some (.sel unit x)
  | 0x28 => some (.cmpeq unit x)
  | 0x29 => some (.cmpne unit x)
  | 0x2A => some (.cmplt unit x)
  | 0x2B => some (.cmple unit x)
  | 0x2C => some (.cmpltu unit x)
  | 0x2D => some (.cmpleu unit x)
  | 0x30 => some (.cmpeqi unit x)
  | 0x31 => some (.cmpnei unit x)
  | 0x32 => some (.cmplti unit x)
  | 0x33 => some (.cmplei unit x)
  | 0x34 => some (.cmpltui unit x)
  | 0x35 => some (.cmpleui unit x)
  | 0x38 => some (.pand unit x)
  | 0x39 => some (.por unit x)
  | 0x3A => some (.pxor unit x)
  | 0x3B => some (.pandn unit x)
  | 0x3C => some (.pnot unit x)
  | _ => none

/-- The opcodes of the LSU (R110). -/
def lsuWord (x : Syl) : Nat → Option Instr
  | 0x00 => some (.ldb x)
  | 0x08 => some (.ldbx x)
  | 0x10 => some (.ldbp x)
  | 0x01 => some (.ldbu x)
  | 0x09 => some (.ldbux x)
  | 0x11 => some (.ldbup x)
  | 0x02 => some (.ldh x)
  | 0x0A => some (.ldhx x)
  | 0x12 => some (.ldhp x)
  | 0x03 => some (.ldhu x)
  | 0x0B => some (.ldhux x)
  | 0x13 => some (.ldhup x)
  | 0x04 => some (.ldw x)
  | 0x0C => some (.ldwx x)
  | 0x14 => some (.ldwp x)
  | 0x05 => some (.ldd x)
  | 0x0D => some (.lddx x)
  | 0x15 => some (.lddp x)
  | 0x18 => some (.stb x)
  | 0x1C => some (.stbx x)
  | 0x20 => some (.stbp x)
  | 0x19 => some (.sth x)
  | 0x1D => some (.sthx x)
  | 0x21 => some (.sthp x)
  | 0x1A => some (.stw x)
  | 0x1E => some (.stwx x)
  | 0x22 => some (.stwp x)
  | 0x1B => some (.std x)
  | 0x1F => some (.stdx x)
  | 0x23 => some (.stdp x)
  | 0x24 => some (.satst x)
  | 0x25 => some (.satstx x)
  | 0x26 => some (.satstp x)
  | 0x30 => some (.savem x)
  | 0x31 => some (.loadm x)
  | 0x32 => some (.bmov x)
  | 0x38 => some (.fence x)
  | _ => none

/-- The opcodes of MAC0 and MAC1 (R115). -/
def macWord (unit : Bool) (x : Syl) : Nat → Option Instr
  | 0x00 => some (.mul unit x)
  | 0x01 => some (.mulh unit x)
  | 0x02 => some (.mulhu unit x)
  | 0x03 => some (.muli unit x)
  | 0x08 => some (.macd unit x)
  | 0x09 => some (.msud unit x)
  | 0x0A => some (.macx unit x)
  | 0x0B => some (.msux unit x)
  | 0x0C => some (.muld unit x)
  | 0x0D => some (.macw unit x)
  | 0x0E => some (.msuw unit x)
  | 0x0F => some (.mulw unit x)
  | 0x10 => some (.mva unit x)
  | 0x11 => some (.mvag unit x)
  | 0x12 => some (.mvta unit x)
  | 0x13 => some (.mvtag unit x)
  | 0x14 => some (.aclr unit x)
  | 0x15 => some (.asar unit x)
  | 0x16 => some (.ashl unit x)
  | 0x17 => some (.aadd unit x)
  | _ => none

/-- The opcodes of the BRU (R116). -/
def bruWord (x : Syl) : Nat → Option Instr
  | 0x00 => some (.br x)
  | 0x01 => some (.brr x)
  | 0x02 => some (.call x)
  | 0x03 => some (.callr x)
  | 0x04 => some (.ret x)
  | 0x05 => some (.rete x)
  | 0x06 => some (.trap x)
  | _ => none

/-- The opcodes of EXT (R117): 0 to 15 are CUSTOM0 to CUSTOM15. -/
def extWord (x : Syl) (op : Nat) : Option Instr :=
  if op < 16 then some (.custom op x)
  else match op with
    | 0x10 => some (.mvfs x)
    | 0x11 => some (.mvts x)
    | 0x12 => some (.sleep x)
    | 0x13 => some (.rep x)
    | 0x14 => some (.repr x)
    | _ => none

/-- The command of a syllable's word, by its CLASS and OP bits (R89): none for an opcode that no table lists, and for a LIMM,
which is part of the syllable before it. -/
def decodeSyllable (w : BitVec 32) (limm : Option (BitVec 32) := none) : Option Instr :=
  let x := sylOf w limm
  let op := (w.extractLsb' 19 6).toNat
  match (w.extractLsb' 28 3).toNat with
  | 0 => aluWord false x op
  | 1 => aluWord true x op
  | 2 => lsuWord x op
  | 3 => macWord false x op
  | 4 => macWord true x op
  | 5 => bruWord x op
  | 6 => extWord x op
  | _ => none

end Sys2Proof
end

