-- ==== Sys2Proof/Config.lean ====
section
/-! DEFINITION. What the spec leaves open: constants with no body (log entry 2). Every one is applied to the plain
counter State.free, so each draw is a fresh unconstrained value. -/

namespace Sys2Proof.Config

/-- A byte of the on-die random source (R391, R395, R396, R400, R406): FREE. -/
opaque randomByte : Nat → BitVec 8

/-- SYS cycles a stall lasts (R118, R470 give maxima only): FREE. -/
opaque stall : Nat → Nat

/-- The 0 to 20 ns between an event of a clocked source and its capture (R294): FREE within its bound. -/
opaque captureLag : Nat → Fin 21

/-- Waiting cycles a conflict counter gains at an access outside the owner's banks (R174): FREE. -/
opaque conflict : Nat → Nat

/-- Which of the 64 check lines a full cache evicts (R191 names no policy): FREE. -/
opaque evict : Nat → Fin 64

/-- A word of a ROM, by its address (R29 lays the ROMs out and gives no content): FREE. -/
opaque romWord : Nat → BitVec 32

/-- Whether the hold capacitor becomes ready within the 10 µs a word write waits for it (R301), where no command says so: FREE. -/
opaque holdComes : Nat → Bool

/-- A byte of a record's copy that is returned although its word is uncorrectable (R313 returns the copy): FREE. -/
opaque badByte : Nat → BitVec 8

/-- Millivolts by which a channel limited to 10 mW has moved towards Voc (R68 gives the rule, not the point): FREE. -/
opaque limitShift : Nat → Nat

/-- How many of the newest configuration writes of the event fabric still have their window of 2 AON cycles open (R296): FREE. -/
opaque winOpen : Nat → Nat

/-- Whether the pulse of an earlier event, of 1 µs min, still stands on an asynchronous channel (R286 gives no more): FREE. -/
opaque pulseOn : Nat → Nat → Bool

/-- The checksum of a region whose newest update ended otherwise than by R365 (R366 gives none): FREE. -/
opaque endSum : Nat → BitVec 32

/-- MATCH of such a region, and after an update with CHK=0, whose checksum nothing is compared with (R365): FREE. -/
opaque endMatch : Nat → Bool

/-- The principal named by the arrival word of a command with AUTH=1 whose session is still to be checked (R276 gives none):
FREE. -/
opaque claimed : Nat → BitVec 4

/-- DACK in an up header sent before any fragment was accepted (R266, R272 give none): FREE. -/
opaque dackNone : Nat → BitVec 8

/-- The status of an operation that read an uncorrectable word (R177 calls it the operation's own and names no code): FREE among the
statuses R248 lists. -/
opaque ueStatus : Nat → Fin 13

/-- The reply's status for a DISPLAY_REGION_UPDATE whose update ends with CUT before its admission (R367 names none): FREE among the
statuses R248 lists. -/
opaque cutStatus : Nat → Fin 13

/-- EPD_STAT.TEMP where the temperature does not fit its eight bits (R353 states none): FREE. -/
opaque tempOut : Nat → BitVec 8

/-- Whether an X or Y channel with no measured node, whose self delta reaches SELF, counts as touched (R372 states no mutual
delta for it): FREE. -/
opaque noNode : Nat → Bool

/-- The status of a SEAL whose principal has no claimed slot, so no sealing key (R394, R406 state none): FREE among the statuses
R248 lists. -/
opaque noSealKey : Nat → Fin 13

/-- A word of the image digest of an image whose length is out of range (R401 gives it no signed message): FREE. -/
opaque noDigest : Nat → BitVec 32

/-- Microseconds from a watchdog or software reset to the core's release: FREE within R425's 20.7 ms. -/
opaque softTime : Nat → Fin 20701

/-- Microseconds from a management restart to the core's release: FREE within R420's 23.2 ms. -/
opaque restartTime : Nat → Fin 23201

/-- Microseconds from a reset to the core's release where the steps in SYS waited for a wake (R423, R471 give no bound): FREE. -/
opaque waitTime : Nat → BitVec 32

/-- Which of two whole dividers equally near the UART takes (R468 says the nearest): true for the greater: FREE. -/
opaque uartTie : Nat → Bool

/-- What the JTAG port shifts out where no rule gives it: after a refused access, a write, or an instruction that does not work
(R399, R463): FREE. -/
opaque tdoOut : Nat → BitVec 40

/-- The level the boundary-scan cells give an output ball, none for high impedance; the ball by its place in the array of R440,
14 times the row plus the column less 1 (R463 lays down no order of the cells): FREE. -/
opaque scanBall : BitVec 171 → Nat → Option Bool

end Sys2Proof.Config
end

