-- ==== Sys2Proof/Machine/State.lean ====
section
/-! DEFINITION. The state of the block, its faults and its refusals. Plain data. Register fields are the map `regs`
(Machine/RegMap.lean names each field); what the spec gives the machine beside its registers has a field of its own. -/

namespace Sys2Proof.Machine

/-- A sparse map: key and value, keys rising, no entry equal to the default. -/
abbrev Sparse (α : Type) := List (Nat × α)

/-- What a master was answered on the bus (R9, R13, R185). -/
inductive BusAns where
  | none | ok (v : Nat) | busError (addr : Nat) | guard (addr : Nat) | uncorrectable (addr : Nat)
  deriving DecidableEq, Repr

/-- An outstanding reservation of the ledger (R80 to R82). `ticket` is present for a pre-reservation. -/
structure Resv where
  cls : Nat
  amount : Nat
  tag : Nat
  ticket : Option Nat
  bound : Bool
  left : Nat
  deriving DecidableEq, Repr

/-- A harvester channel's resistance reference and its count of drifted samples (R69). -/
structure Chan where
  ref : Option Nat
  drift : Nat
  deriving DecidableEq, Repr

/-- A SLEEP under way (R51, R57): its target as the syllable names it, whether it waits for a level transition before A0
(R48), whether the first answers are in, the agents whose HOLD has not become ACK, and whether the DRAM was active. -/
structure Entry where
  target : Nat
  wait : Bool
  answered : Bool
  hold : Nat
  dram : Bool
  deriving DecidableEq, Repr

/-- The power controller beside its registers (R35 to R65). -/
structure Pwr where
  lvlQueue : Option (Nat × Nat)
  durOn : Bool
  entry : Option Entry
  keepLat : Nat
  withheld : Bool
  raised : Bool
  pendReset : Option Nat
  deriving DecidableEq, Repr

/-- The ledger and harvester beside their registers (R66 to R88): the reservations, the values of HRV_CAP and HRV_FLOOR in
effect, the charge not yet counted in whole µAh, whether the start-up control boosts, and whether a tick has sampled the supply.
-/
structure Ledger where
  res : List Resv
  capEff : Nat
  floorEff : Nat
  chargeRem : Nat
  startUp : Bool
  ticked : Bool
  deriving DecidableEq, Repr

/-- One syllable of the bundle being gathered: class, opcode and fields. -/
structure BSyl where
  cls : Nat
  op : Nat
  x : Syl
  deriving DecidableEq, Repr

/-- A store in the store buffer: address, size in bytes, value, kind (0 plain, 1 bit-set alias, 2 bit-clear alias) and
principal tag (R162). -/
structure Store where
  addr : Nat
  size : Nat
  val : Nat
  kind : Nat
  tag : Nat
  deriving DecidableEq, Repr

/-- A repeat under way (R129 to R134): iterations still to run, the address its own faults name, and its kind: 0 REP or REPR, 1
resumed by RETE, 2 a REP or REPR whose predicate was 0, for which only the checks of R130 are made. -/
structure Rep where
  count : Nat
  epc : Nat
  kind : Nat
  deriving DecidableEq, Repr

/-- The DX core beside its CORE_ registers (R89 to R170): whether it has been released, the address of the bundle being
gathered, g0 to g31, acc0 to acc3, the syllables gathered, loads in flight (R98), the store buffer (R162), a repeat, whether the
next bundle to complete uses the shadow record (R100) and the long-instruction progress (R168), whether a pending entry was put
off at the last boundary (R99), the two requests of the non-maskable interrupt (R160), a machine check pending (R163) and
whether a drain that a change of STBUF calls for met its error (R165), the cycle counter (R102), the microstore and the
microwords that fail parity (R141), the low word staged and the high word latched (R145), while a custom instruction runs the
writes (level, number, value) that wait for its end (R145), and a drain that a change of STBUF calls for (R165). -/
structure Dx where
  running : Bool
  pc : Nat
  g : Vector Word 32
  acc : Vector (BitVec 40) 4
  bundle : List BSyl
  loads : List (Nat × Nat)
  stores : List Store
  rep : Option Rep
  armShadow : Bool
  armProg : Bool
  deferred : Bool
  nmiWd : Bool
  nmiTamper : Bool
  mcPend : Bool
  mcDrain : Bool
  cyc : Nat
  ustore : Sparse Nat
  uBad : List Nat
  usLo : Nat
  usHi : Nat
  usHeld : Option (List (Nat × Nat × Nat))
  drainDue : Bool
  deriving DecidableEq, Repr

/-- A line of the DRAM controller's check-line cache (R191): the block of 512 data bytes it guards, its 32 check bytes, and whether
the die does not hold them yet. -/
structure CkLine where
  line : Nat
  bytes : List Byte
  dirty : Bool
  deriving DecidableEq, Repr

/-- Protection and repair of SRAM and NV words and of the DRAM (R171 to R198): error masks over the 39 stored bits of a word
(key: word address), words whose corrected value waits to be written back, corrected errors per row (key: bank * 65536 + row),
bit positions corrected per bank and row, words uncorrectable when their row was copied, row moves due, regions being wiped
(banks 0 to 7, areas of bank 7 as 8 to 11), corrected bursts per DRAM row, rows remapped, the scrubber's burst, a session cut
that waits, the recorded soft repairs (rows of bank b at digit b, columns at digit 8 + b, base 16), and the check-line cache. -/
structure Mems where
  sramErr : Sparse Nat
  nvErr : Sparse Nat
  wb : List Nat
  rowCnt : Sparse Nat
  colHits : List (Nat × Nat × Nat)
  ueAtCopy : List Nat
  moveDue : List (Nat × Nat)
  wipeQ : List Nat
  dramRow : Sparse Nat
  remap : List Nat
  scrubPos : Nat
  cutWait : Bool
  soft : Nat
  ckl : List CkLine
  deriving DecidableEq, Repr

/-- A destination burst a mover channel gathers (R206): its address, the source address of its first element, and its bytes with
their offsets. -/
structure Gather where
  burst : Nat
  src : Nat
  bytes : List (Nat × Byte)
  deriving DecidableEq, Repr

/-- One mover channel beside its registers: the words of its descriptor, the destination bursts it gathers, the source burst it
has read, and the next element to read: source, destination and elements left (R200 to R209). The MOV_ registers stand at the first
element not written. -/
structure Mch where
  desc : List Nat
  gather : List Gather
  rbuf : Option (Nat × List Byte)
  src : Nat
  dst : Nat
  rem : Nat
  deriving DecidableEq, Repr

/-- The frame open at the processing point (R222 to R233): the port that feeds it, its lane mode, whether its header passed
(none before the header), CYC in force, LINK cycles since START, whether a slot header failed. -/
structure Frame where
  port : Nat
  replicated : Bool
  hdr : Option Bool
  cyc : Nat
  n : Nat
  slotErr : Bool
  deriving DecidableEq, Repr

/-- A frame open on a transmitter (R237, R243): the port whose receiver feeds it, its lane mode, whether its header has passed, and
whether it has been open beyond the limit of R243. -/
structure TxFrame where
  src : Nat
  replicated : Bool
  hdr : Bool
  past : Bool
  deriving DecidableEq, Repr

/-- A transmitter: the frame open on it, the cycle header it last sent with the places it sent as K30.7 (R212, R225), how many ENDs
D2.0 (R237, R243) and probes (R238) it has sent, and the last WAKE it forwarded (R244). -/
structure Tx where
  frame : Option TxFrame
  hdr : List Byte
  bad : List Nat
  ends : Nat
  probes : Nat
  wake : Option (Byte × Byte)
  deriving DecidableEq, Repr

/-- A slot as the processing point last sent it: payload, generation word, tail once answered (R229), and the payload bytes sent as
K30.7 (R212). -/
structure LinkOut where
  payload : List Word
  gen : Option Word
  tail : Option Word
  bad : List Nat
  deriving DecidableEq, Repr

/-- A port treated as DOWN for a striped frame (R218, R472): the port, the port that receives the frame, and whether the frame has
ended. -/
structure Narrow where
  port : Nat
  src : Nat
  ended : Bool
  deriving DecidableEq, Repr

/-- The link engine beside its registers: ports joined to the route, ports UP since the engine became UP (R219), ports treated
as DOWN, the processing point's join, the frame open there, the transmitters of U, D1 and D2, link time and whether it was set
since UP (R236, R294), the cycle-starts that wait for their times, whether MISSED was set in this gap, whether any frame started
since UP, the position in effect (R226), the causes of a leave between frames that waits: 1 idle, 2 a Basalt entry, 4 a floor
trip (R243), and the level of the listener's activity detector (R282). -/
structure Link where
  joined : List Nat
  everUp : List Nat
  narrow : List Narrow
  procJoined : Bool
  frame : Option Frame
  tx : List Tx
  time : Nat
  timeSet : Bool
  csAt : List Nat
  missed : Bool
  anyFrame : Bool
  posEff : Nat
  leave : Nat
  heard : Bool
  out : LinkOut
  deriving DecidableEq, Repr

/-- A command place (R265, R274): the packet's bytes, its principal, its nonce and command key when it passed check 6, whether
its reply has been queued, whether the packet has been passed to firmware, bits 15:0 of CYCNO at its completion (R276), and
whether its operation runs in an engine. -/
structure Place where
  pkt : List Byte
  prin : Nat
  nonce : Option (Nat × List Byte)
  replied : Bool
  sent : Bool
  cycno : Nat
  waiting : Bool
  deriving DecidableEq, Repr

/-- The table server and the command interpreter beside their registers (R249 to R280). `upFrag` is the up fragment last sent,
`upDone` once it is acknowledged; `fresh` the places taken in the open frame, each with whether its command came whole in one
fragment with AUTH=0 and the LINK cycle of the frame in which that fragment's last byte entered (R271). -/
structure Cmds where
  capture : List (Nat × Word)
  landing : List (Nat × Word)
  waitFlip : Nat
  partialPkt : Option (List Byte)
  lastSeq : Option Nat
  useq : Nat
  upFrag : Option (Bool × List Byte)
  upDone : Bool
  upPlace : Option Nat
  rest : List Byte
  replies : List (Nat × List Byte)
  aborted : Bool
  places : List (Option Place)
  fresh : List (Nat × Bool × Nat)
  resetDev : List (Nat × Nat × Nat)
  serving : Bool
  mgmtUp : Bool
  deriving DecidableEq, Repr

/-- One operation of the NV or record engine (R304 to R320). `kind`: 0 page command, 1 record write, 2 tally add, 3 tally read,
4 record read; `fw` when firmware started it, else the place whose reply it owes; `idx` the record or tally; `pay` what a record
write is to store and `amt` what a tally add is to add, until `begun`; `words` the writes still to make, `done` those made;
`page` the page of the class 3 run it holds; `val` the copy and sequence number, or the value, it will report; `rep` when its
first words are a repair, `repaired` once one of them is written (R319); `src` 0 for a request, 1 for the management
controller's own add, 2 for an add whose starter a reset has forgotten. -/
structure NvOp where
  kind : Nat
  fw : Bool
  tag : Nat
  place : Option Nat
  idx : Nat
  pay : List Byte
  amt : Nat
  begun : Bool
  words : List (Nat × Nat)
  done : Nat
  page : Option Nat
  trunc : Bool
  susp : Bool
  copy : Nat
  val : Nat
  bad : Bool
  rep : Bool
  repaired : Bool
  src : Nat
  deriving DecidableEq, Repr

/-- The non-volatile store beside its cells and registers: the operations under way in order of arrival, the spare-page tags
(spare, page; the newest first), the page being moved, the visits that refreshed a page with their times (R308), the moves due,
the page the scrubber visited last (R307), the management controller's own tally adds still to be requested (R76, R413), and the
block in the read buffer (R300). -/
structure Nvs where
  ops : List NvOp
  tags : List (Nat × Nat)
  moving : Option Nat
  refresh : List (Nat × Nat)
  moveDue : List Nat
  sweep : Nat
  own : List (Nat × Nat)
  rblk : Option Nat
  yielded : Bool
  deriving DecidableEq, Repr

/-- The calendar's time fields (R325). -/
structure Time where
  sub : Nat
  sec : Nat
  min : Nat
  hour : Nat
  wday : Nat
  day : Nat
  month : Nat
  year : Nat
  deriving DecidableEq, Repr

/-- The clock beside its registers. `staged` holds the staged time and the place of an RTC_SET (none for firmware); `lf` is the
management controller's own count of 1/256 s (R308); `lfOld` lists the writes of the alarms and of the period since the last edge,
newest first: the register's address with its word before the write, of the period with the count before it (R336, R337). -/
structure Clock where
  t : Time
  acc : Int
  calInt : Int
  calNew : Bool
  period : Nat
  staged : Option (Time × Option Nat)
  perCnt : Nat
  perDue : Bool
  lf : Nat
  lfOld : List (Nat × Nat)
  deriving DecidableEq, Repr

/-- A label update (R356 to R367), running or waiting. `ptr` rows are initialised, `crc` is the checksum's register, `young` its
place in the order of admission; `staged` the bytes staged for it, `place` a command that still owes its reply. -/
structure Upd where
  id : Nat
  region : Nat
  x : Nat
  y : Nat
  w : Nat
  h : Nat
  src : Nat
  exp : Nat
  queue : Bool
  force : Bool
  chk : Bool
  evwait : Bool
  staged : Nat
  place : Option Nat
  set : Nat
  tag : Nat
  running : Bool
  band : Nat
  ptr : Nat
  crc : Nat
  young : Nat
  bad : List Nat
  floored : Bool
  drift : Bool
  deriving DecidableEq, Repr

/-- What the segment driver drives in one common period of a frame (R342 to R344): the half-frame, 0 or 1, the two of opposite
polarity; the common; bit s for each segment s that is on; and its LF cycles. -/
structure LcdSlot where
  half : Nat
  common : Nat
  segs : Nat
  cycles : Nat
  deriving DecidableEq, Repr

/-- How the panel port scans a row, in PIX cycles (R350): its cycles, the source bytes it clocks out from cycle 0, the cycle
that latches them, how long the gate output enable is held from then, and the cycles of the frame. -/
structure EpdScan where
  line : Nat
  clocks : Nat
  latch : Nat
  gate : Nat
  frame : Nat
  deriving DecidableEq, Repr

/-- The displays beside their registers (R340 to R368): the segment driver's frame copy and expected checksum, whether a frame
has started since the pending commit landed (R345), the frame it drives with its bias, 0 for 1/3 and 1 for 1/4, none while it
drives nothing; the label's updates in order of acceptance, the newest update accepted for each region n (key n) and from each
request set s (key 16 + s), its number plus 1 (R366), VCOM in force in 0.1 mV, the temperature in use, whether the rails are
good, whether the run has ended, bursts of the state array found uncorrectable in this run, the rows sent in the last frame with
their source bytes, regions still to be locked, the locked regions recorded in the vendor region (region, corners, owner),
whether the run's closing frame has been sent (R351), the frame in progress (its next row, its late rows), how the port scans,
none while its outputs are low, and whether the pump of the segment driver runs (R348). -/
structure Disp where
  segCopy : List Byte
  segExp : Nat
  segSeen : Bool
  lcd : Option (Nat × List LcdSlot)
  upd : List Upd
  nextId : Nat
  newest : Sparse Nat
  vcom : Int
  temp : Int
  hvpg : Bool
  quiet : Bool
  dead : List Nat
  sent : List (Nat × List Byte)
  lockDue : Nat
  locks : List (Nat × Nat × Nat × Nat)
  blank : Bool
  part : Option (Nat × List Nat)
  scan : Option EpdScan
  pump : Bool
  deriving DecidableEq, Repr

/-- One touch channel beside its registers (R372 to R380): its last result (0 none, 1 finger, 2 water) and how many pairs in a
row gave it, pairs in IDLE, LF ms in TOUCHED or STUCK, the self count of the pair before, the window of an UNARMED channel (its
first count and ms), the state left for DROPPED, and for the wake scan how many samples in a row reached the threshold (0, 1, or
2 for two and more), the baseline and the samples since it moved. -/
structure Tch where
  last : Nat
  run : Nat
  cnt : Nat
  ms : Nat
  prev : Option Nat
  win : Nat × Nat
  saved : Nat
  hit : Nat
  wbase : Nat
  wcnt : Nat
  deriving DecidableEq, Repr

/-- The touch sequencer: its channels, whether a pair runs, whether it is the pair of a start (R377), an event of consumer 17
that waits, the nodes that have a baseline, whether full pairs are stopped by Basalt (R380), what the pair in progress took at its
start: SELF and MUT and SEC of TCH_MAXON; TCH_DROP as the last pass boundary took it, whether the pair's mutual pass runs, and what
its self pass took of TCH_DROP (R371, R379, R381). -/
structure Touch where
  ch : List Tch
  pair : Bool
  starting : Bool
  queued : Bool
  nbase : Nat
  halted : Bool
  thr : Nat × Nat
  sec : Nat
  drop : Nat
  mutPass : Bool
  selfDrop : Nat
  deriving DecidableEq, Repr

/-- A session or an open challenge (R395 to R397). -/
structure Sess where
  prin : Nat
  key : List Byte
  nh : List Byte
  cd : List Byte
  nonce : Nat
  deriving DecidableEq, Repr

/-- A life-cycle transition under way (R386, R388): the state left, the state entered, frame starts until step 2, and the
place of the reply. -/
structure Trans where
  old : Nat
  new : Nat
  frames : Nat
  place : Nat
  deriving DecidableEq, Repr

/-- Secrecy and life-cycle: fuses, key slots, sessions (R385 to R415). `claim` is the fresh salt of an open claim, `dbgChal` the
principal and challenge of an open debug proof, `svcTag` the tag of the write that submitted each service slot (R406), `lcDone`
whether the wipes of a transition completed in this start-up sequence (R423). -/
structure Secr where
  fuses : Nat
  secret : List Byte
  anchor : Option (List Byte)
  devid : Nat
  testRows : Nat
  testCols : Nat
  slots : List (Option (List Byte))
  sess : Option Sess
  chal : Option Sess
  claim : Option (List Byte)
  dbgPrin : Nat
  dbgChal : Option (Nat × List Byte)
  dbgProved : Bool
  dbgResult : Nat
  tampin : Bool
  trans : Option Trans
  lcDone : Bool
  svcTag : List Nat
  deriving DecidableEq, Repr

/-- The JTAG port (R463): the instruction, the boundary-scan cells, the levels the last boundary scan captured and shifts out,
the bypass bit, and what the last scan of a data register of 40 bits or fewer shifted out. -/
structure Jtag where
  ir : BitVec 5
  bsr : BitVec 171
  pins : BitVec 171
  byp : Bool
  tdo : BitVec 40
  deriving DecidableEq, Repr

/-- A serial block's FIFOs and transfer (R465 to R468): bytes still to go (UART: 1 while a character is being sent), DIR (I2C: 1
for a read; UART: 1 while a character is being received), NOSTOP and the address. Received entries carry PERR and FERR at bits 8
and 9. -/
structure Port where
  tx : List Byte
  rx : List Nat
  len : Nat
  dir : Nat
  nostop : Bool
  addr : Nat
  deriving DecidableEq, Repr

/-- The state of the block. -/
structure State where
  /-- Commands waiting, first in, first out. -/
  pending : List Instr
  /-- The counter free values are drawn with (the model's own; log entry 2). -/
  free : Nat
  /-- Register fields that differ from their reset values. -/
  regs : Sparse Nat
  /-- Memory cells that differ from zero. -/
  mem : List Host.Cell
  /-- The last bus answer. -/
  bus : BusAns
  por : Bool
  resetnLow : Bool
  /-- A reset sequence that waits: for a wake under R471, else for the hold capacitor with the wipe-pending mark (R301, R389);
  its cause, and DATA of its log entry. -/
  boot : Option (Nat × Nat)
  pwr : Pwr
  led : Ledger
  chan : List Chan
  dx : Dx
  ms : Mems
  mov : List Mch
  movRr : Nat
  lnk : Link
  cmd : Cmds
  /-- Events held for consumers 0 to 21 (bit k) and for the wake consumer (bit 22). -/
  evHeld : Nat
  /-- Key 8 to 11: link time noted for capture units at the event's yield (value + 1, 0 when no link time; R294). Key 0 to 3:
  bits 63:32 of a capture unit's record (R295). -/
  evCap : Sparse Nat
  /-- Pulses driven on EVO0 to EVO3, each counted (R283, R286). -/
  evo : List Nat
  /-- Configuration writes of the event fabric whose windows may be open, newest first (R288, R296): 0, a channel and its
  producer mask before the write; 1, a consumer and the channel it selected; 2, a channel whose mode changed, and 0. With them 3,
  an asynchronous channel on which a pulse may still stand, and 0 (R286). -/
  evWin : List (Nat × Nat × Nat)
  nvs : Nvs
  clk : Clock
  disp : Disp
  tch : Touch
  sec : Secr
  jtag : Jtag
  ports : List Port
  /-- The I/O groups VIO0 to VIO3 that stand at 1.2 V or more (R444). -/
  vio : Nat
  deriving DecidableEq, Repr

/-- Why the block stops. -/
inductive Fault where
  /-- Raised by the commands that bring a physical quantity (HARVEST_SAMPLE, LEDGER_TICK, CAP_MEASURE_START, CAP_MEASURE_DONE,
  SUBSECOND_EDGE, EPD_ADMISSION) when it lies outside the ratings of R447 and R448, and by LEDGER_TICK when an I/O group falls
  while a block of it works (R444): the spec calls the behaviour there not defined (R4). Safe: the model stops where the part
  may go on. -/
  | outsideOperatingConditions
  deriving DecidableEq, Repr

/-- What the block gives no meaning to. -/
inductive Refusal where
  /-- Raised only by an arm of exec that has no meaning yet. Safe. -/
  | notModelled (mnemonic : String)
  deriving DecidableEq, Repr

namespace State

/-- The machine as power-on reset leaves it while it is still asserted (R12, R418): every register field at its Reset
column, SRAM, NV store and DRAM reading zero, no core running, the link engine OFF (R241). -/
def reset : State where
  pending := []
  free := 0
  regs := []
  mem := []
  bus := .none
  por := true
  resetnLow := false
  boot := none
  pwr := ⟨none, false, none, 0, false, false, none⟩
  led := ⟨[], 470, 2000, 0, false, false⟩
  chan := List.replicate 4 ⟨none, 0⟩
  dx := { running := false, pc := 0x10000000, g := Vector.replicate 32 0, acc := Vector.replicate 4 0, bundle := [],
          loads := [], stores := [], rep := none, armShadow := false, armProg := false, deferred := false, mcDrain := false,
          nmiWd := false, nmiTamper := false, mcPend := false, cyc := 0, ustore := [], uBad := [], usLo := 0, usHi := 0, usHeld := none
          drainDue := false }
  ms := ⟨[], [], [], [], [], [], [], [], [], [], 0, false, 0, []⟩
  mov := List.replicate 4 ⟨[], [], none, 0, 0, 0⟩
  movRr := 3
  lnk := { joined := [], everUp := [], narrow := [], procJoined := false, frame := none
           tx := List.replicate 3 ⟨none, [], [], 0, 0, none⟩, time := 0, timeSet := false, csAt := [], missed := false
           anyFrame := false, posEff := 0xFFF, leave := 0, heard := false, out := ⟨[], none, none, []⟩ }
  cmd := { capture := [], landing := [], waitFlip := 0, partialPkt := none, lastSeq := none, useq := 0,
           upFrag := none, upDone := false, upPlace := none, rest := [], replies := [], aborted := false
           places := List.replicate 4 none, fresh := [], resetDev := [], serving := false, mgmtUp := false }
  evHeld := 0
  evCap := []
  evo := List.replicate 4 0
  evWin := []
  nvs := ⟨[], [], none, [], [], 0, [], none, false⟩
  clk := ⟨⟨0, 0, 0, 0, 0, 1, 1, 0⟩, 0, 0, false, 128, none, 0, false, 0, []⟩
  disp := ⟨List.replicate 64 0, 0, false, none, [], 0, [], 0, 0, false, false, [], [], 0, [], false, none, none, false⟩
  tch := ⟨List.replicate 16 ⟨0, 0, 0, 0, none, (0, 0), 0, 0, 0, 0⟩, false, false, false, 0, false, (0, 0), 0, 0, false, 0⟩
  sec := { fuses := 0, secret := List.replicate 32 0, anchor := none, devid := 0, testRows := 0, testCols := 0,
           slots := List.replicate 4 none, sess := none, chal := none, claim := none, dbgPrin := 0, dbgChal := none,
           dbgProved := false, dbgResult := 0, tampin := false, trans := none, lcDone := false,
           svcTag := List.replicate 8 0 }
  jtag := ⟨1, 0, 0, false, 0⟩
  ports := List.replicate 4 ⟨[], [], 0, 0, false, 0⟩
  vio := 15

end State
end Sys2Proof.Machine
end

