-- ==== Sys2Proof/Machine/RegMap.lean ====
section
/-! DEFINITION. The register fields of R8 to R10: for each field of each register map its address, place, width, access
code and Reset value, under the manual's own name. -/

namespace Sys2Proof.Machine

/-- The access codes of R10. -/
inductive Acc where
  | rw | ro | wo | w1c | w1s | rc | rwl
  deriving DecidableEq, Repr

/-- A register field: byte address of its register, lowest bit, width, access code, Reset value. -/
structure Fld where
  addr : Nat
  lo : Nat
  w : Nat
  acc : Acc
  rst : Nat
  deriving DecidableEq, Repr

/-- The field's key in State.regs. -/
def Fld.key (f : Fld) : Nat := f.addr * 32 + f.lo

/-- PWR_CFG.LISTEN (R64). -/
def PWR_CFG_LISTEN : Fld := ⟨0x40000000, 0, 1, .rw, 0⟩

/-- PWR_CFG.LINKSTOP (R64). -/
def PWR_CFG_LINKSTOP : Fld := ⟨0x40000000, 1, 1, .rw, 0⟩

/-- PWR_CFG.WAKECH (R64). -/
def PWR_CFG_WAKECH : Fld := ⟨0x40000000, 4, 5, .rw, 0⟩

/-- PWR_LVLREQ.LEVEL (R64). -/
def PWR_LVLREQ_LEVEL : Fld := ⟨0x40000004, 0, 3, .rw, 0⟩

/-- PWR_LVLREQ.DURATION (R64). -/
def PWR_LVLREQ_DURATION : Fld := ⟨0x40000004, 8, 16, .rw, 0⟩

/-- PWR_LVLCFG.BASE (R64). -/
def PWR_LVLCFG_BASE : Fld := ⟨0x40000008, 0, 2, .rw, 0⟩

/-- PWR_LVLSTAT.CUR (R64). -/
def PWR_LVLSTAT_CUR : Fld := ⟨0x4000000C, 0, 3, .ro, 0⟩

/-- PWR_LVLSTAT.TARGET (R64). -/
def PWR_LVLSTAT_TARGET : Fld := ⟨0x4000000C, 4, 3, .ro, 0⟩

/-- PWR_LVLSTAT.BUSY (R64). -/
def PWR_LVLSTAT_BUSY : Fld := ⟨0x4000000C, 8, 1, .ro, 0⟩

/-- PWR_LVLSTAT.QUEUED (R64). -/
def PWR_LVLSTAT_QUEUED : Fld := ⟨0x4000000C, 9, 1, .ro, 0⟩

/-- PWR_LVLSTAT.RESULT (R64). -/
def PWR_LVLSTAT_RESULT : Fld := ⟨0x4000000C, 16, 8, .ro, 0⟩

/-- PWR_LVLSTAT.DROPPED (R64). -/
def PWR_LVLSTAT_DROPPED : Fld := ⟨0x4000000C, 24, 1, .w1c, 0⟩

/-- PWR_LVLSTAT.EXPIRED (R64). -/
def PWR_LVLSTAT_EXPIRED : Fld := ⟨0x4000000C, 25, 1, .w1c, 0⟩

/-- PWR_STAT.ABORTED (R64). -/
def PWR_STAT_ABORTED : Fld := ⟨0x40000010, 0, 1, .ro, 0⟩

/-- PWR_STAT.REFUSED (R64). -/
def PWR_STAT_REFUSED : Fld := ⟨0x40000010, 1, 1, .ro, 0⟩

/-- PWR_STAT.FORCED (R64). -/
def PWR_STAT_FORCED : Fld := ⟨0x40000010, 2, 1, .ro, 0⟩

/-- PWR_STAT.ABTPT (R64). -/
def PWR_STAT_ABTPT : Fld := ⟨0x40000010, 4, 3, .ro, 0⟩

/-- PWR_STAT.REACHED (R64). -/
def PWR_STAT_REACHED : Fld := ⟨0x40000010, 8, 3, .ro, 0⟩

/-- PWR_STAT.REFUSERS (R64). -/
def PWR_STAT_REFUSERS : Fld := ⟨0x40000010, 12, 10, .ro, 0⟩

/-- PWR_NAKRSN0.AG (R64). -/
def PWR_NAKRSN0_AG (k : Nat) : Fld := ⟨0x40000014, 4 * k, 4, .ro, 0⟩

/-- PWR_NAKRSN1.AG8 (R64). -/
def PWR_NAKRSN1_AG8 : Fld := ⟨0x40000018, 0, 4, .ro, 0⟩

/-- PWR_NAKRSN1.AG9 (R64). -/
def PWR_NAKRSN1_AG9 : Fld := ⟨0x40000018, 4, 4, .ro, 0⟩

/-- PWR_KEEPSEG.KEEP (R64). -/
def PWR_KEEPSEG_KEEP : Fld := ⟨0x4000001C, 0, 16, .rw, 0⟩

/-- PWR_WAKEEN.EN0 (R64). -/
def PWR_WAKEEN_EN0 : Fld := ⟨0x40000020, 0, 8, .rw, 5⟩

/-- PWR_WAKEEN.TAMPER (R64). -/
def PWR_WAKEEN_TAMPER : Fld := ⟨0x40000020, 8, 1, .ro, 1⟩

/-- PWR_WAKEEN.EN9 (R64). -/
def PWR_WAKEEN_EN9 : Fld := ⟨0x40000020, 9, 3, .rw, 6⟩

/-- PWR_WAKESRC.SRC (R64). -/
def PWR_WAKESRC_SRC : Fld := ⟨0x40000024, 0, 12, .w1c, 0⟩

/-- PWR_DOMSTAT.SYS (R64). -/
def PWR_DOMSTAT_SYS : Fld := ⟨0x40000028, 0, 2, .ro, 3⟩

/-- PWR_DOMSTAT.MEM (R64). -/
def PWR_DOMSTAT_MEM : Fld := ⟨0x40000028, 2, 2, .ro, 0⟩

/-- PWR_DOMSTAT.LINK (R64). -/
def PWR_DOMSTAT_LINK : Fld := ⟨0x40000028, 4, 2, .ro, 0⟩

/-- PWR_DOMSTAT.PIX (R64). -/
def PWR_DOMSTAT_PIX : Fld := ⟨0x40000028, 6, 1, .ro, 0⟩

/-- PWR_DOMSTAT.STATE (R64). -/
def PWR_DOMSTAT_STATE : Fld := ⟨0x40000028, 8, 3, .ro, 0⟩

/-- PWR_SEGLOST.LOST (R64). -/
def PWR_SEGLOST_LOST : Fld := ⟨0x4000002C, 0, 16, .w1c, 0⟩

/-- PWR_EVT.LVLDONE (R65). -/
def PWR_EVT_LVLDONE : Fld := ⟨0x40000030, 0, 1, .w1c, 0⟩

/-- PWR_EVT.DROPPED (R65). -/
def PWR_EVT_DROPPED : Fld := ⟨0x40000030, 1, 1, .w1c, 0⟩

/-- PWR_EVT.EXPIRED (R65). -/
def PWR_EVT_EXPIRED : Fld := ⟨0x40000030, 2, 1, .w1c, 0⟩

/-- PWR_EVT.EXTLVL (R65). -/
def PWR_EVT_EXTLVL : Fld := ⟨0x40000030, 3, 1, .w1c, 0⟩

/-- PWR_EVT.SEGLOST (R65). -/
def PWR_EVT_SEGLOST : Fld := ⟨0x40000030, 4, 1, .w1c, 0⟩

/-- PWR_EVT.FORCEDWAKE (R65). -/
def PWR_EVT_FORCEDWAKE : Fld := ⟨0x40000030, 5, 1, .w1c, 0⟩

/-- PWR_INTEN.EN (R65). -/
def PWR_INTEN_EN : Fld := ⟨0x40000034, 0, 6, .rw, 0⟩

/-- HRV_CFG.PERIOD (R88). -/
def HRV_CFG_PERIOD : Fld := ⟨0x40001000, 0, 3, .rw, 2⟩

/-- HRV_CFG.EN (R88). -/
def HRV_CFG_EN : Fld := ⟨0x40001000, 4, 4, .rw, 15⟩

/-- HRV_CHCFG.FRAC (R88). -/
def HRV_CHCFG_FRAC (k : Nat) : Fld := ⟨0x40001004, 8 * k, 4, .rw, 8⟩

/-- HRV_POLICY.LINKSPEND (R88). -/
def HRV_POLICY_LINKSPEND : Fld := ⟨0x40001008, 0, 1, .rw, 0⟩

/-- HRV_POLICY.BINDTO (R88). -/
def HRV_POLICY_BINDTO : Fld := ⟨0x40001008, 4, 4, .rw, 0⟩

/-- HRV_POLICY.PRIMADMIT (R88). -/
def HRV_POLICY_PRIMADMIT : Fld := ⟨0x40001008, 8, 5, .rw, 16⟩

/-- HRV_CHSTAT.STATE (R88). -/
def HRV_CHSTAT_STATE (n : Nat) : Fld := ⟨0x40001010 + 4 * n, 0, 3, .ro, 1⟩

/-- HRV_CHSTAT.VOP (R88). -/
def HRV_CHSTAT_VOP (n : Nat) : Fld := ⟨0x40001010 + 4 * n, 4, 9, .ro, 0⟩

/-- HRV_CHSTAT.PIN (R88). -/
def HRV_CHSTAT_PIN (n : Nat) : Fld := ⟨0x40001010 + 4 * n, 16, 14, .ro, 0⟩

/-- HRV_SUPPLY.VSTO (R88). -/
def HRV_SUPPLY_VSTO : Fld := ⟨0x40001020, 0, 12, .ro, 0⟩

/-- HRV_SUPPLY.VBAT (R88). -/
def HRV_SUPPLY_VBAT : Fld := ⟨0x40001020, 16, 12, .ro, 0⟩

/-- HRV_STAT.SRC (R88). -/
def HRV_STAT_SRC : Fld := ⟨0x40001024, 0, 1, .ro, 0⟩

/-- HRV_STAT.SHUNT (R88). -/
def HRV_STAT_SHUNT : Fld := ⟨0x40001024, 1, 1, .ro, 0⟩

/-- HRV_STAT.FLOOR (R88). -/
def HRV_STAT_FLOOR : Fld := ⟨0x40001024, 2, 1, .ro, 0⟩

/-- HRV_STAT.PRIMOK (R88). -/
def HRV_STAT_PRIMOK : Fld := ⟨0x40001024, 3, 1, .ro, 0⟩

/-- HRV_STAT.CAPBUSY (R88). -/
def HRV_STAT_CAPBUSY : Fld := ⟨0x40001024, 4, 1, .ro, 0⟩

/-- HRV_EVT.FLOORTRIP (R88). -/
def HRV_EVT_FLOORTRIP : Fld := ⟨0x40001028, 0, 1, .w1c, 0⟩

/-- HRV_EVT.TOPRIM (R88). -/
def HRV_EVT_TOPRIM : Fld := ⟨0x40001028, 1, 1, .w1c, 0⟩

/-- HRV_EVT.TOSTORE (R88). -/
def HRV_EVT_TOSTORE : Fld := ⟨0x40001028, 2, 1, .w1c, 0⟩

/-- HRV_EVT.SHUNTON (R88). -/
def HRV_EVT_SHUNTON : Fld := ⟨0x40001028, 3, 1, .w1c, 0⟩

/-- HRV_EVT.CHDROP (R88). -/
def HRV_EVT_CHDROP : Fld := ⟨0x40001028, 4, 1, .w1c, 0⟩

/-- HRV_EVT.BROWN (R88). -/
def HRV_EVT_BROWN : Fld := ⟨0x40001028, 5, 1, .w1c, 0⟩

/-- HRV_EVT.CAPDONE (R88). -/
def HRV_EVT_CAPDONE : Fld := ⟨0x40001028, 6, 1, .w1c, 0⟩

/-- HRV_EVT.WAKEUP (R88). -/
def HRV_EVT_WAKEUP : Fld := ⟨0x40001028, 7, 1, .w1c, 0⟩

/-- HRV_EVT.WAKEDN (R88). -/
def HRV_EVT_WAKEDN : Fld := ⟨0x40001028, 8, 1, .w1c, 0⟩

/-- HRV_CAP.CAP (R88). -/
def HRV_CAP_CAP : Fld := ⟨0x40001030, 0, 16, .rw, 470⟩

/-- HRV_FLOOR.FLOOR (R88). -/
def HRV_FLOOR_FLOOR : Fld := ⟨0x40001034, 0, 12, .rw, 2000⟩

/-- HRV_CAPMEAS.START (R88). -/
def HRV_CAPMEAS_START : Fld := ⟨0x40001038, 0, 1, .wo, 0⟩

/-- HRV_CAPMEAS.TSEL (R88). -/
def HRV_CAPMEAS_TSEL : Fld := ⟨0x40001038, 1, 3, .rw, 1⟩

/-- HRV_CAPMEAS.RESULT (R88). -/
def HRV_CAPMEAS_RESULT : Fld := ⟨0x40001038, 4, 2, .ro, 0⟩

/-- HRV_EAVAIL.EAVAIL (R88). -/
def HRV_EAVAIL_EAVAIL : Fld := ⟨0x40001040, 0, 32, .ro, 0⟩

/-- HRV_ERESV.ERESV (R88). -/
def HRV_ERESV_ERESV : Fld := ⟨0x40001044, 0, 24, .ro, 0⟩

/-- HRV_ELEVEL.LEVEL (R88). -/
def HRV_ELEVEL_LEVEL : Fld := ⟨0x40001048, 0, 3, .ro, 0⟩

/-- HRV_RESREQ.AMOUNT (R88). -/
def HRV_RESREQ_AMOUNT : Fld := ⟨0x40001050, 0, 20, .rw, 0⟩

/-- HRV_RESREQ.CLASS (R88). -/
def HRV_RESREQ_CLASS : Fld := ⟨0x40001050, 20, 3, .rw, 0⟩

/-- HRV_RESSTAT.RESULT (R88). -/
def HRV_RESSTAT_RESULT : Fld := ⟨0x40001054, 0, 8, .ro, 0⟩

/-- HRV_RESSTAT.TICKET (R88). -/
def HRV_RESSTAT_TICKET : Fld := ⟨0x40001054, 8, 3, .ro, 0⟩

/-- HRV_RESSTAT.PEND (R88). -/
def HRV_RESSTAT_PEND : Fld := ⟨0x40001054, 12, 1, .ro, 0⟩

/-- HRV_RESREL.TICKET (R88). -/
def HRV_RESREL_TICKET : Fld := ⟨0x40001058, 0, 3, .wo, 0⟩

/-- HRV_CLSAMT.AMOUNT (R88). -/
def HRV_CLSAMT_AMOUNT (n : Nat) : Fld := ⟨0x40001060 + 4 * n, 0, 20, .rw, [80000, 20000, 0, 50, 200].getD n 0⟩

/-- HRV_LVLCOST.P3 (R88). -/
def HRV_LVLCOST_P3 : Fld := ⟨0x40001080, 0, 8, .rw, 30⟩

/-- HRV_LVLCOST.P4 (R88). -/
def HRV_LVLCOST_P4 : Fld := ⟨0x40001080, 8, 8, .rw, 40⟩

/-- HRV_LVLCOST.P5 (R88). -/
def HRV_LVLCOST_P5 : Fld := ⟨0x40001080, 16, 8, .rw, 55⟩

/-- HRV_WAKETH.VUP (R88). -/
def HRV_WAKETH_VUP : Fld := ⟨0x40001084, 0, 12, .rw, 0⟩

/-- HRV_WAKETH.VDN (R88). -/
def HRV_WAKETH_VDN : Fld := ⟨0x40001084, 16, 12, .rw, 0⟩

/-- CORE_LSHAD.VALID (R100). -/
def CORE_LSHAD_VALID : Fld := ⟨0x40002018, 0, 1, .rw, 0⟩

/-- CORE_LSHAD.REG (R100). -/
def CORE_LSHAD_REG : Fld := ⟨0x40002018, 1, 5, .rw, 0⟩

/-- CORE_LSHADV.VALUE (R100). -/
def CORE_LSHADV_VALUE : Fld := ⟨0x4000201C, 0, 32, .rw, 0⟩

/-- CORE_ID.PART (R101). -/
def CORE_ID_PART : Fld := ⟨0x40002000, 0, 16, .ro, 38464⟩

/-- CORE_ID.STEP (R101). -/
def CORE_ID_STEP : Fld := ⟨0x40002000, 16, 8, .ro, 1⟩

/-- CORE_ID.ISA (R101). -/
def CORE_ID_ISA : Fld := ⟨0x40002000, 24, 8, .ro, 1⟩

/-- CORE_PRED.P0 (R101). -/
def CORE_PRED_P0 : Fld := ⟨0x40002004, 0, 1, .ro, 1⟩

/-- CORE_PRED.P1_P7 (R101). -/
def CORE_PRED_P1_P7 : Fld := ⟨0x40002004, 1, 7, .rw, 0⟩

/-- CORE_CYCLO.COUNT (R101). -/
def CORE_CYCLO_COUNT : Fld := ⟨0x40002008, 0, 32, .ro, 0⟩

/-- CORE_CYCHI.COUNT (R101). -/
def CORE_CYCHI_COUNT : Fld := ⟨0x4000200C, 0, 32, .ro, 0⟩

/-- CORE_RSCFG.OVF (R106). -/
def CORE_RSCFG_OVF : Fld := ⟨0x40002010, 0, 1, .rw, 0⟩

/-- CORE_RSP.TOP (R106). -/
def CORE_RSP_TOP : Fld := ⟨0x40002014, 0, 4, .rw, 0⟩

/-- CORE_RSP.DEPTH (R106). -/
def CORE_RSP_DEPTH : Fld := ⟨0x40002014, 4, 5, .rw, 0⟩

/-- CORE_RSW.ADDR (R106). -/
def CORE_RSW_ADDR (n : Nat) : Fld := ⟨0x40002040 + 4 * n, 2, 30, .rw, 0⟩

/-- CORE_DSPCFG.GUARD (R125). -/
def CORE_DSPCFG_GUARD : Fld := ⟨0x40002200, 0, 1, .rw, 0⟩

/-- CORE_DSPSTAT.SATF (R125). -/
def CORE_DSPSTAT_SATF : Fld := ⟨0x40002204, 0, 1, .w1c, 0⟩

/-- CORE_DSPSTAT.OVF40 (R125). -/
def CORE_DSPSTAT_OVF40 : Fld := ⟨0x40002204, 1, 1, .w1c, 0⟩

/-- CORE_CBASE.BASE (R128). -/
def CORE_CBASE_BASE (n : Nat) : Fld := ⟨0x40002220 + 4 * n, 0, 32, .rw, 0⟩

/-- CORE_CLEN.LEN (R128). -/
def CORE_CLEN_LEN (n : Nat) : Fld := ⟨0x40002230 + 4 * n, 0, 20, .rw, 0⟩

/-- CORE_REPST.VALID (R134). -/
def CORE_REPST_VALID : Fld := ⟨0x40002208, 0, 1, .rw, 0⟩

/-- CORE_REPST.REMAIN (R134). -/
def CORE_REPST_REMAIN : Fld := ⟨0x40002208, 1, 11, .rw, 0⟩

/-- CORE_UCFG.LOCK (R146). -/
def CORE_UCFG_LOCK : Fld := ⟨0x40002240, 0, 1, .w1s, 0⟩

/-- CORE_UCFG.MAXW (R146). -/
def CORE_UCFG_MAXW : Fld := ⟨0x40002240, 1, 2, .rw, 1⟩

/-- CORE_UCFG.GEN (R146). -/
def CORE_UCFG_GEN : Fld := ⟨0x40002240, 8, 8, .ro, 0⟩

/-- CORE_UFSTAT.CAUSE (R146). -/
def CORE_UFSTAT_CAUSE : Fld := ⟨0x40002244, 0, 4, .ro, 0⟩

/-- CORE_UFSTAT.UPC (R146). -/
def CORE_UFSTAT_UPC : Fld := ⟨0x40002244, 4, 9, .ro, 0⟩

/-- CORE_UFSTAT.ENTRY (R146). -/
def CORE_UFSTAT_ENTRY : Fld := ⟨0x40002244, 16, 4, .ro, 0⟩

/-- CORE_USADDR.ADDR (R146). -/
def CORE_USADDR_ADDR : Fld := ⟨0x40002248, 0, 9, .rw, 0⟩

/-- CORE_USDLO.LO (R146). -/
def CORE_USDLO_LO : Fld := ⟨0x4000224C, 0, 32, .rwl, 0⟩

/-- CORE_USDHI.HI (R146). -/
def CORE_USDHI_HI : Fld := ⟨0x40002250, 0, 32, .rwl, 0⟩

/-- CORE_USUSP.SGEN (R146). -/
def CORE_USUSP_SGEN : Fld := ⟨0x40002254, 0, 8, .rw, 0⟩

/-- CORE_UT.VALUE (R146). -/
def CORE_UT_VALUE (n : Nat) : Fld := ⟨0x40002260 + 4 * n, 0, 32, .rw, 0⟩

/-- CORE_DTE.VALID (R146). -/
def CORE_DTE_VALID (n : Nat) : Fld := ⟨0x40002280 + 4 * n, 0, 1, .rwl, 0⟩

/-- CORE_DTE.INTR (R146). -/
def CORE_DTE_INTR (n : Nat) : Fld := ⟨0x40002280 + 4 * n, 1, 1, .rwl, 0⟩

/-- CORE_DTE.PRIV (R146). -/
def CORE_DTE_PRIV (n : Nat) : Fld := ⟨0x40002280 + 4 * n, 2, 2, .rwl, 0⟩

/-- CORE_DTE.BLOCK (R146). -/
def CORE_DTE_BLOCK (n : Nat) : Fld := ⟨0x40002280 + 4 * n, 4, 6, .rwl, 0⟩

/-- CORE_DTE.ENTRY (R146). -/
def CORE_DTE_ENTRY (n : Nat) : Fld := ⟨0x40002280 + 4 * n, 16, 9, .rwl, 0⟩

/-- CORE_STATUS.PL (R170). -/
def CORE_STATUS_PL : Fld := ⟨0x40002080, 0, 2, .ro, 2⟩

/-- CORE_STATUS.IE (R170). -/
def CORE_STATUS_IE : Fld := ⟨0x40002080, 2, 1, .rw, 0⟩

/-- CORE_STATUS.EL (R170). -/
def CORE_STATUS_EL : Fld := ⟨0x40002080, 3, 1, .rw, 0⟩

/-- CORE_STATUS.PPL (R170). -/
def CORE_STATUS_PPL : Fld := ⟨0x40002080, 4, 2, .rw, 0⟩

/-- CORE_STATUS.PIE (R170). -/
def CORE_STATUS_PIE : Fld := ⟨0x40002080, 6, 1, .rw, 0⟩

/-- CORE_STATUS.THR (R170). -/
def CORE_STATUS_THR : Fld := ⟨0x40002080, 7, 4, .rw, 0⟩

/-- CORE_STATUS.PTHR (R170). -/
def CORE_STATUS_PTHR : Fld := ⟨0x40002080, 11, 4, .rw, 0⟩

/-- CORE_EPC.ADDR (R170). -/
def CORE_EPC_ADDR : Fld := ⟨0x40002084, 2, 30, .rw, 0⟩

/-- CORE_ECAUSE.SLOT (R170). -/
def CORE_ECAUSE_SLOT : Fld := ⟨0x40002088, 0, 7, .ro, 0⟩

/-- CORE_ECAUSE.SYLIX (R170). -/
def CORE_ECAUSE_SYLIX : Fld := ⟨0x40002088, 8, 3, .ro, 0⟩

/-- CORE_ECAUSE.FETCH (R170). -/
def CORE_ECAUSE_FETCH : Fld := ⟨0x40002088, 11, 1, .ro, 0⟩

/-- CORE_ECAUSE.HLVL (R170). -/
def CORE_ECAUSE_HLVL : Fld := ⟨0x40002088, 12, 2, .ro, 0⟩

/-- CORE_EXCCFG.STBUF (R170). -/
def CORE_EXCCFG_STBUF : Fld := ⟨0x4000208C, 0, 1, .rw, 1⟩

/-- CORE_EXCCFG.LONGRES (R170). -/
def CORE_EXCCFG_LONGRES : Fld := ⟨0x4000208C, 1, 1, .rw, 1⟩

/-- CORE_EXCDLG.DLG (R170). -/
def CORE_EXCDLG_DLG : Fld := ⟨0x40002090, 3, 8, .rw, 0⟩

/-- CORE_FADDR.ADDR (R170). -/
def CORE_FADDR_ADDR : Fld := ⟨0x40002094, 0, 32, .ro, 0⟩

/-- CORE_BEADDR.ADDR (R170). -/
def CORE_BEADDR_ADDR : Fld := ⟨0x40002098, 0, 32, .ro, 0⟩

/-- CORE_BEINFO.VALID (R170). -/
def CORE_BEINFO_VALID : Fld := ⟨0x4000209C, 0, 1, .w1c, 0⟩

/-- CORE_BEINFO.MULTI (R170). -/
def CORE_BEINFO_MULTI : Fld := ⟨0x4000209C, 1, 1, .w1c, 0⟩

/-- CORE_BEINFO.SIZE (R170). -/
def CORE_BEINFO_SIZE : Fld := ⟨0x4000209C, 2, 2, .ro, 0⟩

/-- CORE_BEINFO.LATER (R170). -/
def CORE_BEINFO_LATER : Fld := ⟨0x4000209C, 8, 8, .ro, 0⟩

/-- CORE_PROG.VALID (R170). -/
def CORE_PROG_VALID : Fld := ⟨0x400020A0, 0, 1, .rw, 0⟩

/-- CORE_PROG.KIND (R170). -/
def CORE_PROG_KIND : Fld := ⟨0x400020A0, 1, 2, .rw, 0⟩

/-- CORE_PROG.Z (R170). -/
def CORE_PROG_Z : Fld := ⟨0x400020A0, 3, 1, .rw, 0⟩

/-- CORE_PROG.NEXT (R170). -/
def CORE_PROG_NEXT : Fld := ⟨0x400020A0, 4, 9, .rw, 0⟩

/-- CORE_PROG.LC (R170). -/
def CORE_PROG_LC : Fld := ⟨0x400020A0, 16, 16, .rw, 0⟩

/-- CORE_PROGA.ADDR (R170). -/
def CORE_PROGA_ADDR : Fld := ⟨0x400020A4, 0, 32, .rw, 0⟩

/-- CORE_MSCR.VALUE (R170). -/
def CORE_MSCR_VALUE : Fld := ⟨0x400020A8, 0, 32, .rw, 0⟩

/-- CORE_SSCR.VALUE (R170). -/
def CORE_SSCR_VALUE : Fld := ⟨0x400020AC, 0, 32, .rw, 0⟩

/-- CORE_SWRST.KEY (R170). -/
def CORE_SWRST_KEY : Fld := ⟨0x400020B0, 0, 16, .wo, 0⟩

/-- CORE_DBLF.SLOT (R170). -/
def CORE_DBLF_SLOT : Fld := ⟨0x400020B4, 0, 7, .ro, 0⟩

/-- CORE_DBLF.PSLOT (R170). -/
def CORE_DBLF_PSLOT : Fld := ⟨0x400020B4, 8, 7, .ro, 0⟩

/-- CORE_DBLF.VALID (R170). -/
def CORE_DBLF_VALID : Fld := ⟨0x400020B4, 15, 1, .w1c, 0⟩

/-- CORE_IRQEN.LINES (R170). -/
def CORE_IRQEN_LINES : Fld := ⟨0x400020C0, 0, 32, .rw, 0⟩

/-- CORE_IRQPEND.LINES (R170). -/
def CORE_IRQPEND_LINES : Fld := ⟨0x400020C4, 0, 32, .ro, 0⟩

/-- CORE_IRQDLG.LINES (R170). -/
def CORE_IRQDLG_LINES : Fld := ⟨0x400020C8, 0, 32, .rw, 0⟩

/-- CORE_IRQSET.SW (R170). -/
def CORE_IRQSET_SW : Fld := ⟨0x400020CC, 31, 1, .rw, 0⟩

/-- CORE_IRQPRI.PRI (R170). -/
def CORE_IRQPRI_PRI (n k : Nat) : Fld := ⟨0x400020D0 + 4 * n, 4 * k, 3, .rw, 0⟩

/-- MEM_ECCSTAT.CE (R199). -/
def MEM_ECCSTAT_CE : Fld := ⟨0x40003000, 0, 8, .w1c, 0⟩

/-- MEM_ECCSTAT.UE (R199). -/
def MEM_ECCSTAT_UE : Fld := ⟨0x40003000, 8, 8, .w1c, 0⟩

/-- MEM_ECCCNT.COUNT (R199). -/
def MEM_ECCCNT_COUNT : Fld := ⟨0x40003004, 0, 32, .rc, 0⟩

/-- MEM_UEADDR.ADDR (R199). -/
def MEM_UEADDR_ADDR : Fld := ⟨0x40003008, 0, 32, .ro, 0⟩

/-- MEM_EVT.CE (R199). -/
def MEM_EVT_CE : Fld := ⟨0x4000300C, 0, 1, .w1c, 0⟩

/-- MEM_EVT.UE (R199). -/
def MEM_EVT_UE : Fld := ⟨0x4000300C, 1, 1, .w1c, 0⟩

/-- MEM_EVT.RGF (R199). -/
def MEM_EVT_RGF : Fld := ⟨0x4000300C, 2, 1, .w1c, 0⟩

/-- MEM_EVT.REPAIR (R199). -/
def MEM_EVT_REPAIR : Fld := ⟨0x4000300C, 3, 1, .w1c, 0⟩

/-- MEM_EVT.SPAREOUT (R199). -/
def MEM_EVT_SPAREOUT : Fld := ⟨0x4000300C, 4, 1, .w1c, 0⟩

/-- MEM_INTEN.EN (R199). -/
def MEM_INTEN_EN : Fld := ⟨0x40003010, 0, 5, .rw, 0⟩

/-- MEM_WIPESTAT.BANK (R199). -/
def MEM_WIPESTAT_BANK : Fld := ⟨0x40003014, 0, 8, .ro, 0⟩

/-- MEM_SPARE.ROWS (R199). -/
def MEM_SPARE_ROWS (k : Nat) : Fld := ⟨0x40003018, 4 * k, 4, .ro, 0⟩

/-- MEM_SPARECOL.COLS (R199). -/
def MEM_SPARECOL_COLS (k : Nat) : Fld := ⟨0x4000301C, 2 * k, 2, .ro, 0⟩

/-- MEM_CONF.COUNT (R199). -/
def MEM_CONF_COUNT (n : Nat) : Fld := ⟨0x40003020 + 4 * n, 0, 32, .rc, 0⟩

/-- MEM_RGCFG.DEFS (R199). -/
def MEM_RGCFG_DEFS : Fld := ⟨0x40003030, 0, 3, .rwl, 7⟩

/-- MEM_RGCFG.DEFU (R199). -/
def MEM_RGCFG_DEFU : Fld := ⟨0x40003030, 4, 3, .rwl, 0⟩

/-- MEM_RGCFG.LOCK (R199). -/
def MEM_RGCFG_LOCK : Fld := ⟨0x40003030, 8, 1, .w1s, 0⟩

/-- MEM_RGFSTAT.VALID (R199). -/
def MEM_RGFSTAT_VALID : Fld := ⟨0x40003034, 0, 1, .w1c, 0⟩

/-- MEM_RGFSTAT.OVR (R199). -/
def MEM_RGFSTAT_OVR : Fld := ⟨0x40003034, 1, 1, .w1c, 0⟩

/-- MEM_RGFSTAT.REASON (R199). -/
def MEM_RGFSTAT_REASON : Fld := ⟨0x40003034, 4, 3, .ro, 0⟩

/-- MEM_RGFSTAT.MASTER (R199). -/
def MEM_RGFSTAT_MASTER : Fld := ⟨0x40003034, 8, 3, .ro, 0⟩

/-- MEM_RGFSTAT.PRIN (R199). -/
def MEM_RGFSTAT_PRIN : Fld := ⟨0x40003034, 12, 4, .ro, 0⟩

/-- MEM_RGFSTAT.WRITE (R199). -/
def MEM_RGFSTAT_WRITE : Fld := ⟨0x40003034, 16, 1, .ro, 0⟩

/-- MEM_RGFSTAT.FETCH (R199). -/
def MEM_RGFSTAT_FETCH : Fld := ⟨0x40003034, 17, 1, .ro, 0⟩

/-- MEM_RGFADDR.ADDR (R199). -/
def MEM_RGFADDR_ADDR : Fld := ⟨0x40003038, 0, 32, .ro, 0⟩

/-- MEM_RGNBASE.ADDR (R199). -/
def MEM_RGNBASE_ADDR (n : Nat) : Fld := ⟨0x40003100 + 16 * n, 5, 27, .rwl, 0⟩

/-- MEM_RGNLIM.ADDR (R199). -/
def MEM_RGNLIM_ADDR (n : Nat) : Fld := ⟨0x40003104 + 16 * n, 5, 27, .rwl, 0⟩

/-- MEM_RGNATTR.EN (R199). -/
def MEM_RGNATTR_EN (n : Nat) : Fld := ⟨0x40003108 + 16 * n, 0, 1, .rwl, 0⟩

/-- MEM_RGNATTR.SR (R199). -/
def MEM_RGNATTR_SR (n : Nat) : Fld := ⟨0x40003108 + 16 * n, 1, 1, .rwl, 0⟩

/-- MEM_RGNATTR.SW (R199). -/
def MEM_RGNATTR_SW (n : Nat) : Fld := ⟨0x40003108 + 16 * n, 2, 1, .rwl, 0⟩

/-- MEM_RGNATTR.SX (R199). -/
def MEM_RGNATTR_SX (n : Nat) : Fld := ⟨0x40003108 + 16 * n, 3, 1, .rwl, 0⟩

/-- MEM_RGNATTR.UR (R199). -/
def MEM_RGNATTR_UR (n : Nat) : Fld := ⟨0x40003108 + 16 * n, 4, 1, .rwl, 0⟩

/-- MEM_RGNATTR.UW (R199). -/
def MEM_RGNATTR_UW (n : Nat) : Fld := ⟨0x40003108 + 16 * n, 5, 1, .rwl, 0⟩

/-- MEM_RGNATTR.UX (R199). -/
def MEM_RGNATTR_UX (n : Nat) : Fld := ⟨0x40003108 + 16 * n, 6, 1, .rwl, 0⟩

/-- DRM_CFG.SRIDLE (R199). -/
def DRM_CFG_SRIDLE : Fld := ⟨0x40004000, 0, 8, .rw, 64⟩

/-- DRM_CFG.SCRUBEN (R199). -/
def DRM_CFG_SCRUBEN : Fld := ⟨0x40004000, 8, 1, .rw, 1⟩

/-- DRM_CFG.RMTH (R199). -/
def DRM_CFG_RMTH : Fld := ⟨0x40004000, 12, 4, .rw, 4⟩

/-- DRM_SESS.OPEN (R199). -/
def DRM_SESS_OPEN : Fld := ⟨0x40004004, 0, 1, .wo, 0⟩

/-- DRM_SESS.CLOSE (R199). -/
def DRM_SESS_CLOSE : Fld := ⟨0x40004004, 1, 1, .wo, 0⟩

/-- DRM_SESS.OPENST (R199). -/
def DRM_SESS_OPENST : Fld := ⟨0x40004004, 4, 1, .ro, 0⟩

/-- DRM_SESS.RESULT (R199). -/
def DRM_SESS_RESULT : Fld := ⟨0x40004004, 8, 8, .ro, 0⟩

/-- DRM_SESS.CUT (R199). -/
def DRM_SESS_CUT : Fld := ⟨0x40004004, 16, 1, .w1c, 0⟩

/-- DRM_STAT.UNWIPED (R199). -/
def DRM_STAT_UNWIPED : Fld := ⟨0x40004008, 0, 16, .ro, 65535⟩

/-- DRM_STAT.WIPING (R199). -/
def DRM_STAT_WIPING : Fld := ⟨0x40004008, 16, 1, .ro, 1⟩

/-- DRM_STAT.SCRUBSEG (R199). -/
def DRM_STAT_SCRUBSEG : Fld := ⟨0x40004008, 20, 4, .ro, 0⟩

/-- DRM_ECCCNT.COUNT (R199). -/
def DRM_ECCCNT_COUNT : Fld := ⟨0x4000400C, 0, 32, .rc, 0⟩

/-- DRM_UEADDR.ADDR (R199). -/
def DRM_UEADDR_ADDR : Fld := ⟨0x40004010, 5, 27, .ro, 0⟩

/-- DRM_EVT.CE (R199). -/
def DRM_EVT_CE : Fld := ⟨0x40004014, 0, 1, .w1c, 0⟩

/-- DRM_EVT.UE (R199). -/
def DRM_EVT_UE : Fld := ⟨0x40004014, 1, 1, .w1c, 0⟩

/-- DRM_EVT.REMAP (R199). -/
def DRM_EVT_REMAP : Fld := ⟨0x40004014, 2, 1, .w1c, 0⟩

/-- DRM_EVT.SESSCUT (R199). -/
def DRM_EVT_SESSCUT : Fld := ⟨0x40004014, 3, 1, .w1c, 0⟩

/-- DRM_EVT.WIPEDONE (R199). -/
def DRM_EVT_WIPEDONE : Fld := ⟨0x40004014, 4, 1, .w1c, 0⟩

/-- DRM_EVT.SPARELOW (R199). -/
def DRM_EVT_SPARELOW : Fld := ⟨0x40004014, 5, 1, .w1c, 0⟩

/-- DRM_INTEN.EN (R199). -/
def DRM_INTEN_EN : Fld := ⟨0x40004018, 0, 6, .rw, 0⟩

/-- DRM_REMAPCNT.USED (R199). -/
def DRM_REMAPCNT_USED : Fld := ⟨0x4000401C, 0, 10, .ro, 0⟩

/-- DRM_SCRUB.PERIOD (R199). -/
def DRM_SCRUB_PERIOD : Fld := ⟨0x40004020, 0, 16, .rw, 1024⟩

/-- MOV_DLG.LVL (R209). -/
def MOV_DLG_LVL (k : Nat) : Fld := ⟨0x40005000, 2 * k, 2, .rw, 0⟩

/-- MOV_EVT.DONE (R209). -/
def MOV_EVT_DONE : Fld := ⟨0x40005004, 0, 4, .w1c, 0⟩

/-- MOV_EVT.ERR (R209). -/
def MOV_EVT_ERR : Fld := ⟨0x40005004, 4, 4, .w1c, 0⟩

/-- MOV_EVT.DESC (R209). -/
def MOV_EVT_DESC : Fld := ⟨0x40005004, 8, 4, .w1c, 0⟩

/-- MOV_INTEN.EN (R209). -/
def MOV_INTEN_EN : Fld := ⟨0x40005008, 0, 12, .rw, 0⟩

/-- LNK_CFG.POSMODE (R247). -/
def LNK_CFG_POSMODE : Fld := ⟨0x40006000, 0, 1, .rw, 0⟩

/-- LNK_CFG.TRAIN (R247). -/
def LNK_CFG_TRAIN : Fld := ⟨0x40006000, 1, 1, .wo, 0⟩

/-- LNK_CFG.IDLETO (R247). -/
def LNK_CFG_IDLETO : Fld := ⟨0x40006000, 4, 4, .rw, 6⟩

/-- LNK_CFG.BACKOFF (R247). -/
def LNK_CFG_BACKOFF : Fld := ⟨0x40006000, 8, 4, .rw, 10⟩

/-- LNK_CFG.WAKEDUR (R247). -/
def LNK_CFG_WAKEDUR : Fld := ⟨0x40006000, 16, 16, .rw, 100⟩

/-- LNK_POS.POS (R247). -/
def LNK_POS_POS : Fld := ⟨0x40006004, 0, 12, .rw, 4095⟩

/-- LNK_STAT.STATE (R247). -/
def LNK_STAT_STATE : Fld := ⟨0x40006008, 0, 2, .ro, 0⟩

/-- LNK_STAT.MODE (R247). -/
def LNK_STAT_MODE : Fld := ⟨0x40006008, 2, 1, .ro, 0⟩

/-- LNK_STAT.LOST (R247). -/
def LNK_STAT_LOST : Fld := ⟨0x40006008, 3, 1, .ro, 0⟩

/-- LNK_STAT.FLOORLOCK (R247). -/
def LNK_STAT_FLOORLOCK : Fld := ⟨0x40006008, 4, 1, .ro, 0⟩

/-- LNK_STAT.BACKOFF (R247). -/
def LNK_STAT_BACKOFF : Fld := ⟨0x40006008, 5, 1, .ro, 0⟩

/-- LNK_STAT.PU (R247). -/
def LNK_STAT_PU : Fld := ⟨0x40006008, 8, 2, .ro, 0⟩

/-- LNK_STAT.PD1 (R247). -/
def LNK_STAT_PD1 : Fld := ⟨0x40006008, 10, 2, .ro, 0⟩

/-- LNK_STAT.PD2 (R247). -/
def LNK_STAT_PD2 : Fld := ⟨0x40006008, 12, 2, .ro, 0⟩

/-- LNK_STAT.LU (R247). -/
def LNK_STAT_LU : Fld := ⟨0x40006008, 16, 2, .ro, 0⟩

/-- LNK_STAT.LD1 (R247). -/
def LNK_STAT_LD1 : Fld := ⟨0x40006008, 18, 2, .ro, 0⟩

/-- LNK_STAT.LD2 (R247). -/
def LNK_STAT_LD2 : Fld := ⟨0x40006008, 20, 2, .ro, 0⟩

/-- LNK_EVT.PORTDN (R247). -/
def LNK_EVT_PORTDN : Fld := ⟨0x4000600C, 0, 1, .w1c, 0⟩

/-- LNK_EVT.PORTUP (R247). -/
def LNK_EVT_PORTUP : Fld := ⟨0x4000600C, 1, 1, .w1c, 0⟩

/-- LNK_EVT.LANEDN (R247). -/
def LNK_EVT_LANEDN : Fld := ⟨0x4000600C, 2, 1, .w1c, 0⟩

/-- LNK_EVT.CHDRERR (R247). -/
def LNK_EVT_CHDRERR : Fld := ⟨0x4000600C, 3, 1, .w1c, 0⟩

/-- LNK_EVT.SHDRERR (R247). -/
def LNK_EVT_SHDRERR : Fld := ⟨0x4000600C, 4, 1, .w1c, 0⟩

/-- LNK_EVT.NOEND (R247). -/
def LNK_EVT_NOEND : Fld := ⟨0x4000600C, 5, 1, .w1c, 0⟩

/-- LNK_EVT.CUT (R247). -/
def LNK_EVT_CUT : Fld := ⟨0x4000600C, 6, 1, .w1c, 0⟩

/-- LNK_EVT.LATCH (R247). -/
def LNK_EVT_LATCH : Fld := ⟨0x4000600C, 7, 1, .w1c, 0⟩

/-- LNK_EVT.CSLATE (R247). -/
def LNK_EVT_CSLATE : Fld := ⟨0x4000600C, 8, 1, .w1c, 0⟩

/-- LNK_EVT.NOENERGY (R247). -/
def LNK_EVT_NOENERGY : Fld := ⟨0x4000600C, 9, 1, .w1c, 0⟩

/-- LNK_EVT.MISSED (R247). -/
def LNK_EVT_MISSED : Fld := ⟨0x4000600C, 10, 1, .w1c, 0⟩

/-- LNK_EVT.EVIN (R247). -/
def LNK_EVT_EVIN : Fld := ⟨0x4000600C, 11, 1, .w1c, 0⟩

/-- LNK_INTEN.EN (R247). -/
def LNK_INTEN_EN : Fld := ⟨0x40006010, 0, 12, .rw, 0⟩

/-- LNK_ERRCNT0.CHDR (R247). -/
def LNK_ERRCNT0_CHDR : Fld := ⟨0x40006014, 0, 16, .rc, 0⟩

/-- LNK_ERRCNT0.SHDR (R247). -/
def LNK_ERRCNT0_SHDR : Fld := ⟨0x40006014, 16, 16, .rc, 0⟩

/-- LNK_ERRCNT1.CODE (R247). -/
def LNK_ERRCNT1_CODE : Fld := ⟨0x40006018, 0, 16, .rc, 0⟩

/-- LNK_ERRCNT1.NOEND (R247). -/
def LNK_ERRCNT1_NOEND : Fld := ⟨0x40006018, 16, 16, .rc, 0⟩

/-- LNK_LATECNT.COUNT (R247). -/
def LNK_LATECNT_COUNT : Fld := ⟨0x4000601C, 0, 32, .rc, 0⟩

/-- LNK_CYCNO.CYCNO (R247). -/
def LNK_CYCNO_CYCNO : Fld := ⟨0x40006020, 0, 32, .ro, 0⟩

/-- LNK_CYCINFO.CYC (R247). -/
def LNK_CYCINFO_CYC : Fld := ⟨0x40006024, 0, 8, .ro, 0⟩

/-- LNK_CYCINFO.HOP (R247). -/
def LNK_CYCINFO_HOP : Fld := ⟨0x40006024, 8, 12, .ro, 0⟩

/-- LNK_LTIMELO.TIME (R247). -/
def LNK_LTIMELO_TIME : Fld := ⟨0x40006028, 0, 32, .ro, 0⟩

/-- LNK_LTIMEHI.TIME (R247). -/
def LNK_LTIMEHI_TIME : Fld := ⟨0x4000602C, 0, 32, .ro, 0⟩

/-- LNK_PDELAY.DELAY (R247). -/
def LNK_PDELAY_DELAY : Fld := ⟨0x40006030, 0, 24, .rw, 0⟩

/-- LNK_CSLEAD.LEAD (R247). -/
def LNK_CSLEAD_LEAD : Fld := ⟨0x40006034, 0, 24, .rw, 0⟩

/-- LNK_EVIN.WORD (R247). -/
def LNK_EVIN_WORD : Fld := ⟨0x40006038, 0, 32, .ro, 0⟩

/-- LNK_EVOUT.BITS (R247). -/
def LNK_EVOUT_BITS : Fld := ⟨0x4000603C, 0, 32, .w1s, 0⟩

/-- TBL_COMMIT.MASK (R280). -/
def TBL_COMMIT_MASK : Fld := ⟨0x40007000, 0, 16, .wo, 0⟩

/-- TBL_CMTSTAT.PEND (R280). -/
def TBL_CMTSTAT_PEND : Fld := ⟨0x40007004, 0, 16, .ro, 0⟩

/-- TBL_CMTSTAT.RESULT (R280). -/
def TBL_CMTSTAT_RESULT : Fld := ⟨0x40007004, 16, 8, .ro, 0⟩

/-- TBL_CMTSTAT.BADTBL (R280). -/
def TBL_CMTSTAT_BADTBL : Fld := ⟨0x40007004, 24, 4, .ro, 0⟩

/-- TBL_CANCEL.MASK (R280). -/
def TBL_CANCEL_MASK : Fld := ⟨0x40007008, 0, 16, .wo, 0⟩

/-- TBL_READY.READY (R280). -/
def TBL_READY_READY : Fld := ⟨0x4000700C, 0, 16, .ro, 0⟩

/-- TBL_LIVE.LIVE (R280). -/
def TBL_LIVE_LIVE : Fld := ⟨0x40007010, 0, 16, .ro, 0⟩

/-- TBL_EVT.FLIP (R280). -/
def TBL_EVT_FLIP : Fld := ⟨0x40007014, 0, 1, .w1c, 0⟩

/-- TBL_EVT.LAND (R280). -/
def TBL_EVT_LAND : Fld := ⟨0x40007014, 1, 1, .w1c, 0⟩

/-- TBL_EVT.HINT (R280). -/
def TBL_EVT_HINT : Fld := ⟨0x40007014, 2, 1, .w1c, 0⟩

/-- TBL_EVT.CMDHDR (R280). -/
def TBL_EVT_CMDHDR : Fld := ⟨0x40007014, 3, 1, .w1c, 0⟩

/-- TBL_EVT.CAPFULL (R280). -/
def TBL_EVT_CAPFULL : Fld := ⟨0x40007014, 4, 1, .w1c, 0⟩

/-- TBL_EVT.STALE (R280). -/
def TBL_EVT_STALE : Fld := ⟨0x40007014, 5, 1, .w1c, 0⟩

/-- TBL_EVT.FWTO (R280). -/
def TBL_EVT_FWTO : Fld := ⟨0x40007014, 6, 1, .w1c, 0⟩

/-- TBL_INTEN.EN (R280). -/
def TBL_INTEN_EN : Fld := ⟨0x40007018, 0, 7, .rw, 0⟩

/-- TBL_LANDSEQ.SEQ (R280). -/
def TBL_LANDSEQ_SEQ : Fld := ⟨0x4000701C, 0, 32, .ro, 0⟩

/-- TBL_HINT.STATE (R280). -/
def TBL_HINT_STATE : Fld := ⟨0x40007020, 0, 2, .ro, 0⟩

/-- TBL_HINT.MS (R280). -/
def TBL_HINT_MS : Fld := ⟨0x40007020, 16, 16, .ro, 0⟩

/-- TBL_CMDCFG.FWTO (R280). -/
def TBL_CMDCFG_FWTO : Fld := ⟨0x40007024, 0, 4, .rw, 8⟩

/-- TBL_CMDCNT.HDR (R280). -/
def TBL_CMDCNT_HDR : Fld := ⟨0x40007028, 0, 16, .rc, 0⟩

/-- TBL_CMDCNT.ABORT (R280). -/
def TBL_CMDCNT_ABORT : Fld := ⟨0x40007028, 16, 16, .rc, 0⟩

/-- TBL_SDESC0.BASE (R280). -/
def TBL_SDESC0_BASE (n : Nat) : Fld := ⟨0x40007100 + 16 * n, 0, 14, .rw, 0⟩

/-- TBL_SDESC0.ESIZE (R280). -/
def TBL_SDESC0_ESIZE (n : Nat) : Fld := ⟨0x40007100 + 16 * n, 14, 2, .rw, 0⟩

/-- TBL_SDESC0.MR (R280). -/
def TBL_SDESC0_MR (n : Nat) : Fld := ⟨0x40007100 + 16 * n, 16, 1, .rw, 0⟩

/-- TBL_SDESC0.MW (R280). -/
def TBL_SDESC0_MW (n : Nat) : Fld := ⟨0x40007100 + 16 * n, 17, 1, .rw, 0⟩

/-- TBL_SDESC0.CMDW (R280). -/
def TBL_SDESC0_CMDW (n : Nat) : Fld := ⟨0x40007100 + 16 * n, 18, 1, .rw, 0⟩

/-- TBL_SDESC1.COUNT (R280). -/
def TBL_SDESC1_COUNT (n : Nat) : Fld := ⟨0x40007104 + 16 * n, 0, 16, .rw, 0⟩

/-- TBL_LDESC0.BASE (R280). -/
def TBL_LDESC0_BASE (n : Nat) : Fld := ⟨0x40007108 + 16 * n, 0, 14, .ro, 0⟩

/-- TBL_LDESC0.ESIZE (R280). -/
def TBL_LDESC0_ESIZE (n : Nat) : Fld := ⟨0x40007108 + 16 * n, 14, 2, .ro, 0⟩

/-- TBL_LDESC0.MR (R280). -/
def TBL_LDESC0_MR (n : Nat) : Fld := ⟨0x40007108 + 16 * n, 16, 1, .ro, 0⟩

/-- TBL_LDESC0.MW (R280). -/
def TBL_LDESC0_MW (n : Nat) : Fld := ⟨0x40007108 + 16 * n, 17, 1, .ro, 0⟩

/-- TBL_LDESC0.CMDW (R280). -/
def TBL_LDESC0_CMDW (n : Nat) : Fld := ⟨0x40007108 + 16 * n, 18, 1, .ro, 0⟩

/-- TBL_LDESC1.COUNT (R280). -/
def TBL_LDESC1_COUNT (n : Nat) : Fld := ⟨0x4000710C + 16 * n, 0, 16, .ro, 0⟩

/-- TBL_LDESC1.GEN (R280). -/
def TBL_LDESC1_GEN (n : Nat) : Fld := ⟨0x4000710C + 16 * n, 16, 16, .ro, 0⟩

/-- EVF_FIRE.CH (R297). -/
def EVF_FIRE_CH : Fld := ⟨0x40008000, 0, 32, .wo, 0⟩

/-- EVF_ASYNC.ASYNC (R297). -/
def EVF_ASYNC_ASYNC : Fld := ⟨0x40008004, 0, 8, .rw, 255⟩

/-- EVF_CHOWN.PRIN (R297). -/
def EVF_CHOWN_PRIN (n : Nat) : Fld := ⟨0x40008100 + 16 * n, 0, 4, .rw, 8⟩

/-- EVF_CHOWN.PRIV (R297). -/
def EVF_CHOWN_PRIV (n : Nat) : Fld := ⟨0x40008100 + 16 * n, 4, 1, .rw, 0⟩

/-- EVF_CHPMLO.MASK (R297). -/
def EVF_CHPMLO_MASK (n : Nat) : Fld := ⟨0x40008104 + 16 * n, 0, 32, .rw, 0⟩

/-- EVF_CHPMHI.MASK (R297). -/
def EVF_CHPMHI_MASK (n : Nat) : Fld := ⟨0x40008108 + 16 * n, 0, 32, .rw, 0⟩

/-- EVF_CSEL.CH (R297). -/
def EVF_CSEL_CH (n : Nat) : Fld := ⟨0x40008300 + 4 * n, 0, 5, .rw, 0⟩

/-- EVF_CSEL.EN (R297). -/
def EVF_CSEL_EN (n : Nat) : Fld := ⟨0x40008300 + 4 * n, 8, 1, .rw, 0⟩

/-- EVF_CSEL.PEND (R297). -/
def EVF_CSEL_PEND (n : Nat) : Fld := ⟨0x40008300 + 4 * n, 9, 1, .w1c, 0⟩

/-- EVF_CSEL.MODE (R297). -/
def EVF_CSEL_MODE (n : Nat) : Fld := ⟨0x40008300 + 4 * n, 10, 1, .rw, 0⟩

/-- EVF_CSEL.WPRIN (R297). -/
def EVF_CSEL_WPRIN (n : Nat) : Fld := ⟨0x40008300 + 4 * n, 12, 4, .ro, 10⟩

/-- EVF_CAPSTAT.VALID (R297). -/
def EVF_CAPSTAT_VALID (n : Nat) : Fld := ⟨0x40008400 + 16 * n, 0, 1, .w1c, 0⟩

/-- EVF_CAPSTAT.OVR (R297). -/
def EVF_CAPSTAT_OVR (n : Nat) : Fld := ⟨0x40008400 + 16 * n, 1, 1, .w1c, 0⟩

/-- EVF_CAPSTAT.NOLT (R297). -/
def EVF_CAPSTAT_NOLT (n : Nat) : Fld := ⟨0x40008400 + 16 * n, 2, 1, .w1c, 0⟩

/-- EVF_CAPLO.TIME (R297). -/
def EVF_CAPLO_TIME (n : Nat) : Fld := ⟨0x40008404 + 16 * n, 0, 32, .ro, 0⟩

/-- EVF_CAPHI.TIME (R297). -/
def EVF_CAPHI_TIME (n : Nat) : Fld := ⟨0x40008408 + 16 * n, 0, 32, .ro, 0⟩

/-- NVS_STAT.PGBUSY (R322). -/
def NVS_STAT_PGBUSY : Fld := ⟨0x40009000, 0, 1, .ro, 0⟩

/-- NVS_STAT.PGSUSP (R322). -/
def NVS_STAT_PGSUSP : Fld := ⟨0x40009000, 1, 1, .ro, 0⟩

/-- NVS_STAT.RECBUSY (R322). -/
def NVS_STAT_RECBUSY : Fld := ⟨0x40009000, 2, 1, .ro, 0⟩

/-- NVS_STAT.TLYBUSY (R322). -/
def NVS_STAT_TLYBUSY : Fld := ⟨0x40009000, 3, 1, .ro, 0⟩

/-- NVS_STAT.MOVING (R322). -/
def NVS_STAT_MOVING : Fld := ⟨0x40009000, 4, 1, .ro, 0⟩

/-- NVS_STAT.HOLDRDY (R322). -/
def NVS_STAT_HOLDRDY : Fld := ⟨0x40009000, 5, 1, .ro, 0⟩

/-- NVS_EVT.CE (R322). -/
def NVS_EVT_CE : Fld := ⟨0x40009004, 0, 1, .w1c, 0⟩

/-- NVS_EVT.UE (R322). -/
def NVS_EVT_UE : Fld := ⟨0x40009004, 1, 1, .w1c, 0⟩

/-- NVS_EVT.PGDONE (R322). -/
def NVS_EVT_PGDONE : Fld := ⟨0x40009004, 2, 1, .w1c, 0⟩

/-- NVS_EVT.RECDONE (R322). -/
def NVS_EVT_RECDONE : Fld := ⟨0x40009004, 3, 1, .w1c, 0⟩

/-- NVS_EVT.TLYDONE (R322). -/
def NVS_EVT_TLYDONE : Fld := ⟨0x40009004, 4, 1, .w1c, 0⟩

/-- NVS_EVT.REFRESH (R322). -/
def NVS_EVT_REFRESH : Fld := ⟨0x40009004, 5, 1, .w1c, 0⟩

/-- NVS_EVT.MOVED (R322). -/
def NVS_EVT_MOVED : Fld := ⟨0x40009004, 6, 1, .w1c, 0⟩

/-- NVS_EVT.SPAREOUT (R322). -/
def NVS_EVT_SPAREOUT : Fld := ⟨0x40009004, 7, 1, .w1c, 0⟩

/-- NVS_EVT.JREPAIR (R322). -/
def NVS_EVT_JREPAIR : Fld := ⟨0x40009004, 8, 1, .w1c, 0⟩

/-- NVS_INTEN.EN (R322). -/
def NVS_INTEN_EN : Fld := ⟨0x40009008, 0, 9, .rw, 0⟩

/-- NVS_ECCCNT.COUNT (R322). -/
def NVS_ECCCNT_COUNT : Fld := ⟨0x4000900C, 0, 32, .rc, 0⟩

/-- NVS_UEADDR.ADDR (R322). -/
def NVS_UEADDR_ADDR : Fld := ⟨0x40009010, 0, 32, .ro, 0⟩

/-- NVS_PGADDR.ADDR (R322). -/
def NVS_PGADDR_ADDR : Fld := ⟨0x40009020, 2, 30, .rw, 134217728⟩

/-- NVS_PGCMD.NWORDS (R322). -/
def NVS_PGCMD_NWORDS : Fld := ⟨0x40009024, 0, 7, .rw, 0⟩

/-- NVS_PGSTAT.RESULT (R322). -/
def NVS_PGSTAT_RESULT : Fld := ⟨0x40009028, 0, 8, .ro, 0⟩

/-- NVS_PGSTAT.WORDS (R322). -/
def NVS_PGSTAT_WORDS : Fld := ⟨0x40009028, 8, 7, .ro, 0⟩

/-- NVS_PGSTAT.TRUNC (R322). -/
def NVS_PGSTAT_TRUNC : Fld := ⟨0x40009028, 16, 1, .ro, 0⟩

/-- NVS_PGSTAT.CUT (R322). -/
def NVS_PGSTAT_CUT : Fld := ⟨0x40009028, 17, 1, .ro, 0⟩

/-- NVS_PGSTAT.HOLDLOW (R322). -/
def NVS_PGSTAT_HOLDLOW : Fld := ⟨0x40009028, 18, 1, .ro, 0⟩

/-- NVS_RECCMD.REC (R322). -/
def NVS_RECCMD_REC : Fld := ⟨0x40009030, 0, 7, .rw, 0⟩

/-- NVS_RECCMD.OP (R322). -/
def NVS_RECCMD_OP : Fld := ⟨0x40009030, 8, 1, .rw, 0⟩

/-- NVS_RECCMD.LEN (R322). -/
def NVS_RECCMD_LEN : Fld := ⟨0x40009030, 16, 10, .rw, 0⟩

/-- NVS_RECSTAT.RESULT (R322). -/
def NVS_RECSTAT_RESULT : Fld := ⟨0x40009034, 0, 8, .ro, 0⟩

/-- NVS_RECSTAT.NOREC (R322). -/
def NVS_RECSTAT_NOREC : Fld := ⟨0x40009034, 8, 1, .ro, 0⟩

/-- NVS_RECSTAT.TIE (R322). -/
def NVS_RECSTAT_TIE : Fld := ⟨0x40009034, 9, 1, .ro, 0⟩

/-- NVS_RECSTAT.OLDER (R322). -/
def NVS_RECSTAT_OLDER : Fld := ⟨0x40009034, 10, 1, .ro, 0⟩

/-- NVS_RECSTAT.UE (R322). -/
def NVS_RECSTAT_UE : Fld := ⟨0x40009034, 11, 1, .ro, 0⟩

/-- NVS_RECSTAT.COPY (R322). -/
def NVS_RECSTAT_COPY : Fld := ⟨0x40009034, 12, 1, .ro, 0⟩

/-- NVS_RECSTAT.LEN (R322). -/
def NVS_RECSTAT_LEN : Fld := ⟨0x40009034, 16, 10, .ro, 0⟩

/-- NVS_RECSEQ.SEQ (R322). -/
def NVS_RECSEQ_SEQ : Fld := ⟨0x40009038, 0, 32, .ro, 0⟩

/-- NVS_TLYCMD.TLY (R322). -/
def NVS_TLYCMD_TLY : Fld := ⟨0x40009040, 0, 5, .rw, 0⟩

/-- NVS_TLYCMD.OP (R322). -/
def NVS_TLYCMD_OP : Fld := ⟨0x40009040, 8, 1, .rw, 0⟩

/-- NVS_TLYAMT.AMOUNT (R322). -/
def NVS_TLYAMT_AMOUNT : Fld := ⟨0x40009044, 0, 32, .rw, 0⟩

/-- NVS_TLYLO.VALUE (R322). -/
def NVS_TLYLO_VALUE : Fld := ⟨0x40009048, 0, 32, .ro, 0⟩

/-- NVS_TLYHI.VALUE (R322). -/
def NVS_TLYHI_VALUE : Fld := ⟨0x4000904C, 0, 32, .ro, 0⟩

/-- NVS_TLYSTAT.RESULT (R322). -/
def NVS_TLYSTAT_RESULT : Fld := ⟨0x40009050, 0, 8, .ro, 0⟩

/-- NVS_TLYSTAT.REPAIRED (R322). -/
def NVS_TLYSTAT_REPAIRED : Fld := ⟨0x40009050, 8, 1, .ro, 0⟩

/-- NVS_SCRUB.SWEEP (R322). -/
def NVS_SCRUB_SWEEP : Fld := ⟨0x40009060, 0, 8, .rw, 24⟩

/-- NVS_SCRUBPOS.PAGE (R322). -/
def NVS_SCRUBPOS_PAGE : Fld := ⟨0x40009064, 0, 13, .ro, 0⟩

/-- NVS_SPARE.USED (R322). -/
def NVS_SPARE_USED : Fld := ⟨0x40009068, 0, 7, .ro, 0⟩

/-- NVS_WBUF.DATA (R322). -/
def NVS_WBUF_DATA (n : Nat) : Fld := ⟨0x40009400 + 4 * n, 0, 32, .rw, 0⟩

/-- RTC_TIME0.SUBSEC (R339). -/
def RTC_TIME0_SUBSEC : Fld := ⟨0x4000A000, 0, 8, .ro, 0⟩

/-- RTC_TIME0.SEC (R339). -/
def RTC_TIME0_SEC : Fld := ⟨0x4000A000, 8, 6, .ro, 0⟩

/-- RTC_TIME0.MIN (R339). -/
def RTC_TIME0_MIN : Fld := ⟨0x4000A000, 16, 6, .ro, 0⟩

/-- RTC_TIME0.HOUR (R339). -/
def RTC_TIME0_HOUR : Fld := ⟨0x4000A000, 24, 5, .ro, 0⟩

/-- RTC_TIME1.WDAY (R339). -/
def RTC_TIME1_WDAY : Fld := ⟨0x4000A004, 0, 3, .ro, 0⟩

/-- RTC_TIME1.DAY (R339). -/
def RTC_TIME1_DAY : Fld := ⟨0x4000A004, 8, 5, .ro, 1⟩

/-- RTC_TIME1.MONTH (R339). -/
def RTC_TIME1_MONTH : Fld := ⟨0x4000A004, 16, 4, .ro, 1⟩

/-- RTC_TIME1.YEAR (R339). -/
def RTC_TIME1_YEAR : Fld := ⟨0x4000A004, 24, 8, .ro, 0⟩

/-- RTC_STAGE0.SEC (R339). -/
def RTC_STAGE0_SEC : Fld := ⟨0x4000A008, 8, 6, .rw, 0⟩

/-- RTC_STAGE0.MIN (R339). -/
def RTC_STAGE0_MIN : Fld := ⟨0x4000A008, 16, 6, .rw, 0⟩

/-- RTC_STAGE0.HOUR (R339). -/
def RTC_STAGE0_HOUR : Fld := ⟨0x4000A008, 24, 5, .rw, 0⟩

/-- RTC_STAGE1.WDAY (R339). -/
def RTC_STAGE1_WDAY : Fld := ⟨0x4000A00C, 0, 3, .rw, 0⟩

/-- RTC_STAGE1.DAY (R339). -/
def RTC_STAGE1_DAY : Fld := ⟨0x4000A00C, 8, 5, .rw, 1⟩

/-- RTC_STAGE1.MONTH (R339). -/
def RTC_STAGE1_MONTH : Fld := ⟨0x4000A00C, 16, 4, .rw, 1⟩

/-- RTC_STAGE1.YEAR (R339). -/
def RTC_STAGE1_YEAR : Fld := ⟨0x4000A00C, 24, 8, .rw, 0⟩

/-- RTC_COMMIT.GO (R339). -/
def RTC_COMMIT_GO : Fld := ⟨0x4000A010, 0, 1, .wo, 0⟩

/-- RTC_STAT.OSF (R339). -/
def RTC_STAT_OSF : Fld := ⟨0x4000A014, 0, 1, .ro, 1⟩

/-- RTC_STAT.SRC (R339). -/
def RTC_STAT_SRC : Fld := ⟨0x4000A014, 1, 1, .ro, 1⟩

/-- RTC_STAT.CPEND (R339). -/
def RTC_STAT_CPEND : Fld := ⟨0x4000A014, 2, 1, .ro, 0⟩

/-- RTC_EVT.ALM0 (R339). -/
def RTC_EVT_ALM0 : Fld := ⟨0x4000A018, 0, 1, .w1c, 0⟩

/-- RTC_EVT.ALM1 (R339). -/
def RTC_EVT_ALM1 : Fld := ⟨0x4000A018, 1, 1, .w1c, 0⟩

/-- RTC_EVT.PER (R339). -/
def RTC_EVT_PER : Fld := ⟨0x4000A018, 2, 1, .w1c, 0⟩

/-- RTC_EVT.ALMSKIP0 (R339). -/
def RTC_EVT_ALMSKIP0 : Fld := ⟨0x4000A018, 3, 1, .w1c, 0⟩

/-- RTC_EVT.ALMSKIP1 (R339). -/
def RTC_EVT_ALMSKIP1 : Fld := ⟨0x4000A018, 4, 1, .w1c, 0⟩

/-- RTC_EVT.XSTOP (R339). -/
def RTC_EVT_XSTOP : Fld := ⟨0x4000A018, 5, 1, .w1c, 0⟩

/-- RTC_EVT.XRUN (R339). -/
def RTC_EVT_XRUN : Fld := ⟨0x4000A018, 6, 1, .w1c, 0⟩

/-- RTC_EVT.CREJ (R339). -/
def RTC_EVT_CREJ : Fld := ⟨0x4000A018, 7, 1, .w1c, 0⟩

/-- RTC_INTEN.EN (R339). -/
def RTC_INTEN_EN : Fld := ⟨0x4000A01C, 0, 8, .rw, 0⟩

/-- RTC_ALMT0.SEC (R339). -/
def RTC_ALMT0_SEC (n : Nat) : Fld := ⟨0x4000A020 + 16 * n, 8, 6, .rw, 0⟩

/-- RTC_ALMT0.MIN (R339). -/
def RTC_ALMT0_MIN (n : Nat) : Fld := ⟨0x4000A020 + 16 * n, 16, 6, .rw, 0⟩

/-- RTC_ALMT0.HOUR (R339). -/
def RTC_ALMT0_HOUR (n : Nat) : Fld := ⟨0x4000A020 + 16 * n, 24, 5, .rw, 0⟩

/-- RTC_ALMT1.WDAY (R339). -/
def RTC_ALMT1_WDAY (n : Nat) : Fld := ⟨0x4000A024 + 16 * n, 0, 3, .rw, 0⟩

/-- RTC_ALMT1.DAY (R339). -/
def RTC_ALMT1_DAY (n : Nat) : Fld := ⟨0x4000A024 + 16 * n, 8, 5, .rw, 1⟩

/-- RTC_ALMT1.MONTH (R339). -/
def RTC_ALMT1_MONTH (n : Nat) : Fld := ⟨0x4000A024 + 16 * n, 16, 4, .rw, 1⟩

/-- RTC_ALMT1.YEAR (R339). -/
def RTC_ALMT1_YEAR (n : Nat) : Fld := ⟨0x4000A024 + 16 * n, 24, 8, .rw, 0⟩

/-- RTC_ALMCFG.MSEC (R339). -/
def RTC_ALMCFG_MSEC (n : Nat) : Fld := ⟨0x4000A028 + 16 * n, 0, 1, .rw, 0⟩

/-- RTC_ALMCFG.MMIN (R339). -/
def RTC_ALMCFG_MMIN (n : Nat) : Fld := ⟨0x4000A028 + 16 * n, 1, 1, .rw, 0⟩

/-- RTC_ALMCFG.MHOUR (R339). -/
def RTC_ALMCFG_MHOUR (n : Nat) : Fld := ⟨0x4000A028 + 16 * n, 2, 1, .rw, 0⟩

/-- RTC_ALMCFG.MWDAY (R339). -/
def RTC_ALMCFG_MWDAY (n : Nat) : Fld := ⟨0x4000A028 + 16 * n, 3, 1, .rw, 0⟩

/-- RTC_ALMCFG.MDAY (R339). -/
def RTC_ALMCFG_MDAY (n : Nat) : Fld := ⟨0x4000A028 + 16 * n, 4, 1, .rw, 0⟩

/-- RTC_ALMCFG.MMONTH (R339). -/
def RTC_ALMCFG_MMONTH (n : Nat) : Fld := ⟨0x4000A028 + 16 * n, 5, 1, .rw, 0⟩

/-- RTC_ALMCFG.MYEAR (R339). -/
def RTC_ALMCFG_MYEAR (n : Nat) : Fld := ⟨0x4000A028 + 16 * n, 6, 1, .rw, 0⟩

/-- RTC_ALMCFG.ARM (R339). -/
def RTC_ALMCFG_ARM (n : Nat) : Fld := ⟨0x4000A028 + 16 * n, 8, 1, .rw, 0⟩

/-- RTC_ALMCFG.CATCH (R339). -/
def RTC_ALMCFG_CATCH (n : Nat) : Fld := ⟨0x4000A028 + 16 * n, 9, 1, .rw, 0⟩

/-- RTC_PERIOD.PERIOD (R339). -/
def RTC_PERIOD_PERIOD : Fld := ⟨0x4000A040, 0, 25, .rw, 0⟩

/-- RTC_CAL.CAL (R339). -/
def RTC_CAL_CAL : Fld := ⟨0x4000A044, 0, 12, .rw, 0⟩

/-- SEG_CFG.EN (R349). -/
def SEG_CFG_EN : Fld := ⟨0x4000B000, 0, 1, .rw, 0⟩

/-- SEG_CFG.BIAS (R349). -/
def SEG_CFG_BIAS : Fld := ⟨0x4000B000, 1, 1, .rw, 1⟩

/-- SEG_CFG.NCOM (R349). -/
def SEG_CFG_NCOM : Fld := ⟨0x4000B000, 2, 3, .rw, 7⟩

/-- SEG_CFG.CHKEN (R349). -/
def SEG_CFG_CHKEN : Fld := ⟨0x4000B000, 5, 1, .rw, 0⟩

/-- SEG_CFG.DIV (R349). -/
def SEG_CFG_DIV : Fld := ⟨0x4000B000, 8, 8, .rw, 32⟩

/-- SEG_VLCD.V0 (R349). -/
def SEG_VLCD_V0 : Fld := ⟨0x4000B004, 0, 10, .rw, 330⟩

/-- SEG_VLCD.SLOPE (R349). -/
def SEG_VLCD_SLOPE : Fld := ⟨0x4000B004, 16, 8, .rw, 216⟩

/-- SEG_COMMIT.GO (R349). -/
def SEG_COMMIT_GO : Fld := ⟨0x4000B008, 0, 1, .wo, 0⟩

/-- SEG_CRCEXP.EXP (R349). -/
def SEG_CRCEXP_EXP : Fld := ⟨0x4000B00C, 0, 32, .rw, 0⟩

/-- SEG_STAT.VLCD (R349). -/
def SEG_STAT_VLCD : Fld := ⟨0x4000B010, 0, 10, .ro, 0⟩

/-- SEG_STAT.CPEND (R349). -/
def SEG_STAT_CPEND : Fld := ⟨0x4000B010, 16, 1, .ro, 0⟩

/-- SEG_STAT.MIS (R349). -/
def SEG_STAT_MIS : Fld := ⟨0x4000B010, 17, 1, .ro, 0⟩

/-- SEG_STAT.TEMP (R349). -/
def SEG_STAT_TEMP : Fld := ⟨0x4000B010, 24, 8, .ro, 0⟩

/-- SEG_CRC.CRC (R349). -/
def SEG_CRC_CRC : Fld := ⟨0x4000B014, 0, 32, .ro, 0⟩

/-- SEG_EVT.FRAME (R349). -/
def SEG_EVT_FRAME : Fld := ⟨0x4000B018, 0, 1, .w1c, 0⟩

/-- SEG_EVT.CRCMIS (R349). -/
def SEG_EVT_CRCMIS : Fld := ⟨0x4000B018, 1, 1, .w1c, 0⟩

/-- SEG_EVT.COPIED (R349). -/
def SEG_EVT_COPIED : Fld := ⟨0x4000B018, 2, 1, .w1c, 0⟩

/-- SEG_EVT.UE (R349). -/
def SEG_EVT_UE : Fld := ⟨0x4000B018, 3, 1, .w1c, 0⟩

/-- SEG_INTEN.EN (R349). -/
def SEG_INTEN_EN : Fld := ⟨0x4000B01C, 0, 4, .rw, 0⟩

/-- EPD_CFG.EN (R369). -/
def EPD_CFG_EN : Fld := ⟨0x4000C000, 0, 1, .rw, 0⟩

/-- EPD_CFG.THSEL (R369). -/
def EPD_CFG_THSEL : Fld := ⟨0x4000C000, 1, 1, .rw, 0⟩

/-- EPD_CFG.REV (R369). -/
def EPD_CFG_REV : Fld := ⟨0x4000C000, 2, 1, .rw, 0⟩

/-- EPD_CFG.SEG (R369). -/
def EPD_CFG_SEG : Fld := ⟨0x4000C000, 4, 4, .rw, 0⟩

/-- EPD_PANEL.WIDTH (R369). -/
def EPD_PANEL_WIDTH : Fld := ⟨0x4000C004, 0, 11, .rw, 1024⟩

/-- EPD_PANEL.HEIGHT (R369). -/
def EPD_PANEL_HEIGHT : Fld := ⟨0x4000C004, 16, 10, .rw, 768⟩

/-- EPD_TIM0.LINE (R369). -/
def EPD_TIM0_LINE : Fld := ⟨0x4000C008, 0, 12, .rw, 306⟩

/-- EPD_TIM0.GPW (R369). -/
def EPD_TIM0_GPW : Fld := ⟨0x4000C008, 16, 8, .rw, 64⟩

/-- EPD_TIM1.FRAME (R369). -/
def EPD_TIM1_FRAME : Fld := ⟨0x4000C00C, 0, 20, .rw, 235294⟩

/-- EPD_HV.HVTO (R369). -/
def EPD_HV_HVTO : Fld := ⟨0x4000C010, 0, 8, .rw, 10⟩

/-- EPD_HV.SETTLE (R369). -/
def EPD_HV_SETTLE : Fld := ⟨0x4000C010, 8, 8, .rw, 2⟩

/-- EPD_VCOM.V0 (R369). -/
def EPD_VCOM_V0 : Fld := ⟨0x4000C014, 0, 9, .rw, 200⟩

/-- EPD_VCOM.VSLOPE (R369). -/
def EPD_VCOM_VSLOPE : Fld := ⟨0x4000C014, 16, 8, .rw, 0⟩

/-- EPD_THCFG.RAW0 (R369). -/
def EPD_THCFG_RAW0 : Fld := ⟨0x4000C018, 0, 12, .rw, 2048⟩

/-- EPD_THCFG.T0 (R369). -/
def EPD_THCFG_T0 : Fld := ⟨0x4000C018, 16, 8, .rw, 25⟩

/-- EPD_THCFG.K (R369). -/
def EPD_THCFG_K : Fld := ⟨0x4000C018, 24, 8, .rw, 240⟩

/-- EPD_BANDT.T (R369). -/
def EPD_BANDT_T (n k : Nat) : Fld := ⟨0x4000C020 + 4 * n, 8 * k, 8, .rw, ([0x080400FC, 0x1814100C, 0x2824201C, 0x0034302C].getD n 0) / 2 ^ (8 * k) % 256⟩

/-- EPD_INIT.LEVEL (R369). -/
def EPD_INIT_LEVEL : Fld := ⟨0x4000C030, 0, 4, .rw, 0⟩

/-- EPD_INIT.GO (R369). -/
def EPD_INIT_GO : Fld := ⟨0x4000C030, 8, 1, .wo, 0⟩

/-- EPD_CTL.STATEOK (R369). -/
def EPD_CTL_STATEOK : Fld := ⟨0x4000C034, 0, 1, .wo, 0⟩

/-- EPD_STAT.STATELOST (R369). -/
def EPD_STAT_STATELOST : Fld := ⟨0x4000C038, 0, 1, .ro, 1⟩

/-- EPD_STAT.SCAN (R369). -/
def EPD_STAT_SCAN : Fld := ⟨0x4000C038, 1, 1, .ro, 0⟩

/-- EPD_STAT.HVON (R369). -/
def EPD_STAT_HVON : Fld := ⟨0x4000C038, 2, 1, .ro, 0⟩

/-- EPD_STAT.INITBUSY (R369). -/
def EPD_STAT_INITBUSY : Fld := ⟨0x4000C038, 3, 1, .ro, 0⟩

/-- EPD_STAT.TEMPDRIFT (R369). -/
def EPD_STAT_TEMPDRIFT : Fld := ⟨0x4000C038, 4, 1, .w1c, 0⟩

/-- EPD_STAT.THFAULT (R369). -/
def EPD_STAT_THFAULT : Fld := ⟨0x4000C038, 5, 1, .ro, 0⟩

/-- EPD_STAT.BAND (R369). -/
def EPD_STAT_BAND : Fld := ⟨0x4000C038, 8, 4, .ro, 0⟩

/-- EPD_STAT.NOUT (R369). -/
def EPD_STAT_NOUT : Fld := ⟨0x4000C038, 16, 5, .ro, 0⟩

/-- EPD_STAT.TEMP (R369). -/
def EPD_STAT_TEMP : Fld := ⟨0x4000C038, 24, 8, .ro, 0⟩

/-- EPD_EVT.UPDEND (R369). -/
def EPD_EVT_UPDEND : Fld := ⟨0x4000C03C, 0, 1, .w1c, 0⟩

/-- EPD_EVT.CRCMIS (R369). -/
def EPD_EVT_CRCMIS : Fld := ⟨0x4000C03C, 1, 1, .w1c, 0⟩

/-- EPD_EVT.UE (R369). -/
def EPD_EVT_UE : Fld := ⟨0x4000C03C, 2, 1, .w1c, 0⟩

/-- EPD_EVT.HVFAIL (R369). -/
def EPD_EVT_HVFAIL : Fld := ⟨0x4000C03C, 3, 1, .w1c, 0⟩

/-- EPD_EVT.LATE (R369). -/
def EPD_EVT_LATE : Fld := ⟨0x4000C03C, 4, 1, .w1c, 0⟩

/-- EPD_EVT.STLOST (R369). -/
def EPD_EVT_STLOST : Fld := ⟨0x4000C03C, 5, 1, .w1c, 0⟩

/-- EPD_EVT.INITDONE (R369). -/
def EPD_EVT_INITDONE : Fld := ⟨0x4000C03C, 6, 1, .w1c, 0⟩

/-- EPD_EVT.DROP (R369). -/
def EPD_EVT_DROP : Fld := ⟨0x4000C03C, 7, 1, .w1c, 0⟩

/-- EPD_EVT.RGNREJ (R369). -/
def EPD_EVT_RGNREJ : Fld := ⟨0x4000C03C, 8, 1, .w1c, 0⟩

/-- EPD_INTEN.EN (R369). -/
def EPD_INTEN_EN : Fld := ⟨0x4000C040, 0, 9, .rw, 0⟩

/-- EPD_LATECNT.COUNT (R369). -/
def EPD_LATECNT_COUNT : Fld := ⟨0x4000C044, 0, 32, .rc, 0⟩

/-- EPD_THRAW.RAW (R369). -/
def EPD_THRAW_RAW : Fld := ⟨0x4000C048, 0, 12, .ro, 0⟩

/-- TCH_CFG.EN (R381). -/
def TCH_CFG_EN : Fld := ⟨0x4000D000, 0, 1, .rw, 0⟩

/-- TCH_CFG.MODE (R381). -/
def TCH_CFG_MODE : Fld := ⟨0x4000D000, 1, 2, .rw, 0⟩

/-- TCH_CFG.DEB (R381). -/
def TCH_CFG_DEB : Fld := ⟨0x4000D000, 4, 4, .rw, 3⟩

/-- TCH_CFG.TRACK (R381). -/
def TCH_CFG_TRACK : Fld := ⟨0x4000D000, 8, 4, .rw, 6⟩

/-- TCH_CFG.PERIOD (R381). -/
def TCH_CFG_PERIOD : Fld := ⟨0x4000D000, 16, 8, .rw, 10⟩

/-- TCH_PINCFG.ROLE (R381). -/
def TCH_PINCFG_ROLE (k : Nat) : Fld := ⟨0x4000D004, 2 * k, 2, .rw, 0⟩

/-- TCH_DROP.DROP (R381). -/
def TCH_DROP_DROP : Fld := ⟨0x4000D008, 0, 16, .rw, 0⟩

/-- TCH_THR.SELF (R381). -/
def TCH_THR_SELF : Fld := ⟨0x4000D00C, 0, 12, .rw, 200⟩

/-- TCH_THR.MUT (R381). -/
def TCH_THR_MUT : Fld := ⟨0x4000D00C, 16, 12, .rw, 80⟩

/-- TCH_MAXON.SEC (R381). -/
def TCH_MAXON_SEC : Fld := ⟨0x4000D010, 0, 16, .rw, 60⟩

/-- TCH_WAKE.PIN (R381). -/
def TCH_WAKE_PIN (k : Nat) : Fld := ⟨0x4000D014, 4 * k, 4, .rw, 0⟩

/-- TCH_WAKE.SLOTEN (R381). -/
def TCH_WAKE_SLOTEN : Fld := ⟨0x4000D014, 16, 4, .rw, 0⟩

/-- TCH_WAKE.TH (R381). -/
def TCH_WAKE_TH : Fld := ⟨0x4000D014, 20, 12, .rw, 100⟩

/-- TCH_STAT.RUN (R381). -/
def TCH_STAT_RUN : Fld := ⟨0x4000D018, 0, 1, .ro, 0⟩

/-- TCH_STAT.WSCAN (R381). -/
def TCH_STAT_WSCAN : Fld := ⟨0x4000D018, 1, 1, .ro, 0⟩

/-- TCH_STAT.FBASE (R381). -/
def TCH_STAT_FBASE : Fld := ⟨0x4000D018, 2, 1, .ro, 0⟩

/-- TCH_STATE.TOUCHED (R381). -/
def TCH_STATE_TOUCHED : Fld := ⟨0x4000D01C, 0, 16, .ro, 0⟩

/-- TCH_STATE.WET (R381). -/
def TCH_STATE_WET : Fld := ⟨0x4000D01C, 16, 16, .ro, 0⟩

/-- TCH_EVT.REPORT (R381). -/
def TCH_EVT_REPORT : Fld := ⟨0x4000D020, 0, 1, .w1c, 0⟩

/-- TCH_EVT.STUCK (R381). -/
def TCH_EVT_STUCK : Fld := ⟨0x4000D020, 1, 1, .w1c, 0⟩

/-- TCH_EVT.UNSTUCK (R381). -/
def TCH_EVT_UNSTUCK : Fld := ⟨0x4000D020, 2, 1, .w1c, 0⟩

/-- TCH_EVT.TAS (R381). -/
def TCH_EVT_TAS : Fld := ⟨0x4000D020, 3, 1, .w1c, 0⟩

/-- TCH_EVT.WAKEHIT (R381). -/
def TCH_EVT_WAKEHIT : Fld := ⟨0x4000D020, 4, 1, .w1c, 0⟩

/-- TCH_EVT.CFGERR (R381). -/
def TCH_EVT_CFGERR : Fld := ⟨0x4000D020, 5, 1, .w1c, 0⟩

/-- TCH_EVT.ARMED (R381). -/
def TCH_EVT_ARMED : Fld := ⟨0x4000D020, 6, 1, .w1c, 0⟩

/-- TCH_INTEN.EN (R381). -/
def TCH_INTEN_EN : Fld := ⟨0x4000D024, 0, 7, .rw, 0⟩

/-- TCH_STRONG.X (R381). -/
def TCH_STRONG_X : Fld := ⟨0x4000D028, 0, 3, .ro, 0⟩

/-- TCH_STRONG.Y (R381). -/
def TCH_STRONG_Y : Fld := ⟨0x4000D028, 4, 3, .ro, 0⟩

/-- TCH_STRONG.VALID (R381). -/
def TCH_STRONG_VALID : Fld := ⟨0x4000D028, 7, 1, .ro, 0⟩

/-- TCH_STRONG.DELTA (R381). -/
def TCH_STRONG_DELTA : Fld := ⟨0x4000D028, 16, 16, .ro, 0⟩

/-- TCH_CHST.STATE (R381). -/
def TCH_CHST_STATE (n : Nat) : Fld := ⟨0x4000D040 + 4 * n, 0, 3, .ro, 0⟩

/-- TCH_CHST.TAS (R381). -/
def TCH_CHST_TAS (n : Nat) : Fld := ⟨0x4000D040 + 4 * n, 3, 1, .ro, 0⟩

/-- TCH_CHST.PROV (R381). -/
def TCH_CHST_PROV (n : Nat) : Fld := ⟨0x4000D040 + 4 * n, 4, 1, .ro, 0⟩

/-- TCH_CHST.SELF (R381). -/
def TCH_CHST_SELF (n : Nat) : Fld := ⟨0x4000D040 + 4 * n, 16, 16, .ro, 0⟩

/-- TCH_CHBASE.SBASE (R381). -/
def TCH_CHBASE_SBASE (n : Nat) : Fld := ⟨0x4000D080 + 4 * n, 0, 16, .ro, 0⟩

/-- TCH_NODE.COUNT (R381). -/
def TCH_NODE_COUNT (n : Nat) : Fld := ⟨0x4000D100 + 4 * n, 0, 16, .ro, 0⟩

/-- TCH_NODE.MBASE (R381). -/
def TCH_NODE_MBASE (n : Nat) : Fld := ⟨0x4000D100 + 4 * n, 16, 16, .ro, 0⟩

/-- SEC_ID0.DEVID (R416). -/
def SEC_ID0_DEVID : Fld := ⟨0x4000E000, 0, 32, .ro, 0⟩

/-- SEC_ID1.DEVID (R416). -/
def SEC_ID1_DEVID : Fld := ⟨0x4000E004, 0, 32, .ro, 0⟩

/-- SEC_LCSTAT.STATE (R416). -/
def SEC_LCSTAT_STATE : Fld := ⟨0x4000E008, 0, 3, .ro, 0⟩

/-- SEC_LCSTAT.TENURE (R416). -/
def SEC_LCSTAT_TENURE : Fld := ⟨0x4000E008, 3, 5, .ro, 0⟩

/-- SEC_LCSTAT.ANCHOR (R416). -/
def SEC_LCSTAT_ANCHOR : Fld := ⟨0x4000E008, 8, 1, .ro, 0⟩

/-- SEC_LCSTAT.WIPEPEND (R416). -/
def SEC_LCSTAT_WIPEPEND : Fld := ⟨0x4000E008, 9, 1, .ro, 0⟩

/-- SEC_LCSTAT.SLOTS (R416). -/
def SEC_LCSTAT_SLOTS : Fld := ⟨0x4000E008, 12, 4, .ro, 0⟩

/-- SEC_LCSTAT.TAMPIN (R416). -/
def SEC_LCSTAT_TAMPIN : Fld := ⟨0x4000E008, 16, 1, .ro, 0⟩

/-- SEC_FWSTAT.AUTH (R416). -/
def SEC_FWSTAT_AUTH : Fld := ⟨0x4000E00C, 0, 2, .ro, 0⟩

/-- SEC_FWSTAT.POLICY (R416). -/
def SEC_FWSTAT_POLICY : Fld := ⟨0x4000E00C, 2, 1, .ro, 0⟩

/-- SEC_FWSTAT.ACCEPT (R416). -/
def SEC_FWSTAT_ACCEPT : Fld := ⟨0x4000E00C, 3, 1, .ro, 0⟩

/-- SEC_FWDIG.DIG (R416). -/
def SEC_FWDIG_DIG (n : Nat) : Fld := ⟨0x4000E020 + 4 * n, 0, 32, .ro, 0⟩

/-- SEC_SESS.OPEN (R416). -/
def SEC_SESS_OPEN : Fld := ⟨0x4000E040, 0, 1, .ro, 0⟩

/-- SEC_SESS.CHAL (R416). -/
def SEC_SESS_CHAL : Fld := ⟨0x4000E040, 1, 1, .ro, 0⟩

/-- SEC_SESS.CLAIM (R416). -/
def SEC_SESS_CLAIM : Fld := ⟨0x4000E040, 2, 1, .ro, 0⟩

/-- SEC_SESS.PRIN (R416). -/
def SEC_SESS_PRIN : Fld := ⟨0x4000E040, 4, 4, .ro, 0⟩

/-- SEC_SESS.FAILS (R416). -/
def SEC_SESS_FAILS : Fld := ⟨0x4000E040, 8, 5, .ro, 0⟩

/-- SEC_CFG.SESSTO (R416). -/
def SEC_CFG_SESSTO : Fld := ⟨0x4000E044, 0, 8, .rw, 60⟩

/-- SEC_EVT.TAMPER (R416). -/
def SEC_EVT_TAMPER : Fld := ⟨0x4000E048, 0, 1, .w1c, 0⟩

/-- SEC_EVT.SESSOPEN (R416). -/
def SEC_EVT_SESSOPEN : Fld := ⟨0x4000E048, 1, 1, .w1c, 0⟩

/-- SEC_EVT.SESSEND (R416). -/
def SEC_EVT_SESSEND : Fld := ⟨0x4000E048, 2, 1, .w1c, 0⟩

/-- SEC_EVT.AUTHFAIL (R416). -/
def SEC_EVT_AUTHFAIL : Fld := ⟨0x4000E048, 3, 1, .w1c, 0⟩

/-- SEC_EVT.CLAIM (R416). -/
def SEC_EVT_CLAIM : Fld := ⟨0x4000E048, 4, 1, .w1c, 0⟩

/-- SEC_EVT.LCCHG (R416). -/
def SEC_EVT_LCCHG : Fld := ⟨0x4000E048, 5, 1, .w1c, 0⟩

/-- SEC_EVT.DBGAUTH (R416). -/
def SEC_EVT_DBGAUTH : Fld := ⟨0x4000E048, 6, 1, .w1c, 0⟩

/-- SEC_EVT.FWFAIL (R416). -/
def SEC_EVT_FWFAIL : Fld := ⟨0x4000E048, 7, 1, .w1c, 0⟩

/-- SEC_INTEN.EN (R416). -/
def SEC_INTEN_EN : Fld := ⟨0x4000E04C, 0, 8, .rw, 0⟩

/-- SEC_AUTHCNT.COUNT (R416). -/
def SEC_AUTHCNT_COUNT : Fld := ⟨0x4000E050, 0, 16, .rc, 0⟩

/-- SEC_DBGCTL.PRIN (R416). -/
def SEC_DBGCTL_PRIN : Fld := ⟨0x4000E080, 0, 4, .rw, 0⟩

/-- SEC_DBGCTL.OPEN (R416). -/
def SEC_DBGCTL_OPEN : Fld := ⟨0x4000E080, 4, 1, .wo, 0⟩

/-- SEC_DBGCTL.PROVE (R416). -/
def SEC_DBGCTL_PROVE : Fld := ⟨0x4000E080, 5, 1, .wo, 0⟩

/-- SEC_DBGCTL.END (R416). -/
def SEC_DBGCTL_END : Fld := ⟨0x4000E080, 6, 1, .wo, 0⟩

/-- SEC_DBGCTL.STATE (R416). -/
def SEC_DBGCTL_STATE : Fld := ⟨0x4000E080, 8, 2, .ro, 0⟩

/-- SEC_DBGCTL.TAG (R416). -/
def SEC_DBGCTL_TAG : Fld := ⟨0x4000E080, 12, 4, .ro, 0⟩

/-- SEC_DBGCTL.RESULT (R416). -/
def SEC_DBGCTL_RESULT : Fld := ⟨0x4000E080, 16, 8, .ro, 0⟩

/-- SEC_DBGCHAL.DATA (R416). -/
def SEC_DBGCHAL_DATA (n : Nat) : Fld := ⟨0x4000E090 + 4 * n, 0, 32, .ro, 0⟩

/-- SEC_DBGRSP.DATA (R416). -/
def SEC_DBGRSP_DATA (n : Nat) : Fld := ⟨0x4000E0A0 + 4 * n, 0, 32, .wo, 0⟩

/-- SEC_LCCMD.KEY (R416). -/
def SEC_LCCMD_KEY : Fld := ⟨0x4000E0C0, 0, 16, .wo, 0⟩

/-- MBX_FMDB.RQ (R416). -/
def MBX_FMDB_RQ : Fld := ⟨0x4000F000, 0, 8, .w1s, 0⟩

/-- MBX_FMDONE.DONE (R416). -/
def MBX_FMDONE_DONE : Fld := ⟨0x4000F004, 0, 8, .w1c, 0⟩

/-- MBX_FMINTEN.EN (R416). -/
def MBX_FMINTEN_EN : Fld := ⟨0x4000F008, 0, 8, .rw, 0⟩

/-- MBX_LFCFG.EN (R416). -/
def MBX_LFCFG_EN : Fld := ⟨0x4000F010, 0, 1, .rw, 0⟩

/-- MBX_LFDB.ENTRY (R416). -/
def MBX_LFDB_ENTRY : Fld := ⟨0x4000F014, 0, 4, .w1c, 0⟩

/-- MBX_LFRPL.RPL (R416). -/
def MBX_LFRPL_RPL : Fld := ⟨0x4000F018, 0, 4, .w1s, 0⟩

/-- MBX_LFINTEN.EN (R416). -/
def MBX_LFINTEN_EN : Fld := ⟨0x4000F01C, 0, 4, .rw, 0⟩

/-- PWR_WDCFG.PERIOD (R439). -/
def PWR_WDCFG_PERIOD : Fld := ⟨0x40000040, 0, 16, .rwl, 256⟩

/-- PWR_WDCFG.WARN (R439). -/
def PWR_WDCFG_WARN : Fld := ⟨0x40000040, 16, 8, .rwl, 16⟩

/-- PWR_WDCFG.EN (R439). -/
def PWR_WDCFG_EN : Fld := ⟨0x40000040, 24, 1, .rwl, 0⟩

/-- PWR_WDCFG.LOCK (R439). -/
def PWR_WDCFG_LOCK : Fld := ⟨0x40000040, 31, 1, .w1s, 0⟩

/-- PWR_WDSVC.KEY (R439). -/
def PWR_WDSVC_KEY : Fld := ⟨0x40000044, 0, 16, .wo, 0⟩

/-- PWR_WDSTAT.REMAIN (R439). -/
def PWR_WDSTAT_REMAIN : Fld := ⟨0x40000048, 0, 24, .ro, 32768⟩

/-- PWR_WDSTAT.RUN (R439). -/
def PWR_WDSTAT_RUN : Fld := ⟨0x40000048, 24, 1, .ro, 0⟩

/-- PWR_WDSTAT.WARNED (R439). -/
def PWR_WDSTAT_WARNED : Fld := ⟨0x40000048, 25, 1, .w1c, 0⟩

/-- PWR_WDSTAT.BADSVC (R439). -/
def PWR_WDSTAT_BADSVC : Fld := ⟨0x40000048, 26, 1, .w1c, 0⟩

/-- PWR_RSTCAUSE.LAST (R439). -/
def PWR_RSTCAUSE_LAST : Fld := ⟨0x4000004C, 0, 4, .ro, 1⟩

/-- PWR_RSTCAUSE.SEEN (R439). -/
def PWR_RSTCAUSE_SEEN : Fld := ⟨0x4000004C, 16, 10, .w1c, 2⟩

/-- GPIO_FUNC.FUNC (R464). -/
def GPIO_FUNC_FUNC (k : Nat) : Fld := ⟨0x40014000, 2 * k, 2, .rw, if k < 4 then 2 else 0⟩

/-- GPIO_OUT.OUT (R464). -/
def GPIO_OUT_OUT : Fld := ⟨0x40014004, 0, 8, .rw, 0⟩

/-- GPIO_IN.IN (R464). -/
def GPIO_IN_IN : Fld := ⟨0x40014008, 0, 8, .ro, 0⟩

/-- GPIO_POL.INV (R464). -/
def GPIO_POL_INV : Fld := ⟨0x4001400C, 0, 4, .rw, 0⟩

/-- GPIO_PULL.PULL (R464). -/
def GPIO_PULL_PULL (k : Nat) : Fld := ⟨0x40014010, 2 * k, 2, .rw, 1⟩

/-- GPIO_EDGE.EDGE (R464). -/
def GPIO_EDGE_EDGE : Fld := ⟨0x40014014, 0, 8, .w1c, 0⟩

/-- GPIO_INTEN.EN (R464). -/
def GPIO_INTEN_EN : Fld := ⟨0x40014018, 0, 8, .rw, 0⟩

/-- SPI_CFG.EN (R468). -/
def SPI_CFG_EN (n : Nat) : Fld := ⟨0x40010000 + 0x1000 * n, 0, 1, .rw, 0⟩

/-- SPI_CFG.MODE (R468). -/
def SPI_CFG_MODE (n : Nat) : Fld := ⟨0x40010000 + 0x1000 * n, 1, 1, .rw, 0⟩

/-- SPI_CFG.QUAD (R468). -/
def SPI_CFG_QUAD (n : Nat) : Fld := ⟨0x40010000 + 0x1000 * n, 2, 1, .rw, 0⟩

/-- SPI_CFG.CSHOLD (R468). -/
def SPI_CFG_CSHOLD (n : Nat) : Fld := ⟨0x40010000 + 0x1000 * n, 3, 1, .rw, 0⟩

/-- SPI_CFG.RATE (R468). -/
def SPI_CFG_RATE (n : Nat) : Fld := ⟨0x40010000 + 0x1000 * n, 8, 16, .rw, 1000⟩

/-- SPI_CMD.LEN (R468). -/
def SPI_CMD_LEN (n : Nat) : Fld := ⟨0x40010004 + 0x1000 * n, 0, 16, .wo, 0⟩

/-- SPI_CMD.DIR (R468). -/
def SPI_CMD_DIR (n : Nat) : Fld := ⟨0x40010004 + 0x1000 * n, 16, 2, .wo, 0⟩

/-- SPI_TXD.DATA (R468). -/
def SPI_TXD_DATA (n : Nat) : Fld := ⟨0x40010008 + 0x1000 * n, 0, 8, .wo, 0⟩

/-- SPI_RXD.DATA (R468). -/
def SPI_RXD_DATA (n : Nat) : Fld := ⟨0x4001000C + 0x1000 * n, 0, 8, .ro, 0⟩

/-- SPI_RXD.VALID (R468). -/
def SPI_RXD_VALID (n : Nat) : Fld := ⟨0x4001000C + 0x1000 * n, 8, 1, .ro, 0⟩

/-- SPI_STAT.BUSY (R468). -/
def SPI_STAT_BUSY (n : Nat) : Fld := ⟨0x40010010 + 0x1000 * n, 0, 1, .ro, 0⟩

/-- SPI_STAT.CSLOW (R468). -/
def SPI_STAT_CSLOW (n : Nat) : Fld := ⟨0x40010010 + 0x1000 * n, 1, 1, .ro, 0⟩

/-- SPI_STAT.TXLVL (R468). -/
def SPI_STAT_TXLVL (n : Nat) : Fld := ⟨0x40010010 + 0x1000 * n, 8, 5, .ro, 0⟩

/-- SPI_STAT.RXLVL (R468). -/
def SPI_STAT_RXLVL (n : Nat) : Fld := ⟨0x40010010 + 0x1000 * n, 16, 5, .ro, 0⟩

/-- SPI_EVT.DONE (R468). -/
def SPI_EVT_DONE (n : Nat) : Fld := ⟨0x40010014 + 0x1000 * n, 0, 1, .w1c, 0⟩

/-- SPI_EVT.TXOVF (R468). -/
def SPI_EVT_TXOVF (n : Nat) : Fld := ⟨0x40010014 + 0x1000 * n, 1, 1, .w1c, 0⟩

/-- SPI_EVT.RXOVF (R468). -/
def SPI_EVT_RXOVF (n : Nat) : Fld := ⟨0x40010014 + 0x1000 * n, 2, 1, .w1c, 0⟩

/-- SPI_EVT.CMDERR (R468). -/
def SPI_EVT_CMDERR (n : Nat) : Fld := ⟨0x40010014 + 0x1000 * n, 3, 1, .w1c, 0⟩

/-- SPI_INTEN.EN (R468). -/
def SPI_INTEN_EN (n : Nat) : Fld := ⟨0x40010018 + 0x1000 * n, 0, 4, .rw, 0⟩

/-- SPI_DIV.N (R468). -/
def SPI_DIV_N (n : Nat) : Fld := ⟨0x4001001C + 0x1000 * n, 0, 16, .ro, 1⟩

/-- I2C_CFG.EN (R468). -/
def I2C_CFG_EN : Fld := ⟨0x40012000, 0, 1, .rw, 0⟩

/-- I2C_CFG.FAST (R468). -/
def I2C_CFG_FAST : Fld := ⟨0x40012000, 1, 1, .rw, 0⟩

/-- I2C_CMD.ADDR (R468). -/
def I2C_CMD_ADDR : Fld := ⟨0x40012004, 0, 7, .wo, 0⟩

/-- I2C_CMD.RD (R468). -/
def I2C_CMD_RD : Fld := ⟨0x40012004, 7, 1, .wo, 0⟩

/-- I2C_CMD.LEN (R468). -/
def I2C_CMD_LEN : Fld := ⟨0x40012004, 8, 8, .wo, 0⟩

/-- I2C_CMD.NOSTOP (R468). -/
def I2C_CMD_NOSTOP : Fld := ⟨0x40012004, 16, 1, .wo, 0⟩

/-- I2C_TXD.DATA (R468). -/
def I2C_TXD_DATA : Fld := ⟨0x40012008, 0, 8, .wo, 0⟩

/-- I2C_RXD.DATA (R468). -/
def I2C_RXD_DATA : Fld := ⟨0x4001200C, 0, 8, .ro, 0⟩

/-- I2C_RXD.VALID (R468). -/
def I2C_RXD_VALID : Fld := ⟨0x4001200C, 8, 1, .ro, 0⟩

/-- I2C_STAT.BUSY (R468). -/
def I2C_STAT_BUSY : Fld := ⟨0x40012010, 0, 1, .ro, 0⟩

/-- I2C_STAT.HELD (R468). -/
def I2C_STAT_HELD : Fld := ⟨0x40012010, 1, 1, .ro, 0⟩

/-- I2C_STAT.TXLVL (R468). -/
def I2C_STAT_TXLVL : Fld := ⟨0x40012010, 8, 5, .ro, 0⟩

/-- I2C_STAT.RXLVL (R468). -/
def I2C_STAT_RXLVL : Fld := ⟨0x40012010, 16, 5, .ro, 0⟩

/-- I2C_EVT.DONE (R468). -/
def I2C_EVT_DONE : Fld := ⟨0x40012014, 0, 1, .w1c, 0⟩

/-- I2C_EVT.NACKA (R468). -/
def I2C_EVT_NACKA : Fld := ⟨0x40012014, 1, 1, .w1c, 0⟩

/-- I2C_EVT.NACKD (R468). -/
def I2C_EVT_NACKD : Fld := ⟨0x40012014, 2, 1, .w1c, 0⟩

/-- I2C_EVT.TXOVF (R468). -/
def I2C_EVT_TXOVF : Fld := ⟨0x40012014, 3, 1, .w1c, 0⟩

/-- I2C_EVT.RXOVF (R468). -/
def I2C_EVT_RXOVF : Fld := ⟨0x40012014, 4, 1, .w1c, 0⟩

/-- I2C_EVT.TIMEOUT (R468). -/
def I2C_EVT_TIMEOUT : Fld := ⟨0x40012014, 5, 1, .w1c, 0⟩

/-- I2C_EVT.CMDERR (R468). -/
def I2C_EVT_CMDERR : Fld := ⟨0x40012014, 6, 1, .w1c, 0⟩

/-- I2C_INTEN.EN (R468). -/
def I2C_INTEN_EN : Fld := ⟨0x40012018, 0, 7, .rw, 0⟩

/-- UART_CFG.TXEN (R468). -/
def UART_CFG_TXEN : Fld := ⟨0x40013000, 0, 1, .rw, 0⟩

/-- UART_CFG.RXEN (R468). -/
def UART_CFG_RXEN : Fld := ⟨0x40013000, 1, 1, .rw, 0⟩

/-- UART_CFG.PARITY (R468). -/
def UART_CFG_PARITY : Fld := ⟨0x40013000, 2, 2, .rw, 0⟩

/-- UART_CFG.RATE (R468). -/
def UART_CFG_RATE : Fld := ⟨0x40013000, 8, 24, .rw, 9600⟩

/-- UART_TXD.DATA (R468). -/
def UART_TXD_DATA : Fld := ⟨0x40013004, 0, 8, .wo, 0⟩

/-- UART_RXD.DATA (R468). -/
def UART_RXD_DATA : Fld := ⟨0x40013008, 0, 8, .ro, 0⟩

/-- UART_RXD.VALID (R468). -/
def UART_RXD_VALID : Fld := ⟨0x40013008, 8, 1, .ro, 0⟩

/-- UART_RXD.PERR (R468). -/
def UART_RXD_PERR : Fld := ⟨0x40013008, 9, 1, .ro, 0⟩

/-- UART_RXD.FERR (R468). -/
def UART_RXD_FERR : Fld := ⟨0x40013008, 10, 1, .ro, 0⟩

/-- UART_STAT.TXBUSY (R468). -/
def UART_STAT_TXBUSY : Fld := ⟨0x4001300C, 0, 1, .ro, 0⟩

/-- UART_STAT.RXBUSY (R468). -/
def UART_STAT_RXBUSY : Fld := ⟨0x4001300C, 1, 1, .ro, 0⟩

/-- UART_STAT.TXLVL (R468). -/
def UART_STAT_TXLVL : Fld := ⟨0x4001300C, 8, 5, .ro, 0⟩

/-- UART_STAT.RXLVL (R468). -/
def UART_STAT_RXLVL : Fld := ⟨0x4001300C, 16, 5, .ro, 0⟩

/-- UART_EVT.RXBYTE (R468). -/
def UART_EVT_RXBYTE : Fld := ⟨0x40013010, 0, 1, .w1c, 0⟩

/-- UART_EVT.TXDONE (R468). -/
def UART_EVT_TXDONE : Fld := ⟨0x40013010, 1, 1, .w1c, 0⟩

/-- UART_EVT.TXOVF (R468). -/
def UART_EVT_TXOVF : Fld := ⟨0x40013010, 2, 1, .w1c, 0⟩

/-- UART_EVT.RXOVF (R468). -/
def UART_EVT_RXOVF : Fld := ⟨0x40013010, 3, 1, .w1c, 0⟩

/-- UART_EVT.PERR (R468). -/
def UART_EVT_PERR : Fld := ⟨0x40013010, 4, 1, .w1c, 0⟩

/-- UART_EVT.FERR (R468). -/
def UART_EVT_FERR : Fld := ⟨0x40013010, 5, 1, .w1c, 0⟩

/-- UART_INTEN.EN (R468). -/
def UART_INTEN_EN : Fld := ⟨0x40013014, 0, 6, .rw, 0⟩

/-- UART_DIV.D (R468). -/
def UART_DIV_D : Fld := ⟨0x40013018, 0, 20, .ro, 0x9C⟩

/-- MOV_CHCTL.START (R208). -/
def MOV_CHCTL_START (n : Nat) : Fld := ⟨0x40005100 + 32 * n, 0, 1, .wo, 0⟩

/-- MOV_CHCTL.STOP (R208). -/
def MOV_CHCTL_STOP (n : Nat) : Fld := ⟨0x40005100 + 32 * n, 1, 1, .wo, 0⟩

/-- MOV_CHDESC.ADDR (R208). -/
def MOV_CHDESC_ADDR (n : Nat) : Fld := ⟨0x40005104 + 32 * n, 5, 27, .rw, 0⟩

/-- MOV_CHSTAT.STATE (R208). -/
def MOV_CHSTAT_STATE (n : Nat) : Fld := ⟨0x40005108 + 32 * n, 0, 3, .ro, 0⟩

/-- MOV_CHSTAT.TOVR (R208). -/
def MOV_CHSTAT_TOVR (n : Nat) : Fld := ⟨0x40005108 + 32 * n, 3, 1, .w1c, 0⟩

/-- MOV_CHSTAT.TRIG (R208). -/
def MOV_CHSTAT_TRIG (n : Nat) : Fld := ⟨0x40005108 + 32 * n, 4, 1, .ro, 0⟩

/-- MOV_CHSTAT.RESULT (R208). -/
def MOV_CHSTAT_RESULT (n : Nat) : Fld := ⟨0x40005108 + 32 * n, 8, 8, .ro, 0⟩

/-- MOV_CHSTAT.TAG (R208). -/
def MOV_CHSTAT_TAG (n : Nat) : Fld := ⟨0x40005108 + 32 * n, 16, 4, .ro, 0⟩

/-- MOV_CHCUR.ADDR (R208). -/
def MOV_CHCUR_ADDR (n : Nat) : Fld := ⟨0x4000510C + 32 * n, 5, 27, .ro, 0⟩

/-- MOV_CHSRC.ADDR (R208). -/
def MOV_CHSRC_ADDR (n : Nat) : Fld := ⟨0x40005110 + 32 * n, 0, 32, .ro, 0⟩

/-- MOV_CHDST.ADDR (R208). -/
def MOV_CHDST_ADDR (n : Nat) : Fld := ⟨0x40005114 + 32 * n, 0, 32, .ro, 0⟩

/-- MOV_CHREM.REMAIN (R208). -/
def MOV_CHREM_REMAIN (n : Nat) : Fld := ⟨0x40005118 + 32 * n, 0, 16, .ro, 0⟩

/-- MOV_CHREM.DESCS (R208). -/
def MOV_CHREM_DESCS (n : Nat) : Fld := ⟨0x40005118 + 32 * n, 16, 16, .ro, 0⟩

/-- EPD_RQPOS.X (R362). -/
def EPD_RQPOS_X (n : Nat) : Fld := ⟨0x4000C080 + 32 * n, 0, 11, .rw, 0⟩

/-- EPD_RQPOS.Y (R362). -/
def EPD_RQPOS_Y (n : Nat) : Fld := ⟨0x4000C080 + 32 * n, 16, 10, .rw, 0⟩

/-- EPD_RQSIZE.W (R362). -/
def EPD_RQSIZE_W (n : Nat) : Fld := ⟨0x4000C084 + 32 * n, 0, 11, .rw, 0⟩

/-- EPD_RQSIZE.H (R362). -/
def EPD_RQSIZE_H (n : Nat) : Fld := ⟨0x4000C084 + 32 * n, 16, 10, .rw, 0⟩

/-- EPD_RQSRC.ADDR (R362). -/
def EPD_RQSRC_ADDR (n : Nat) : Fld := ⟨0x4000C088 + 32 * n, 0, 32, .rw, 0⟩

/-- EPD_RQCRC.EXP (R362). -/
def EPD_RQCRC_EXP (n : Nat) : Fld := ⟨0x4000C08C + 32 * n, 0, 32, .rw, 0⟩

/-- EPD_RQCTL.REGION (R362). -/
def EPD_RQCTL_REGION (n : Nat) : Fld := ⟨0x4000C090 + 32 * n, 0, 4, .rw, 0⟩

/-- EPD_RQCTL.QUEUE (R362). -/
def EPD_RQCTL_QUEUE (n : Nat) : Fld := ⟨0x4000C090 + 32 * n, 4, 1, .rw, 0⟩

/-- EPD_RQCTL.FORCE (R362). -/
def EPD_RQCTL_FORCE (n : Nat) : Fld := ⟨0x4000C090 + 32 * n, 5, 1, .rw, 0⟩

/-- EPD_RQCTL.CHK (R362). -/
def EPD_RQCTL_CHK (n : Nat) : Fld := ⟨0x4000C090 + 32 * n, 6, 1, .rw, 0⟩

/-- EPD_RQCTL.EVWAIT (R362). -/
def EPD_RQCTL_EVWAIT (n : Nat) : Fld := ⟨0x4000C090 + 32 * n, 7, 1, .rw, 0⟩

/-- EPD_RQSTAT.RESULT (R362). -/
def EPD_RQSTAT_RESULT (n : Nat) : Fld := ⟨0x4000C094 + 32 * n, 0, 8, .ro, 0⟩

/-- EPD_RQSTAT.WAIT (R362). -/
def EPD_RQSTAT_WAIT (n : Nat) : Fld := ⟨0x4000C094 + 32 * n, 8, 1, .ro, 0⟩

/-- EPD_RGNLO.X0 (R359). -/
def EPD_RGNLO_X0 (n : Nat) : Fld := ⟨0x4000C200 + 32 * n, 0, 11, .rw, 0⟩

/-- EPD_RGNLO.Y0 (R359). -/
def EPD_RGNLO_Y0 (n : Nat) : Fld := ⟨0x4000C200 + 32 * n, 16, 10, .rw, 0⟩

/-- EPD_RGNHI.X1 (R359). -/
def EPD_RGNHI_X1 (n : Nat) : Fld := ⟨0x4000C204 + 32 * n, 0, 11, .rw, 0⟩

/-- EPD_RGNHI.Y1 (R359). -/
def EPD_RGNHI_Y1 (n : Nat) : Fld := ⟨0x4000C204 + 32 * n, 16, 10, .rw, 0⟩

/-- EPD_RGNOWN.PRIN (R359). -/
def EPD_RGNOWN_PRIN (n : Nat) : Fld := ⟨0x4000C208 + 32 * n, 0, 4, .rw, 8⟩

/-- EPD_RGNOWN.EN (R359). -/
def EPD_RGNOWN_EN (n : Nat) : Fld := ⟨0x4000C208 + 32 * n, 4, 1, .rw, 0⟩

/-- EPD_RGNOWN.LOCKED (R359). -/
def EPD_RGNOWN_LOCKED (n : Nat) : Fld := ⟨0x4000C208 + 32 * n, 5, 1, .ro, 0⟩

/-- EPD_RGNST.STATE (R359). -/
def EPD_RGNST_STATE (n : Nat) : Fld := ⟨0x4000C20C + 32 * n, 0, 2, .ro, 0⟩

/-- EPD_RGNST.MATCH (R359). -/
def EPD_RGNST_MATCH (n : Nat) : Fld := ⟨0x4000C20C + 32 * n, 2, 1, .ro, 0⟩

/-- EPD_RGNST.TDRIFT (R359). -/
def EPD_RGNST_TDRIFT (n : Nat) : Fld := ⟨0x4000C20C + 32 * n, 3, 1, .ro, 0⟩

/-- EPD_RGNST.RESULT (R359). -/
def EPD_RGNST_RESULT (n : Nat) : Fld := ⟨0x4000C20C + 32 * n, 8, 8, .ro, 0⟩

/-- EPD_RGNCRC.CRC (R359). -/
def EPD_RGNCRC_CRC (n : Nat) : Fld := ⟨0x4000C210 + 32 * n, 0, 32, .ro, 0⟩

/-- The fields of the PWR_ page. -/
def pwrFields : List Fld :=
  [PWR_CFG_LISTEN, PWR_CFG_LINKSTOP, PWR_CFG_WAKECH, PWR_LVLREQ_LEVEL, PWR_LVLREQ_DURATION, PWR_LVLCFG_BASE, PWR_LVLSTAT_CUR, PWR_LVLSTAT_TARGET, PWR_LVLSTAT_BUSY, PWR_LVLSTAT_QUEUED, PWR_LVLSTAT_RESULT, PWR_LVLSTAT_DROPPED, PWR_LVLSTAT_EXPIRED, PWR_STAT_ABORTED, PWR_STAT_REFUSED, PWR_STAT_FORCED, PWR_STAT_ABTPT, PWR_STAT_REACHED, PWR_STAT_REFUSERS, PWR_NAKRSN1_AG8, PWR_NAKRSN1_AG9, PWR_KEEPSEG_KEEP, PWR_WAKEEN_EN0, PWR_WAKEEN_TAMPER, PWR_WAKEEN_EN9, PWR_WAKESRC_SRC, PWR_DOMSTAT_SYS, PWR_DOMSTAT_MEM, PWR_DOMSTAT_LINK, PWR_DOMSTAT_PIX] ++
  [PWR_DOMSTAT_STATE, PWR_SEGLOST_LOST, PWR_EVT_LVLDONE, PWR_EVT_DROPPED, PWR_EVT_EXPIRED, PWR_EVT_EXTLVL, PWR_EVT_SEGLOST, PWR_EVT_FORCEDWAKE, PWR_INTEN_EN, PWR_WDCFG_PERIOD, PWR_WDCFG_WARN, PWR_WDCFG_EN, PWR_WDCFG_LOCK, PWR_WDSVC_KEY, PWR_WDSTAT_REMAIN, PWR_WDSTAT_RUN, PWR_WDSTAT_WARNED, PWR_WDSTAT_BADSVC, PWR_RSTCAUSE_LAST, PWR_RSTCAUSE_SEEN] ++
  ((List.range 8).map fun k => PWR_NAKRSN0_AG k)

/-- The fields of the HRV_ page. -/
def hrvFields : List Fld :=
  [HRV_CFG_PERIOD, HRV_CFG_EN, HRV_POLICY_LINKSPEND, HRV_POLICY_BINDTO, HRV_POLICY_PRIMADMIT, HRV_SUPPLY_VSTO, HRV_SUPPLY_VBAT, HRV_STAT_SRC, HRV_STAT_SHUNT, HRV_STAT_FLOOR, HRV_STAT_PRIMOK, HRV_STAT_CAPBUSY, HRV_EVT_FLOORTRIP, HRV_EVT_TOPRIM, HRV_EVT_TOSTORE, HRV_EVT_SHUNTON, HRV_EVT_CHDROP, HRV_EVT_BROWN, HRV_EVT_CAPDONE, HRV_EVT_WAKEUP, HRV_EVT_WAKEDN, HRV_CAP_CAP, HRV_FLOOR_FLOOR, HRV_CAPMEAS_START, HRV_CAPMEAS_TSEL, HRV_CAPMEAS_RESULT, HRV_EAVAIL_EAVAIL, HRV_ERESV_ERESV, HRV_ELEVEL_LEVEL, HRV_RESREQ_AMOUNT] ++
  [HRV_RESREQ_CLASS, HRV_RESSTAT_RESULT, HRV_RESSTAT_TICKET, HRV_RESSTAT_PEND, HRV_RESREL_TICKET, HRV_LVLCOST_P3, HRV_LVLCOST_P4, HRV_LVLCOST_P5, HRV_WAKETH_VUP, HRV_WAKETH_VDN] ++
  ((List.range 4).map fun k => HRV_CHCFG_FRAC k) ++
  ((List.range 4).map fun n => HRV_CHSTAT_STATE n) ++
  ((List.range 4).map fun n => HRV_CHSTAT_VOP n) ++
  ((List.range 4).map fun n => HRV_CHSTAT_PIN n) ++
  ((List.range 5).map fun n => HRV_CLSAMT_AMOUNT n)

/-- The fields of the CORE_ page. -/
def coreFields : List Fld :=
  [CORE_LSHAD_VALID, CORE_LSHAD_REG, CORE_LSHADV_VALUE, CORE_ID_PART, CORE_ID_STEP, CORE_ID_ISA, CORE_PRED_P0, CORE_PRED_P1_P7, CORE_CYCLO_COUNT, CORE_CYCHI_COUNT, CORE_RSCFG_OVF, CORE_RSP_TOP, CORE_RSP_DEPTH, CORE_DSPCFG_GUARD, CORE_DSPSTAT_SATF, CORE_DSPSTAT_OVF40, CORE_REPST_VALID, CORE_REPST_REMAIN, CORE_UCFG_LOCK, CORE_UCFG_MAXW, CORE_UCFG_GEN, CORE_UFSTAT_CAUSE, CORE_UFSTAT_UPC, CORE_UFSTAT_ENTRY, CORE_USADDR_ADDR, CORE_USDLO_LO, CORE_USDHI_HI, CORE_USUSP_SGEN, CORE_STATUS_PL, CORE_STATUS_IE] ++
  [CORE_STATUS_EL, CORE_STATUS_PPL, CORE_STATUS_PIE, CORE_STATUS_THR, CORE_STATUS_PTHR, CORE_EPC_ADDR, CORE_ECAUSE_SLOT, CORE_ECAUSE_SYLIX, CORE_ECAUSE_FETCH, CORE_ECAUSE_HLVL, CORE_EXCCFG_STBUF, CORE_EXCCFG_LONGRES, CORE_EXCDLG_DLG, CORE_FADDR_ADDR, CORE_BEADDR_ADDR, CORE_BEINFO_VALID, CORE_BEINFO_MULTI, CORE_BEINFO_SIZE, CORE_BEINFO_LATER, CORE_PROG_VALID, CORE_PROG_KIND, CORE_PROG_Z, CORE_PROG_NEXT, CORE_PROG_LC, CORE_PROGA_ADDR, CORE_MSCR_VALUE, CORE_SSCR_VALUE, CORE_SWRST_KEY, CORE_DBLF_SLOT, CORE_DBLF_PSLOT] ++
  [CORE_DBLF_VALID, CORE_IRQEN_LINES, CORE_IRQPEND_LINES, CORE_IRQDLG_LINES, CORE_IRQSET_SW] ++
  ((List.range 16).map fun n => CORE_RSW_ADDR n) ++
  ((List.range 4).map fun n => CORE_CBASE_BASE n) ++
  ((List.range 4).map fun n => CORE_CLEN_LEN n) ++
  ((List.range 4).map fun n => CORE_UT_VALUE n) ++
  ((List.range 16).map fun n => CORE_DTE_VALID n) ++
  ((List.range 16).map fun n => CORE_DTE_INTR n) ++
  ((List.range 16).map fun n => CORE_DTE_PRIV n) ++
  ((List.range 16).map fun n => CORE_DTE_BLOCK n) ++
  ((List.range 16).map fun n => CORE_DTE_ENTRY n) ++
  ((List.range 4).flatMap fun n => (List.range 8).map fun k => CORE_IRQPRI_PRI n k)

/-- The fields of the MEM_ page. -/
def memFields : List Fld :=
  [MEM_ECCSTAT_CE, MEM_ECCSTAT_UE, MEM_ECCCNT_COUNT, MEM_UEADDR_ADDR, MEM_EVT_CE, MEM_EVT_UE, MEM_EVT_RGF, MEM_EVT_REPAIR, MEM_EVT_SPAREOUT, MEM_INTEN_EN, MEM_WIPESTAT_BANK, MEM_RGCFG_DEFS, MEM_RGCFG_DEFU, MEM_RGCFG_LOCK, MEM_RGFSTAT_VALID, MEM_RGFSTAT_OVR, MEM_RGFSTAT_REASON, MEM_RGFSTAT_MASTER, MEM_RGFSTAT_PRIN, MEM_RGFSTAT_WRITE, MEM_RGFSTAT_FETCH, MEM_RGFADDR_ADDR] ++
  ((List.range 8).map fun k => MEM_SPARE_ROWS k) ++
  ((List.range 8).map fun k => MEM_SPARECOL_COLS k) ++
  ((List.range 4).map fun n => MEM_CONF_COUNT n) ++
  ((List.range 16).map fun n => MEM_RGNBASE_ADDR n) ++
  ((List.range 16).map fun n => MEM_RGNLIM_ADDR n) ++
  ((List.range 16).map fun n => MEM_RGNATTR_EN n) ++
  ((List.range 16).map fun n => MEM_RGNATTR_SR n) ++
  ((List.range 16).map fun n => MEM_RGNATTR_SW n) ++
  ((List.range 16).map fun n => MEM_RGNATTR_SX n) ++
  ((List.range 16).map fun n => MEM_RGNATTR_UR n) ++
  ((List.range 16).map fun n => MEM_RGNATTR_UW n) ++
  ((List.range 16).map fun n => MEM_RGNATTR_UX n)

/-- The fields of the DRM_ page. -/
def drmFields : List Fld :=
  [DRM_CFG_SRIDLE, DRM_CFG_SCRUBEN, DRM_CFG_RMTH, DRM_SESS_OPEN, DRM_SESS_CLOSE, DRM_SESS_OPENST, DRM_SESS_RESULT, DRM_SESS_CUT, DRM_STAT_UNWIPED, DRM_STAT_WIPING, DRM_STAT_SCRUBSEG, DRM_ECCCNT_COUNT, DRM_UEADDR_ADDR, DRM_EVT_CE, DRM_EVT_UE, DRM_EVT_REMAP, DRM_EVT_SESSCUT, DRM_EVT_WIPEDONE, DRM_EVT_SPARELOW, DRM_INTEN_EN, DRM_REMAPCNT_USED, DRM_SCRUB_PERIOD]

/-- The fields of the MOV_ page. -/
def movFields : List Fld :=
  [MOV_EVT_DONE, MOV_EVT_ERR, MOV_EVT_DESC, MOV_INTEN_EN] ++
  ((List.range 4).map fun k => MOV_DLG_LVL k) ++
  ((List.range 4).map fun n => MOV_CHCTL_START n) ++
  ((List.range 4).map fun n => MOV_CHCTL_STOP n) ++
  ((List.range 4).map fun n => MOV_CHDESC_ADDR n) ++
  ((List.range 4).map fun n => MOV_CHSTAT_STATE n) ++
  ((List.range 4).map fun n => MOV_CHSTAT_TOVR n) ++
  ((List.range 4).map fun n => MOV_CHSTAT_TRIG n) ++
  ((List.range 4).map fun n => MOV_CHSTAT_RESULT n) ++
  ((List.range 4).map fun n => MOV_CHSTAT_TAG n) ++
  ((List.range 4).map fun n => MOV_CHCUR_ADDR n) ++
  ((List.range 4).map fun n => MOV_CHSRC_ADDR n) ++
  ((List.range 4).map fun n => MOV_CHDST_ADDR n) ++
  ((List.range 4).map fun n => MOV_CHREM_REMAIN n) ++
  ((List.range 4).map fun n => MOV_CHREM_DESCS n)

/-- The fields of the LNK_ page. -/
def lnkFields : List Fld :=
  [LNK_CFG_POSMODE, LNK_CFG_TRAIN, LNK_CFG_IDLETO, LNK_CFG_BACKOFF, LNK_CFG_WAKEDUR, LNK_POS_POS, LNK_STAT_STATE, LNK_STAT_MODE, LNK_STAT_LOST, LNK_STAT_FLOORLOCK, LNK_STAT_BACKOFF, LNK_STAT_PU, LNK_STAT_PD1, LNK_STAT_PD2, LNK_STAT_LU, LNK_STAT_LD1, LNK_STAT_LD2, LNK_EVT_PORTDN, LNK_EVT_PORTUP, LNK_EVT_LANEDN, LNK_EVT_CHDRERR, LNK_EVT_SHDRERR, LNK_EVT_NOEND, LNK_EVT_CUT, LNK_EVT_LATCH, LNK_EVT_CSLATE, LNK_EVT_NOENERGY, LNK_EVT_MISSED, LNK_EVT_EVIN, LNK_INTEN_EN] ++
  [LNK_ERRCNT0_CHDR, LNK_ERRCNT0_SHDR, LNK_ERRCNT1_CODE, LNK_ERRCNT1_NOEND, LNK_LATECNT_COUNT, LNK_CYCNO_CYCNO, LNK_CYCINFO_CYC, LNK_CYCINFO_HOP, LNK_LTIMELO_TIME, LNK_LTIMEHI_TIME, LNK_PDELAY_DELAY, LNK_CSLEAD_LEAD, LNK_EVIN_WORD, LNK_EVOUT_BITS]

/-- The fields of the TBL_ page. -/
def tblFields : List Fld :=
  [TBL_COMMIT_MASK, TBL_CMTSTAT_PEND, TBL_CMTSTAT_RESULT, TBL_CMTSTAT_BADTBL, TBL_CANCEL_MASK, TBL_READY_READY, TBL_LIVE_LIVE, TBL_EVT_FLIP, TBL_EVT_LAND, TBL_EVT_HINT, TBL_EVT_CMDHDR, TBL_EVT_CAPFULL, TBL_EVT_STALE, TBL_EVT_FWTO, TBL_INTEN_EN, TBL_LANDSEQ_SEQ, TBL_HINT_STATE, TBL_HINT_MS, TBL_CMDCFG_FWTO, TBL_CMDCNT_HDR, TBL_CMDCNT_ABORT] ++
  ((List.range 16).map fun n => TBL_SDESC0_BASE n) ++
  ((List.range 16).map fun n => TBL_SDESC0_ESIZE n) ++
  ((List.range 16).map fun n => TBL_SDESC0_MR n) ++
  ((List.range 16).map fun n => TBL_SDESC0_MW n) ++
  ((List.range 16).map fun n => TBL_SDESC0_CMDW n) ++
  ((List.range 16).map fun n => TBL_SDESC1_COUNT n) ++
  ((List.range 16).map fun n => TBL_LDESC0_BASE n) ++
  ((List.range 16).map fun n => TBL_LDESC0_ESIZE n) ++
  ((List.range 16).map fun n => TBL_LDESC0_MR n) ++
  ((List.range 16).map fun n => TBL_LDESC0_MW n) ++
  ((List.range 16).map fun n => TBL_LDESC0_CMDW n) ++
  ((List.range 16).map fun n => TBL_LDESC1_COUNT n) ++
  ((List.range 16).map fun n => TBL_LDESC1_GEN n)

/-- The fields of the EVF_ page. -/
def evfFields : List Fld :=
  [EVF_FIRE_CH, EVF_ASYNC_ASYNC] ++
  ((List.range 32).map fun n => EVF_CHOWN_PRIN n) ++
  ((List.range 32).map fun n => EVF_CHOWN_PRIV n) ++
  ((List.range 32).map fun n => EVF_CHPMLO_MASK n) ++
  ((List.range 32).map fun n => EVF_CHPMHI_MASK n) ++
  ((List.range 22).map fun n => EVF_CSEL_CH n) ++
  ((List.range 22).map fun n => EVF_CSEL_EN n) ++
  ((List.range 22).map fun n => EVF_CSEL_PEND n) ++
  ((List.range 22).map fun n => EVF_CSEL_MODE n) ++
  ((List.range 22).map fun n => EVF_CSEL_WPRIN n) ++
  ((List.range 4).map fun n => EVF_CAPSTAT_VALID n) ++
  ((List.range 4).map fun n => EVF_CAPSTAT_OVR n) ++
  ((List.range 4).map fun n => EVF_CAPSTAT_NOLT n) ++
  ((List.range 4).map fun n => EVF_CAPLO_TIME n) ++
  ((List.range 4).map fun n => EVF_CAPHI_TIME n)

/-- The fields of the NVS_ page. -/
def nvsFields : List Fld :=
  [NVS_STAT_PGBUSY, NVS_STAT_PGSUSP, NVS_STAT_RECBUSY, NVS_STAT_TLYBUSY, NVS_STAT_MOVING, NVS_STAT_HOLDRDY, NVS_EVT_CE, NVS_EVT_UE, NVS_EVT_PGDONE, NVS_EVT_RECDONE, NVS_EVT_TLYDONE, NVS_EVT_REFRESH, NVS_EVT_MOVED, NVS_EVT_SPAREOUT, NVS_EVT_JREPAIR, NVS_INTEN_EN, NVS_ECCCNT_COUNT, NVS_UEADDR_ADDR, NVS_PGADDR_ADDR, NVS_PGCMD_NWORDS, NVS_PGSTAT_RESULT, NVS_PGSTAT_WORDS, NVS_PGSTAT_TRUNC, NVS_PGSTAT_CUT, NVS_PGSTAT_HOLDLOW, NVS_RECCMD_REC, NVS_RECCMD_OP, NVS_RECCMD_LEN, NVS_RECSTAT_RESULT, NVS_RECSTAT_NOREC] ++
  [NVS_RECSTAT_TIE, NVS_RECSTAT_OLDER, NVS_RECSTAT_UE, NVS_RECSTAT_COPY, NVS_RECSTAT_LEN, NVS_RECSEQ_SEQ, NVS_TLYCMD_TLY, NVS_TLYCMD_OP, NVS_TLYAMT_AMOUNT, NVS_TLYLO_VALUE, NVS_TLYHI_VALUE, NVS_TLYSTAT_RESULT, NVS_TLYSTAT_REPAIRED, NVS_SCRUB_SWEEP, NVS_SCRUBPOS_PAGE, NVS_SPARE_USED] ++
  ((List.range 256).map fun n => NVS_WBUF_DATA n)

/-- The fields of the RTC_ page. -/
def rtcFields : List Fld :=
  [RTC_TIME0_SUBSEC, RTC_TIME0_SEC, RTC_TIME0_MIN, RTC_TIME0_HOUR, RTC_TIME1_WDAY, RTC_TIME1_DAY, RTC_TIME1_MONTH, RTC_TIME1_YEAR, RTC_STAGE0_SEC, RTC_STAGE0_MIN, RTC_STAGE0_HOUR, RTC_STAGE1_WDAY, RTC_STAGE1_DAY, RTC_STAGE1_MONTH, RTC_STAGE1_YEAR, RTC_COMMIT_GO, RTC_STAT_OSF, RTC_STAT_SRC, RTC_STAT_CPEND, RTC_EVT_ALM0, RTC_EVT_ALM1, RTC_EVT_PER, RTC_EVT_ALMSKIP0, RTC_EVT_ALMSKIP1, RTC_EVT_XSTOP, RTC_EVT_XRUN, RTC_EVT_CREJ, RTC_INTEN_EN, RTC_PERIOD_PERIOD, RTC_CAL_CAL] ++
  ((List.range 2).map fun n => RTC_ALMT0_SEC n) ++
  ((List.range 2).map fun n => RTC_ALMT0_MIN n) ++
  ((List.range 2).map fun n => RTC_ALMT0_HOUR n) ++
  ((List.range 2).map fun n => RTC_ALMT1_WDAY n) ++
  ((List.range 2).map fun n => RTC_ALMT1_DAY n) ++
  ((List.range 2).map fun n => RTC_ALMT1_MONTH n) ++
  ((List.range 2).map fun n => RTC_ALMT1_YEAR n) ++
  ((List.range 2).map fun n => RTC_ALMCFG_MSEC n) ++
  ((List.range 2).map fun n => RTC_ALMCFG_MMIN n) ++
  ((List.range 2).map fun n => RTC_ALMCFG_MHOUR n) ++
  ((List.range 2).map fun n => RTC_ALMCFG_MWDAY n) ++
  ((List.range 2).map fun n => RTC_ALMCFG_MDAY n) ++
  ((List.range 2).map fun n => RTC_ALMCFG_MMONTH n) ++
  ((List.range 2).map fun n => RTC_ALMCFG_MYEAR n) ++
  ((List.range 2).map fun n => RTC_ALMCFG_ARM n) ++
  ((List.range 2).map fun n => RTC_ALMCFG_CATCH n)

/-- The fields of the SEG_ page. -/
def segFields : List Fld :=
  [SEG_CFG_EN, SEG_CFG_BIAS, SEG_CFG_NCOM, SEG_CFG_CHKEN, SEG_CFG_DIV, SEG_VLCD_V0, SEG_VLCD_SLOPE, SEG_COMMIT_GO, SEG_CRCEXP_EXP, SEG_STAT_VLCD, SEG_STAT_CPEND, SEG_STAT_MIS, SEG_STAT_TEMP, SEG_CRC_CRC, SEG_EVT_FRAME, SEG_EVT_CRCMIS, SEG_EVT_COPIED, SEG_EVT_UE, SEG_INTEN_EN]

/-- The fields of the EPD_ page. -/
def epdFields : List Fld :=
  [EPD_CFG_EN, EPD_CFG_THSEL, EPD_CFG_REV, EPD_CFG_SEG, EPD_PANEL_WIDTH, EPD_PANEL_HEIGHT, EPD_TIM0_LINE, EPD_TIM0_GPW, EPD_TIM1_FRAME, EPD_HV_HVTO, EPD_HV_SETTLE, EPD_VCOM_V0, EPD_VCOM_VSLOPE, EPD_THCFG_RAW0, EPD_THCFG_T0, EPD_THCFG_K, EPD_INIT_LEVEL, EPD_INIT_GO, EPD_CTL_STATEOK, EPD_STAT_STATELOST, EPD_STAT_SCAN, EPD_STAT_HVON, EPD_STAT_INITBUSY, EPD_STAT_TEMPDRIFT, EPD_STAT_THFAULT, EPD_STAT_BAND, EPD_STAT_NOUT, EPD_STAT_TEMP, EPD_EVT_UPDEND, EPD_EVT_CRCMIS] ++
  [EPD_EVT_UE, EPD_EVT_HVFAIL, EPD_EVT_LATE, EPD_EVT_STLOST, EPD_EVT_INITDONE, EPD_EVT_DROP, EPD_EVT_RGNREJ, EPD_INTEN_EN, EPD_LATECNT_COUNT, EPD_THRAW_RAW] ++
  ((List.range 4).flatMap fun n => (List.range 4).map fun k => EPD_BANDT_T n k) ++
  ((List.range 2).map fun n => EPD_RQPOS_X n) ++
  ((List.range 2).map fun n => EPD_RQPOS_Y n) ++
  ((List.range 2).map fun n => EPD_RQSIZE_W n) ++
  ((List.range 2).map fun n => EPD_RQSIZE_H n) ++
  ((List.range 2).map fun n => EPD_RQSRC_ADDR n) ++
  ((List.range 2).map fun n => EPD_RQCRC_EXP n) ++
  ((List.range 2).map fun n => EPD_RQCTL_REGION n) ++
  ((List.range 2).map fun n => EPD_RQCTL_QUEUE n) ++
  ((List.range 2).map fun n => EPD_RQCTL_FORCE n) ++
  ((List.range 2).map fun n => EPD_RQCTL_CHK n) ++
  ((List.range 2).map fun n => EPD_RQCTL_EVWAIT n) ++
  ((List.range 2).map fun n => EPD_RQSTAT_RESULT n) ++
  ((List.range 2).map fun n => EPD_RQSTAT_WAIT n) ++
  ((List.range 16).map fun n => EPD_RGNLO_X0 n) ++
  ((List.range 16).map fun n => EPD_RGNLO_Y0 n) ++
  ((List.range 16).map fun n => EPD_RGNHI_X1 n) ++
  ((List.range 16).map fun n => EPD_RGNHI_Y1 n) ++
  ((List.range 16).map fun n => EPD_RGNOWN_PRIN n) ++
  ((List.range 16).map fun n => EPD_RGNOWN_EN n) ++
  ((List.range 16).map fun n => EPD_RGNOWN_LOCKED n) ++
  ((List.range 16).map fun n => EPD_RGNST_STATE n) ++
  ((List.range 16).map fun n => EPD_RGNST_MATCH n) ++
  ((List.range 16).map fun n => EPD_RGNST_TDRIFT n) ++
  ((List.range 16).map fun n => EPD_RGNST_RESULT n) ++
  ((List.range 16).map fun n => EPD_RGNCRC_CRC n)

/-- The fields of the TCH_ page. -/
def tchFields : List Fld :=
  [TCH_CFG_EN, TCH_CFG_MODE, TCH_CFG_DEB, TCH_CFG_TRACK, TCH_CFG_PERIOD, TCH_DROP_DROP, TCH_THR_SELF, TCH_THR_MUT, TCH_MAXON_SEC, TCH_WAKE_SLOTEN, TCH_WAKE_TH, TCH_STAT_RUN, TCH_STAT_WSCAN, TCH_STAT_FBASE, TCH_STATE_TOUCHED, TCH_STATE_WET, TCH_EVT_REPORT, TCH_EVT_STUCK, TCH_EVT_UNSTUCK, TCH_EVT_TAS, TCH_EVT_WAKEHIT, TCH_EVT_CFGERR, TCH_EVT_ARMED, TCH_INTEN_EN, TCH_STRONG_X, TCH_STRONG_Y, TCH_STRONG_VALID, TCH_STRONG_DELTA] ++
  ((List.range 16).map fun k => TCH_PINCFG_ROLE k) ++
  ((List.range 4).map fun k => TCH_WAKE_PIN k) ++
  ((List.range 16).map fun n => TCH_CHST_STATE n) ++
  ((List.range 16).map fun n => TCH_CHST_TAS n) ++
  ((List.range 16).map fun n => TCH_CHST_PROV n) ++
  ((List.range 16).map fun n => TCH_CHST_SELF n) ++
  ((List.range 16).map fun n => TCH_CHBASE_SBASE n) ++
  ((List.range 64).map fun n => TCH_NODE_COUNT n) ++
  ((List.range 64).map fun n => TCH_NODE_MBASE n)

/-- The fields of the SEC_ page. -/
def secFields : List Fld :=
  [SEC_ID0_DEVID, SEC_ID1_DEVID, SEC_LCSTAT_STATE, SEC_LCSTAT_TENURE, SEC_LCSTAT_ANCHOR, SEC_LCSTAT_WIPEPEND, SEC_LCSTAT_SLOTS, SEC_LCSTAT_TAMPIN, SEC_FWSTAT_AUTH, SEC_FWSTAT_POLICY, SEC_FWSTAT_ACCEPT, SEC_SESS_OPEN, SEC_SESS_CHAL, SEC_SESS_CLAIM, SEC_SESS_PRIN, SEC_SESS_FAILS, SEC_CFG_SESSTO, SEC_EVT_TAMPER, SEC_EVT_SESSOPEN, SEC_EVT_SESSEND, SEC_EVT_AUTHFAIL, SEC_EVT_CLAIM, SEC_EVT_LCCHG, SEC_EVT_DBGAUTH, SEC_EVT_FWFAIL, SEC_INTEN_EN, SEC_AUTHCNT_COUNT, SEC_DBGCTL_PRIN, SEC_DBGCTL_OPEN, SEC_DBGCTL_PROVE] ++
  [SEC_DBGCTL_END, SEC_DBGCTL_STATE, SEC_DBGCTL_TAG, SEC_DBGCTL_RESULT, SEC_LCCMD_KEY] ++
  ((List.range 8).map fun n => SEC_FWDIG_DIG n) ++
  ((List.range 4).map fun n => SEC_DBGCHAL_DATA n) ++
  ((List.range 4).map fun n => SEC_DBGRSP_DATA n)

/-- The fields of the MBX_ page. -/
def mbxFields : List Fld :=
  [MBX_FMDB_RQ, MBX_FMDONE_DONE, MBX_FMINTEN_EN, MBX_LFCFG_EN, MBX_LFDB_ENTRY, MBX_LFRPL_RPL, MBX_LFINTEN_EN]

/-- The fields of the GPIO_ page. -/
def gpioFields : List Fld :=
  [GPIO_OUT_OUT, GPIO_IN_IN, GPIO_POL_INV, GPIO_EDGE_EDGE, GPIO_INTEN_EN] ++
  ((List.range 8).map fun k => GPIO_FUNC_FUNC k) ++
  ((List.range 8).map fun k => GPIO_PULL_PULL k)

/-- The fields of the SPI_ page. -/
def spiFields : List Fld :=
  ((List.range 2).map fun n => SPI_CFG_EN n) ++
  ((List.range 2).map fun n => SPI_CFG_MODE n) ++
  ((List.range 2).map fun n => SPI_CFG_QUAD n) ++
  ((List.range 2).map fun n => SPI_CFG_CSHOLD n) ++
  ((List.range 2).map fun n => SPI_CFG_RATE n) ++
  ((List.range 2).map fun n => SPI_CMD_LEN n) ++
  ((List.range 2).map fun n => SPI_CMD_DIR n) ++
  ((List.range 2).map fun n => SPI_TXD_DATA n) ++
  ((List.range 2).map fun n => SPI_RXD_DATA n) ++
  ((List.range 2).map fun n => SPI_RXD_VALID n) ++
  ((List.range 2).map fun n => SPI_STAT_BUSY n) ++
  ((List.range 2).map fun n => SPI_STAT_CSLOW n) ++
  ((List.range 2).map fun n => SPI_STAT_TXLVL n) ++
  ((List.range 2).map fun n => SPI_STAT_RXLVL n) ++
  ((List.range 2).map fun n => SPI_EVT_DONE n) ++
  ((List.range 2).map fun n => SPI_EVT_TXOVF n) ++
  ((List.range 2).map fun n => SPI_EVT_RXOVF n) ++
  ((List.range 2).map fun n => SPI_EVT_CMDERR n) ++
  ((List.range 2).map fun n => SPI_INTEN_EN n) ++
  ((List.range 2).map fun n => SPI_DIV_N n)

/-- The fields of the I2C_ page. -/
def i2cFields : List Fld :=
  [I2C_CFG_EN, I2C_CFG_FAST, I2C_CMD_ADDR, I2C_CMD_RD, I2C_CMD_LEN, I2C_CMD_NOSTOP, I2C_TXD_DATA, I2C_RXD_DATA, I2C_RXD_VALID, I2C_STAT_BUSY, I2C_STAT_HELD, I2C_STAT_TXLVL, I2C_STAT_RXLVL, I2C_EVT_DONE, I2C_EVT_NACKA, I2C_EVT_NACKD, I2C_EVT_TXOVF, I2C_EVT_RXOVF, I2C_EVT_TIMEOUT, I2C_EVT_CMDERR, I2C_INTEN_EN]

/-- The fields of the UART_ page. -/
def uartFields : List Fld :=
  [UART_CFG_TXEN, UART_CFG_RXEN, UART_CFG_PARITY, UART_CFG_RATE, UART_TXD_DATA, UART_RXD_DATA, UART_RXD_VALID, UART_RXD_PERR, UART_RXD_FERR, UART_STAT_TXBUSY, UART_STAT_RXBUSY, UART_STAT_TXLVL, UART_STAT_RXLVL, UART_EVT_RXBYTE, UART_EVT_TXDONE, UART_EVT_TXOVF, UART_EVT_RXOVF, UART_EVT_PERR, UART_EVT_FERR, UART_INTEN_EN, UART_DIV_D]

/-- The fields of a page, by the page's number (R8). -/
def pageFields : Nat → List Fld
  | 262144 => pwrFields
  | 262145 => hrvFields
  | 262146 => coreFields
  | 262147 => memFields
  | 262148 => drmFields
  | 262149 => movFields
  | 262150 => lnkFields
  | 262151 => tblFields
  | 262152 => evfFields
  | 262153 => nvsFields
  | 262154 => rtcFields
  | 262155 => segFields
  | 262156 => epdFields
  | 262157 => tchFields
  | 262158 => secFields
  | 262159 => mbxFields
  | 262160 => spiFields
  | 262162 => i2cFields
  | 262163 => uartFields
  | 262164 => gpioFields
  | 262161 => spiFields
  | _ => []

/-- The fields of the register at a byte address. -/
def fieldsAt (a : Nat) : List Fld := (pageFields (a / 4096)).filter fun f => f.addr == a

end Sys2Proof.Machine
end

