-- ==== Sys2Proof/Machine/Ops.lean ====
section
/-! DEFINITION. Named operations over registers and memory: sparse maps, register fields, words of memory with their
protection, random draws, interrupt lines, the device's log. -/

namespace Sys2Proof.Machine

open Sys2Proof

/-! ### Sparse maps -/

/-- The value at a key; `d` where the map lists none. -/
def Sparse.look {α : Type} (d : α) : Sparse α → Nat → α
  | [], _ => d
  | (a, x) :: t, k => if a = k then x else Sparse.look d t k

/-- Insert in key order. -/
def Sparse.ins {α : Type} (k : Nat) (x : α) : Sparse α → Sparse α
  | [] => [(k, x)]
  | (a, y) :: t => if k ≤ a then (k, x) :: (a, y) :: t else (a, y) :: Sparse.ins k x t

/-- Drop a key. -/
def Sparse.del {α : Type} (k : Nat) (m : Sparse α) : Sparse α := m.filter fun e => !(e.1 == k)

/-- Set a key; a value equal to the default is not listed. -/
def Sparse.set {α : Type} [DecidableEq α] (d : α) (m : Sparse α) (k : Nat) (x : α) : Sparse α :=
  if x = d then m.del k else (m.del k).ins k x

/-! ### Register fields -/

namespace State

/-- A field's value (R10, read side, before any effect of the read). -/
def get (s : State) (f : Fld) : Nat := Sparse.look f.rst s.regs f.key

/-- A field set by the hardware or by an allowed write; the value keeps the field's width. -/
def put (s : State) (f : Fld) (v : Nat) : State := { s with regs := s.regs.set f.rst f.key (v % 2 ^ f.w) }

/-- A one-bit field as a truth value. -/
def on (s : State) (f : Fld) : Bool := s.get f % 2 == 1

/-- Bit `i` of a field. -/
def bit (s : State) (f : Fld) (i : Nat) : Bool := bitOf (s.get f) i

/-- Set bit `i` of a field. -/
def setBit (s : State) (f : Fld) (i : Nat) : State := s.put f (s.get f ||| 2 ^ i)

/-- Set the one-bit flag at bit `b` of the register at `a`. -/
def setFlag (s : State) (a b : Nat) : State := s.put ⟨a, b, 1, .w1c, 0⟩ 1

/-- Clear the bits of a mask in a field. -/
def clrBits (s : State) (f : Fld) (m : Nat) : State := s.put f (s.get f - (s.get f &&& m))

/-- Add to a saturating counter field. -/
def bump (s : State) (f : Fld) (n : Nat) : State := s.put f (min (s.get f + n) (2 ^ f.w - 1))

/-- Return every field of a page to its reset value, but for the kept ones (R12). -/
def resetPage (s : State) (base : Nat) (keep : List Nat) : State :=
  { s with regs := s.regs.filter fun e => !(e.1 / 131072 == base / 4096) || keep.contains (e.1 / 32 % 4096) }

/-- The status register fields of a word as one number: the present value of every field of the register at `a`. -/
def word (s : State) (a : Nat) : Nat := (fieldsAt a).foldl (fun v f => v + s.get f * 2 ^ f.lo) 0

/-! ### Memory -/

/-- One byte of memory. -/
def byte (s : State) (a : Nat) : Byte := Sparse.look 0 s.mem a

/-- Store one byte. -/
def putByte (s : State) (a : Nat) (b : Byte) : State := { s with mem := Sparse.set 0 s.mem a b }

/-- `n` bytes from an address, little-endian (R6). -/
def rd (s : State) (a n : Nat) : Nat := leNat ((List.range n).map fun i => s.byte (a + i))

/-- Bytes from an address. -/
def rdBytes (s : State) (a n : Nat) : List Byte := (List.range n).map fun i => s.byte (a + i)

/-- Store bytes at ascending addresses. -/
def wrBytes (s : State) (a : Nat) : List Byte → State
  | [] => s
  | b :: t => (s.putByte a b).wrBytes (a + 1) t

/-- Store the low `n` bytes of a number, little-endian (R6). -/
def wr (s : State) (a n v : Nat) : State := s.wrBytes a (leBytes n v)

/-- A wipe of a range writes zero to every byte of it (R180, R197, R388). -/
def wipe (s : State) (a n : Nat) : State := { s with mem := s.mem.filter fun e => e.1 < a || a + n ≤ e.1 }

/-- A run of bytes written at once: what stood there gives way to the bytes that are not zero. -/
def fill (s : State) (a : Nat) (l : List Byte) : State :=
  let lo := s.mem.filter fun e => e.1 < a
  let hi := s.mem.filter fun e => a + l.length ≤ e.1
  let new := ((List.range l.length).zip l).filterMap fun e => if e.2 = 0 then none else some (a + e.1, e.2)
  { s with mem := lo ++ new ++ hi }

/-- The memory keeps its canonical form: addresses rise strictly and no listed byte is zero. -/
def memWf (s : State) : Bool :=
  s.mem.all (fun e => !(e.2 == 0)) && decide (s.mem.Pairwise fun a b => a.1 < b.1)

/-! ### Free values -/

/-- Draw `n` random bytes (R391, R395, R396, R400, R406). -/
def random (s : State) (n : Nat) : List Byte × State :=
  ((List.range n).map fun i => Config.randomByte (s.free + i), { s with free := s.free + n })

end State

/-- A command's effect; while power-on reset is asserted the part does nothing (R12, R418). -/
def live (s t : State) : Host.Outcome State Fault Refusal := .next (if s.por then s else t)

/-! ### The core's cycles (R102) -/

/-- Count SYS cycles (R102). -/
def tick (s : State) (n : Nat) : State := { s with dx := { s.dx with cyc := (s.dx.cyc + n) % 2 ^ 64 } }

/-- A bundle's cost, and its stalls where R118 gives their length; else that is FREE. -/
def bundleTick (s : State) (n : Nat) (stall : Option Nat) : State :=
  match stall with
  | some k => tick s (n + k)
  | none => tick { s with free := s.free + 1 } (n + Config.stall s.free)

/-! ### Banks (R30) -/

/-- The SRAM bank an address lies in. -/
def bankOf (a : Nat) : Nat :=
  let o := a - 0x10000000
  if o < 0x100000 then 0 else if o < 0x200000 then 1 else if o < 0x280000 then 2 else if o < 0x300000 then 3
  else if o < 0x380000 then 4 else if o < 0x3C0000 then 5 else if o < 0x3E0000 then 6 else 7

/-- A bank's base address. -/
def bankBase : Nat → Nat
  | 0 => 0x10000000 | 1 => 0x10100000 | 2 => 0x10200000 | 3 => 0x10280000 | 4 => 0x10300000 | 5 => 0x10380000
  | 6 => 0x103C0000 | _ => 0x103E0000

/-- A bank's size in bytes. -/
def bankSize : Nat → Nat
  | 0 => 0x100000 | 1 => 0x100000 | 2 => 0x80000 | 3 => 0x80000 | 4 => 0x80000 | 5 => 0x40000 | 6 => 0x20000
  | _ => 0x20000

/-- Address in SRAM. -/
def inSram (a : Nat) : Bool := 0x10000000 ≤ a && a < 0x10400000
/-- Address in the NV store. -/
def inNv (a : Nat) : Bool := 0x20000000 ≤ a && a < 0x20200000
/-- Address in the DRAM, holes included. -/
def inDram (a : Nat) : Bool := 0x80000000 ≤ a && a < 0x84000000
/-- Address in a DRAM hole (R34). -/
def inHole (a : Nat) : Bool := inDram a && 0x3C0000 ≤ (a - 0x80000000) % 0x400000
/-- Address in the bit-set alias. -/
def inSet (a : Nat) : Bool := 0x18000000 ≤ a && a < 0x18400000
/-- Address in the bit-clear alias. -/
def inClr (a : Nat) : Bool := 0x1C000000 ≤ a && a < 0x1C400000
/-- Address in a peripheral page (R8). -/
def inPage (a : Nat) : Bool := 0x40000000 ≤ a && a < 0x40015000
/-- Address in a ROM (R29). -/
def inRom (a : Nat) : Bool := a < 0x20000

/-! ### Interrupt lines (R156) -/

/-- Bit `n` is one while line irqn is asserted (R156, R157). -/
def irqLines (s : State) : Nat :=
  let any (evt en : Nat) : Nat := b2n (evt &&& en != 0)
  any (s.word 0x40000030) (s.get PWR_INTEN_EN) + 2 * b2n (s.word 0x40001028 != 0) +
  4 * any (s.word 0x4000A018) (s.get RTC_INTEN_EN) + 8 * any (s.word 0x4000300C) (s.get MEM_INTEN_EN) +
  16 * any (s.word 0x40004014) (s.get DRM_INTEN_EN) + 32 * any (s.word 0x40005004) (s.get MOV_INTEN_EN) +
  64 * any (s.word 0x4000600C) (s.get LNK_INTEN_EN) + 128 * any (s.word 0x40007014) (s.get TBL_INTEN_EN) +
  256 * any (s.get MBX_FMDONE_DONE) (s.get MBX_FMINTEN_EN) + 512 * any (s.get MBX_LFDB_ENTRY) (s.get MBX_LFINTEN_EN) +
  1024 * any (s.word 0x40009004) (s.get NVS_INTEN_EN) + 2048 * any (s.word 0x4000B018) (s.get SEG_INTEN_EN) +
  4096 * any (s.word 0x4000C03C) (s.get EPD_INTEN_EN) + 8192 * any (s.word 0x4000D020) (s.get TCH_INTEN_EN) +
  16384 * any (s.word 0x4000E048) (s.get SEC_INTEN_EN) +
  2 ^ 15 * any (s.word 0x40010014) (s.get (SPI_INTEN_EN 0)) + 2 ^ 16 * any (s.word 0x40011014) (s.get (SPI_INTEN_EN 1)) +
  2 ^ 17 * any (s.word 0x40012014) (s.get I2C_INTEN_EN) + 2 ^ 18 * any (s.word 0x40013010) (s.get UART_INTEN_EN) +
  2 ^ 19 * any (s.get GPIO_EDGE_EDGE) (s.get GPIO_INTEN_EN) +
  2 ^ 20 * maskOf 8 (fun k => s.on (EVF_CSEL_PEND k)) + 2 ^ 31 * s.get CORE_IRQSET_SW

/-! ### Life-cycle (R385) -/

/-- Tenure fuses burnt, c. -/
def tenure (s : State) : Nat := popc 62 (s.sec.fuses / 2)

/-- The life-cycle state's code under R385. -/
def lcState (s : State) : Nat :=
  if bitOf s.sec.fuses 63 then 4
  else if !bitOf s.sec.fuses 0 then 0
  else if tenure s == 0 then 1
  else if tenure s % 2 == 1 then 2 else 3

/-- SEC_LCSTAT.TENURE (R385). -/
def entries (s : State) : Nat := (tenure s + 1) / 2

/-! ### The log (R433) -/

/-- Whether sequence number `a` is newer than `b` (R312). -/
def newer (a b : Nat) : Bool :=
  let d := (a + 2 ^ 32 - b) % 2 ^ 32
  0 < d && d < 2 ^ 31

/-- The word at `a` of the NV store is uncorrectable (R299). -/
def nvBad (s : State) (a : Nat) : Bool := 2 ≤ popc 39 (Sparse.look 0 s.ms.nvErr a)

/-- The newest entry: its index and SEQ; (none, 0) when every SEQ is 0. An uncorrectable SEQ names none. Only listed cells can hold
a non-zero SEQ, so the walk is over them. -/
def newestLog (s : State) : Option Nat × Nat :=
  s.mem.foldl (fun acc e =>
    if 0x201E4000 ≤ e.1 && e.1 < 0x20200000 && 12 ≤ e.1 % 16 && !nvBad s (e.1 - e.1 % 4) then
      let k := (e.1 - 0x201E4000) / 16
      let q := s.rd (0x201E4000 + 16 * k + 12) 4
      if acc.1.isNone || newer q acc.2 then (some k, q) else acc
    else acc) (none, 0)

/-! ### The hold capacitor (R301) -/

/-- The hold capacitor is ready. -/
def holdReady (s : State) : Bool := s.on NVS_STAT_HOLDRDY

/-- SYS runs as in Run and Chalk (R36). -/
def sysRuns (s : State) : Bool := s.get PWR_DOMSTAT_STATE ≤ 1

/-- SYS is clocked: as in Run and Chalk, or on demand (R64). -/
def sysClocked (s : State) : Bool := sysRuns s || decide (2 ≤ s.get PWR_DOMSTAT_SYS)

/-- A stopped domain starts (R64): 0 the SYS interconnect and bank ports, 1 the DRAM, 2 PIX. -/
def demandStart (s : State) (d : Nat) : State :=
  match d with
  | 0 => if 2 ≤ s.get PWR_DOMSTAT_STATE && s.get PWR_DOMSTAT_SYS < 2 then s.put PWR_DOMSTAT_SYS 2 else s
  | 1 => s.put PWR_DOMSTAT_MEM 2
  | _ => s.put PWR_DOMSTAT_PIX 1

/-- A word write made at once starts SYS where it is stopped (R25, R64) and waits up to 10 µs for the hold capacitor: whether it
becomes ready in time is FREE. -/
def holdWait (s : State) : Bool × State :=
  let s := demandStart s 0
  if holdReady s then (true, s)
  else
    let b := Config.holdComes s.free
    (b, { s.put NVS_STAT_HOLDRDY (b2n b) with free := s.free + 1 })

/-- Write words of the NV store whole: their check bits become valid. -/
def nvWords (s : State) (l : List (Nat × Nat)) : State :=
  l.foldl (fun s w => let s := s.wr w.1 4 w.2
                      { s with ms := { s.ms with nvErr := Sparse.set 0 s.ms.nvErr w.1 0 } }) s

/-- The words of a log entry (R433, R434). -/
def logWords (s : State) (code arg data : Nat) : List (Nat × Nat) :=
  let (k, q) := newestLog s
  let i := match k with | none => 0 | some k => (k + 1) % 7168
  let q' := if (q + 1) % 2 ^ 32 = 0 then 1 else (q + 1) % 2 ^ 32
  let t := s.clk.t
  let a := 0x201E4000 + 16 * i
  let w0 := code % 256 + t.sec % 64 * 256 + arg % 65536 * 65536
  let w2 := t.year + t.month * 256 + t.day * 4096 + t.hour * 2 ^ 17 + t.min * 2 ^ 22 + s.get RTC_STAT_OSF * 2 ^ 28
  [(a + 12, 0), (a, w0), (a + 4, data), (a + 8, w2), (a + 12, q')]

/-- Write an NV word whole. -/
def nvPut (s : State) (a v : Nat) : State := nvWords s [(a, v)]

/-- The page of an NV address. -/
def nvPage (a : Nat) : Nat := (a - 0x20000000) / 256

/-- Read an NV word through its code, SYS running for it (R25, R64): none when it is uncorrectable (R299). -/
def nvFetch (s : State) (a : Nat) : Option Nat × State :=
  let s := demandStart s 0
  let e := Sparse.look 0 s.ms.nvErr a
  let v := s.rd a 4
  if e = 0 then (some v, s)
  else if popc 39 e = 1 then (some v, (s.bump NVS_ECCCNT_COUNT 1).put NVS_EVT_CE 1)
  else (none, (s.put NVS_UEADDR_ADDR a).put NVS_EVT_UE 1)

/-- Put `n` bytes of `v` at byte `o` of a word. -/
def mergeWord (w o n v : Nat) : Nat :=
  w % 2 ^ (8 * o) + v % 2 ^ (8 * n) * 2 ^ (8 * o) + w / 2 ^ (8 * (o + n)) * 2 ^ (8 * (o + n))

/-- A word write with the hold capacitor ready: one word, whole; a sub-word one reads the word first (R301, R302). -/
def nvBegin (s : State) (a n v : Nat) : Bool × State :=
  if n = 4 then (true, nvPut s a v)
  else
    let w := a - a % 4
    match nvFetch s w with
    | (some x, s) => (true, nvPut s w (mergeWord x (a % 4) n v))
    | (none, s) => (false, s)

/-! ### A store that waits at the head of the store buffer (R163, R301, R304) -/

/-- SIZE of CORE_BEINFO. -/
def sizeCode (n : Nat) : Nat := match n with | 1 => 0 | 2 => 1 | 4 => 2 | _ => 3

/-- Replace the store buffer. -/
def setStores (s : State) (l : List Store) : State := { s with dx := { s.dx with stores := l } }

/-- A late bus error (R163). One met while a change of STBUF calls for a drain is taken before the next bundle (R165). -/
def lateError (s : State) (st : Store) : State :=
  if s.on CORE_BEINFO_VALID then s.put CORE_BEINFO_MULTI 1
  else
    let s := ((s.put CORE_BEADDR_ADDR st.addr).put CORE_BEINFO_VALID 1).put CORE_BEINFO_SIZE (sizeCode st.size)
    let s := s.put CORE_BEINFO_LATER 0
    { s with dx := { s.dx with mcPend := true, mcDrain := s.dx.mcDrain || s.dx.drainDue } }

/-- A store behind a failed one completes before the entry (R163). -/
def noteLater (s : State) : State := if s.dx.mcPend then s.bump CORE_BEINFO_LATER 1 else s

/-- The head of the store buffer waits for the hold capacitor (R301). -/
def headWaits (s : State) : Bool :=
  match s.dx.stores with
  | st :: _ => inNv st.addr && !holdReady s
  | [] => false

/-- The page of the store at the head is being moved, and the store waits for the move (R309). -/
def headMoves (s : State) : Bool := s.dx.stores.head?.any fun st => s.nvs.moving == some (nvPage st.addr)

/-- The head of the store buffer is written, the hold capacitor being ready (R163, R301, R302). -/
def nvHead (s : State) : State :=
  match s.dx.stores with
  | [] => s
  | st :: t =>
    let s := setStores s t
    if st.size = 8 then noteLater (nvPut (nvPut s st.addr st.val) (st.addr + 4) (st.val / 2 ^ 32))
    else
      let (ok, s) := nvBegin s st.addr st.size st.val
      if ok then noteLater s else lateError s st

/-- The head of the store buffer fails: its word waited 10 µs in vain (R163, R301). -/
def failHead (s : State) : State :=
  match s.dx.stores with
  | [] => s
  | st :: t => lateError (setStores s t) st

/-- A word other than the core's waits for the hold capacitor: a store that waits for it at the head of the store buffer came first,
and is written or fails before it (R301, R304). -/
def holdTurn (s : State) : Bool × State :=
  let first := headWaits s && !headMoves s
  let (ok, s) := holdWait s
  (ok, if !first then s else if ok then nvHead s else failHead s)

/-- Write a log entry: the management controller's own words, none where the hold capacitor does not become ready (R301, R433). -/
def State.log (s : State) (code arg data : Nat) : State :=
  match holdTurn s with
  | (true, s) => nvWords s (logWords s code arg data)
  | (false, s) => s

end Sys2Proof.Machine
end

