-- ==== Sys2Proof/Machine/Rights.lean ====
section
/-! DEFINITION. Principals, assets, the rights table (R382, R409 to R411), authority over a tag (R289), and the region guard
(R181 to R186). -/

namespace Sys2Proof.Machine

open Sys2Proof

/-- The assets of R409. -/
inductive Asset where
  | vendor | keys | image | decode | calib | recipes | ownerRecords | makerRecords | tallies | log | tables | display
  | clock | lifecycle | conf (n : Nat) | ledger | mailbox | events | status | devcfg | debugPort | none
  deriving DecidableEq, Repr

/-- A cell of R410: states in which r holds, states in which w holds (bit b for the state of code b), and the dagger. -/
structure Cell where
  r : Nat
  w : Nat
  dag : Bool
  deriving DecidableEq, Repr

/-- States MADE, FIELDED, RETURNED. -/
def sMFR : Nat := 14
/-- Every state. -/
def sAll : Nat := 31

/-- The rights table R410, by asset and principal code (R382). Cells that other rules decide (tables for LINE, event
channels, life-cycle writes) are decided there. -/
def cell : Asset → Nat → Cell
  | .vendor, 1 => ⟨sAll, 1, false⟩
  | .image, 2 => ⟨sMFR, sMFR, false⟩ | .image, 8 => ⟨sMFR, sMFR, false⟩
  | .decode, 2 => ⟨sMFR, sMFR, false⟩ | .decode, 8 => ⟨sMFR, sMFR, false⟩ | .decode, 9 => ⟨sMFR, 0, false⟩
  | .calib, 2 => ⟨sMFR, sMFR, false⟩ | .calib, 4 => ⟨12, 12, false⟩ | .calib, 8 => ⟨sMFR, sMFR, false⟩
  | .calib, 9 => ⟨sMFR, 0, false⟩
  | .recipes, 3 => ⟨4, 4, false⟩ | .recipes, 8 => ⟨4, 0, true⟩ | .recipes, 9 => ⟨4, 0, true⟩
  | .ownerRecords, 3 => ⟨4, 4, false⟩ | .ownerRecords, 8 => ⟨4, 0, true⟩ | .ownerRecords, 9 => ⟨4, 0, true⟩
  | .makerRecords, 2 => ⟨sMFR, sMFR, false⟩ | .makerRecords, 4 => ⟨12, 0, false⟩
  | .makerRecords, 8 => ⟨sMFR, sMFR, false⟩ | .makerRecords, 9 => ⟨sMFR, sMFR, false⟩
  | .tallies, 1 => ⟨30, 0, false⟩ | .tallies, 2 => ⟨sMFR, 2, false⟩ | .tallies, 3 => ⟨4, 0, false⟩
  | .tallies, 4 => ⟨12, 0, false⟩ | .tallies, 8 => ⟨sMFR, sMFR, false⟩ | .tallies, 9 => ⟨sMFR, sMFR, false⟩
  | .log, 1 => ⟨30, 0, false⟩ | .log, 2 => ⟨sMFR, 0, false⟩ | .log, 3 => ⟨4, 0, false⟩ | .log, 4 => ⟨12, 0, false⟩
  | .log, 8 => ⟨sMFR, 0, false⟩ | .log, 9 => ⟨sMFR, 0, false⟩
  | .tables, 8 => ⟨sMFR, sMFR, false⟩ | .tables, 9 => ⟨sMFR, sMFR, false⟩
  | .display, 2 => ⟨sMFR, sMFR, false⟩ | .display, 3 => ⟨4, 4, false⟩ | .display, 4 => ⟨12, 0, false⟩
  | .display, 5 => ⟨sMFR, 0, false⟩ | .display, 8 => ⟨sMFR, sMFR, false⟩ | .display, 9 => ⟨sMFR, sMFR, false⟩
  | .clock, 1 => ⟨sAll, 0, false⟩ | .clock, 2 => ⟨sMFR, sMFR, false⟩ | .clock, 3 => ⟨4, 4, false⟩
  | .clock, 4 => ⟨12, 12, false⟩ | .clock, 5 => ⟨sMFR, 0, false⟩ | .clock, 8 => ⟨sMFR, sMFR, false⟩
  | .clock, 9 => ⟨sMFR, sMFR, false⟩ | .clock, 10 => ⟨sMFR, 0, false⟩
  | .lifecycle, 1 => ⟨sAll, sAll, false⟩ | .lifecycle, 2 => ⟨sAll, sAll, false⟩ | .lifecycle, 3 => ⟨sAll, sAll, false⟩
  | .lifecycle, 4 => ⟨sAll, 0, false⟩ | .lifecycle, 5 => ⟨sAll, 0, false⟩ | .lifecycle, 8 => ⟨sMFR, 0, false⟩
  | .lifecycle, 9 => ⟨sMFR, 0, false⟩ | .lifecycle, 10 => ⟨sMFR, 0, false⟩
  | .conf 3, 1 => ⟨sAll, 0, false⟩ | .conf 2, 5 => ⟨sAll, 0, false⟩
  | .conf 0, 8 => ⟨sMFR, 0, false⟩ | .conf 0, 9 => ⟨sMFR, 0, false⟩ | .conf 0, 10 => ⟨sMFR, 0, false⟩
  | .conf 1, 8 => ⟨sMFR, 0, false⟩ | .conf 1, 9 => ⟨sMFR, 0, false⟩ | .conf 1, 10 => ⟨sMFR, 0, false⟩
  | .ledger, 1 => ⟨sAll, 0, false⟩ | .ledger, 2 => ⟨sMFR, sMFR, false⟩ | .ledger, 4 => ⟨12, 0, false⟩
  | .ledger, 8 => ⟨sMFR, sMFR, false⟩ | .ledger, 9 => ⟨sMFR, sMFR, false⟩
  | .mailbox, 8 => ⟨sMFR, sMFR, false⟩ | .mailbox, 9 => ⟨sMFR, sMFR, false⟩
  | .status, _ => ⟨sAll, 0, false⟩
  | .devcfg, 1 => ⟨sAll, 1, false⟩ | .devcfg, 2 => ⟨sMFR, sMFR, false⟩ | .devcfg, 4 => ⟨12, 0, false⟩
  | .devcfg, 8 => ⟨sMFR, sMFR, false⟩ | .devcfg, 9 => ⟨sMFR, 0, false⟩
  | _, _ => ⟨0, 0, false⟩

/-- Whether a principal holds the read right (`w` false) or the write right to an asset (R410). -/
def right (s : State) (a : Asset) (p : Nat) (w : Bool) : Bool :=
  let c := cell a p
  bitOf (if w then c.w else c.r) (lcState s) && (!c.dag || s.on SEC_FWSTAT_ACCEPT)

/-- A tag a PRIN field may hold (R383). -/
def tagOk (t : Nat) : Bool := (1 ≤ t && t ≤ 5) || (8 ≤ t && t ≤ 10)

/-- Place on the chain VENDOR, MAKER, FIRMWARE-M, FIRMWARE-S, FIRMWARE-U of R289. -/
def chainPos : Nat → Option Nat
  | 1 => some 0 | 2 => some 1 | 8 => some 2 | 9 => some 3 | 10 => some 4 | _ => none

/-- Principal `p` has authority over tag `t` (R289). -/
def authority (p t : Nat) : Bool :=
  p == t || p == 1 || ((p == 2 || p == 8) && t == 5) ||
  (match chainPos p, chainPos t with | some i, some j => decide (i ≤ j) | _, _ => false)

/-- The tag the debug access port carries; 0 for none (R390, R400). -/
def dapTag (s : State) : Nat :=
  if s.sec.dbgProved then s.sec.dbgPrin
  else match lcState s with | 0 => 1 | 1 => 2 | 4 => 1 | _ => 0

/-- The DX core's tag by its privilege level (R28, R147). -/
def coreTag (s : State) : Nat := 10 - min (s.get CORE_STATUS_PL) 2

/-- The tag of the display engine: the owner of the region it updates, MAKER while no update runs (R28, R361). -/
def displayTag (s : State) : Nat :=
  match s.disp.upd.find? fun u => u.running with
  | some u => s.get (EPD_RGNOWN_PRIN u.region)
  | none => 2

/-- The principal tag a master's access carries (R28). The mover's is that of the channel it moves, fixed at its start. -/
def masterTag (s : State) : Master → Nat
  | .core => coreTag s
  | .mover => s.get (MOV_CHSTAT_TAG s.movRr)
  | .link => 5
  | .display => displayTag s
  | .mgmt => 1
  | .dap => dapTag s

/-- A master's code in MEM_RGFSTAT.MASTER. -/
def masterCode : Master → Nat
  | .core => 0 | .mover => 1 | .link => 2 | .display => 3 | .mgmt => 4 | .dap => 5

/-! ### The asset of an address -/

/-- The asset of an NV address (R33, R409); records by number. -/
def nvAsset (a : Nat) : Asset :=
  if !inNv a then .none
  else if a < 0x20010000 then .vendor
  else if a < 0x200D0000 then .image
  else if a < 0x200E0000 then .calib
  else if a < 0x201A0000 then .recipes
  else if a < 0x201C0000 then .ownerRecords
  else if a < 0x201E0000 then .makerRecords
  else if a < 0x201E4000 then .tallies else .log

/-- The region of R33 an NV address lies in, records as one region. -/
def nvRegion (a : Nat) : Nat :=
  match nvAsset a with
  | .vendor => 0 | .image => 1 | .calib => 2 | .recipes => 3 | .ownerRecords => 4 | .makerRecords => 4 | .tallies => 5
  | .log => 6 | _ => 7

/-- The asset of record `r` (R315). -/
def recAsset (r : Nat) : Asset := if r < 64 then .ownerRecords else .makerRecords

/-- The asset of a register, by byte address (R409). -/
def regAsset (a : Nat) : Asset :=
  let o := a % 4096
  match a / 4096 with
  | 0x40000 => if o = 0x28 || o = 0xC then .status else .devcfg
  | 0x40001 => if o = 0x48 then .status
      else if [0x8, 0x30, 0x34, 0x38, 0x40, 0x44, 0x50, 0x54, 0x58, 0x80].contains o || (0x60 ≤ o && o < 0x74) then .ledger
      else .devcfg
  | 0x40002 => if (0x280 ≤ o && o < 0x2C0) || [0x240, 0x248, 0x24C, 0x250].contains o then .decode else .devcfg
  | 0x40003 => if 0x20 ≤ o && o < 0x30 then .conf ((o - 0x20) / 4) else .devcfg
  | 0x40006 => if [0x8, 0x20, 0x24].contains o then .status else .devcfg
  | 0x40007 => if o = 0xC || o = 0x10 then .status else .tables
  | 0x40008 => .events
  | 0x40009 => if [0x48, 0x4C, 0x50].contains o then .tallies else .devcfg
  | 0x4000A => .clock
  | 0x4000C => if (0x80 ≤ o && o < 0xC0) || (0x200 ≤ o && o < 0x400) then .display else .devcfg
  | 0x4000E => if o ≤ 0xC || (0x20 ≤ o && o < 0x40) then .status
      else if 0x80 ≤ o && o < 0xB0 then .debugPort else if o = 0xC0 then .lifecycle else .devcfg
  | 0x4000F => .mailbox
  | _ => .devcfg

/-- The level a FIRMWARE tag needs to read (false) or write a CORE_ register: 0 U, 1 S, 2 M, 3 never (R101, R119, R169). -/
def coreLevel (k : Nat) (w : Bool) : Option Nat :=
  let us := if w then 2 else 1
  if k = 0 || k = 2 || k = 3 then some (if w then 3 else 0)
  else if k = 1 then some 0
  else if k = 4 then some us
  else if 5 ≤ k && k ≤ 7 then some 1
  else if 0x10 ≤ k && k ≤ 0x1F then some 1
  else if k = 0x20 || k = 0x21 then some 1
  else if k = 0x22 || k = 0x25 || k = 0x31 then some (if w then 3 else 1)
  else if k = 0x23 || k = 0x24 || k = 0x32 then some us
  else if k = 0x26 then some (if w then 3 else 2)
  else if k = 0x27 || k = 0x2A || k = 0x2C || k = 0x2D then some 2
  else if k = 0x28 || k = 0x29 || k = 0x2B || k = 0x30 || k = 0x33 || (0x34 ≤ k && k ≤ 0x37) then some 1
  else if k = 0x80 || k = 0x81 || (0x88 ≤ k && k ≤ 0x8F) then some 0
  else if k = 0x82 || k = 0x95 || (0x98 ≤ k && k ≤ 0x9B) then some 1
  else if k = 0x90 || (0x92 ≤ k && k ≤ 0x94) || (0xA0 ≤ k && k ≤ 0xAF) then some us
  else if k = 0x91 then some (if w then 3 else 1)
  else none

/-- The privilege level of a FIRMWARE tag. -/
def tagLevel (t : Nat) : Nat := 10 - t

/-- Rights to the EVF_ page (R290), by offset and the value written. -/
def evfRight (s : State) (p o v : Nat) (w : Bool) : Bool :=
  let ow (c : Nat) : Nat := s.get (EVF_CHOWN_PRIN c)
  if o = 0 then !w || (List.range 32).all fun c => !bitOf v c || authority p (ow c)
  else if o = 4 then !w || (List.range 8).all fun c => bitOf v c == s.bit EVF_ASYNC_ASYNC c || authority p (ow c)
  else if 0x100 ≤ o && o < 0x300 then
    let c := (o - 0x100) / 16
    authority p (ow c) && (!w || !(o % 16 == 0) || (tagOk (v % 16) && authority p (v % 16)))
  else if 0x300 ≤ o && o < 0x358 then
    let k := (o - 0x300) / 4
    authority p (s.get (EVF_CSEL_WPRIN k)) &&
      (!w || !bitOf v 8 || !s.on (EVF_CHOWN_PRIV (v % 32)) || authority p (ow (v % 32)))
  else if 0x400 ≤ o && o < 0x440 then authority p (s.get (EVF_CSEL_WPRIN (8 + (o - 0x400) / 16)))
  else true

/-- What stops the management controller's own access to a register, which R410 does not judge (R384): the authority of R290,
the codes of R383, MEM_CONF2, which no bus master reads (R174), and the registers that the debug access port alone reaches
(R386, R409). -/
def ownRight (s : State) (a v : Nat) (w : Bool) : Bool :=
  let o := a % 4096
  match regAsset a with
  | .debugPort => false
  | .events => evfRight s 1 o v w
  | .display => !(w && 0x200 ≤ o && o % 32 == 8) || tagOk (v % 16)
  | .lifecycle => !w
  | .conf 2 => w
  | _ => true

/-- Whether a principal may read or write the register at `a` with value `v` (R13, R290, R361, R383, R409 to R411, R201).
Request set 1 of R362 is the management controller's alone; a status register is read only. -/
def regRight (s : State) (m : Master) (p a v : Nat) (w : Bool) : Bool :=
  let o := a % 4096
  if (fieldsAt a).isEmpty then !(m == .dap && p == 0)
  else if m == .mgmt then ownRight s a v w
  else match regAsset a with
  | .debugPort => m == .dap && (!w || o != 0x80 || tagOk (v % 16))
  | .events => evfRight s p o v w && !(m == .dap && p == 0)
  | .tables =>
    p != 10 && right s .tables p w
  | .display =>
    right s .display p w &&
    (if w && 0x200 ≤ o then
       (o % 32 != 8 || tagOk (v % 16)) && authority p (s.get (EPD_RGNOWN_PRIN ((o - 0x200) / 32)))
     else true) &&
    (!w || !(0xA0 ≤ o && o < 0xC0))
  | .lifecycle => if w then p == 1 && m == .dap else right s .lifecycle p false
  | .mailbox => right s .mailbox p w
  | .status => !w && (m != .dap || p != 0 || (a / 4096 == 0x4000E && o ≤ 8))
  | as =>
    if a / 4096 == 0x40005 && 0x100 ≤ o && (8 ≤ p && p ≤ 10) then
      let n := (o - 0x100) / 32
      let lvl := match s.get (MOV_DLG_LVL n) with | 1 => 1 | 2 => 0 | _ => 2
      if w && (o % 32 == 0 || o % 32 == 4) then bitOf sMFR (lcState s) && decide (lvl ≤ tagLevel p)
      else if w then right s .devcfg p true
      else right s .devcfg p false || (8 ≤ o % 32 && bitOf sMFR (lcState s) && decide (lvl ≤ tagLevel p))
    else if a / 4096 == 0x40002 && (8 ≤ p && p ≤ 10) then
      match coreLevel (o / 4) w with
      | some l => (l == 3 || decide (l ≤ tagLevel p)) && right s as p w
      | none => true
    else right s as p w

/-! ### The region guard -/

/-- Bytes of an entry of a table: 4, 8, 16 or 32 (R249). -/
def esz (code : Nat) : Nat := 4 * 2 ^ code

/-- Byte offset and length of a table's live extent. -/
def liveExt (s : State) (n : Nat) : Nat × Nat :=
  (32 * s.get (TBL_LDESC0_BASE n), s.get (TBL_LDESC1_COUNT n) * esz (s.get (TBL_LDESC0_ESIZE n)))

/-- Byte offset and length of a table's staged extent. -/
def stagedExt (s : State) (n : Nat) : Nat × Nat :=
  (32 * s.get (TBL_SDESC0_BASE n), s.get (TBL_SDESC1_COUNT n) * esz (s.get (TBL_SDESC0_ESIZE n)))

/-- Address of a copy of table bytes: copy 0 is A, 1 is B (R249). -/
def copyBase (c : Nat) : Nat := if c = 0 then 0x10200000 else 0x10280000

/-- The copy that is live (R250). -/
def liveCopy (s : State) (n : Nat) : Nat := b2n (s.bit TBL_LIVE_LIVE n)

/-- The address lies in the live copy of some table (R182, R250). -/
def inLiveCopy (s : State) (a : Nat) : Bool :=
  (List.range 16).any fun n =>
    let (o, len) := liveExt s n
    let b := copyBase (liveCopy s n) + o
    decide (b ≤ a) && decide (a < b + len)

/-- What the guard answers: allowed, a refusal with its MEM_RGFSTAT reason, or a bus error at address decoding. -/
inductive Guard where
  | ok | refuse (reason : Nat) | busErr
  deriving DecidableEq, Repr

/-- The programmable regions for S (level 1) and U (level 0): `k` is 0 for R, 1 for W, 2 for X (R183). -/
def regionAllows (s : State) (lvl a k : Nat) : Bool :=
  let b := a / 32
  match (List.range 16).find? fun n =>
      s.on (MEM_RGNATTR_EN n) && decide (s.get (MEM_RGNBASE_ADDR n) ≤ b) && decide (b ≤ s.get (MEM_RGNLIM_ADDR n)) with
  | some n =>
    if lvl = 1 then s.on (match k with | 0 => MEM_RGNATTR_SR n | 1 => MEM_RGNATTR_SW n | _ => MEM_RGNATTR_SX n)
    else s.on (match k with | 0 => MEM_RGNATTR_UR n | 1 => MEM_RGNATTR_UW n | _ => MEM_RGNATTR_UX n)
  | none => s.bit (if lvl = 1 then MEM_RGCFG_DEFS else MEM_RGCFG_DEFU) k

/-- A bit-set or bit-clear address's SRAM address (R32). -/
def unalias (a : Nat) : Nat := if inSet a || inClr a then a % 0x400000 + 0x10000000 else a

/-- The fixed rules of R182 for an SRAM address. The management controller exchanges messages in the areas R20 names it for, and
R410 does not judge its own work (R384). -/
def sramFixed (s : State) (m : Master) (p a : Nat) (w : Bool) : Guard :=
  match bankOf a with
  | 6 => if m == .mgmt then .ok else .refuse 1
  | 7 =>
    let ar := (a - 0x103E0000) / 0x8000
    if m == .mgmt then (if ar == 0 || ar == 2 then .ok else .refuse 1)
    else
      let okM := match ar with
        | 0 => m == .core || m == .dap
        | 1 => m == .core || m == .dap
        | 2 => false
        | _ => m == .core || m == .mover || m == .dap
      if !okM then .refuse 1
      else if p == 10 then (if ar == 3 && bitOf sMFR (lcState s) then .ok else .refuse 1)
      else if right s .mailbox p w then .ok else .refuse 1
  | 2 | 3 =>
    if inLiveCopy s a then (if w then .refuse 2 else .ok)
    else if m == .mgmt || right s .tables p w || (p == 10 && bitOf sMFR (lcState s)) then .ok else .refuse 1
  | _ => .ok

/-- The fixed rules of R182 (and R29 for the ROMs) on one word; `v` is what a write of a register writes. The debug access port with
no tag has no right to any of them but what R390 leaves it. -/
def fixedRule (s : State) (m : Master) (p a v : Nat) (w : Bool) : Guard :=
  let untagged := m == .dap && p == 0
  if inRom a then (if m == .mgmt then .ok else .refuse 4)
  else if inSram (unalias a) then (if untagged then .refuse 1 else sramFixed s m p (unalias a) w)
  else if inNv a then (if m == .mgmt || right s (nvAsset a) p w then .ok else .refuse 1)
  else if inPage a then (if regRight s m p (a - a % 4) v w then .ok else .refuse 1)
  else if inDram a && !inHole a && untagged then .refuse 1
  else .ok

/-- The programmable regions on one word (R183): `rmw` says that the write reads its word first. -/
def progRule (s : State) (m : Master) (p a k : Nat) (rmw : Bool) : Guard :=
  let b := unalias a
  let lvl := tagLevel p
  if (m == .core || m == .mover) && (p == 9 || p == 10) && !(regionAllows s lvl b k && (!rmw || regionAllows s lvl b 0)) then
    .refuse 3
  else .ok

/-- The guard on one word (R181): `k` is 0 read, 1 write, 2 fetch. -/
def guard1 (s : State) (m : Master) (p a k v : Nat) (rmw : Bool) : Guard :=
  match fixedRule s m p a v (k == 1) with
  | .ok => progRule s m p a k rmw
  | g => g

/-- Address decoding takes an access of `n` bytes: `k` as for the guard. False: a bus error (R9, R29, R32, R34, R175, R205,
R303). -/
def decodes (m : Master) (a n k : Nat) : Bool :=
  if inSet a || inClr a then (m == .core || m == .dap) && n == 4 && a % 4 == 0
  else if inNv a then !(k == 1 && (nvRegion a == 4 || nvRegion a == 5 || m == .mover))
  else if inPage a then m != .mover && n == 4 && a % 4 == 0
  else inRom a || inSram a || (inDram a && !inHole a)

/-- A write of `n` bytes that its target makes as a read-modify-write: a bit-set or bit-clear write, less than a word, or less
than a burst of the DRAM (R171, R175, R192, R302). One that address decoding turns away reaches no target and reads nothing
(R183). The mover's elements in the DRAM may come to a whole burst, which reads nothing (R206): it is asked for the read where its
element is not gathered, or its burst not whole. -/
def isRmw (m : Master) (a n k : Nat) : Bool :=
  k == 1 && decodes m a n k && (inSet a || inClr a || if inDram a then m != .mover else n < 4)

/-- The guard's decision on an access of `size` bytes: every word it covers (R184). -/
def guard (s : State) (m : Master) (p a size k v : Nat) : Guard :=
  let rmw := isRmw m a size k
  match guard1 s m p a k v rmw with
  | .ok => if size = 8 then guard1 s m p (a + 4) k v rmw else .ok
  | g => g

/-- What stops an access of `n` bytes before it is made, or that it may be made: first the guard, then address decoding (R154, R162,
R181). A write of a register writes `v`. -/
def access (s : State) (m : Master) (p a n k v : Nat) : Guard :=
  if (inSet a || inClr a) && m != .core && m != .dap then .busErr
  else match guard s m p a n k v with
  | .ok => if decodes m a n k then .ok else .busErr
  | g => g

/-- Record a refusal (R185). -/
def recordRefusal (s : State) (m : Master) (p a k reason : Nat) : State :=
  if s.on MEM_RGFSTAT_VALID then s.put MEM_RGFSTAT_OVR 1
  else
    ((((((s.put MEM_RGFSTAT_VALID 1).put MEM_RGFSTAT_REASON reason).put MEM_RGFSTAT_MASTER (masterCode m)).put
      MEM_RGFSTAT_PRIN p).put MEM_RGFSTAT_WRITE (b2n (k == 1))).put MEM_RGFSTAT_FETCH (b2n (k == 2))).put
      MEM_RGFADDR_ADDR a |>.put MEM_EVT_RGF 1

end Sys2Proof.Machine
end

