-- ==== Sys2Proof/Machine/Events.lean ====
section
/-! DEFINITION. The Enfen event fabric (ch. 10) up to the moment an event is held for its consumer, and the raising of wake
sources (R59, R62). -/

namespace Sys2Proof.Machine

open Sys2Proof

/-- PWR_WAKEEN as a mask; TAMPER is always enabled (R62). -/
def wakeEn (s : State) : Nat := s.word 0x40000020

/-- The sources that act in a state: 0 Run (latched for R59), 1 Chalk, 2 Slate, 3 Granite, 4 Basalt (R62). In Basalt the
WAKE set acts once the link is up and LNKCORE only where LNKACT is also 1. -/
def wakeActs (s : State) : Nat → Nat
  | 0 => 0xFFE
  | 1 => 0xFFC
  | 2 => 0xFFE
  | 3 => 0xBFE
  | _ => if bitOf (wakeEn s) 0 then 0xBFF else 0xBFD

/-- The state whose sources count now: the target of an entry under way, else the present state. -/
def wakeState (s : State) : Nat :=
  match s.pwr.entry with
  | some e => if e.wait then 0 else e.target + 1
  | none => s.get PWR_DOMSTAT_STATE

/-- A wake source occurs: it is latched when enabled and acting (R59, R62). -/
def wakeSource (s : State) (b : Nat) : State :=
  if bitOf (wakeEn s) b && bitOf (wakeActs s (wakeState s)) b then s.setBit PWR_WAKESRC_SRC b else s

/-- A wake event of the target state `t` is pending: a latched enabled source, or an enabled interrupt line (R57, R59). -/
def irqWake (s : State) (t : Nat) : Bool :=
  let live := irqLines s &&& s.get CORE_IRQEN_LINES
  let live := if t = 2 then live &&& 0x73C7 else live
  bitOf (wakeEn s) 10 && bitOf (wakeActs s t) 10 && live != 0

/-- An enabled source is latched already when SLEEP issues (R59), LNKACT apart, which aborts no entry (R62). -/
def wakeLatched (s : State) : Bool := s.get PWR_WAKESRC_SRC &&& wakeEn s &&& 0xFFE != 0

/-- R57, R59: whether a wake event is pending for target state `t`: LNKACT is none (R62); none is granted after a forced Basalt
(R61). -/
def wakePending (s : State) (t : Nat) : Bool :=
  !s.pwr.withheld && (s.get PWR_WAKESRC_SRC &&& wakeEn s &&& wakeActs s t &&& 0xFFE != 0 || irqWake s t)

/-! ### Producers and channels -/

/-- The asset of a producer's source flag; `.none` where it has none (R292). -/
def producerAsset (p : Nat) : Asset :=
  if p = 0 || p = 1 || p = 19 || p = 20 || p = 38 then .none
  else if p = 4 || p = 5 then .tables
  else if 6 ≤ p && p ≤ 9 then .clock
  else if p = 33 then .status
  else if p = 40 then .mailbox
  else .devcfg

/-- The channel's owner may use the producer (R292). -/
def producerAllowed (s : State) (owner p : Nat) : Bool :=
  match producerAsset p with
  | .none => true
  | a => right s a owner false

/-- Channel `c` carries an event of producer `p` (R281, R282, R292). -/
def carries (s : State) (c p : Nat) : Bool :=
  decide (p < 45) && (if p < 32 then s.bit (EVF_CHPMLO_MASK c) p else s.bit (EVF_CHPMHI_MASK c) (p - 32)) &&
  producerAllowed s (s.get (EVF_CHOWN_PRIN c)) p

/-- The link engine is UP and has set link time since it became so (R236, R294). -/
def linkTimeOk (s : State) : Bool := s.get LNK_STAT_STATE == 3 && s.lnk.timeSet

/-- The value a capture unit will record: the link time of the yield for producers 0 to 5, from 0 ns to 20 ns later for any
other and for a fire (FREE within the bound), zero without link time; one is added so that 0 says 'none' (R294). -/
def captureValue (s : State) (exact : Bool) : Nat :=
  if linkTimeOk s then s.lnk.time + (if exact then 0 else (Config.captureLag s.free).val) + 1 else 0

/-- A configuration write opens its window (R296). -/
def openWin (s : State) (w : Nat × Nat × Nat) : State := { s with evWin := w :: s.evWin }

/-- Something happens at the fabric: some of the windows are still open, the newest first, and some of the pulses still stand; how
many windows and which pulses is FREE (R286, R288, R296). -/
def windows (s : State) : State :=
  if s.evWin.isEmpty then s
  else
    let cfg := (s.evWin.filter fun w => w.1 != 3).take (Config.winOpen s.free)
    let pls := s.evWin.filter fun w => w.1 == 3 && Config.pulseOn s.free w.2.1
    { s with evWin := cfg ++ pls, free := s.free + 1 }

/-- Channel `c` is in asynchronous mode (R286). -/
def isAsync (s : State) (c : Nat) : Bool := decide (c < 8) && s.bit EVF_ASYNC_ASYNC c

/-- The pulse of an event that channel `c` has carried may still stand: what overlaps it is the same event (R286). -/
def pulsed (s : State) (c : Nat) : Bool := isAsync s c && s.evWin.any fun w => w.1 == 3 && w.2.1 == c

/-- The event of a clocked producer or of a fire stands as a pulse on the asynchronous channels of a mask (R286). -/
def addPulses (s : State) (chans : Nat) : State :=
  let new := ((List.range 8).filter fun c => bitOf chans c && isAsync s c).map fun c => (3, c, 0)
  { s with evWin := new ++ s.evWin.filter fun w => !(w.1 == 3 && bitOf chans w.2.1) }

/-- EVOn is driven: GPIO_FUNC gives ball 4 + n its event function, and VIO1 stands (R444). -/
def evoOn (s : State) (n : Nat) : Bool := bitOf s.vio 1 && s.get (GPIO_FUNC_FUNC (4 + n)) == 2

/-- A level has risen on channels of the mask: the EVO balls that follow those in asynchronous mode rise (R286), which GPIO_EDGE
latches (R464). -/
def evoRise (s : State) (chans : Nat) : State :=
  let up (n : Nat) : Bool :=
    let c := s.get (EVF_CSEL_CH (18 + n))
    evoOn s n && s.on (EVF_CSEL_EN (18 + n)) && isAsync s c && bitOf chans c
  let m := maskOf 8 fun i => decide (4 ≤ i) && up (i - 4)
  if m = 0 || !sysClocked s then s else s.put GPIO_EDGE_EDGE (s.get GPIO_EDGE_EDGE ||| m)

/-- Channels of the mask carry an event: it is held for every consumer that selects one of them, or did where the window of its
selection is open; events that meet a held one merge with it (R281, R284, R285, R296), also one of a new selection with one held of
the old (DESIGN CHOICE, log entry 121). Of a level, `lvl`, in an asynchronous
channel nothing is held for an EVO ball, which follows it (R286). -/
def carry (s : State) (chans : Nat) (exact lvl : Bool) : State :=
  let s := if lvl then evoRise s chans else s
  let held (k c : Nat) : Bool := bitOf chans c && !(lvl && decide (18 ≤ k) && isAsync s c)
  let sel (k : Nat) : Bool := s.on (EVF_CSEL_EN k) &&
    (held k (s.get (EVF_CSEL_CH k)) || s.evWin.any fun w => w.1 == 1 && w.2.1 == k && held k w.2.2)
  let new := maskOf 22 sel
  let wake := bitOf (wakeEn s) 6 && bitOf chans (s.get PWR_CFG_WAKECH)
  let v := captureValue s exact
  let cap := (List.range 4).foldl (fun c n =>
    if sel (8 + n) && !bitOf s.evHeld (8 + n) then Sparse.set 0 c (8 + n) v else c) s.evCap
  { s with evHeld := s.evHeld ||| new ||| (if wake then 2 ^ 22 else 0), evCap := cap, free := s.free + 1 }

/-- The level the event function EVIn presents. -/
def eviLevel (s : State) (n : Nat) : Bool :=
  s.get (GPIO_FUNC_FUNC n) == 2 && (s.bit GPIO_IN_IN n != s.bit GPIO_POL_INV n)

/-- The level of an A producer (R282, R286): floor comparator, withheld wakes of a forced Basalt, wake-scan comparator, TAMPER,
EVI0 to EVI3, and the listener's activity detector, which stands from activity until the engine is back in LISTEN (DEDUCED, log
entry 64). The others have no level: theirs and a fire's are pulses. -/
def aLevel (s : State) (p : Nat) : Bool :=
  match p with
  | 10 => s.on HRV_STAT_FLOOR
  | 15 => s.pwr.withheld
  | 32 => s.tch.ch.any fun c => c.hit == 2
  | 33 => s.sec.tampin
  | 34 => eviLevel s 0 | 35 => eviLevel s 1 | 36 => eviLevel s 2 | 37 => eviLevel s 3
  | 38 => s.lnk.heard
  | _ => false

/-- The A producers (R282). -/
def levelProds : List Nat := [10, 15, 32, 33, 34, 35, 36, 37, 38]

/-- Channel `c` is in asynchronous mode and stands at 1 by the level of a producer other than `p` (R286). -/
def asyncHigh (s : State) (c p : Nat) : Bool :=
  isAsync s c && levelProds.any fun q => q != p && carries s c q && aLevel s q

/-- Channel `c` loses its events: a change of its mode has its window open (R288). -/
def masked (s : State) (c : Nat) : Bool := s.evWin.any fun w => w.1 == 2 && w.2.1 == c

/-- Channel `c` passes an event of producer `p` by its mask, or by one it had where the window of that write is open (R296). -/
def passes (s : State) (c p : Nat) : Bool :=
  !masked s c && (carries s c p || (decide (p < 45) && producerAllowed s (s.get (EVF_CHOWN_PRIN c)) p &&
    s.evWin.any fun w => w.1 == 0 && w.2.1 == c && bitOf w.2.2 p))

/-- A producer yields an event (R281, R282). One that meets an asynchronous channel at 1 is lost in it (R286): by another
producer's level, by a pulse, or by its own level where that already stood, `own`. The pulse of a clocked producer stands all the
same. -/
def yieldAt (s : State) (p : Nat) (own : Bool) : State :=
  let s := windows s
  let lvl := levelProds.contains p
  let chans := maskOf 32 fun c => passes s c p && !asyncHigh s c p && !pulsed s c && !(own && isAsync s c)
  let s := if lvl then s else addPulses s (maskOf 8 fun c => passes s c p)
  if chans = 0 then s else carry s chans (p ≤ 5) lvl

/-- A producer whose own level did not stand yields an event. -/
def yieldEv (s : State) (p : Nat) : State := yieldAt s p false

/-- The EVI levels that have risen together since `old` yield their producers at once: two in one channel are one event, and an
asynchronous channel, which follows all its levels, passes it where none stood before (R283, R286, R296, R464). -/
def eviEdges (old s : State) : State :=
  let up := (List.range 4).filter fun n => !eviLevel old n && eviLevel s n
  if up.isEmpty then s
  else
    let s := windows s
    let chans := maskOf 32 fun c => up.any (fun n => passes s c (34 + n)) && !asyncHigh old c 64 && !pulsed s c
    if chans = 0 then s else carry s chans false true

/-- The level an EVO ball follows while its channel is in asynchronous mode (R286): that of the A producers; what a clocked
producer or a fire adds is a pulse, counted as it is driven. -/
def evoLevel (s : State) (n : Nat) : Bool :=
  s.on (EVF_CSEL_EN (18 + n)) && evoOn s n && asyncHigh s (s.get (EVF_CSEL_CH (18 + n))) 64

/-- The level of GPIOn whatever its function (R464): an output's, an EVO function's, or what the board gives it, which the state
holds in the field of GPIO_IN; 0 without VIO1 (R444). -/
def gpioLevel (s : State) (n : Nat) : Bool :=
  bitOf s.vio 1 && (match s.get (GPIO_FUNC_FUNC n) with
    | 1 => s.bit GPIO_OUT_OUT n
    | 2 => if 4 ≤ n then evoLevel s (n - 4) else s.bit GPIO_IN_IN n
    | _ => s.bit GPIO_IN_IN n)

/-- What follows where the balls or their functions have changed since `old` (R464): the EVI events, and GPIO_EDGE of each ball
that has risen, latched while SYS runs (DESIGN CHOICE, log entry 14). -/
def gpioEdges (old s : State) : State :=
  let t := eviEdges old s
  let up := maskOf 8 fun n => !gpioLevel old n && gpioLevel s n
  if sysClocked s then t.put GPIO_EDGE_EDGE (t.get GPIO_EDGE_EDGE ||| up) else t

/-- The supplies of the I/O groups: without VIO1 every GPIO ball reads 0; with it back, what the part drives rises again (R444). -/
def setVio (s : State) (v : Nat) : State :=
  let t := { s with vio := v % 16 }
  gpioEdges s (if bitOf v 1 then t else t.put GPIO_IN_IN 0)

/-- A fire: every channel of the mask carries an event (R291), a pulse in an asynchronous channel (R286). -/
def fire (s : State) (chans : Nat) : State :=
  let s := windows s
  let m := maskOf 32 fun c => bitOf chans c && !masked s c && !asyncHigh s c 64 && !pulsed s c
  let s := addPulses s (maskOf 8 fun c => bitOf chans c && !masked s c)
  if m = 0 then s else carry s m false false

/-- A write of a channel's mask or owner that raises an asynchronous channel's level is an event of it (R286), and may raise an EVO
ball (R464). -/
def asyncRise (old s : State) : State :=
  let s := windows (gpioEdges old s)
  let m := maskOf 8 fun c => asyncHigh s c 64 && !asyncHigh old c 64 && !masked s c && !pulsed s c
  if m = 0 then s else carry s m false true

/-- A capture unit records link time at an event (R294, R295). -/
def capture (s : State) (n : Nat) : State :=
  let v := Sparse.look 0 s.evCap (8 + n)
  let s := { s with evCap := Sparse.set 0 s.evCap (8 + n) 0 }
  if s.on (EVF_CAPSTAT_VALID n) && !s.on (EVF_CSEL_MODE (8 + n)) then s.put (EVF_CAPSTAT_OVR n) 1
  else
    let s := if s.on (EVF_CAPSTAT_VALID n) then s.put (EVF_CAPSTAT_OVR n) 1 else s
    let t := v - 1
    let s := { s with evCap := Sparse.set 0 s.evCap n (t / 2 ^ 32) }
    ((s.put (EVF_CAPLO_TIME n) t).put (EVF_CAPSTAT_VALID n) 1).put (EVF_CAPSTAT_NOLT n) (b2n (v == 0))

/-- The check of R293 after a write that changed channel `c`'s owner or set its PRIV. -/
def ownerCheck (s : State) (c : Nat) : State :=
  if !s.on (EVF_CHOWN_PRIV c) then s
  else
    (List.range 22).foldl (fun s k =>
      if s.on (EVF_CSEL_EN k) && s.get (EVF_CSEL_CH k) == c &&
          !authority (s.get (EVF_CSEL_WPRIN k)) (s.get (EVF_CHOWN_PRIN c)) then
        let s := s.put (EVF_CSEL_EN k) 0
        { s with evHeld := s.evHeld - (s.evHeld &&& 2 ^ k) }
      else s) s

/-- A write of EVF_CHOWNc that is allowed (R290, R293). -/
def writeOwner (s : State) (c v : Nat) : State :=
  let new := v % 16
  let changed := s.get (EVF_CHOWN_PRIN c) != new || (bitOf v 4 && !s.on (EVF_CHOWN_PRIV c))
  let s := (s.put (EVF_CHOWN_PRIN c) new).put (EVF_CHOWN_PRIV c) (v / 16)
  if changed then ownerCheck s c else s

/-- A write of EVF_CSELk that is allowed: WPRIN becomes the writer's tag; PEND and MODE act only where the consumer has them
(R290, R297's register). A new selection leaves a held event to be delivered, and in its window both channels' events (R296). A
write that clears EN leaves a held event too, which is delivered when its consumer runs (R285 is silent; DESIGN CHOICE, log entry
121). -/
def writeCsel (s : State) (k p v : Nat) : State :=
  let old := s.get (EVF_CSEL_CH k)
  let s := if s.on (EVF_CSEL_EN k) && bitOf v 8 && old != v % 32 then openWin s (1, k, old) else s
  let s := ((s.put (EVF_CSEL_CH k) v).put (EVF_CSEL_EN k) (v / 2 ^ 8)).put (EVF_CSEL_WPRIN k) p
  let s := if k < 8 && bitOf v 9 then s.put (EVF_CSEL_PEND k) 0 else s
  if 8 ≤ k && k < 12 then s.put (EVF_CSEL_MODE k) (v / 2 ^ 10) else s

/-- The producer mask of channel `c`. -/
def prodMask (s : State) (c : Nat) : Nat := s.get (EVF_CHPMLO_MASK c) + 2 ^ 32 * s.get (EVF_CHPMHI_MASK c)

/-- A write of EVF_ASYNC masks every channel whose bit it changes (R288). -/
def writeAsync (s : State) (v : Nat) : State :=
  let old := s.get EVF_ASYNC_ASYNC
  let s := s.put EVF_ASYNC_ASYNC v
  (List.range 8).foldl (fun s c => if bitOf old c == bitOf v c then s else openWin s (2, c, 0)) s

/-- A read of EVF_CAPLOn latches the record's high word into EVF_CAPHIn in the same access (R295). -/
def capLowRead (s : State) (n : Nat) : State := s.put (EVF_CAPHI_TIME n) (Sparse.look 0 s.evCap n)

end Sys2Proof.Machine
end

