-- ==== Sys2Proof/Machine/Ledger.lean ====
section
/-! DEFINITION. Harvester, store manager, energy ledger (ch. 03) and performance levels (R42 to R47), so far as they touch no
other block: reservations, samples, thresholds, the capacitance measurement, level requests. -/

namespace Sys2Proof.Machine

open Sys2Proof

/-- Status OK (R273's status bytes, as R43 and R82 use them). -/
def stOk : Nat := 0
/-- Status BUSY. -/
def stBusy : Nat := 1
/-- Status BADPARAM. -/
def stBadParam : Nat := 5
/-- Status NO_ENERGY. -/
def stNoEnergy : Nat := 9

/-- A harvester event occurs: its flag, its producer, and the harvest wake source for WAKEUP and WAKEDN (R88, R282). -/
def hrvEvt (s : State) (b : Nat) : State :=
  let s := yieldEv (s.setFlag 0x40001028 b) (10 + b)
  if b = 7 || b = 8 then wakeSource s 9 else s

/-! ### Reservations -/

/-- E less every outstanding reservation (R77). -/
def freeEnergy (s : State) : Int := sgn 32 (s.get HRV_EAVAIL_EAVAIL) - (s.get HRV_ERESV_ERESV : Int)

/-- The coarse level (R87). -/
def coarseLevel (s : State) : Nat :=
  let f := freeEnergy s
  let den : Int := (s.led.capEff : Int) * (3500 * 3500 - (s.led.floorEff : Int) * s.led.floorEff)
  if f ≤ 0 then 0 else if den ≤ 0 then 7 else min 7 ((8 * f * 20000) / den).toNat

/-- Keep HRV_ERESV, HRV_ELEVEL and HRV_RESSTAT.PEND in step with the reservations (R81, R82, R87). -/
def ledgerRefresh (s : State) : State :=
  let s := s.put HRV_ERESV_ERESV (s.led.res.foldl (fun a r => a + r.amount) 0)
  let s := s.put HRV_ELEVEL_LEVEL (coarseLevel s)
  let t := s.get HRV_RESSTAT_TICKET
  if s.led.res.any fun r => r.ticket == some t && !r.bound then s else s.put HRV_RESSTAT_PEND 0

/-- Replace the list of reservations. -/
def setRes (s : State) (l : List Resv) : State := ledgerRefresh { s with led := { s.led with res := l } }

/-- The ledger's decision on an amount of a class: the status and the amount recorded (R81, R84). -/
def decide81 (s : State) (cls amount : Nat) : Nat × Nat :=
  if 8 ≤ s.led.res.length then (stBusy, 0)
  else if (amount : Int) ≤ freeEnergy s && !s.on HRV_STAT_FLOOR then (stOk, amount)
  else if s.bit HRV_POLICY_PRIMADMIT cls && s.on HRV_STAT_PRIMOK then (stOk, 0)
  else (stNoEnergy, 0)

/-- Bind the oldest unbound ticket of a class and tag to a holder (R82). Which of several binds is open: the oldest is a DESIGN
CHOICE (log entry 44). -/
def bindTicket (cls tag holder : Nat) : List Resv → Option (List Resv)
  | [] => none
  | r :: t =>
    if r.cls = cls && r.tag = tag && r.ticket.isSome && !r.bound then some ({ r with bound := true, left := holder } :: t)
    else (bindTicket cls tag holder t).map (r :: ·)

/-- A block requests a burst of a class on behalf of a tag: a bound ticket covers it, else the ledger decides (R81, R82). -/
def burst (s : State) (cls amount tag holder : Nat) : Nat × State :=
  match bindTicket cls tag holder s.led.res with
  | some l => (stOk, setRes s l)
  | none =>
    let (st, a) := decide81 s cls amount
    if st = stOk then (stOk, setRes s (s.led.res ++ [⟨cls, a, tag, none, true, holder⟩])) else (st, s)

/-- Drop the first reservation a test holds of. -/
def dropFirst (p : Resv → Bool) : List Resv → List Resv
  | [] => []
  | r :: t => if p r then t else r :: dropFirst p t

/-- Release a holder's burst of a class (R80). -/
def releaseBurst (s : State) (cls holder : Nat) : State :=
  setRes s (dropFirst (fun r => r.cls == cls && r.bound && r.left == holder) s.led.res)

/-- A burst of a class is admitted: an unbound pre-reservation is not one (R82). -/
def burstHeld (s : State) (cls : Nat) : Bool := s.led.res.any fun r => r.cls == cls && r.bound

/-- The number an admitted pre-reservation gets: the lowest not outstanding (R82 gives none; DESIGN CHOICE, log entry 44). -/
def freeTicket (l : List Resv) : Nat :=
  ((List.range 8).find? fun t => !l.any fun r => r.ticket == some t).getD 0

/-- A pre-reservation of a principal (R82): status, ticket. -/
def preReserve (s : State) (cls amount tag : Nat) : Nat × Nat × State :=
  if cls = 2 || 4 < cls || amount = 0 then (stBadParam, 0, s)
  else
    let (st, a) := decide81 s cls amount
    if st = stOk then
      let t := freeTicket s.led.res
      let ticks := if s.get HRV_POLICY_BINDTO = 0 then 16 else s.get HRV_POLICY_BINDTO
      (stOk, t, setRes s (s.led.res ++ [⟨cls, a, tag, some t, false, ticks⟩]))
    else (st, 0, s)

/-- A write of HRV_RESREQ requests a pre-reservation for the writer's tag (R82). A refused one leaves TICKET and PEND to the
last that was admitted (DESIGN CHOICE, log entry 101). -/
def resReq (s : State) (tag v : Nat) : State :=
  let s := (s.put HRV_RESREQ_AMOUNT v).put HRV_RESREQ_CLASS (v / 2 ^ 20)
  let (st, t, s) := preReserve s (bitsOf v 20 3) (bitsOf v 0 20) tag
  let s := s.put HRV_RESSTAT_RESULT st
  if st = stOk then (s.put HRV_RESSTAT_TICKET t).put HRV_RESSTAT_PEND 1 else s

/-- The ticket's reservation (R82). -/
def ticketOf (s : State) (t : Nat) : Option Resv := s.led.res.find? fun r => r.ticket == some t

/-- Release an unbound ticket. -/
def dropTicket (s : State) (t : Nat) : State := setRes s (dropFirst (fun r => r.ticket == some t && !r.bound) s.led.res)

/-- A write of HRV_RESREL: released when the writer holds the ticket and it is unbound, otherwise ignored (R82). -/
def resRel (s : State) (tag v : Nat) : State :=
  match ticketOf s (v % 8) with
  | some r => if r.tag = tag && !r.bound then dropTicket s (v % 8) else s
  | none => s

/-- PRERESERVATION_TIMEOUT: an unbound pre-reservation whose BINDTO ticks have run out is released (R82). -/
def execPrereservationTimeout (ticket : Nat) (s : State) : Host.Outcome State Fault Refusal :=
  live s (match ticketOf s ticket with
    | some r => if !r.bound && r.left = 0 then dropTicket s ticket else s
    | none => s)

/-! ### The harvester -/

/-- Channel `n`. -/
def chanAt (s : State) (n : Nat) : Chan := s.chan.getD n ⟨none, 0⟩

/-- The channel has been dropped and not re-armed (R69). -/
def dropped (s : State) (n : Nat) : Bool := 16 ≤ (chanAt s n).drift

/-- Channel state by its enable, its drop, the shunt and its operating point (R68, R69, R75). SAMPLING (0b101) is never shown: the
disconnection of R67 and its sample are one step (DESIGN CHOICE, log entry 101). -/
def chanState (s : State) (n : Nat) : Nat :=
  if s.on HRV_STAT_SHUNT then 3
  else if !s.bit HRV_CFG_EN n then 0
  else if dropped s n then 4
  else if 15 ≤ s.get (HRV_CHSTAT_VOP n) then 2 else 1

/-- Write the STATE of every channel. -/
def chanStates (s : State) : State :=
  (List.range 4).foldl (fun s n => s.put (HRV_CHSTAT_STATE n) (chanState s n)) s

/-- A write of HRV_CFG: an EN bit going 0 to 1 re-arms a dropped channel and takes a new reference (R69). Until its next sample
the channel reads OFF, or IDLE where it is enabled, with VOP and PIN 0, at once (DESIGN CHOICE, log entry 101). -/
def writeHrvCfg (s : State) (v : Nat) : State :=
  let was := s.get HRV_CFG_EN
  let s := (s.put HRV_CFG_PERIOD v).put HRV_CFG_EN (v / 16)
  let l := (List.range 4).map fun n => if !bitOf was n && bitOf v (4 + n) then Chan.mk none 0 else chanAt s n
  let s := { s with chan := l }
  let s := (List.range 4).foldl (fun s n =>
    if !bitOf v (4 + n) then (s.put (HRV_CHSTAT_VOP n) 0).put (HRV_CHSTAT_PIN n) 0 else s) s
  chanStates s

/-- The operating point of a sample (R67, R68): VOP, PIN before the common limit and the current, in mV, µW and µA. `iop` is the
current at the fraction's point, or at 400 mV where it would lie above. Where the 10 mW limit moves the point towards Voc the spec
does not say how far: FREE. A channel already held at 400 mV stays there and reports 10 mW (DESIGN CHOICE, log entry 45). -/
def operatingPoint (s : State) (voc vf iop : Nat) : Nat × Nat × Nat :=
  let vop := min vf 400
  let pw := vop * iop / 1000
  if 10000 < pw then
    let v := vop + Config.limitShift s.free % (min voc 400 - vop + 1)
    (v, 10000, 10000000 / v)
  else (vop, pw, iop)

/-- The channel's resistance of R69 against its reference: (Voc - Vop) / Iop. With no current it has no value: it lies above any
reference and sets none (DEDUCED, log entry 46). It is kept in whole mΩ, rounded down, from whole mV and µA (DESIGN CHOICE, log
entry 101). -/
def drift (c : Chan) (voc vop iop : Nat) : Chan :=
  let r := (voc - vop) * 10 ^ 6 / iop
  match c.ref with
  | none => if iop = 0 then ⟨none, 0⟩ else ⟨some r, 0⟩
  | some q => if iop = 0 || 3 * q < 2 * r || 2 * r < q then ⟨some q, c.drift + 1⟩ else ⟨some q, 0⟩

/-- The channel transfers nothing (R68). -/
def chanOff (s : State) (n : Nat) : State := chanStates ((s.put (HRV_CHSTAT_VOP n) 0).put (HRV_CHSTAT_PIN n) 0)

/-- One sample of a channel: `voc` in mV, `iop` in µA at its operating point (R67 to R69). A sample below 15 mV leaves the
channel IDLE with no current, so it gives no resistance and ends a run of drifted samples (DEDUCED, log entry 46). VOP and PIN
are rounded down (DESIGN CHOICE, log entry 101). -/
def harvestSample (s : State) (n voc iop : Nat) : State :=
  let frac := if s.get (HRV_CHCFG_FRAC n) = 0 then 8 else s.get (HRV_CHCFG_FRAC n)
  let set (c : Chan) : State := { s with chan := s.chan.set n c }
  if voc * frac < 15 * 16 then chanOff (set { chanAt s n with drift := 0 }) n
  else
    let (vop, pw, i) := operatingPoint s voc (voc * frac / 16) iop
    let c := drift (chanAt s n) voc vop i
    let s := { set c with free := s.free + 1 }
    if 16 ≤ c.drift then hrvEvt ((chanOff s n).log 0xC n 0) 4
    else
      let others := (List.range 4).foldl (fun a k => if k = n then a else a + s.get (HRV_CHSTAT_PIN k)) 0
      let pw := if 40000 < others + pw then pw * 40000 / (others + pw) else pw
      chanStates ((s.put (HRV_CHSTAT_VOP n) vop).put (HRV_CHSTAT_PIN n) pw)

/-- HARVEST_SAMPLE (R66 to R69): an enabled channel that is neither shunted nor dropped is sampled. While a capacitance measurement
has the channels opened none is, and HRV_CHSTATn stays as it was (R79; DESIGN CHOICE, log entry 115). A Voc above the TH
balls' rating or a current above R452's is outside the operating conditions. -/
def execHarvestSample (n voc iop : Nat) (s : State) : Host.Outcome State Fault Refusal :=
  if 1500 < voc || 1200000 < iop then .fault .outsideOperatingConditions
  else live s (if n < 4 && s.bit HRV_CFG_EN n && !dropped s n && !s.on HRV_STAT_SHUNT && !s.on HRV_STAT_CAPBUSY
    then harvestSample s n voc iop else s)

/-- VSTO_HI (R72, R75): boosting stops and every channel's input is shunted. -/
def execVstoHi (s : State) : Host.Outcome State Fault Refusal :=
  live s (if s.on HRV_STAT_SHUNT then s else hrvEvt (chanStates (s.put HRV_STAT_SHUNT 1)) 3)

/-- SHUNT_RELEASE (R72): VSTO has fallen to 3.45 V. Until its next sample a channel reads the STATE of its operating point from
before the shunt (R75; DESIGN CHOICE, log entry 115). -/
def execShuntRelease (s : State) : Host.Outcome State Fault Refusal := live s (chanStates (s.put HRV_STAT_SHUNT 0))

/-! ### The store and the cell -/

/-- A running capacitance measurement is abandoned when the load moves to VBAT (R79). -/
def capAbort (s : State) : State :=
  if s.on HRV_STAT_CAPBUSY then hrvEvt ((s.put HRV_STAT_CAPBUSY 0).put HRV_CAPMEAS_RESULT 3) 6 else s

/-- The load moves back to the store (R72, R73). -/
def toStore (s : State) : State := if s.on HRV_STAT_SRC then hrvEvt (s.put HRV_STAT_SRC 0) 2 else s

/-- FLOOR_CLEAR (R83): VSTO has risen 50 mV above the floor; the listener's lock ends (R243). -/
def execFloorClear (s : State) : Host.Outcome State Fault Refusal :=
  live s ((s.put HRV_STAT_FLOOR 0).put LNK_STAT_FLOORLOCK 0)

/-- A write of HRV_CAPMEAS with the store at `vsto` mV (R79 step 1). -/
def capStart (s : State) (v vsto : Nat) : State :=
  let s := s.put HRV_CAPMEAS_TSEL (v / 2)
  if !bitOf v 0 then s
  else if vsto < 2100 || s.on HRV_STAT_SRC || s.on HRV_STAT_CAPBUSY then hrvEvt (s.put HRV_CAPMEAS_RESULT 2) 6
  else s.put HRV_STAT_CAPBUSY 1

/-- T of R79 in ms, by the TSEL that stands when the measurement ends: one written while it runs counts (R79 leaves that open;
DESIGN CHOICE, log entry 48). -/
def capT (s : State) : Nat := 500 * 2 ^ min (s.get HRV_CAPMEAS_TSEL) 5

/-- R79 steps 4 and 5: `v0`, `v1` and `v2` in mV; C is rounded down to whole 0.1 mF (DESIGN CHOICE, log entry 101). -/
def capDone (s : State) (v0 v1 v2 : Nat) : State :=
  let d : Int := ((v1 : Int) - v2) - ((v0 : Int) - v1)
  let c : Int := if d ≤ 0 then 0 else (100 * (capT s : Int)) / d
  let s := s.put HRV_STAT_CAPBUSY 0
  let s := if 470 ≤ c && c ≤ 47000 then (s.put HRV_CAP_CAP c.toNat).put HRV_CAPMEAS_RESULT 0 else s.put HRV_CAPMEAS_RESULT 1
  hrvEvt s 6

/-- VSTO in mV lies within its rating (R447). -/
def vstoOk (v : Nat) : Bool := decide (v ≤ 4000)

/-- CAP_MEASURE_DONE (R79). -/
def execCapMeasureDone (v0 v1 v2 : Nat) (s : State) : Host.Outcome State Fault Refusal :=
  if vstoOk v0 && vstoOk v1 && vstoOk v2 then live s (if s.on HRV_STAT_CAPBUSY then capDone s v0 v1 v2 else s)
  else .fault .outsideOperatingConditions

/-- The tick's figures: HRV_SUPPLY, the values of HRV_CAP and HRV_FLOOR in effect, E, the wake thresholds, and a tick less
for every unbound ticket (R77, R78, R82, R88). A crossing lies between two samples: upward from below VUP to VUP or above, downward
from VDN or above to below it; the first tick after power-on has no sample before it (DESIGN CHOICE, log entry 49). -/
def tickFigures (s : State) (vsto vbat : Nat) : State :=
  let prev := s.get HRV_SUPPLY_VSTO
  let s := (s.put HRV_SUPPLY_VSTO vsto).put HRV_SUPPLY_VBAT vbat
  let c := min (max (s.get HRV_CAP_CAP) 470) 47000
  let f := min (max (s.get HRV_FLOOR_FLOOR) 1800) 3500
  let first := !s.led.ticked
  let s := { s with led := { s.led with capEff := c, floorEff := f, ticked := true } }
  let e : Int := ((c : Int) * ((vsto : Int) * vsto - (f : Int) * f)) / 20000
  let s := s.put HRV_EAVAIL_EAVAIL (unsgn 32 e)
  let s := setRes s (s.led.res.map fun r => if r.bound then r else { r with left := r.left - 1 })
  let up := s.get HRV_WAKETH_VUP
  let dn := s.get HRV_WAKETH_VDN
  let s := if up != 0 && !first && decide (prev < up) && decide (up ≤ vsto) then hrvEvt s 7 else s
  if dn != 0 && !first && decide (dn ≤ prev) && decide (vsto < dn) then hrvEvt s 8 else s

/-! ### Performance levels -/

/-- The class 2 amount (R80). -/
def levelAmount (s : State) (lvl dur : Nat) : Nat :=
  let cost := if lvl = 3 then s.get HRV_LVLCOST_P3 else if lvl = 4 then s.get HRV_LVLCOST_P4 else s.get HRV_LVLCOST_P5
  (dur * cost + 9) / 10 + s.get (HRV_CLSAMT_AMOUNT 2)

/-- Set whether a DURATION runs. -/
def setDur (s : State) (b : Bool) : State := { s with pwr := { s.pwr with durOn := b } }

/-- fSYS of a level in kHz (R42). -/
def fSys (lvl : Nat) : Nat := [24000, 80000, 144000, 208000, 264000, 320000].getD lvl 24000

/-- The divider N of SPIn at a level (R458, R460, R466): the smallest of 1 to 65,535 whose SCK exceeds neither the rate nor the
limit. -/
def spiN (n lvl rate : Nat) : Nat :=
  let lim := if n = 0 then 25000 else 50000
  let r := if rate = 0 then lim else min rate lim
  min ((fSys lvl + 2 * r - 1) / (2 * r)) 65535

/-- The SPI blocks choose their divider for the level in force (R458). -/
def spiDivs (s : State) : State :=
  let d (n : Nat) : Nat := spiN n (s.get PWR_LVLSTAT_CUR) (s.get (SPI_CFG_RATE n))
  (s.put (SPI_DIV_N 0) (d 0)).put (SPI_DIV_N 1) (d 1)

/-- A frequency switch (R45, R458). -/
def switchTo (s : State) (lvl : Nat) : State := spiDivs (s.put PWR_LVLSTAT_CUR lvl)

/-- A transition to a level starts (R45): down, the clock has switched; up, the voltage rises first. -/
def transition (s : State) (lvl : Nat) : State :=
  let s := (s.put PWR_LVLSTAT_TARGET lvl).put PWR_LVLSTAT_BUSY 1
  if lvl < s.get PWR_LVLSTAT_CUR then switchTo s lvl else s

/-- Give back the class 2 reservation of the level in force (R80). -/
def releaseLevel (s : State) : State := setDur (releaseBurst s 2 0) false

/-- A request starts from step 1 of R45, with its admission (R43, R46). One that replaces an admitted level is decided with that
level's reservation still counted, which is released only then (R80, R85 leave the order open; DESIGN CHOICE, log entry 50). -/
def startLevel (s : State) (lvl dur : Nat) : Nat × State :=
  if 2 < lvl then
    let (st, a) := decide81 s 2 (levelAmount s lvl dur)
    if st = stOk then
      let s := releaseLevel s
      let s := setRes s (s.led.res ++ [⟨2, a, 0, none, true, 0⟩])
      (stOk, transition (setDur s true) lvl)
    else (st, s.put PWR_LVLSTAT_RESULT st)
  else (stOk, transition (releaseLevel s) lvl)

/-- A level request by any of the three ways (R43, R46, R48): the status, and the state. A BADPARAM request is refused on
arrival, and a waiting request stays, also while BUSY=1 (R46 leaves that open; DESIGN CHOICE, log entry 51). One that arrives
while the part is asleep waits as one that arrives during the entry does (R48 speaks of the entry alone; DESIGN CHOICE, log entry
108). -/
def levelRequest (s : State) (lvl dur : Nat) (ext : Bool) : Nat × State :=
  let s := if ext then s.setFlag 0x40000030 3 else s
  if 5 < lvl || (3 ≤ lvl && dur = 0) then (stBadParam, s.put PWR_LVLSTAT_RESULT stBadParam)
  else if s.on PWR_LVLSTAT_BUSY || s.pwr.entry.isSome || s.get PWR_DOMSTAT_STATE != 0 then
    (stOk, ({ s with pwr := { s.pwr with lvlQueue := some (lvl, dur) } }).put PWR_LVLSTAT_QUEUED 1)
  else startLevel s lvl dur

/-- A waiting request starts once no transition runs and the core runs (R46, R48). -/
def startQueued (s : State) : State :=
  match s.pwr.lvlQueue with
  | none => s
  | some (l, d) =>
    if s.on PWR_LVLSTAT_BUSY || s.get PWR_DOMSTAT_STATE != 0 || (s.pwr.entry.any fun e => !e.wait) then s
    else (startLevel (({ s with pwr := { s.pwr with lvlQueue := none } }).put PWR_LVLSTAT_QUEUED 0) l d).2

/-- Step 4 of R45: the transition completes and a waiting request starts. Upwards the frequency has just switched; downwards it
did so first, and at a request of the level in force it does not (R45, R458). -/
def levelDone (s : State) : State :=
  if s.on PWR_LVLSTAT_BUSY then
    let s := if s.get PWR_LVLSTAT_CUR = s.get PWR_LVLSTAT_TARGET then s else switchTo s (s.get PWR_LVLSTAT_TARGET)
    let s := (s.put PWR_LVLSTAT_BUSY 0).put PWR_LVLSTAT_RESULT 0
    startQueued (yieldEv (s.setFlag 0x40000030 0) 20)
  else s

/-- LEVEL_DURATION_EXPIRY (R44): unless a new request has arrived first, the level moves to PWR_LVLCFG.BASE, at once also in Chalk
and within a sleep entry, where R48 would have the level in force at entry come back (DESIGN CHOICE, log entry 124). -/
def levelExpiry (s : State) : State :=
  if !s.pwr.durOn || s.pwr.lvlQueue.isSome then s
  else
    let s := (releaseLevel s).put PWR_LVLSTAT_EXPIRED 1
    let s := s.setFlag 0x40000030 2
    let base := min (s.get PWR_LVLCFG_BASE) 2
    if s.on PWR_LVLSTAT_BUSY then
      ({ s with pwr := { s.pwr with lvlQueue := some (base, 0) } }).put PWR_LVLSTAT_QUEUED 1
    else transition s base

/-- LEVEL_DURATION_EXPIRY (R44). -/
def execLevelDurationExpiry (s : State) : Host.Outcome State Fault Refusal := live s (levelExpiry s)

/-- A drop forced by the ledger (R47): it pre-empts a transition and discards the waiting request. -/
def levelDrop (s : State) : State :=
  let s := releaseLevel s
  let s := ({ s with pwr := { s.pwr with lvlQueue := none } }).put PWR_LVLSTAT_QUEUED 0
  let s := (s.put PWR_LVLSTAT_DROPPED 1).setFlag 0x40000030 1
  transition s 0

/-- The level's part of a management, watchdog or software reset (R49, R86): a waiting request keeps waiting. -/
def levelReset (s : State) : State :=
  transition (releaseLevel ((s.put PWR_LVLREQ_LEVEL 0).put PWR_LVLREQ_DURATION 0)) 0

end Sys2Proof.Machine
end

