-- ==== Sys2Proof/Machine/Mem.lean ====
section
/-! DEFINITION. The memories behind the region guard (ch. 07, R298 to R303): words with their protection, the DRAM's outer
code, wipes, repairs, sessions. A wait for a wipe, a row copy or a page move ends when it ends, so the access is made after
it (log entry 8). -/

namespace Sys2Proof.Machine

open Sys2Proof

/-! ### Conflict counters (R174) -/

/-- The owner of a bank (R30); none for bank 7. -/
def bankOwner : Nat → Option Master
  | 0 => some .core | 1 => some .core | 2 => some .link | 3 => some .link | 4 => some .display | 5 => some .mover
  | 6 => some .mgmt | _ => none

/-- The counter of a master (R174). -/
def confOf : Master → Option Nat
  | .core => some 0 | .mover => some 1 | .link => some 2 | .mgmt => some 3 | _ => none

/-- A master's waits in a bank it does not own are counted; how long it waits is FREE (R172, R174). -/
def noteConf (s : State) (m : Master) (a : Nat) : State :=
  match confOf m with
  | none => s
  | some i =>
    if bankOwner (bankOf a) = some m then s
    else { s.bump (MEM_CONF_COUNT i) (Config.conflict s.free) with free := s.free + 1 }

/-! ### SRAM words (R171, R176, R177) -/

/-- The row of an SRAM word: 256 words (R178). -/
def sramRow (a : Nat) : Nat := (a - bankBase (bankOf a)) / 1024

/-- Key of a row. -/
def rowKey (b r : Nat) : Nat := b * 65536 + r

/-- A move of a row falls due (R178). -/
def moveDue (s : State) (b r : Nat) : State :=
  if s.ms.moveDue.contains (b, r) then s else { s with ms := { s.ms with moveDue := s.ms.moveDue ++ [(b, r)] } }

/-- A corrected SRAM word (R176, R178). -/
def noteCE (s : State) (a pos : Nat) : State :=
  let b := bankOf a
  let r := sramRow a
  let s := ((s.put MEM_ECCSTAT_CE (s.get MEM_ECCSTAT_CE ||| 2 ^ b)).bump MEM_ECCCNT_COUNT 1).put MEM_EVT_CE 1
  let n := Sparse.look 0 s.ms.rowCnt (rowKey b r) + 1
  let hits := if s.ms.colHits.contains (b, pos, r) then s.ms.colHits else (b, pos, r) :: s.ms.colHits
  let wb := if s.ms.wb.contains a then s.ms.wb else s.ms.wb ++ [a]
  let s := { s with ms := { s.ms with rowCnt := Sparse.set 0 s.ms.rowCnt (rowKey b r) n, colHits := hits, wb := wb } }
  if 4 ≤ n then moveDue s b r else s

/-- An uncorrectable SRAM word (R177, R178); a management read enters it in the log. -/
def noteUE (s : State) (m : Master) (a : Nat) : State :=
  let b := bankOf a
  let s := ((s.put MEM_ECCSTAT_UE (s.get MEM_ECCSTAT_UE ||| 2 ^ b)).put MEM_UEADDR_ADDR a).put MEM_EVT_UE 1
  let s := if s.ms.ueAtCopy.contains a then s else moveDue s b (sramRow a)
  if m = .mgmt then s.log 6 1 a else s

/-- A wipe of an SRAM range: zero with valid check bits (R180). -/
def wipeSram (s : State) (a n : Nat) : State :=
  let s := s.wipe a n
  let out (k : Nat) : Bool := k < a || a + n ≤ k
  let e := s.ms.sramErr.filter fun x => out x.1
  { s with ms := { s.ms with sramErr := e, wb := s.ms.wb.filter out, ueAtCopy := s.ms.ueAtCopy.filter out } }

/-- The range of a wipe region: banks 0 to 7, areas of bank 7 as 8 to 11 (R20, R180). -/
def regionRange (r : Nat) : Nat × Nat :=
  if r < 8 then (bankBase r, bankSize r) else (0x103E0000 + (r - 8) % 4 * 0x8000, 0x8000)

/-- MEM_WIPESTAT follows the regions being wiped. -/
def wipeStat (s : State) : State :=
  s.put MEM_WIPESTAT_BANK (maskOf 8 fun b => s.ms.wipeQ.any fun r => (if r < 8 then r else 7) == b)

/-- A region's wipe ends (R180). -/
def wipeRegion (s : State) (r : Nat) : State :=
  let (a, n) := regionRange r
  let s := wipeSram s a n
  wipeStat { s with ms := { s.ms with wipeQ := s.ms.wipeQ.filter fun x => !(x == r) } }

/-- Wipes start on the given regions (R180). -/
def startWipes (s : State) (l : List Nat) : State :=
  wipeStat { s with ms := { s.ms with wipeQ := s.ms.wipeQ ++ l.filter fun r => !s.ms.wipeQ.contains r } }

/-- An access to a bank or area being wiped waits until its wipe ends (R180). -/
def sramWait (s : State) (a : Nat) : State :=
  (s.ms.wipeQ.filter fun r => let (b, n) := regionRange r; decide (b ≤ a) && decide (a < b + n)).foldl wipeRegion s

/-- Read the SRAM word at `a` through the code: none when it is uncorrectable. -/
def sramRead (s : State) (m : Master) (a : Nat) : Option Nat × State :=
  let s := noteConf (sramWait s a) m a
  let e := Sparse.look 0 s.ms.sramErr a
  let v := s.rd a 4
  if e = 0 then (some v, s)
  else if popc 39 e = 1 then (some v, noteCE s a (topBit e))
  else (none, noteUE s m a)

/-- Write a whole SRAM word: its check bits become valid (R178). -/
def sramPut (s : State) (a v : Nat) : State :=
  let s := s.wr a 4 v
  let l := s.ms.wb.filter fun x => !(x == a)
  let u := s.ms.ueAtCopy.filter fun x => !(x == a)
  { s with ms := { s.ms with sramErr := Sparse.set 0 s.ms.sramErr a 0, wb := l, ueAtCopy := u } }

/-- ECC_WRITEBACK: the bank writes the first waiting corrected word back in a free array cycle (R176). -/
def execEccWriteback (s : State) : Host.Outcome State Fault Refusal :=
  live s (match s.ms.wb with
    | [] => s
    | a :: t => { s with ms := { s.ms with wb := t, sramErr := Sparse.set 0 s.ms.sramErr a 0 } })

/-- BANK_WIPE: a wiper that runs on a region ends (R180). -/
def execBankWipe (region : Nat) (s : State) : Host.Outcome State Fault Refusal :=
  live s (if s.ms.wipeQ.contains region then wipeRegion s region else s)

/-- A spare of one kind ran out in a bank (R179). -/
def spareOut (s : State) (arg : Nat) : State := (s.put MEM_EVT_SPAREOUT 1).log 3 arg 0

/-- SRAM_ROW_MOVE: a row whose move is due is copied raw to a spare row while the bank has one (R178, R179). -/
def execSramRowMove (bank row : Nat) (s : State) : Host.Outcome State Fault Refusal :=
  live s (
    let used := s.get (MEM_SPARE_ROWS bank)
    if !s.ms.moveDue.contains (bank, row) || 8 ≤ used then s
    else
      let inRow (a : Nat) : Bool := decide (bankOf a = bank) && decide (sramRow a = row)
      let ue := (s.ms.sramErr.filter fun e => inRow e.1 && decide (2 ≤ popc 39 e.2)).map (·.1)
      let keep := s.ms.ueAtCopy.filter fun a => !inRow a
      let due := s.ms.moveDue.filter fun x => !(x == (bank, row))
      let cnt := Sparse.set 0 s.ms.rowCnt (rowKey bank row) 0
      let ms := { s.ms with moveDue := due, ueAtCopy := keep ++ ue, rowCnt := cnt, soft := s.ms.soft + 16 ^ bank }
      let s := (({ s with ms := ms }).put (MEM_SPARE_ROWS bank) (used + 1)).put MEM_EVT_REPAIR 1
      let s := s.log 2 bank row
      if used = 7 then spareOut s bank else s)

/-- Distinct rows in which a bit position was corrected (R178). -/
def colRows (s : State) (bank col : Nat) : Nat :=
  (s.ms.colHits.filter fun h => h.1 == bank && h.2.1 == col).length

/-- SRAM_COLUMN_REPLACE: a bit position corrected in four or more distinct rows gets a spare column (R178, R179). Its rows are then
counted afresh, as R178 says of a row's count only (DESIGN CHOICE, log entry 103). -/
def execSramColumnReplace (bank col : Nat) (s : State) : Host.Outcome State Fault Refusal :=
  live s (
    let used := s.get (MEM_SPARECOL_COLS bank)
    if colRows s bank col < 4 || 2 ≤ used then s
    else
      let h := s.ms.colHits.filter fun h => !(h.1 == bank && h.2.1 == col)
      let s := { s with ms := { s.ms with colHits := h, soft := s.ms.soft + 16 ^ (8 + bank) } }
      let s := (s.put (MEM_SPARECOL_COLS bank) (used + 1)).put MEM_EVT_REPAIR 1
      let s := s.log 2 (0x8000 + bank) col
      if used = 1 then spareOut s (0x8000 + bank) else s)

/-! ### DRAM (R188 to R197) -/

/-- Multiply by α in GF(2^8) with x^8 + x^4 + x^3 + x^2 + 1 (R189). -/
def gf2 (a : Nat) : Nat := if a < 128 then 2 * a else (2 * a - 256) ^^^ 0x1D

/-- Product in GF(2^8), `n` bits of `b` from the top. -/
def gfMul (a b : Nat) : Nat :=
  (List.range 8).foldl (fun r i => gf2 r ^^^ (if bitOf b (7 - i) then a else 0)) 0

/-- The two check bytes of 32 data bytes: the remainder of the data polynomial times x^2 (R189). -/
def rsCheck (l : List Byte) : Nat × Nat :=
  l.foldl (fun r d => let f := d.toNat ^^^ r.1; (r.2 ^^^ gf2 f ^^^ f, gf2 f)) (0, 0)

/-- The syndromes at 1 and at α of the 34 bytes, highest power first. -/
def rsSyn (l : List Byte) : Nat × Nat :=
  l.foldl (fun r d => (r.1 ^^^ d.toNat, gf2 r.2 ^^^ d.toNat)) (0, 0)

/-- The powers of α times a value: α^j * v for j below n. -/
def gfPow (v : Nat) : Nat → Nat
  | 0 => v
  | j + 1 => gf2 (gfPow v j)

/-- Decode a codeword: the data, and whether a byte was corrected; none when it is uncorrectable (R189). A word one byte away from a
codeword is taken for one byte in error, also where two of the bytes written to it are (DEDUCED, log entry 114). -/
def rsDecode (l : List Byte) : Option (List Byte × Bool) :=
  let (s0, s1) := rsSyn l
  if s0 = 0 && s1 = 0 then some (l.take 32, false)
  else if s0 = 0 then none
  else match (List.range 34).find? fun j => gfPow s0 j == s1 with
    | none => none
    | some j =>
      let i := 33 - j
      some ((l.set i (BitVec.ofNat 8 ((l.getD i 0).toNat ^^^ s0))).take 32, true)

/-- A DRAM address's segment. -/
def segOf (a : Nat) : Nat := (a - 0x80000000) / 0x400000

/-- Where the check bytes of the burst at `b` lie (R34, R188). -/
def checkAddr (b : Nat) : Nat :=
  0x80000000 + segOf b * 0x400000 + 0x3C0000 + 2 * ((b - 0x80000000) % 0x400000 / 32)

/-! ### The check-line cache (R191) -/

/-- The check line of a burst: 16 consecutive bursts, 512 data bytes. -/
def ckNo (b : Nat) : Nat := (b - 0x80000000) / 512

/-- Where line `n` lies on the die. -/
def ckDie (n : Nat) : Nat := checkAddr (0x80000000 + 512 * n)

/-- The cached line of that number. -/
def ckFind (s : State) (n : Nat) : Option CkLine := s.ms.ckl.find? fun l => l.line == n

/-- Replace the cache. -/
def ckSet (s : State) (l : List CkLine) : State := { s with ms := { s.ms with ckl := l } }

/-- The check bytes of the burst at `b`: from its cached line, else from the die. -/
def ckBytes (s : State) (b : Nat) : List Byte :=
  match ckFind s (ckNo b) with
  | some l => (l.bytes.drop (2 * (b / 32 % 16))).take 2
  | none => s.rdBytes (checkAddr b) 2

/-- A burst with its check bytes, as the outer code sees it. -/
def burstOf (s : State) (b : Nat) : List Byte := s.rdBytes b 32 ++ ckBytes s b

/-- A dirty line is written back. -/
def ckBack (s : State) (l : CkLine) : State := if l.dirty then s.wrBytes (ckDie l.line) l.bytes else s

/-- The lines are written back and stay: entry to self-refresh, and before the die is switched off. -/
def ckFlush (s : State) : State := ckSet (s.ms.ckl.foldl ckBack s) (s.ms.ckl.map fun l => { l with dirty := false })

/-- An access brings the burst's line in; a full cache of 64 evicts one, FREE, which is written back when dirty. That every access
brings its line in is a DESIGN CHOICE (log entry 42). -/
def ckLoad (s : State) (b : Nat) : State :=
  if (ckFind s (ckNo b)).isSome then s
  else
    let k := (Config.evict s.free).val
    let s := if s.ms.ckl.length < 64 then s
      else match s.ms.ckl[k]? with
        | some l => ckSet { ckBack s l with free := s.free + 1 } (s.ms.ckl.eraseIdx k)
        | none => s
    ckSet s (s.ms.ckl ++ [⟨ckNo b, s.rdBytes (ckDie (ckNo b)) 32, false⟩])

/-- The check bytes of a burst change: its line is dirty. -/
def ckPut (s : State) (b : Nat) (c0 c1 : Nat) : State :=
  let s := ckLoad s b
  let i := 2 * (b / 32 % 16)
  ckSet s (s.ms.ckl.map fun l =>
    if l.line == ckNo b then
      { l with bytes := (l.bytes.set i (BitVec.ofNat 8 c0)).set (i + 1) (BitVec.ofNat 8 c1), dirty := true }
    else l)

/-- The lines of a segment are dropped: its die cells were written, or lost their content. -/
def ckDrop (s : State) (seg : Nat) : State := ckSet s (s.ms.ckl.filter fun l => !(l.line / 8192 == seg))

/-- The die leaves the active state, its check lines written back (R191): to self-refresh (1) or off (0). -/
def dieRests (s : State) (v : Nat) : State := (ckFlush s).put PWR_DOMSTAT_MEM v

/-- Whether every segment has been wiped: the wiper stops (R197). -/
def wiperEnd (s : State) : State :=
  if s.get DRM_STAT_UNWIPED = 0 && s.on DRM_STAT_WIPING then
    yieldEv ((s.put DRM_STAT_WIPING 0).put DRM_EVT_WIPEDONE 1) 25
  else s

/-- The background wiper clears one segment, holes included (R197). -/
def wipeSeg (s : State) (n : Nat) : State :=
  let s := ckDrop (s.wipe (0x80000000 + n * 0x400000) 0x400000) n
  s.put DRM_STAT_UNWIPED (s.get DRM_STAT_UNWIPED - (s.get DRM_STAT_UNWIPED &&& 2 ^ n))

/-- The lowest set bit below 16. -/
def lowBit (v : Nat) : Option Nat := (List.range 16).find? fun n => bitOf v n

/-- A DRAM access makes the die active, starts a waiting wiper, and waits for the wipe of its segment: the wiper first ends the
segment it is on (R64, R193, R197). -/
def dramWait (s : State) (a : Nat) : State :=
  let s := s.put PWR_DOMSTAT_MEM 2
  let u := s.get DRM_STAT_UNWIPED
  if u = 0 then s
  else
    let on := s.on DRM_STAT_WIPING
    let s := s.put DRM_STAT_WIPING 1
    if bitOf u (segOf a) then
      let s := if on then (match lowBit u with | some n => wipeSeg s n | none => s) else s
      wiperEnd (if bitOf (s.get DRM_STAT_UNWIPED) (segOf a) then wipeSeg s (segOf a) else s)
    else s

/-- A burst corrected (R189, R196). -/
def noteDramCE (s : State) (b : Nat) : State :=
  let s := (s.bump DRM_ECCCNT_COUNT 1).put DRM_EVT_CE 1
  let r := (b - 0x80000000) / 1024
  { s with ms := { s.ms with dramRow := Sparse.set 0 s.ms.dramRow r (Sparse.look 0 s.ms.dramRow r + 1) } }

/-- Read the burst at `b` through the outer code: its data, and whether a byte was corrected (R177, R189). -/
def readBurst (s : State) (m : Master) (b : Nat) : Option (List Byte × Bool) × State :=
  let w := burstOf s b
  let s := ckLoad s b
  match rsDecode w with
  | some (l, c) => (some (l, c), if c then noteDramCE s b else s)
  | none =>
    let s := (s.put DRM_UEADDR_ADDR (b / 32)).put DRM_EVT_UE 1
    (none, if m = .mgmt then s.log 6 2 b else s)

/-- Store a whole burst, and its check bytes in their line (R188, R191, R192). -/
def writeBurst (s : State) (b : Nat) (l : List Byte) : State :=
  let (c0, c1) := rsCheck l
  ckPut (s.wrBytes b l) b c0 c1

/-- Replace bytes of a list from an offset. -/
def overlay (l : List Byte) (o : Nat) : List Byte → List Byte
  | [] => l
  | b :: t => overlay (l.set o b) (o + 1) t

/-- DRAM_IDLE_SELF_REFRESH: no session is open and the wiper does not run (R193). -/
def execDramIdleSelfRefresh (s : State) : Host.Outcome State Fault Refusal :=
  live s (if s.on DRM_SESS_OPENST || s.on DRM_STAT_WIPING || s.get PWR_DOMSTAT_MEM != 2 then s else dieRests s 1)

/-- Close the session and give its reservation back (R194). -/
def sessClose (s : State) : State :=
  if s.on DRM_SESS_OPENST then
    let s := releaseBurst (s.put DRM_SESS_OPENST 0) 1 0
    { s with ms := { s.ms with cutWait := false } }
  else s

/-- A write of DRM_SESS by a principal (R194). A CLOSE while a floor trip's cut waits for a descriptor closes the session as at any
other time, and no cut is left to make (DESIGN CHOICE, log entry 109). -/
def writeSess (s : State) (tag v : Nat) : State :=
  let s := if bitOf v 16 then s.put DRM_SESS_CUT 0 else s
  if bitOf v 0 && bitOf v 1 then s.put DRM_SESS_RESULT stBadParam
  else if bitOf v 0 then
    if s.on DRM_SESS_OPENST then s.put DRM_SESS_RESULT 2
    else
      let (st, s) := burst s 1 (s.get (HRV_CLSAMT_AMOUNT 1)) tag 0
      if st = stOk then ((s.put DRM_SESS_RESULT 0).put DRM_SESS_OPENST 1).put PWR_DOMSTAT_MEM 2
      else s.put DRM_SESS_RESULT st
  else if bitOf v 1 then sessClose s
  else s

/-- A floor trip ends the session: self-refresh, CUT and SESSCUT (R194). -/
def sessCut (s : State) : State :=
  ((dieRests (sessClose s) 1).put DRM_SESS_CUT 1).put DRM_EVT_SESSCUT 1

/-- Segments the scrubber walks: those wiped. -/
def scrubSeg (s : State) (from' : Nat) : Option Nat :=
  ((List.range 16).map fun i => (from' + i) % 16).find? fun n => !bitOf (s.get DRM_STAT_UNWIPED) n

/-- DRAM_SCRUB_BURST: with SCRUBEN and a session open, the scrubber reads its next burst (R195). -/
def execDramScrubBurst (s : State) : Host.Outcome State Fault Refusal :=
  live s (
    if !s.on DRM_CFG_SCRUBEN || !s.on DRM_SESS_OPENST then s
    else
      let here := s.ms.scrubPos / 122880
      match scrubSeg s here with
      | none => s
      | some n =>
        let pos := if n = here then s.ms.scrubPos else n * 122880
        let b := 0x80000000 + n * 0x400000 + 32 * (pos % 122880)
        let (r, s) := readBurst (s.put DRM_STAT_SCRUBSEG n) .dap b
        let s := match r with | some (l, true) => writeBurst s b l | _ => s
        { s with ms := { s.ms with scrubPos := (pos + 1) % 1966080 } })

/-- DRM_REMAPCNT and the log's and event's part of R196. SPARELOW tells the 480th remap, and is not set again by those after it
(DESIGN CHOICE, log entry 117). -/
def remapNote (s : State) (row : Nat) : State :=
  let n := s.ms.remap.length
  let s := (s.put DRM_EVT_REMAP 1).log 4 0 row
  if n = 480 then (s.put DRM_EVT_SPARELOW 1).log 0xF 0 n
  else if n = 512 then s.log 0xF 1 n else s

/-- Copy one burst of a row as read and corrected (R196). The copy's own read counts no corrected burst and records no
uncorrectable one (DESIGN CHOICE, log entry 103). -/
def recopy (s : State) (b : Nat) : State :=
  match rsDecode (burstOf s b) with
  | some (l, true) => writeBurst s b l
  | _ => ckLoad s b

/-- DRAM_ROW_REMAP: a row whose corrected bursts reached DRM_CFG.RMTH moves to a spare row while one is left (R196). Bursts of a
hole's rows are check bytes, copied raw. The copy is an access to the die and the segment (R64, R197). The row's corrected
bursts are then counted afresh (DESIGN CHOICE, log entry 103). -/
def execDramRowRemap (row : Nat) (s : State) : Host.Outcome State Fault Refusal :=
  live s (
    if Sparse.look 0 s.ms.dramRow row < max 1 (s.get DRM_CFG_RMTH) || 512 ≤ s.ms.remap.length then s
    else
      let a := 0x80000000 + row * 1024
      let s := dramWait s a
      let s := if inHole a then s else (List.range 32).foldl (fun s i => recopy s (a + 32 * i)) s
      let cnt := Sparse.set 0 s.ms.dramRow row 0
      let s := { s with ms := { s.ms with dramRow := cnt, remap := s.ms.remap ++ [row] } }
      remapNote s row)

/-- DRAM_WIPE_SEGMENT: the running wiper clears the lowest segment still to be wiped (R197). -/
def execDramWipeSegment (s : State) : Host.Outcome State Fault Refusal :=
  live s (if s.on DRM_STAT_WIPING then
      wiperEnd (match lowBit (s.get DRM_STAT_UNWIPED) with | some n => wipeSeg s n | none => s)
    else s)

/-! ### NV words (R299 to R303, R309) -/

/-- A page's move is decided (R309 step 1), while a spare page is free (R310). -/
def moveStart (s : State) (p : Nat) : State :=
  if 64 ≤ s.nvs.tags.length || s.nvs.moving == some p || s.nvs.moveDue.contains p then s
  else if s.nvs.moving.isSome then { s with nvs := { s.nvs with moveDue := s.nvs.moveDue ++ [p] } }
  else ({ s with nvs := { s.nvs with moving := some p } }).put NVS_STAT_MOVING 1

/-- Read an NV word through its code (R299): one that is uncorrectable is logged for the management controller (R177). -/
def nvRead (s : State) (m : Master) (a : Nat) : Option Nat × State :=
  match nvFetch s a with
  | (some v, s) => (some v, s)
  | (none, s) => (none, if m = .mgmt then s.log 6 0 a else s)

/-- Copy a page to its spare, each word as read and corrected (R309 step 2); an uncorrectable word goes raw. -/
def moveCopy (s : State) (p : Nat) : State :=
  (List.range 64).foldl (fun s i =>
    let a := 0x20000000 + 256 * p + 4 * i
    match nvRead s .mgmt a with
    | (some v, s) => if Sparse.look 0 s.ms.nvErr a = 0 then s else nvPut s a v
    | (none, s) => s) s

/-- The next page whose move is due (R307, R309). -/
def moveNext (s : State) : State :=
  match s.nvs.moveDue with
  | [] => s
  | q :: t => moveStart { s with nvs := { s.nvs with moveDue := t } } q

/-- Steps 3 and 4 of a page move (R309): the spare page of tag `k` serves page `p`; the newest tag of a page counts, and an
older one of a page that moved before stays valid and counts in NVS_SPARE.USED (DESIGN CHOICE, log entry 125). -/
def moveTag (s : State) (k p : Nat) : State :=
  let refs := s.nvs.refresh.filter fun t => !(t.1 == p)
  let s := { s with nvs := { s.nvs with tags := (k, p) :: s.nvs.tags, moving := none, refresh := refs } }
  let s : State := State.log ((s.put NVS_STAT_MOVING 0).put NVS_EVT_MOVED 1) 5 k p
  if s.nvs.tags.length = 64 then (s.put NVS_EVT_SPAREOUT 1).log 0xE 0 0 else s

/-- Steps 2 to 4 of a page move (R309), and the next move that is due; a store that waited for the move goes on with it. Where the
hold capacitor does not become ready the move stops (R301); that it is due again is a DESIGN CHOICE (log entry 52). Of several free
spare pages the one with the lowest number is taken (DESIGN CHOICE, log entry 125). -/
def moveFinish (s : State) : State :=
  match s.nvs.moving with
  | none => s
  | some p =>
    let k := ((List.range 64).find? fun k => !s.nvs.tags.any fun t => t.1 == k).getD 0
    let head := headWaits s && headMoves s
    match holdTurn s with
    | (true, s) =>
      let s := moveTag (moveCopy s p) k p
      moveNext (if head then nvHead s else s)
    | (false, s) =>
      ({ s with nvs := { s.nvs with moving := none, moveDue := s.nvs.moveDue ++ [p] } }).put NVS_STAT_MOVING 0

/-- A bus access to a page being moved waits for the move (R309). -/
def nvWait (s : State) (a : Nat) : State := if s.nvs.moving = some (nvPage a) then moveFinish s else s

/-- A store that waits at the head of the store buffer for the hold capacitor came first: it is written or fails before an
access that comes now (R301, R304). -/
def nvTurn (s : State) : State := if headWaits s && !headMoves s then (holdTurn s).2 else s

/-- The store at the head of the store buffer goes on as the hold capacitor becomes ready (R301, R309). -/
def headGo (s : State) : State :=
  match s.dx.stores with
  | st :: _ => nvHead (nvWait s st.addr)
  | [] => s

/-- A memory-mapped read of the store goes through the read buffer of one aligned 64-byte block, which every write keeps current
(R300). -/
def nvBlock (s : State) (a : Nat) : State := { s with nvs := { s.nvs with rblk := some (a / 64) } }

/-! ### One access behind the guard -/

/-- Read a word at a word-aligned address: none when it is uncorrectable (R176, R177, R299). -/
def readWord (s : State) (m : Master) (a : Nat) : Option Nat × State :=
  let a := unalias a
  if inRom a then (some (Config.romWord a).toNat, s)
  else if inSram a then sramRead s m a
  else if inNv a then nvRead (nvBlock (nvTurn (nvWait s a)) a) m a
  else
    let (r, s) := readBurst (dramWait s a) m (a - a % 32)
    (r.map fun x => leNat ((x.1.drop (a % 32)).take 4), s)

/-- Read 1, 2, 4 or 8 bytes at an address aligned to the size (R171). A double word is two reads of its burst in the DRAM, each of
which counts a corrected burst (R177, R188; DESIGN CHOICE, log entry 109). -/
def readMem (s : State) (m : Master) (a n : Nat) : Option Nat × State :=
  if n = 8 then
    let (x, s) := readWord s m a
    let (y, s) := readWord s m (a + 4)
    (match x, y with | some x, some y => some (x + y * 2 ^ 32) | _, _ => none, s)
  else
    let (x, s) := readWord s m (a - a % 4)
    (x.map fun w => w / 2 ^ (8 * (a % 4)) % 2 ^ (8 * n), s)

/-- Write 1, 2 or 4 bytes into the SRAM word that holds `a`; a sub-word store reads the word first (R171, R177). A write that
reaches a live table copy is discarded unless the link engine makes it (R186). False: not written. -/
def sramWrite (s : State) (m : Master) (a n v : Nat) : Bool × State :=
  if inLiveCopy s a && m != .link then (false, s)
  else if n = 4 then (true, sramPut (noteConf (sramWait s a) m a) a v)
  else
    let w := a - a % 4
    match sramRead s m w with
    | (some x, s) => (true, sramPut s w (mergeWord x (a % 4) n v))
    | (none, s) => (false, s)

/-- A write through such an address: one read-modify-write of the word (R175). -/
def aliasWrite (s : State) (m : Master) (a v : Nat) : Bool × State :=
  let w := unalias a
  if inLiveCopy s w && m != .link then (false, s)
  else match sramRead s m w with
    | (some x, s) => (true, sramPut s w (if inSet a then x ||| v % 2 ^ 32 else x - (x &&& v % 2 ^ 32)))
    | (none, s) => (false, s)

/-! ### Writes -/

/-- A bus write of the NV store: one word, whole, once the hold capacitor is ready (R301, R302, R304). -/
def nvWrite (s : State) (m : Master) (a n v : Nat) : Bool × State :=
  match (if m = .core then holdWait else holdTurn) (nvWait s a) with
  | (false, s) => (false, s)
  | (true, s) => nvBegin s a n v

/-- A store of less than a burst into the DRAM: a read-modify-write of the burst (R192). -/
def dramWrite (s : State) (m : Master) (a n v : Nat) : Bool × State :=
  let b := a - a % 32
  match readBurst (dramWait s a) m b with
  | (some (l, _), s) => (true, writeBurst s b (overlay l (a % 32) (leBytes n v)))
  | (none, s) => (false, s)

/-- Write 1, 2, 4 or 8 bytes at an aligned address: false when the store meets an error at its target, and then no second word is
written (R97, R302). A ROM keeps its content (DESIGN CHOICE, log entry 43). -/
def writeMem (s : State) (m : Master) (a n v : Nat) : Bool × State :=
  let one (s : State) (a n v : Nat) : Bool × State :=
    if inRom a then (true, s)
    else if inSram a then sramWrite s m a n v
    else if inSet a || inClr a then aliasWrite s m a v
    else if inNv a then nvWrite s m a n v
    else dramWrite s m a n v
  if n = 8 && !inDram a then
    match one s a 4 v with
    | (true, s) => one s (a + 4) 4 (v / 2 ^ 32)
    | (false, s) => (false, s)
  else one s a n v

end Sys2Proof.Machine
end

