-- ==== Sys2Proof/Machine/Operands.lean ====
section
/-! DEFINITION. Operand forms: immediates and LIMM widening (R91), the predicate test, and the address steps of R96, R110,
R111, R126 and R127. -/

namespace Sys2Proof.Machine

open Sys2Proof

/-! ### Address steps -/

/-- A 32-bit sum with a signed step. -/
def addW (p : Nat) (s : Int) : Nat := unsgn 32 ((p : Int) + s)

/-- The circular step (R126). -/
def circStep (base len p : Nat) (s : Int) : Nat :=
  if len = 0 then addW p s else addW base (((p : Int) - base + s) % (len : Int))

/-- The bit-reversed step (R127): `k` is the size's exponent. -/
def bitRevStep (base len p : Nat) (s : Int) (k : Nat) : Nat :=
  if len = 0 then addW p s
  else
    let m := topBit len
    let j := m - k
    if m ≤ k then base
    else
      let o := unsgn 32 ((p : Int) - base) / 2 ^ k % 2 ^ j
      let t := unsgn j (s / (2 ^ k : Nat))
      addW base ((revBits j ((revBits j o + revBits j t) % 2 ^ j) * 2 ^ k : Nat) : Int)

end Sys2Proof.Machine
end

