-- ==== Sys2Proof/Machine/Mover.lean ====
section
/-! DEFINITION. The mover (R200 to R209). -/

namespace Sys2Proof.Machine

open Sys2Proof

/-- Channel `n`. -/
def chAt (s : State) (n : Nat) : Mch := s.mov.getD n ⟨[], [], none, 0, 0, 0⟩

/-- Replace channel `n`. -/
def setCh (s : State) (n : Nat) (c : Mch) : State := { s with mov := s.mov.set n c }

/-- Word `i` of the channel's descriptor. -/
def dw (c : Mch) (i : Nat) : Nat := c.desc.getD i 0

/-- Element size in bytes (R202). -/
def dSize (c : Mch) : Nat := 2 ^ bitsOf (dw c 0) 0 2

/-- STATE codes of MOV_CHSTATn. -/
def chIdle : Nat := 0
/-- FETCH. -/
def chFetch : Nat := 1
/-- WAIT. -/
def chWait : Nat := 2
/-- RUN. -/
def chRun : Nat := 3
/-- HELD. -/
def chHeld : Nat := 4
/-- DONE. -/
def chDone : Nat := 5
/-- ERR. -/
def chErr : Nat := 6


/-- The next address of a stream (R204): `mode`, step, size exponent. -/
def streamNext (c : Mch) (mode step p : Nat) : Nat :=
  let s := sgn 32 step
  match mode with
  | 0 => addW p s
  | 1 => p
  | 2 => circStep (dw c 5) (bitsOf (dw c 6) 0 20) p s
  | _ => bitRevStep (dw c 5) (bitsOf (dw c 6) 0 20) p s (bitsOf (dw c 0) 0 2)

/-- The source stream's next address. -/
def srcNext (c : Mch) (p : Nat) : Nat := streamNext c (bitsOf (dw c 0) 2 2) (dw c 3) p
/-- The destination stream's next address. -/
def dstNext (c : Mch) (p : Nat) : Nat := streamNext c (bitsOf (dw c 0) 4 2) (dw c 4) p

/-- One of `n` addresses from `p` on lies in DRAM. -/
def meetsDram (next : Nat → Nat) : Nat → Nat → Bool
  | 0, _ => false
  | n + 1, p => inDram p || meetsDram next n (next p)

/-- The channel's descriptor addresses DRAM: some element of its streams lies there, already moved or not (R194, R209). -/
def chDram (c : Mch) : Bool :=
  let n := bitsOf (dw c 0) 16 16
  meetsDram (srcNext c) n (dw c 1) || meetsDram (dstNext c) n (dw c 2)

/-- Channels are held at their boundaries: a sleep request stands (R209), or a session waits for its cut (R194). -/
def moverHeld (s : State) (c : Mch) : Bool :=
  (match s.pwr.entry with | some e => !e.wait | none => false) || (s.ms.cutWait && chDram c)

/-- The registers stand at the first element not written: the first one still gathered, else the next to read (R206, R208). -/
def chSync (s : State) (n : Nat) : State :=
  let c := chAt s n
  let held := (c.gather.map fun g => g.bytes.length).foldl (· + ·) 0 / dSize c
  let (src, dst) := match c.gather with
    | g :: _ => (g.src, g.burst + (match g.bytes with | x :: _ => x.1 | [] => 0))
    | [] => (c.src, c.dst)
  ((s.put (MOV_CHSRC_ADDR n) src).put (MOV_CHDST_ADDR n) dst).put (MOV_CHREM_REMAIN n) (c.rem + held)

/-- A descriptor ends: one event of producer 21 + n, MOV_EVT.DESCn where IRQ=1, one more in DESCS (R208). -/
def descEnd (s : State) (n : Nat) : State :=
  let s := s.bump (MOV_CHREM_DESCS n) 1
  let s := if bitOf (dw (chAt s n) 0) 7 then s.setBit MOV_EVT_DESC n else s
  yieldEv s (21 + n)

/-- The channel ends its run with a RESULT (R208). -/
def chEnd (s : State) (n result st : Nat) : State :=
  let s := (s.put (MOV_CHSTAT_RESULT n) result).put (MOV_CHSTAT_STATE n) st
  if st = chErr then s.setBit MOV_EVT_ERR n else s.setBit MOV_EVT_DONE n

/-- The gathered burst is whole. -/
def wholeBurst (g : Gather) : Bool := g.bytes.length == 32

/-- Take a burst out of those gathered; what was read of it as a source is read again (R206). -/
def dropGather (s : State) (n : Nat) (g : Gather) : State :=
  let c := chAt s n
  let rb := match c.rbuf with | some (q, l) => if q = g.burst then none else some (q, l) | none => none
  setCh s n { c with gather := c.gather.filter fun x => !(x.burst == g.burst), rbuf := rb }

/-- Store one gathered burst: whole, or by read-modify-write, whose read needs R (R183, R192, R206). A RESULT where it fails. -/
def storeGather (s : State) (n : Nat) (g : Gather) : Option Nat × State :=
  let tag := s.get (MOV_CHSTAT_TAG n)
  let bytes (base : List Byte) : List Byte := g.bytes.foldl (fun a x => a.set x.1 x.2) base
  let done (s : State) (l : List Byte) : State := chSync (dropGather (writeBurst s g.burst (bytes l)) n g) n
  if wholeBurst g then (none, done (dramWait s g.burst) (List.replicate 32 0))
  else match guard s .mover tag g.burst 4 0 0 with
    | .refuse r => (some 0x41, recordRefusal s .mover tag g.burst 1 r)
    | _ => match readBurst (dramWait s g.burst) .mover g.burst with
      | (some (d, _), s) => (none, done s d)
      | (none, s) => (some 0x42, s)

/-- Store the gathered bursts of the list in turn, up to one that fails: its address and RESULT. -/
def storeAll (s : State) (n : Nat) : List Gather → Option (Nat × Nat) × State
  | [] => (none, s)
  | g :: t => match storeGather s n g with
    | (none, s) => storeAll s n t
    | (some r, s) => (some (g.burst, r), s)

/-- The channel stops partway with a RESULT; what it gathered is stored first (R206, R208), up to the burst whose store has
`failed`, which is not tried again. -/
def chStop (s : State) (n result st : Nat) (failed : Option Nat := none) : State :=
  let (bad, s) := storeAll s n ((chAt s n).gather.takeWhile fun g => failed != some g.burst)
  let s := setCh (chSync s n) n { chAt s n with gather := [] }
  match bad with
  | some (_, r) => chEnd (descEnd s n) n r chErr
  | none => chEnd (descEnd s n) n result st

/-- The mover may write the address (R28, R205). -/
def moverReach (a : Nat) : Bool :=
  (inSram a && (bankOf a < 6 || 0x103F8000 ≤ a)) || inDram a

/-- A write of MOV_CHCTLn that is allowed, by principal `tag` (R200, R201). One with START=1 and STOP=1 starts a channel that does
not run, whose STOP is ignored, and stops one that does; for STOP a channel in FETCH, WAIT or HELD runs too (DEDUCED, log entry
114). -/
def writeChctl (s : State) (n tag v : Nat) : State :=
  let st := s.get (MOV_CHSTAT_STATE n)
  let active := 1 ≤ st && st ≤ 4
  if active then
    if bitOf v 1 then (if st = chRun then chStop s n 0x46 chDone else chEnd s n 0x46 chDone) else s
  else if bitOf v 0 then
    let s := ((s.put (MOV_CHSTAT_STATE n) chFetch).put (MOV_CHSTAT_TAG n) tag).put (MOV_CHSTAT_TRIG n) 0
    let s := (s.put (MOV_CHCUR_ADDR n) (s.get (MOV_CHDESC_ADDR n))).put (MOV_CHREM_DESCS n) 0
    setCh s n ⟨[], [], none, 0, 0, 0⟩
  else s

/-- What a read by the mover gives: a RESULT code, or the value. The guard decides first; a descriptor must lie in SRAM (R201,
R202). -/
def moverRead (s : State) (tag a size : Nat) (desc : Bool) : (Nat ⊕ Nat) × State :=
  match access s .mover tag a size 0 0 with
  | .busErr => (.inl 0x40, s)
  | .refuse r => (.inl 0x41, recordRefusal s .mover tag a 0 r)
  | .ok =>
    if desc && !inSram a then (.inl 0x40, s)
    else match readMem s .mover a size with
      | (some v, s) => (.inr v, s)
      | (none, s) => (.inl 0x42, s)

/-- The eight words of a descriptor, or the RESULT that stops the fetch (R202, R208). -/
def fetchWords (s : State) (tag a : Nat) : Nat → (Nat ⊕ List Nat) × State
  | 0 => (.inr [], s)
  | k + 1 =>
    match fetchWords s tag a k with
    | (.inl r, s) => (.inl r, s)
    | (.inr l, s) => match moverRead s tag (a + 4 * k) 4 true with
      | (.inl r, s) => (.inl r, s)
      | (.inr v, s) => (.inr (l ++ [v]), s)

/-- A descriptor fails (R203). -/
def badDesc (c : Mch) : Bool :=
  bitsOf (dw c 0) 9 7 != 0 || bitsOf (dw c 6) 20 12 != 0 || bitsOf (dw c 7) 0 5 != 0 ||
  (bitOf (dw c 0) 3 && bitOf (dw c 0) 5) || dw c 1 % dSize c != 0 || dw c 2 % dSize c != 0

/-- The channel fetches and checks its next descriptor (R202, R203, R207); one that addresses DRAM is not begun while a session
waits for its cut (R194, R209). -/
def descFetch (s : State) (n : Nat) : State :=
  let a := 32 * s.get (MOV_CHCUR_ADDR n)
  let tag := s.get (MOV_CHSTAT_TAG n)
  match fetchWords s tag a 8 with
  | (.inl r, s) => chEnd s n r chErr
  | (.inr l, s) =>
    let c : Mch := ⟨l, [], none, l.getD 1 0, l.getD 2 0, bitsOf (l.getD 0 0) 16 16⟩
    let s := chSync (setCh s n c) n
    if badDesc c then chEnd s n 0x44 chErr
    else if moverHeld s c then s.put (MOV_CHSTAT_STATE n) chHeld
    else if bitOf (dw c 0) 6 && !s.on (MOV_CHSTAT_TRIG n) then s.put (MOV_CHSTAT_STATE n) chWait
    else
      let s := if bitOf (dw c 0) 6 then s.put (MOV_CHSTAT_TRIG n) 0 else s
      s.put (MOV_CHSTAT_STATE n) chRun

/-- MOVER_DESCRIPTOR_FETCH (R203, R209): a channel in FETCH fetches; one that is held goes to HELD instead. -/
def execMoverDescriptorFetch (n : Nat) (s : State) : Host.Outcome State Fault Refusal :=
  live s (
    if s.get (MOV_CHSTAT_STATE n) != chFetch || !sysRuns s then s
    else if moverHeld s (chAt s n) then s.put (MOV_CHSTAT_STATE n) chHeld
    else descFetch s n)

/-- An event at consumer 12 + n: the latch, or a waiting descriptor's release (R207). -/
def triggerMover (s : State) (n : Nat) : State :=
  if s.on (MOV_CHSTAT_TRIG n) then s.put (MOV_CHSTAT_TOVR n) 1
  else if s.get (MOV_CHSTAT_STATE n) = chWait && !moverHeld s (chAt s n) then s.put (MOV_CHSTAT_STATE n) chRun
  else s.put (MOV_CHSTAT_TRIG n) 1

/-- The held event of a consumer is taken from the fabric (R285). -/
def takeHeld (s : State) (k : Nat) : State := { s with evHeld := s.evHeld - (s.evHeld &&& 2 ^ k) }

/-- MOVER_TRIGGER (R207): an event held for consumer 12 + n reaches the channel. -/
def execMoverTrigger (n : Nat) (s : State) : Host.Outcome State Fault Refusal :=
  live s (if bitOf s.evHeld (12 + n) && sysClocked s then triggerMover (takeHeld s (12 + n)) n else s)

/-- The destination is gathered (R206). -/
def gathers (c : Mch) : Bool := bitsOf (dw c 0) 4 2 == 0 && dw c 4 == dSize c && inDram c.dst

/-- The source burst is read once (R206). -/
def reads32 (c : Mch) : Bool := bitsOf (dw c 0) 2 2 == 0 && dw c 3 == dSize c && inDram c.src

/-- The source burst at `b`: the one already read, else read now (R206). -/
def sourceBurst (s : State) (n b : Nat) : Option (List Byte) × State :=
  let c := chAt s n
  let have' := match c.rbuf with | some (q, l) => if q = b then some l else none | none => none
  match have' with
  | some l => (some l, s)
  | none => match readBurst (dramWait s b) .mover b with
    | (some (d, _), s) => (some d, setCh s n { c with rbuf := some (b, d) })
    | (none, s) => (none, s)

/-- Read one element at its source (R204, R206). -/
def elemRead (s : State) (n tag : Nat) : (Nat ⊕ Nat) × State :=
  let c := chAt s n
  let z := dSize c
  if !reads32 c then moverRead s tag c.src z false
  else match access s .mover tag c.src z 0 0 with
    | .busErr => (.inl 0x40, s)
    | .refuse r => (.inl 0x41, recordRefusal s .mover tag c.src 0 r)
    | .ok => match sourceBurst s n (c.src - c.src % 32) with
      | (some l, s) => (.inr (leNat ((l.drop (c.src % 32)).take z)), s)
      | (none, s) => (.inl 0x42, s)

/-- Step both streams past one element (R204). -/
def elemStep (s : State) (n : Nat) : State :=
  let c := chAt s n
  setCh s n { c with
    src := srcNext c c.src, dst := dstNext c c.dst, rem := c.rem - 1 }

/-- The guard on an element's write: one that is not gathered reads its DRAM burst first (R183, R192). -/
def elemGuard (s : State) (tag v : Nat) (c : Mch) : Guard :=
  match access s .mover tag c.dst (dSize c) 1 v with
  | .ok => if inDram c.dst && !gathers c then guard s .mover tag c.dst (dSize c) 0 0 else .ok
  | g => g

/-- Add the element to the burst it falls in (R206). -/
def gatherElem (c : Mch) (v : Nat) : Mch :=
  let b := c.dst - c.dst % 32
  let new := (List.range (dSize c)).map fun i => (c.dst % 32 + i, BitVec.ofNat 8 (v / 256 ^ i))
  let l := if c.gather.any fun g => g.burst == b
    then c.gather.map fun g => if g.burst == b then { g with bytes := g.bytes ++ new } else g
    else c.gather ++ [⟨b, c.src, new⟩]
  { c with gather := l }

/-- Write one element at its destination: a RESULT code when it stops the channel (R204 to R206). A destination in a ROM goes to the
guard, whose fault R29 makes it, before R205's bus error (DEDUCED, log entry 127). -/
def elemWrite (s : State) (n tag v : Nat) : Option Nat × State :=
  let c := chAt s n
  if !moverReach c.dst && !inRom c.dst then (some 0x40, s)
  else match elemGuard s tag v c with
    | .busErr => (some 0x40, s)
    | .refuse r => (some 0x41, recordRefusal s .mover tag c.dst 1 r)
    | .ok =>
      if gathers c then (none, chSync (elemStep (setCh s n (gatherElem c v)) n) n)
      else
        let live := inSram c.dst && inLiveCopy s c.dst
        match writeMem s .mover c.dst (dSize c) v with
        | (true, s) => (none, chSync (elemStep (dropGather s n ⟨c.dst - c.dst % 32, 0, []⟩) n) n)
        | (false, s) => (some (if live then 0x40 else 0x42), s)

/-- The gathered bursts that must be stored before the next element: the one it reads from, and the first whole one while a
second is ready (R206). -/
def mustStore (c : Mch) : List Gather :=
  let full := c.gather.filter wholeBurst
  let one := if 2 ≤ full.length then full.take 1 else []
  one ++ c.gather.filter fun g => g.burst == c.src - c.src % 32 && !(one.any fun x => x.burst == g.burst)

/-- Move one element of channel `n` (R204 to R206). -/
def moveElement (s : State) (n : Nat) : State :=
  let tag := s.get (MOV_CHSTAT_TAG n)
  match storeAll s n (mustStore (chAt s n)) with
  | (some (b, r), s) => chStop s n r chErr (some b)
  | (none, s) =>
    let c := chAt s n
    if c.src % dSize c != 0 || c.dst % dSize c != 0 then chStop s n 0x43 chErr
    else match elemRead s n tag with
      | (.inl r, s) => chStop s n r chErr
      | (.inr v, s) => match elemWrite s n tag v with
        | (some r, s) => chStop s n r chErr
        | (none, s) => s

/-- The channel in RUN that round robin serves next, after the last served (R205). -/
def nextRun (s : State) : Option Nat :=
  ([1, 2, 3, 4].map fun i => (s.movRr + i) % 4).find? fun n =>
    s.get (MOV_CHSTAT_STATE n) == chRun && (chAt s n).rem != 0

/-- The gathered burst that is stored next: a whole one; at the end of the descriptor the first left (R206). -/
def nextStore (c : Mch) : Option Gather :=
  match c.gather.find? wholeBurst with
  | some g => some g
  | none => if c.rem = 0 then c.gather.head? else none

/-- MOVER_BURST_STORE (R206): a gathered burst that is whole is stored, one covered in part at the end of its descriptor. -/
def execMoverBurstStore (n : Nat) (s : State) : Host.Outcome State Fault Refusal :=
  live s (
    match nextStore (chAt s n) with
    | some g =>
      if s.get (MOV_CHSTAT_STATE n) != chRun then s
      else match storeGather s n g with
        | (none, s) => s
        | (some r, s) => chStop s n r chErr (some g.burst)
    | none => s)

/-- MOVER_DESCRIPTOR_END (R208, R209): the last element of a running descriptor has been written. -/
def execMoverDescriptorEnd (n : Nat) (s : State) : Host.Outcome State Fault Refusal :=
  live s (
    let c := chAt s n
    if s.get (MOV_CHSTAT_STATE n) != chRun || c.rem != 0 || !c.gather.isEmpty then s
    else
      let s := descEnd s n
      if bitOf (dw c 0) 8 then chEnd s n 0 chDone
      else
        let s := s.put (MOV_CHCUR_ADDR n) (dw c 7 / 32)
        s.put (MOV_CHSTAT_STATE n) (if moverHeld s c then chHeld else chFetch))

/-- The agents are released or the part wakes: held channels go on (R209), but those a session's cut still holds (R194). -/
def moverRelease (s : State) : State :=
  (List.range 4).foldl (fun s n =>
    if s.get (MOV_CHSTAT_STATE n) = chHeld then s.put (MOV_CHSTAT_STATE n) chFetch
    else if s.get (MOV_CHSTAT_STATE n) = chWait && s.on (MOV_CHSTAT_TRIG n) && !moverHeld s (chAt s n) then
      (s.put (MOV_CHSTAT_TRIG n) 0).put (MOV_CHSTAT_STATE n) chRun
    else s) s

/-- A write of DRM_SESS (R194): where its CLOSE leaves no cut waiting, the channels held for it go on, and a latched trigger starts
its channel (R207, R209). -/
def writeDrmSess (s : State) (p v : Nat) : State :=
  let t := writeSess s p v
  if s.ms.cutWait && !t.ms.cutWait then moverRelease t else t

/-- Some channel runs a descriptor (agent 0 of R52, R209). -/
def moverRuns (s : State) : Bool := (List.range 4).any fun n => s.get (MOV_CHSTAT_STATE n) == chRun

/-- Some running channel's descriptor addresses DRAM (R194). -/
def moverDram (s : State) : Bool :=
  (List.range 4).any fun n => s.get (MOV_CHSTAT_STATE n) == chRun && chDram (chAt s n)

/-- A forced Basalt stops every channel in RUN with RESULT CUT (R60, R209); what it gathered is not stored. -/
def moverCut (s : State) : State :=
  (List.range 4).foldl (fun s n =>
    if s.get (MOV_CHSTAT_STATE n) = chRun then
      chEnd (descEnd (setCh s n { chAt s n with gather := [] }) n) n 0x45 chErr
    else s) s

/-- DRAM_SESSION_CUT (R194): no descriptor in progress addresses DRAM any more. -/
def execDramSessionCut (s : State) : Host.Outcome State Fault Refusal :=
  live s (if s.ms.cutWait && !moverDram s then moverRelease (sessCut s) else s)

/-- Every channel stops at once and the MOV_ fields return to reset (R209); a descriptor that ran yields its event (R208, R282). -/
def moverReset (s : State) : State :=
  let s := (List.range 4).foldl (fun t n => if s.get (MOV_CHSTAT_STATE n) = chRun then yieldEv t (21 + n) else t) s
  { s.resetPage 0x40005000 [] with mov := List.replicate 4 ⟨[], [], none, 0, 0, 0⟩, movRr := 3 }

end Sys2Proof.Machine
end

