-- ==== Sys2Proof/Machine/Link.lean ====
section
/-! DEFINITION. The Bolina link engine (ch. 08) and the table server (R249 to R262): ports, frames, slots other than
COMMAND-CARRY, commits and landings. -/

namespace Sys2Proof.Machine

open Sys2Proof

/-! ### Checks -/

/-- One step of a CRC register of `w` bits with polynomial `p`, most significant bit first. -/
def crcBit (w p r : Nat) (b : Bool) : Nat :=
  let top := bitOf r (w - 1)
  let r2 := r * 2 % 2 ^ w
  if top != b then r2 ^^^ p else r2

/-- A CRC over bytes, each most significant bit first. -/
def crcMsb (w p init : Nat) (l : List Byte) : Nat :=
  l.foldl (fun r x => [7, 6, 5, 4, 3, 2, 1, 0].foldl (fun r i => crcBit w p r (x.getLsbD i)) r) init

/-- The link's CRC-8 (R224). -/
def crc8 (l : List Byte) : Nat := crcMsb 8 0x07 0xFF l

/-- The command CRC-16 (R264). -/
def crc16 (l : List Byte) : Nat := crcMsb 16 0x1021 0xFFFF l

/-! ### Ports -/

/-- The state field of a port: 0 U, 1 D1, 2 D2. -/
def portFld : Nat → Fld
  | 0 => LNK_STAT_PU | 1 => LNK_STAT_PD1 | _ => LNK_STAT_PD2

/-- The lock bits of a port. -/
def laneFld : Nat → Fld
  | 0 => LNK_STAT_LU | 1 => LNK_STAT_LD1 | _ => LNK_STAT_LD2

/-- A port is UP. -/
def portUp (s : State) (p : Nat) : Bool := 2 ≤ s.get (portFld p)

/-- Update the link engine. -/
def lk (s : State) (f : Link → Link) : State := { s with lnk := f s.lnk }

/-- Set a LNK_EVT flag. -/
def lnkEvt (s : State) (b : Nat) : State := s.setFlag 0x4000600C b

/-- Transmitter `q`. -/
def txAt (s : State) (q : Nat) : Tx := s.lnk.tx.getD q ⟨none, [], [], 0, 0, none⟩

/-- Update transmitter `q`. -/
def setTx (s : State) (q : Nat) (f : Tx → Tx) : State := lk s fun l => { l with tx := l.tx.set q (f (txAt s q)) }

/-! ### The route (R218, R219, R472) -/

/-- The port takes part in the route: UP, joined, and not treated as DOWN. -/
def inRoute (s : State) (p : Nat) : Bool :=
  portUp s p && s.lnk.joined.contains p && !s.lnk.narrow.any fun n => n.port == p

/-- The receivers a transmitter takes its stream from, in order of choice: that of the stage before it, and back past bypassed
ports. -/
def before : Nat → List Nat
  | 1 => [0, 2, 1] | 2 => [1, 0, 2] | _ => [2, 1, 0]

/-- The receiver that feeds transmitter `q`. -/
def srcOf (s : State) (q : Nat) : Option Nat := if inRoute s q then (before q).find? (inRoute s) else none

/-- The transmitter that receiver `p` feeds. -/
def destOf (s : State) (p : Nat) : Option Nat := [0, 1, 2].find? fun q => srcOf s q == some p

/-- The port whose receiver feeds the processing point: U, or where U is bypassed D2, or where both are D1. -/
def feedPort (s : State) : Option Nat := [0, 2, 1].find? (inRoute s)

/-- Every open frame keeps its source. -/
def routeKeeps (s : State) : Bool :=
  ((List.range 3).all fun q => match (txAt s q).frame with | some f => srcOf s q == some f.src | none => true) &&
  (match s.lnk.frame with | some f => feedPort s == some f.port | none => true)

/-- Transmitter `q` cuts its frame with END D2.0 (R237, R243). -/
def sendCut (s : State) (q : Nat) : State := lnkEvt (setTx s q fun x => { x with frame := none, ends := x.ends + 1 }) 6

/-- An unclean end: captures discarded, NOEND (R227, R260). -/
def uncleanEnd (s : State) : State :=
  match s.lnk.frame with
  | none => s
  | some _ =>
    let s := { (lk s fun l => { l with frame := none }) with cmd := { s.cmd with capture := [] } }
    (lnkEvt s 5).bump LNK_ERRCNT1_NOEND 1

/-- The route has changed (R237): a transmitter whose source changed cuts its open frame, and passes none of the new source's
until its next START; so does that of a port treated as DOWN (R218), while that of a lost port is silent; the processing point
ends a frame its feed no longer carries. -/
def reroute (s : State) : State :=
  let s := match s.lnk.frame with
    | some f => if feedPort s == some f.port then s else uncleanEnd s
    | none => s
  (List.range 3).foldl (fun s q =>
    match (txAt s q).frame with
    | none => s
    | some f =>
      if !portUp s q then setTx s q fun x => { x with frame := none }
      else if srcOf s q == some f.src then s else sendCut s q) s

/-- Port `q` is treated as DOWN for the striped frames that the receivers `ps` take. -/
def narrowFor (s : State) (q : Nat) (ps : List Nat) : State :=
  reroute (lk s fun l => { l with narrow := (ps.map fun p => ⟨q, p, false⟩) ++ l.narrow })

/-- Ports whose striped frame has ended take part again, as soon as no open frame's source changes: R218 says until the frame ends,
and the wait is that of a join (R239; DESIGN CHOICE, log entry 110). -/
def settle (s : State) : State :=
  (List.range 3).foldl (fun s q =>
    let t := lk s fun l => { l with narrow := l.narrow.filter fun n => !(n.port == q && n.ended) }
    if routeKeeps t then t else s) s

/-- The frame that receiver `p` takes ends on its transmitter, and so does the narrowing it called for. -/
def frameEnds (s : State) (p : Nat) : State :=
  let s := (List.range 3).foldl (fun s q =>
    match (txAt s q).frame with
    | some f => if f.src = p then setTx s q fun x => { x with frame := none } else s
    | none => s) s
  settle (lk s fun l => { l with narrow := l.narrow.map fun n => if n.src == p then { n with ended := true } else n })

/-- LNK_STAT.LOST (R219): a port that was UP in this spell of UP is DOWN. -/
def lostRefresh (s : State) : State := s.put LNK_STAT_LOST (b2n (s.lnk.everUp.any fun p => !portUp s p))

/-- A port goes DOWN (R217, R219, R237): bypassed at once. The frame it took has ended, and so has the narrowing that frame called
for (R218). -/
def portDown (s : State) (p : Nat) : State :=
  let left (l : List Narrow) : List Narrow :=
    (l.filter fun n => !(n.port == p)).map fun n => if n.src == p then { n with ended := true } else n
  let s := lk (s.put (portFld p) 0) fun l => { l with joined := l.joined.filter fun q => !(q == p), narrow := left l.narrow }
  yieldEv (lnkEvt (lostRefresh (settle (reroute s))) 0) 3

/-! ### Clock and idle (R211, R213) -/

/-- What the transmit PLL is locked to. -/
inductive PllRef where
  | port (p : Nat) | crystal | none
  deriving DecidableEq, Repr

/-- The reference of the transmit PLL (R211): none where the crystal has stopped and no port feeds the processing point. -/
def pllRef (s : State) : PllRef :=
  match feedPort s with
  | some p => .port p
  | none => if s.on RTC_STAT_SRC then .none else .crystal

/-- The transmitters stay silent (R211, R241): the engine is OFF or in LISTEN, or the crystal has stopped and no port is UP. -/
def silent (s : State) : Bool :=
  decide (s.get LNK_STAT_STATE < 2) || (s.on RTC_STAT_SRC && (List.range 3).all fun p => !portUp s p)

/-- The data character of the IDLE or SKIP that lane `l` of port `p` sends (R213): D16.2 while its own receiver is locked, else
D21.5. -/
def idleChar (s : State) (p l : Nat) : Byte := if bitOf (s.get (laneFld p)) l then 0x50 else 0xB5

/-! ### Ports and lanes -/

/-- LANE_LOCK (R216): a lane has recovered the clock and 256 valid characters. -/
def execLaneLock (p l : Nat) (s : State) : Host.Outcome State Fault Refusal :=
  live s (if 2 ≤ s.get LNK_STAT_STATE then s.put (laneFld p) (s.get (laneFld p) ||| 2 ^ l) else s)

/-- PORT_TRAIN (R216): a DOWN port of a running engine sees transitions for 1 µs. -/
def execPortTrain (p : Nat) (s : State) : Host.Outcome State Fault Refusal :=
  live s (if 2 ≤ s.get LNK_STAT_STATE && s.get (portFld p) = 0 then s.put (portFld p) 1 else s)

/-- The engine becomes UP with its first port (R241); a part raised from Basalt is then in Granite (R39 step 5). -/
def engineUp (s : State) (p : Nat) : State :=
  let s := lk (s.put LNK_STAT_STATE 3) fun l =>
    { l with procJoined := false, timeSet := false, csAt := [], anyFrame := false, missed := false, everUp := [p] }
  if s.get PWR_DOMSTAT_STATE = 4 then ({ s with pwr := { s.pwr with raised := true } }).put PWR_DOMSTAT_STATE 3 else s

/-- PORT_UP (R216, R239, R241): a port in TRAIN, or UP one lane, meets the UP conditions on one lane or on two. -/
def execPortUp (p : Nat) (two : Bool) (s : State) : Host.Outcome State Fault Refusal :=
  live s (
    let st := s.get (portFld p)
    let locked := s.get (laneFld p)
    let ok := if two then locked = 3 else locked != 0
    if s.get LNK_STAT_STATE < 2 || !ok || !(st = 1 || (st = 2 && two)) then s
    else
      let s := s.put (portFld p) (if two then 3 else 2)
      if st = 2 then s
      else
        let s := lnkEvt (lk s fun l => { l with everUp := p :: l.everUp.filter fun q => !(q == p) }) 1
        lostRefresh (if s.get LNK_STAT_STATE = 2 then engineUp s p else s))

/-- PORT_TRAIN_TIMEOUT (R216). -/
def execPortTrainTimeout (p : Nat) (s : State) : Host.Outcome State Fault Refusal :=
  live s (if s.get (portFld p) = 1 then s.put (portFld p) 0 else s)

/-- The striped frames open on the port, at its receiver, be it at the processing point alone, or at its transmitter: the ports that
receive them. -/
def stripedOn (s : State) (p : Nat) : List Nat :=
  (List.range 3).filter fun r =>
    ((List.range 3).any fun q => (txAt s q).frame.any fun f => !f.replicated && f.src == r && (q == p || r == p)) ||
    (r == p && s.lnk.frame.any fun f => !f.replicated && f.port == p)

/-- A lane is lost (R217, R218): the lock bit clears; a port with no locked lane goes DOWN; one that drops to one lane with
striped frames open on it is treated as DOWN until they have ended. -/
def laneLost (s : State) (p l : Nat) : State :=
  if !bitOf (s.get (laneFld p)) l then s
  else
    let s := lnkEvt (s.put (laneFld p) (s.get (laneFld p) - 2 ^ l)) 2
    if s.get (portFld p) = 0 then s
    else if s.get (laneFld p) = 0 then portDown s p
    else if s.get (portFld p) = 3 then
      let s := s.put (portFld p) 2
      let l := stripedOn s p
      if l.isEmpty then s else narrowFor s p l
    else s

/-- Code errors are received (R212). -/
def lineErrors (s : State) (n : Nat) : State := if 2 ≤ s.get LNK_STAT_STATE then s.bump LNK_ERRCNT1_CODE n else s

/-- LANE_LOSS (R212, R217): by four code errors, which are counted here (DESIGN CHOICE, log entry 54), by silence, or
by the partner's report. -/
def execLaneLoss (p l : Nat) (s : State) (codeErrors : Bool := false) : Host.Outcome State Fault Refusal :=
  live s (
    if !bitOf (s.get (laneFld p)) l then s
    else laneLost (if codeErrors then s.bump LNK_ERRCNT1_CODE 4 else s) p l)

/-- PORT_JOIN (R239): an UP port joins the route at a moment when no open frame's source changes. -/
def execPortJoin (p : Nat) (s : State) : Host.Outcome State Fault Refusal :=
  live s (
    let t := lk s fun l => { l with joined := l.joined ++ [p] }
    if portUp s p && !s.lnk.joined.contains p && routeKeeps t then lostRefresh t else s)

/-- DOWN_PORT_PROBE (R211, R238): IDLE-A for 4 µs on a DOWN port of an engine that is UP. -/
def execDownPortProbe (p : Nat) (s : State) : Host.Outcome State Fault Refusal :=
  live s (if s.get LNK_STAT_STATE = 3 && s.get (portFld p) = 0 && !silent s then
      setTx s p fun x => { x with probes := x.probes + 1 }
    else s)

/-! ### The engine's state (R241 to R243) -/

/-- The engine leaves TRAIN or UP: what is still open is cut with END D2.0, ports DOWN, transmitters silent, the class 4 reservation
given back; a part raised from Basalt goes back to it (R39, R219, R241 to R243). A cycle-start that still waits for its time is
dropped, and the ports that go DOWN with the engine set no PORTDN and yield no producer 3 (R236, R243 are silent; DESIGN CHOICE,
log entry 110). -/
def linkStops (s : State) : State :=
  let s := uncleanEnd s
  let s := (List.range 3).foldl (fun s q => if (txAt s q).frame.isSome then sendCut s q else s) s
  let s := (((((s.put LNK_STAT_STATE 1).put LNK_STAT_PU 0).put LNK_STAT_PD1 0).put LNK_STAT_PD2 0).put LNK_STAT_LU 0)
  let s := ((s.put LNK_STAT_LD1 0).put LNK_STAT_LD2 0).put LNK_STAT_LOST 0
  let s := lk s fun l =>
    { l with
      joined := [], everUp := [], narrow := [], procJoined := false, csAt := [], timeSet := false, anyFrame := false, leave := 0
      heard := false }
  let s := if burstHeld s 4 then releaseBurst s 4 0 else s
  if s.pwr.raised && s.get PWR_DOMSTAT_STATE = 3 then ({ s with pwr := { s.pwr with raised := false } }).put PWR_DOMSTAT_STATE 4 else s

/-- In Basalt with LISTEN=0 the engine is OFF, from TRAIN too (R241). -/
def basaltOff (s : State) : State :=
  if s.get PWR_DOMSTAT_STATE = 4 && !s.on PWR_CFG_LISTEN then (if 2 ≤ s.get LNK_STAT_STATE then linkStops s else s).put LNK_STAT_STATE 0
  else s

/-- The engine returns to LISTEN, or to OFF (R241). -/
def toListen (s : State) : State := basaltOff (linkStops s)

/-- The listener acts on activity or on TRAIN (R241): not from the link agent's answer to a Basalt entry on. -/
def listenerActs (s : State) : Bool :=
  s.get LNK_STAT_STATE == 1 && !s.on LNK_STAT_FLOORLOCK && !s.on LNK_STAT_BACKOFF && !s.pwr.withheld &&
  !(match s.pwr.entry with | some e => e.target == 3 && e.answered | none => false)

/-- LISTEN to TRAIN against a class 4 reservation (R80, R241). -/
def startTrain (s : State) (tag : Nat) : State :=
  if !listenerActs s then s
  else
    let (st, s) := burst s 4 (s.get (HRV_CLSAMT_AMOUNT 4)) tag 0
    if st = stOk then s.put LNK_STAT_STATE 2 else (lnkEvt s 9).put LNK_STAT_BACKOFF 1

/-- Activity may act in the present power state: in Basalt only with LISTEN and LNKACT (R39, R62). -/
def activityActs (s : State) : Bool :=
  s.get PWR_DOMSTAT_STATE != 4 || (s.on PWR_CFG_LISTEN && bitOf (wakeEn s) 0)

/-- Activity starts on the listener: producer 38, whatever the listener then does (R282). -/
def activityEvent (s : State) : State := if s.get LNK_STAT_STATE = 1 then yieldEv s 38 else s

/-- Activity for 1 µs on the listener: it trains; in Basalt the raise is recorded, and in Slate, Granite and Basalt LNKCORE
wakes the core (R39, R62, R241). The detector's level then stands until the engine is back in LISTEN; of activity that trains
nothing it is over with the command (DEDUCED, log entry 64). Its burst is on LINE's behalf (DESIGN CHOICE, log entry 108). Activity
seen during a sleep entry is no wake event of the target state: LNKCORE is not latched (DESIGN CHOICE, log entry 115). -/
def listenerActivity (s : State) : State :=
  let s := activityEvent s
  if !activityActs s || !listenerActs s then s
  else
    let d := s.get PWR_DOMSTAT_STATE
    let s := if d = 4 then wakeSource s 0 else s
    let s := startTrain (if 2 ≤ d then wakeSource s 1 else s) 5
    lk s fun l => { l with heard := s.get LNK_STAT_STATE == 2 }

/-- LISTEN_TO_TRAIN (R241). -/
def execListenToTrain (s : State) : Host.Outcome State Fault Refusal := live s (listenerActivity s)

/-- LINK_ACTIVITY_RAISE (R39): activity on a Basalt listener starts the raise; the part is in Granite once a port is UP. -/
def execLinkActivityRaise (s : State) : Host.Outcome State Fault Refusal :=
  live s (if s.get PWR_DOMSTAT_STATE = 4 then listenerActivity s else s)

/-- LINK_TRAIN_TIMEOUT (R241): no port UP within 100 µs. -/
def execLinkTrainTimeout (s : State) : Host.Outcome State Fault Refusal :=
  live s (if s.get LNK_STAT_STATE = 2 then (toListen s).put LNK_STAT_BACKOFF 1 else s)

/-- PROCESSING_POINT_JOIN (R241): within 9 µs of the first port becoming UP. -/
def execProcessingPointJoin (s : State) : Host.Outcome State Fault Refusal :=
  live s (if s.get LNK_STAT_STATE = 3 then lk s fun l => { l with procJoined := true } else s)

/-- BACKOFF_EXPIRY (R241). -/
def execBackoffExpiry (s : State) : Host.Outcome State Fault Refusal := live s (s.put LNK_STAT_BACKOFF 0)

/-- No frame is open at the processing point or on any transmitter, but one beyond the limit of R243. -/
def betweenFrames (s : State) : Bool :=
  s.lnk.frame.isNone && (List.range 3).all fun q => match (txAt s q).frame with | some f => f.past | none => true

/-- Leave service between frames, for the causes given: at once where none is open (R243). -/
def leaveService (s : State) (causes : Nat) : State :=
  if betweenFrames s then
    let floor := bitOf causes 2 && s.on HRV_STAT_FLOOR
    let s := toListen s
    if floor then s.put LNK_STAT_FLOORLOCK 1 else s
  else lk s fun l => { l with leave := l.leave ||| causes }

/-- LINK_IDLE_TIMEOUT (R242): no frame start for 2^IDLETO ms; the engine leaves between frames. -/
def execLinkIdleTimeout (s : State) : Host.Outcome State Fault Refusal :=
  live s (if s.get LNK_STAT_STATE = 3 then leaveService s 1 else s)

/-- ALL_PORTS_DOWN_TIMEOUT (R241, R243). -/
def execAllPortsDownTimeout (s : State) : Host.Outcome State Fault Refusal :=
  live s (if s.get LNK_STAT_STATE = 3 && (List.range 3).all (fun p => s.get (portFld p) == 0) then toListen s else s)

/-- LINK_LEAVE_SERVICE (R243): a leave that waits takes place once no frame is open. -/
def execLinkLeaveService (s : State) : Host.Outcome State Fault Refusal :=
  live s (if s.lnk.leave != 0 && betweenFrames s then leaveService s s.lnk.leave else s)

/-- A floor trip with LINKSPEND=0: an engine in TRAIN or UP leaves (R83, R243). -/
def linkFloorDrop (s : State) : State :=
  if s.on HRV_POLICY_LINKSPEND || s.get LNK_STAT_STATE < 2 then s else leaveService s 4

/-- The power controller releases the link agent: a leave it called for no longer waits (R55). -/
def linkRelease (s : State) : State := lk s fun l => { l with leave := l.leave - (l.leave &&& 2) }

/-- Forced Basalt: the engine leaves at once, to LISTEN or OFF (R60, R243). -/
def linkForced (s : State) : State :=
  let s := if 2 ≤ s.get LNK_STAT_STATE then toListen s else s
  if s.on PWR_CFG_LISTEN then s else s.put LNK_STAT_STATE 0

/-! ### Table server: commits, flips, landings -/

/-- The extent of table `m` in the check of R253, with the mask `k` of tables taken as staged. -/
def checkExt (s : State) (k m : Nat) : Nat × Nat := if bitOf k m then stagedExt s m else liveExt s m

/-- Two extents overlap. -/
def overlaps (a b : Nat × Nat) : Bool := a.2 != 0 && b.2 != 0 && decide (a.1 < b.1 + b.2) && decide (b.1 < a.1 + a.2)

/-- The lowest named table whose staged descriptor fails step 3 of R253. -/
def badTable (s : State) (mask : Nat) : Option Nat :=
  let k := mask ||| s.get TBL_CMTSTAT_PEND
  (List.range 16).find? fun n => bitOf mask n &&
    (decide (0x80000 < (stagedExt s n).1 + (stagedExt s n).2) ||
     (List.range 16).any fun m => m != n && overlaps (stagedExt s n) (checkExt s k m))

/-- A commit request (R253): status, BADTBL, state. -/
def commitRequest (s : State) (mask : Nat) : Nat × Nat × State :=
  if mask = 0 then (stBadParam, 0, s)
  else if mask &&& s.get TBL_CMTSTAT_PEND != 0 then (2, 0, s)
  else match badTable s mask with
    | some n => (stBadParam, n, s)
    | none => (stOk, 0, s.put TBL_CMTSTAT_PEND (s.get TBL_CMTSTAT_PEND ||| mask))

/-- A write of TBL_COMMIT (R253). -/
def writeCommit (s : State) (v : Nat) : State :=
  let (st, b, s) := commitRequest s (v % 2 ^ 16)
  (s.put TBL_CMTSTAT_RESULT st).put TBL_CMTSTAT_BADTBL b

/-- A write of TBL_CANCEL (R255): tables whose flip waits on a landing are beyond it. -/
def writeCancel (s : State) (v : Nat) : State :=
  let m := v % 2 ^ 16 - (v % 2 ^ 16 &&& s.cmd.waitFlip)
  s.clrBits TBL_CMTSTAT_PEND m

/-- One table flips (R254). -/
def flipOne (s : State) (n : Nat) : State :=
  let s := s.put TBL_LIVE_LIVE (s.get TBL_LIVE_LIVE ^^^ 2 ^ n)
  let s := ((s.put (TBL_LDESC0_BASE n) (s.get (TBL_SDESC0_BASE n))).put (TBL_LDESC0_ESIZE n) (s.get (TBL_SDESC0_ESIZE n)))
  let s := (s.put (TBL_LDESC0_MR n) (s.get (TBL_SDESC0_MR n))).put (TBL_LDESC0_MW n) (s.get (TBL_SDESC0_MW n))
  let s := (s.put (TBL_LDESC0_CMDW n) (s.get (TBL_SDESC0_CMDW n))).put (TBL_LDESC1_COUNT n) (s.get (TBL_SDESC1_COUNT n))
  let g := s.get (TBL_LDESC1_GEN n)
  let s := s.put (TBL_LDESC1_GEN n) (if g = 0xFFFF then 1 else g + 1)
  (s.put TBL_READY_READY (s.get TBL_READY_READY ||| 2 ^ n)).clrBits TBL_CMTSTAT_PEND (2 ^ n)

/-- Every table of a mask flips in one LINK cycle (R254). -/
def flip (s : State) (mask : Nat) : State :=
  if mask = 0 then s
  else yieldEv (((List.range 16).foldl (fun s n => if bitOf mask n then flipOne s n else s) s).setFlag 0x40007014 0) 4

/-- A landing completes (R261, R262): its words are written, LANDSEQ is even again, and a flip that waited takes place. Until
then none of them is written, where R262 lets some be (DESIGN CHOICE, log entry 126). -/
def landingDone (s : State) : State :=
  match s.cmd.landing with
  | [] => s
  | l =>
    let s := l.foldl (fun s x => (sramWrite s .link x.1 4 x.2.toNat).2) s
    let m := s.cmd.waitFlip
    let s := { s with cmd := { s.cmd with landing := [], waitFlip := 0 } }
    let s := s.put TBL_LANDSEQ_SEQ (s.get TBL_LANDSEQ_SEQ + 1)
    flip (yieldEv (s.setFlag 0x40007014 1) 5) m

/-- LANDING_DONE (R261, R262). -/
def execLandingDone (s : State) : Host.Outcome State Fault Refusal := live s (landingDone s)

/-- The captures of a clean end start to land (R261). A landing that still runs then completes first, at once (DESIGN CHOICE, log
entry 117). -/
def startLanding (s : State) : State :=
  let s := landingDone s
  match s.cmd.capture with
  | [] => s
  | l => ({ s with cmd := { s.cmd with capture := [], landing := l } }).put TBL_LANDSEQ_SEQ (s.get TBL_LANDSEQ_SEQ + 1)

/-! ### Frames -/

/-- Insert a time in rising order. -/
def insertTime (t : Nat) : List Nat → List Nat
  | [] => [t]
  | x :: l => if t < x then t :: x :: l else x :: insertTime t l

/-- The cycle-starts whose times link time reaches in `cycles` LINK cycles fire, each in its own cycle (R236). -/
def fireDue (s : State) (cycles : Nat) : State :=
  let t0 := s.lnk.time
  let due := s.lnk.csAt.filter fun t => decide (t ≤ t0 + 20 * cycles)
  let s := lk s fun l => { l with csAt := l.csAt.filter fun t => !decide (t ≤ t0 + 20 * cycles) }
  due.foldl (fun s t => yieldEv (lk s fun l => { l with time := t0 + 20 * ((t - t0 + 19) / 20) }) 0) s

/-- Link time at a later LINK cycle (R236). -/
def advance (s : State) (cycles : Nat) : State :=
  let t1 := s.lnk.time + 20 * cycles
  lk (fireDue s cycles) fun l =>
    { l with time := t1 % 2 ^ 64, frame := l.frame.map fun f => { f with n := f.n + cycles } }

/-- The device's position in effect (R226). -/
def devPos (s : State) : Nat := if s.on LNK_CFG_POSMODE then s.get LNK_POS_POS else s.lnk.posEff

/-- Frame start (R227, R254, R262, R279): positions and commits take effect, RESET_DEVICE counts. -/
def frameStarts (s : State) : State :=
  let pos := s.get LNK_POS_POS
  let s := lk s fun l => { l with posEff := pos, missed := false, anyFrame := true }
  let r := s.cmd.resetDev.map fun r => (r.1, r.2.1 - 1, r.2.2)
  let tr := s.sec.trans.map fun x => { x with frames := x.frames - 1 }
  let s := { s with cmd := { s.cmd with resetDev := r, fresh := [] }, sec := { s.sec with trans := tr } }
  let p := s.get TBL_CMTSTAT_PEND
  if s.cmd.landing.isEmpty then flip s p else { s with cmd := { s.cmd with waitFlip := s.cmd.waitFlip ||| p } }

/-- A striped START meets transmitters that are UP one lane: each is treated as DOWN (R218). -/
def narrowDests (s : State) (p : Nat) : Nat → State
  | 0 => s
  | n + 1 => match destOf s p with
    | some q => if s.get (portFld q) = 2 then narrowDests (narrowFor s q [p]) p n else s
    | none => s

/-- A frame opens on the transmitter its receiver feeds. -/
def openTx (s : State) (p : Nat) (replicated : Bool) : State :=
  match destOf s p with
  | some q => setTx s q fun x => { x with frame := some ⟨p, replicated, false, false⟩ }
  | none => s

/-- FRAME_START (R213, R218, R227, R472): START enters from port `p`, `cycles` LINK cycles after the last command of the link,
and `errs` code errors were received since (R212, R217). It ends a frame still open there. A port that is not UP and joined, or
is UP one lane with a striped frame, takes none. The port that feeds the processing point, after its join, opens a frame there.
-/
def execFrameStart (p : Nat) (replicated : Bool) (cycles : Nat) (s : State) (errs : Nat := 0) : Host.Outcome State Fault Refusal :=
  live s (
    let s := lineErrors (advance s cycles) errs
    if s.get LNK_STAT_STATE != 3 || !portUp s p || !s.lnk.joined.contains p || s.get (laneFld p) = 0 then s
    else
      let s := if s.lnk.frame.any fun f => f.port == p then uncleanEnd s else s
      let s := (frameEnds s p).put LNK_STAT_MODE (b2n replicated)
      if !replicated && s.get (portFld p) = 2 then narrowFor s p [p]
      else if !inRoute s p then s
      else
        let s := openTx (if replicated then s else narrowDests s p 3) p replicated
        if !s.lnk.procJoined || feedPort s != some p then s
        else frameStarts (lk s fun l => { l with frame := some ⟨p, replicated, none, 128, 0, false⟩ }))

/-- The lane whose characters the device takes at place `i` (R214). -/
def laneTaken (s : State) (p : Nat) (replicated : Bool) (i : Nat) : Nat :=
  if replicated then (if bitOf (s.get (laneFld p)) 0 then 0 else 1) else i % 2

/-- The places of a header or slot that the device takes as K30.7 (R212, R214). -/
def badPlaces (s : State) (p : Nat) (replicated : Bool) (bad : List (Nat × Nat)) : List Nat :=
  (bad.filter fun b => b.1 == laneTaken s p replicated b.2).map (·.2)

/-- Bytes as captured: 0x00 where a code error was received (R212). -/
def asTaken (l : List Byte) (bad : List Nat) : List Byte := bad.foldl (fun l i => l.set i 0) l

/-- A port is UP one lane (R225). -/
def oneLane (s : State) : Bool := (List.range 3).any fun p => s.get (portFld p) == 2

/-- The cycle header as it leaves: HOP + 1 at the processing point, the flags, a fresh HCRC, complemented after a failed check
(R225). -/
def sentHeader (s : State) (l : List Byte) (proc pass : Bool) : List Byte :=
  let w := leNat ((l.drop 12).take 2)
  let hop := w % 4096
  let hop' := if !proc || hop = 0xFFF then hop else hop + 1
  let fl := w / 4096 ||| (if oneLane s then 2 else 0) ||| (if s.on LNK_STAT_LOST then 4 else 0)
  let h := l.take 12 ++ leBytes 2 (hop' + fl * 4096) ++ (l.drop 14).take 1
  let c := BitVec.ofNat 8 (crc8 h)
  h ++ [if pass then c else ~~~c]

/-- The cycle-start of a passed header (R236): at once, or at TSTAMP + LNK_CSLEAD. -/
def cycleStart (s : State) (tstamp : Nat) : State :=
  let lead := s.get LNK_CSLEAD_LEAD
  let t := tstamp + lead
  if lead = 0 then yieldEv s 0
  else if t < s.lnk.time then lnkEvt (yieldEv s 0) 8
  else if t = s.lnk.time then yieldEv s 0
  else lk s fun l => { l with csAt := insertTime t l.csAt }

/-- A cycle header that passes at the processing point (R225, R226, R236). -/
def headerPassed (s : State) (l : List Byte) (f : Frame) : State :=
  let w := leNat ((l.drop 12).take 2)
  let cyc := (l.getD 14 0).toNat
  let f := { f with hdr := some true, cyc := if cyc = 0 || 128 < cyc then 128 else cyc }
  let tstamp := leNat ((l.drop 4).take 8)
  let s := lk s fun k => { k with frame := some f, timeSet := true }
  let s := ((s.put LNK_CYCNO_CYCNO (leNat (l.take 4))).put LNK_CYCINFO_CYC cyc).put LNK_CYCINFO_HOP (w % 4096)
  let s := if !s.on LNK_CFG_POSMODE && bitOf w 12 then lnkEvt (s.put LNK_POS_POS (w % 4096)) 7 else s
  let t := (tstamp + s.get LNK_PDELAY_DELAY + 20 * f.n) % 2 ^ 64
  cycleStart (fireDue (lk s fun k => { k with time := t }) 0) tstamp

/-- The header passes on the transmitter that receiver `p` feeds (R225). -/
def passHeader (s : State) (p : Nat) (h : List Byte) (bad : List Nat) : State :=
  (List.range 3).foldl (fun s q =>
    match (txAt s q).frame with
    | some f => if f.src = p && !f.hdr then setTx s q fun x => { x with frame := some { f with hdr := true }, hdr := h, bad := bad } else s
    | none => s) s

/-- A header awaited from port `p`: some passage of its frame has not had it. -/
def awaitsHeader (s : State) (p : Nat) : Option Bool :=
  match s.lnk.frame with
  | some f => if f.port == p && f.hdr.isNone then some f.replicated else atTx
  | none => atTx
where
  /-- The same on a transmitter. -/
  atTx : Option Bool := (List.range 3).findSome? fun q => match (txAt s q).frame with
    | some f => if f.src == p && !f.hdr then some f.replicated else none
    | none => none

/-- CYCLE_HEADER (R212, R223 to R226, R236): the 16 bytes of the header of the frame that port `p` receives. It is checked on every
passage, and acts at the processing point. The code errors of one that is discarded (R472) count too. -/
def execCycleHeader (bytes : List Byte) (cycles : Nat) (s : State) (p : Nat := 0) (bad : List (Nat × Nat) := []) :
    Host.Outcome State Fault Refusal :=
  live s (
    let s := advance s cycles
    match awaitsHeader s p with
    | none => lineErrors s bad.length
    | some replicated =>
      let k := badPlaces s p replicated bad
      let l := asTaken ((bytes ++ List.replicate 16 0).take 16) k
      let pass := k.isEmpty && crc8 (l.take 15) == (l.getD 15 0).toNat
      let proc := s.lnk.frame.any fun f => f.port == p
      let s := passHeader (s.bump LNK_ERRCNT1_CODE bad.length) p (sentHeader s l proc pass) (k.filter fun i => i != 15)
      if !pass then
        let s := lk s fun l => { l with frame := l.frame.map fun f => if f.port == p then { f with hdr := some false } else f }
        (lnkEvt s 3).bump LNK_ERRCNT0_CHDR 1
      else match s.lnk.frame with
        | some f => if f.port == p then headerPassed s l f else s
        | none => s)

/-- CYCLE_START_EVENT (R236): link time reaches the waiting time, `cycles` LINK cycles on. -/
def execCycleStartEvent (cycles : Nat) (s : State) : Host.Outcome State Fault Refusal := live s (advance s cycles)

/-- FRAME_END_CLEAN (R227, R261): END D0.0 enters from port `p`; at the processing point the captures land. -/
def execFrameEndClean (cycles : Nat) (s : State) (p : Nat := 0) : Host.Outcome State Fault Refusal :=
  live s (
    let s := advance s cycles
    let proc := s.lnk.frame.any fun f => f.port == p
    let s := frameEnds (if proc then lk s fun l => { l with frame := none } else s) p
    if proc then yieldEv (startLanding s) 1 else s)

/-- A frame that port `p` receives ends unclean: at the processing point under R227, on its transmitter as it passes. -/
def endsUnclean (s : State) (p : Nat) : State :=
  frameEnds (if s.lnk.frame.any fun f => f.port == p then uncleanEnd s else s) p

/-- FRAME_END_UNCLEAN (R217, R227): END D2.0, START, IDLE or WAKE with a frame open, or the loss of the port's lanes. -/
def execFrameEndUnclean (how : FrameEnd) (s : State) (p : Nat := 0) : Host.Outcome State Fault Refusal :=
  live s (match how with
    | .portDown => laneLost (laneLost s p 0) p 1
    | _ => endsUnclean s p)

/-- FRAME_OPEN_TIMEOUT (R227, R243): the frame that port `p` receives has been open for 2 × CYC × 62.5 µs. It ends unclean at the
processing point, and no longer keeps the engine from leaving. A narrowing that it called for goes on until its last character
has passed (R218 is silent; DESIGN CHOICE, log entry 110). -/
def execFrameOpenTimeout (s : State) (p : Nat := 0) : Host.Outcome State Fault Refusal :=
  live s (
    let s := if s.lnk.frame.any fun f => f.port == p then uncleanEnd s else s
    (List.range 3).foldl (fun s q =>
      match (txAt s q).frame with
      | some f => if f.src = p then setTx s q fun x => { x with frame := some { f with past := true } } else s
      | none => s) s)

/-- FRAME_MISSED (R227): MISSED is set once per gap. -/
def execFrameMissed (s : State) : Host.Outcome State Fault Refusal :=
  live s (if s.get LNK_STAT_STATE = 3 && s.lnk.anyFrame && !s.lnk.missed then
      lnkEvt (lk s fun l => { l with missed := true }) 10
    else s)

/-- A WAKE that acts at the processing point (R244). -/
def wakeRequest (s : State) (ds dl : Byte) : State :=
  if 1 < ds.toNat then s
  else
    let s := if ds.toNat = 1 then wakeSource s 2 else s
    if dl.toNat ≤ 7 then (levelRequest s dl.toNat (max 1 (s.get LNK_CFG_WAKEDUR)) true).2 else s

/-- WAKE_ORDERED_SET (R213, R227, R244): it is forwarded along its route, ends a frame open there, and between frames at the
processing point raises WAKESET and may request a level. A frame past the open limit has ended there (R227). -/
def execWakeOrderedSet (ds dl : Byte) (s : State) (p : Nat := 0) : Host.Outcome State Fault Refusal :=
  live s (
    if s.get LNK_STAT_STATE != 3 || !portUp s p || !s.lnk.joined.contains p || s.get (laneFld p) = 0 then s
    else
      let inside := (s.lnk.frame.any fun f => f.port == p) || s.lnk.tx.any fun x => x.frame.any fun f => f.src == p && !f.past
      let s := endsUnclean s p
      let s := match destOf s p with
        | some q => setTx s q fun x => { x with wake := some (ds, dl) }
        | none => s
      if inside || !s.lnk.procJoined || feedPort s != some p then s else wakeRequest s ds dl)

/-! ### Slots -/

/-- A field of a slot header (R228). -/
def slotFld (h : SlotHdr) (lo w : Nat) : Nat := bitsOf h.bits.toNat lo w

/-- The status word of R234. -/
def statusWord (s : State) : Nat :=
  s.get PWR_DOMSTAT_STATE + s.get PWR_LVLSTAT_CUR * 8 + s.get HRV_ELEVEL_LEVEL * 64 +
  b2n (s.get TBL_READY_READY != 0) * 512 + s.get LNK_STAT_LOST * 1024 + b2n (oneLane s) * 2048 +
  b2n (portUp s 0) * 4096 + b2n (portUp s 1) * 8192 + b2n (portUp s 2) * 16384 + s.get LNK_LATECNT_COUNT % 65536 * 65536

/-- A slot's place in the open frame: the frame serves slots when its header passed and no slot header failed (R225, R232). -/
def serves (s : State) : Bool :=
  s.get LNK_STAT_STATE == 3 && (match s.lnk.frame with | some f => f.hdr == some true && !f.slotErr | none => false)

/-- The processing point sends a slot's payload, generation word and tail as given. -/
def sendSlot (s : State) (payload : List Word) (gen tail : Option Word) : State :=
  lk s fun l => { l with out := { l.out with payload := payload, gen := gen, tail := tail } }

/-- Status 2 of R231: BADPARAM. -/
def slotBad (h : SlotHdr) (ty : Nat) : Bool := slotFld h 48 8 != 0 || (slotFld h 15 1 == 1 && ty != 0 && ty != 2)

/-- Payload bytes an answered slot passes on as they came, from this byte on: of a READ, READ-WRITE, STATUS or COMMAND-CARRY
none, of an EVENT those after word 0 (R230, R235), of one addressed to the device and answered BADPARAM all (R231). -/
def passesFrom (h : SlotHdr) (ty : Nat) (mine : Bool) : Nat :=
  if mine && slotBad h ty then 0 else match ty with | 1 => 0 | 3 => 4 | _ => 16384

/-- The places of code errors among the payload bytes of a slot (R212, R228). -/
def badPayload (h : SlotHdr) (k : List Nat) : List Nat :=
  let o := 8 + 4 * slotFld h 15 1
  (k.filter fun i => decide (o ≤ i) && decide (i < o + 4 * slotFld h 36 12)).map fun i => i - o

/-- Payload words as captured: 0x00 in place of a byte received as K30.7 (R212). -/
def takenWords (pl : List Word) (k : List Nat) : List Word :=
  k.foldl (fun l i => l.set (i / 4) (l.getD (i / 4) 0 &&& ~~~((0xFF : Word) <<< (8 * (i % 4))))) pl

/-- The device answers a slot (R229, R241, R259): the tail, the live generation where GENW=1, and the class 4 reservation's
end. -/
def answer (s : State) (h : SlotHdr) (payload : List Word) (status latew : Nat) : State :=
  let tail := BitVec.ofNat 32 (status + devPos s * 256 + latew * 2 ^ 20)
  let gen := if slotFld h 15 1 = 1 then some (BitVec.ofNat 32 (s.get (TBL_LDESC1_GEN (slotFld h 16 4)))) else none
  let s := if burstHeld s 4 then releaseBurst s 4 0 else s
  sendSlot s payload gen (some tail)

/-- Take a slot of a type as it passes the processing point: its header is checked; `f` answers it where it is the device's
(R231, R232). The words are cut or filled to the header's LEN; what was received as K30.7 is counted, in a frame that is not
served too, captured as 0x00, and passed on as K30.7 where the device replaces nothing (R212). -/
def onSlot (s : State) (ty : Nat) (h : SlotHdr) (genw : Word) (payload : List Word) (bad : List (Nat × Nat)) (cycles : Nat)
    (f : State → List Word → Bool → State) : State :=
  let s := advance s cycles
  if !serves s then lineErrors s bad.length
  else
    let (p, rep) := match s.lnk.frame with | some f => (f.port, f.replicated) | none => (0, false)
    let k := badPlaces s p rep bad
    let kp := badPayload h k
    let pl := takenWords ((payload ++ List.replicate (slotFld h 36 12) 0).take (slotFld h 36 12)) kp
    let gen := if slotFld h 15 1 = 1 then some genw else none
    let pass := sendSlot (s.bump LNK_ERRCNT1_CODE bad.length) pl gen none
    let through := lk pass fun l => { l with out := { l.out with bad := kp } }
    if k.any (fun i => i < 8) || crc8 (leBytes 7 h.bits.toNat) != h.scrc.toNat then
      let s := lk through fun l => { l with frame := l.frame.map fun f => { f with slotErr := true } }
      (lnkEvt s 4).bump LNK_ERRCNT0_SHDR 1
    else if slotFld h 12 3 != ty then through
    else
      let mine := slotFld h 0 12 == devPos s && devPos s != 0xFFF
      let all := ty == 3 && slotFld h 0 12 == 0xFFF
      if mine || all then
        f (lk pass fun l => { l with out := { l.out with bad := kp.filter fun i => decide (passesFrom h ty mine ≤ i) } }) pl mine
      else through

/-- The table server serves table `n` (R245): not restarting, banks 2 and 3 not wiping, flipped since the last restart. -/
def tableReady (s : State) (n : Nat) : Bool :=
  s.cmd.serving && !s.ms.wipeQ.contains 2 && !s.ms.wipeQ.contains 3 && s.bit TBL_READY_READY n

/-- Byte offset of payload word `w` in the table (R257). -/
def slotByte (s : State) (h : SlotHdr) (w : Nat) : Nat := slotFld h 20 16 * esz (s.get (TBL_LDESC0_ESIZE (slotFld h 16 4))) + 4 * w

/-- Payload word `w` lies inside the live extent (R257). -/
def inRange (s : State) (h : SlotHdr) (w : Nat) : Bool := decide (slotByte s h w < (liveExt s (slotFld h 16 4)).2)

/-- Address of payload word `w` in the live copy. -/
def slotAddr (s : State) (h : SlotHdr) (w : Nat) : Nat :=
  let n := slotFld h 16 4
  copyBase (liveCopy s n) + (liveExt s n).1 + slotByte s h w

/-- Live data for `len` words from word `w` on: the words, and the first word that is late by an uncorrectable read, by a
landing still to write it, or by a flip that waits (R177, R233, R262). After a late word only zeros are sent. -/
def liveWords (s : State) (h : SlotHdr) (late : Option Nat) : Nat → Nat → List Word × Option Nat × State
  | 0, _ => ([], none, s)
  | k + 1, w =>
    if !inRange s h w then
      let (l, r, s) := liveWords s h late k (w + 1)
      (0 :: l, r, s)
    else
      let a := slotAddr s h w
      let held := bitOf s.cmd.waitFlip (slotFld h 16 4) || s.cmd.landing.any (fun x => x.1 == a) ||
        (match late with | some i => decide (i ≤ w) | none => false)
      if held then (List.replicate (k + 1) 0, some w, s)
      else match readWord s .link a with
        | (none, s) => (List.replicate (k + 1) 0, some w, s)
        | (some v, s) =>
          let (l, r, s) := liveWords s h late k (w + 1)
          (BitVec.ofNat 32 v :: l, r, s)

/-- Answer with live data: LATE where a word was late, else the given status (R231, R233); a slot answered STALE_GEN sets the flag
(R258). -/
def answerLive (s : State) (h : SlotHdr) (late : Option Nat) (st : Nat) : State :=
  let (l, r, s) := liveWords s h late (slotFld h 36 12) 0
  match r with
  | none => answer (if st = 0xA then s.setFlag 0x40007014 5 else s) h l st 0
  | some w => answer (s.bump LNK_LATECNT_COUNT 1) h l 0xC w

/-- Every word of the slot lies inside the live extent. -/
def allIn (s : State) (h : SlotHdr) : Bool := (List.range (slotFld h 36 12)).all fun w => inRange s h w

/-- The in-range words of a WRITE or READ-WRITE, with their addresses (R260), in the copy live as the slot is served: of one served
before a flip that a landing delays (R262) that is the copy live at the frame's start (R261; DESIGN CHOICE, log entry 110). -/
def captured (s : State) (h : SlotHdr) (pl : List Word) : List (Nat × Word) :=
  ((List.range pl.length).filter fun w => inRange s h w).map fun w => (slotAddr s h w, pl.getD w 0)

/-- The captures fit the buffer of 1,024 words (R260). -/
def fits (s : State) (l : List (Nat × Word)) : Bool := decide (s.cmd.capture.length + l.length ≤ 1024)

/-- Add captures. -/
def addCapture (s : State) (l : List (Nat × Word)) : State := { s with cmd := { s.cmd with capture := s.cmd.capture ++ l } }

/-- STALE_GEN under R259. -/
def stale (s : State) (h : SlotHdr) (genw : Word) : Bool :=
  slotFld h 15 1 == 1 && genw.toNat % 65536 != s.get (TBL_LDESC1_GEN (slotFld h 16 4))

/-- Words of zeros. -/
def zeros (pl : List Word) : List Word := pl.map fun _ => 0

/-- A READ slot at item 2 of R231 and on (R258). -/
def answerRead (s : State) (h : SlotHdr) (genw : Word) (pl : List Word) (late : Option Nat) : State :=
  let n := slotFld h 16 4
  if slotBad h 0 then answer s h pl stBadParam 0
  else if !tableReady s n then answer s h (zeros pl) 8 0
  else if !s.on (TBL_LDESC0_MR n) then answer s h (zeros pl) 3 0
  else if s.get (TBL_LDESC1_COUNT n) = 0 then answer s h (zeros pl) 0xB 0
  else if stale s h genw then answerLive s h late 0xA
  else answerLive s h late (if allIn s h then 0 else 0xB)

/-- A WRITE slot (R258, R260). -/
def answerWrite (s : State) (h : SlotHdr) (pl : List Word) : State :=
  let n := slotFld h 16 4
  let c := captured s h pl
  if slotBad h 1 then answer s h pl stBadParam 0
  else if !tableReady s n then answer s h pl 8 0
  else if !s.on (TBL_LDESC0_MW n) then answer s h pl 3 0
  else if !fits s c then answer (s.setFlag 0x40007014 4) h pl 1 0
  else if s.get (TBL_LDESC1_COUNT n) = 0 || !allIn s h then answer (addCapture s c) h pl 0xB 0
  else answer (addCapture s c) h pl 0 0

/-- A READ-WRITE slot (R258, R260). -/
def answerReadWrite (s : State) (h : SlotHdr) (genw : Word) (pl : List Word) (late : Option Nat) : State :=
  let n := slotFld h 16 4
  let c := captured s h pl
  if slotBad h 2 then answer s h pl stBadParam 0
  else if !tableReady s n then answer s h (zeros pl) 8 0
  else if !s.on (TBL_LDESC0_MR n) || !s.on (TBL_LDESC0_MW n) then answer s h (zeros pl) 3 0
  else if s.get (TBL_LDESC1_COUNT n) = 0 then answer s h (zeros pl) 0xB 0
  else if stale s h genw then answerLive s h late 0xA
  else if !fits s c then answerLive (s.setFlag 0x40007014 4) h late 1
  else answerLive (addCapture s c) h late (if allIn s h then 0 else 0xB)

/-- READ_SLOT (R228 to R233, R257 to R259). `late` is the first word the array cannot give in time for a row copy (R178). -/
def execReadSlot (h : SlotHdr) (genw : Word) (payload : List Word) (late : Option Nat) (cycles : Nat) (s : State)
    (bad : List (Nat × Nat) := []) : Host.Outcome State Fault Refusal :=
  live s (onSlot s 0 h genw payload bad cycles fun s pl _ => answerRead s h genw pl late)

/-- WRITE_SLOT (R228 to R232, R257, R258, R260). -/
def execWriteSlot (h : SlotHdr) (genw : Word) (payload : List Word) (cycles : Nat) (s : State)
    (bad : List (Nat × Nat) := []) :
    Host.Outcome State Fault Refusal :=
  live s (onSlot s 1 h genw payload bad cycles fun s pl _ => answerWrite s h pl)

/-- READ_WRITE_SLOT (R228 to R233, R257 to R260). -/
def execReadWriteSlot (h : SlotHdr) (genw : Word) (payload : List Word) (late : Option Nat) (cycles : Nat) (s : State)
    (bad : List (Nat × Nat) := []) : Host.Outcome State Fault Refusal :=
  live s (onSlot s 2 h genw payload bad cycles fun s pl _ => answerReadWrite s h genw pl late)

/-- An EVENT slot's word 0 (R235): captured, ORed with LNK_EVOUT, and the bits sent cleared. -/
def eventWord (s : State) (pl : List Word) : List Word × State :=
  match pl with
  | [] => ([], s)
  | w :: t =>
    let out := s.get LNK_EVOUT_BITS
    let s := (s.put LNK_EVIN_WORD w.toNat).put LNK_EVOUT_BITS 0
    let s := if w = 0 then s else yieldEv (lnkEvt s 11) 2
    (BitVec.ofNat 32 (w.toNat ||| out) :: t, s)

/-- EVENT_SLOT (R231, R235): R231's checks stop an addressed slot only; a broadcast is taken whatever they say, and keeps its
tail. -/
def execEventSlot (h : SlotHdr) (genw : Word) (payload : List Word) (cycles : Nat) (s : State)
    (bad : List (Nat × Nat) := []) :
    Host.Outcome State Fault Refusal :=
  live s (onSlot s 3 h genw payload bad cycles fun s pl mine =>
    if mine && slotBad h 3 then answer s h pl stBadParam 0
    else
      let (l, s) := eventWord s pl
      let gen := if slotFld h 15 1 = 1 then some genw else none
      if mine then answer s h l (if pl.isEmpty then 4 else 0) 0 else sendSlot s l gen none)

/-- STATUS_SLOT (R234, R231). -/
def execStatusSlot (h : SlotHdr) (genw : Word) (payload : List Word) (cycles : Nat) (s : State)
    (bad : List (Nat × Nat) := []) :
    Host.Outcome State Fault Refusal :=
  live s (onSlot s 5 h genw payload bad cycles fun s pl _ =>
    if slotBad h 5 then answer s h pl stBadParam 0
    else match pl with
      | [] => answer s h [] 4 0
      | w :: t =>
        let s := if w.toNat / 2 ^ 31 = 1 then s.put LNK_PDELAY_DELAY (w.toNat % 2 ^ 24) else s
        answer s h (BitVec.ofNat 32 (statusWord s) :: zeros t) 0 0)

/-- A read of LNK_LTIMELO latches the high word (R236). -/
def linkTimeLatch (s : State) : State :=
  (s.put LNK_LTIMELO_TIME s.lnk.time).put LNK_LTIMEHI_TIME (s.lnk.time / 2 ^ 32)

/-- A write of LNK_CFG (R241). -/
def writeLnkCfg (s : State) (tag v : Nat) : State :=
  let s := ((s.put LNK_CFG_POSMODE v).put LNK_CFG_IDLETO (v / 16)).put LNK_CFG_BACKOFF (v / 256)
  let s := s.put LNK_CFG_WAKEDUR (v / 65536)
  if bitOf v 1 then startTrain s tag else s

end Sys2Proof.Machine
end

