-- ==== Sys2Proof/Machine/Crypto.lean ====
section
/-! DEFINITION. The algorithms R265, R391 to R408 name by their public standards: AES and AES-CMAC, the counter-mode key
derivation, CTR, SHA-256, ECDSA over P-256 (log entry 9: PRESUMED from the standards' own texts), and CRC-32. -/

namespace Sys2Proof.Machine

open Sys2Proof

/-! ### AES -/

/-- The AES substitution table, 32 bytes a row, first byte lowest. -/
def sboxRows : List Nat :=
  [0xc072a49cafa2d4adf04759fa7dc982ca76abd7fe2b670130c56f6bf27b777c63] ++
  [0x75b227ebe28012079a059618c323c7041531d871f1e5a534ccf73f362693fdb7] ++
  [0xcf584c4a39becb6a5bb1fc20ed00d153842fe329b3d63b52a05a6e1b1a2c8309] ++
  [0xd2f3ff1021dab6bcf5389d928f40a351a89f3c507f02f94585334d43fbaaefd0] ++
  [0xdb0b5ede14b8ee4688902a22dc4f816073195d643d7ea7c41744975fec130ccd] ++
  [0x8ae7a65eaf4566ca94ed58d6d37c8e779e4959162acd3c25c2406490a3a32e0] ++
  [0x9e1dc186b95735610ef6034866b53e708a8bbd4b1f74dde8c6b4a61c2e2578ba] ++
  [0x16bb54b00f2d99416842e6bf0d89a18cdf2855cee9871e9b948ed9691198f8e1]

/-- The AES substitution of a byte. -/
def sbox (x : Nat) : Nat := (sboxRows.getD (x / 32) 0) / 256 ^ (x % 32) % 256

/-- Multiply by x in the AES field. -/
def xtime (a : Nat) : Nat := if a < 128 then 2 * a else (2 * a - 256) ^^^ 0x1B

/-- XOR of two byte lists. -/
def xorL (a b : List Nat) : List Nat := List.zipWith (· ^^^ ·) a b

/-- One key word from word `i - 1`, before it is XORed with word `i - nk`. -/
def keyTemp (nk i : Nat) (t : List Nat) : List Nat :=
  if i % nk = 0 then
    let r := (t.drop 1 ++ t.take 1).map sbox
    let rc := (List.range (i / nk - 1)).foldl (fun a _ => xtime a) 1
    match r with | x :: l => (x ^^^ rc) :: l | [] => []
  else if 6 < nk && i % nk = 4 then t.map sbox else t

/-- The key schedule: words of four bytes, newest first, `k` words to add to `nk` key words. -/
def keyWords (nk : Nat) (start : List (List Nat)) : Nat → List (List Nat)
  | 0 => start
  | k + 1 =>
    let l := keyWords nk start k
    xorL (l.getD (nk - 1) []) (keyTemp nk (nk + k) (l.getD 0 [])) :: l

/-- Cut a list into words of four. -/
def words4 (l : List Nat) : List (List Nat) := (List.range (l.length / 4)).map fun i => (l.drop (4 * i)).take 4

/-- The bytes of the key schedule of a 16- or 32-byte key. -/
def schedule (key : List Nat) : List Nat :=
  let nk := key.length / 4
  (keyWords nk (words4 key).reverse (4 * (nk + 7) - nk)).reverse.flatten

/-- Shift the rows of the 16-byte state. -/
def shiftRows (l : List Nat) : List Nat := (List.range 16).map fun i => l.getD ((i + 4 * (i % 4)) % 16) 0

/-- Mix one column. -/
def mixCol : List Nat → List Nat
  | [a, b, c, d] =>
    let t := a ^^^ b ^^^ c ^^^ d
    [a ^^^ t ^^^ xtime (a ^^^ b), b ^^^ t ^^^ xtime (b ^^^ c), c ^^^ t ^^^ xtime (c ^^^ d), d ^^^ t ^^^ xtime (d ^^^ a)]
  | l => l

/-- AES encryption of a 16-byte block under a schedule of `n + 1` round keys. -/
def aesBlock (ks : List Nat) (n : Nat) (x : List Nat) : List Nat :=
  let rk (i : Nat) : List Nat := (ks.drop (16 * i)).take 16
  let round (s : List Nat) (i : Nat) : List Nat := xorL ((words4 (shiftRows (s.map sbox))).map mixCol).flatten (rk i)
  let s := ((List.range (n - 1)).map (· + 1)).foldl round (xorL x (rk 0))
  xorL (shiftRows (s.map sbox)) (rk n)

/-- AES with a 16-byte or a 32-byte key. -/
def aes (key x : List Nat) : List Nat := aesBlock (schedule key) (key.length / 4 + 6) x

/-- Bytes as numbers. -/
def natL (l : List Byte) : List Nat := l.map (·.toNat)

/-- Numbers as bytes. -/
def byteL (l : List Nat) : List Byte := l.map (BitVec.ofNat 8 ·)

/-- Double a 16-byte value in the field of CMAC. -/
def cmacDouble (l : List Nat) : List Nat :=
  let v := l.foldl (fun a b => a * 256 + b) 0
  let w := (2 * v) % 2 ^ 128 ^^^ (if 2 ^ 127 ≤ v then 0x87 else 0)
  natL (beBytes 16 w)

/-- The chain of CMAC over whole blocks. -/
def cmacChain (ks : List Nat) (n : Nat) (m : List Nat) (k : Nat) : List Nat :=
  (List.range k).foldl (fun c i => aesBlock ks n (xorL c ((m.drop (16 * i)).take 16))) (List.replicate 16 0)

/-- AES-CMAC (R265, R397): the 16-byte tag. -/
def cmac (key m : List Byte) : List Byte :=
  let ks := schedule (natL key)
  let n := key.length / 4 + 6
  let m := natL m
  let k1 := cmacDouble (aesBlock ks n (List.replicate 16 0))
  let whole := m.length != 0 && m.length % 16 == 0
  let k := if whole then m.length / 16 - 1 else m.length / 16
  let rest := m.drop (16 * k)
  let last := if whole then xorL rest k1
    else xorL (rest ++ 0x80 :: List.replicate (15 - rest.length) 0) (cmacDouble k1)
  byteL (aesBlock ks n (xorL (cmacChain ks n m k) last))

/-- The key derivation of R392: `l` bits from derivation key, label and context. -/
def kdf (ki label context : List Byte) (l : Nat) : List Byte :=
  ((List.range ((l + 127) / 128)).flatMap fun i =>
    cmac ki (BitVec.ofNat 8 (i + 1) :: label ++ 0 :: context ++ beBytes 2 l)).take (l / 8)

/-- CTR mode of R407: the 12-byte nonce, then the block count from 0. -/
def ctr (key nonce d : List Byte) : List Byte :=
  let ks := schedule (natL key)
  let n := key.length / 4 + 6
  let pad := (List.range ((d.length + 15) / 16)).flatMap fun i => aesBlock ks n (natL (nonce ++ beBytes 4 i))
  byteL (List.zipWith (· ^^^ ·) (natL d) pad)

/-! ### SHA-256 -/

/-- The round constants of SHA-256, eight to a row, first lowest. -/
def shaRows : List Nat :=
  [0xab1c5ed5923f82a459f111f13956c25be9b5dba5b5c0fbcf71374491428a2f98] ++
  [0xc19bf1749bdc06a780deb1fe72be5d74550c7dc3243185be12835b01d807aa98] ++
  [0x76f988da5cb0a9dc4a7484aa2de92c6f240ca1cc0fc19dc6efbe4786e49b69c1] ++
  [0x1429296706ca6351d5a79147c6e00bf3bf597fc7b00327c8a831c66d983e5152] ++
  [0x92722c8581c2c92e766a0abb650a735453380d134d2c6dfc2e1b213827b70a85] ++
  [0x106aa070f40e3585d6990624d192e819c76c51a3c24b8b70a81a664ba2bfe8a1] ++
  [0x682e6ff35b9cca4f4ed8aa4a391c0cb334b0bcb52748774c1e376c0819a4c116] ++
  [0xc67178f2bef9a3f7a4506ceb90befffa8cc7020884c8781478a5636f748f82ee]

/-- Round constant `i`. -/
def shaK (i : Nat) : Nat := (shaRows.getD (i / 8) 0) / 2 ^ (32 * (i % 8)) % 2 ^ 32

/-- Rotate a 32-bit word right. -/
def rotr (x n : Nat) : Nat := x / 2 ^ n + x % 2 ^ n * 2 ^ (32 - n)

/-- The eight working words. -/
structure ShaW where
  a : Nat
  b : Nat
  c : Nat
  d : Nat
  e : Nat
  f : Nat
  g : Nat
  h : Nat
  deriving DecidableEq, Repr

/-- The initial hash value. -/
def shaInit : ShaW := ⟨0x6a09e667, 0xbb67ae85, 0x3c6ef372, 0xa54ff53a, 0x510e527f, 0x9b05688c,
  0x1f83d9ab, 0x5be0cd19⟩

/-- One round. -/
def shaRound (s : ShaW) (k w : Nat) : ShaW :=
  let s1 := rotr s.e 6 ^^^ rotr s.e 11 ^^^ rotr s.e 25
  let ch := (s.e &&& s.f) ^^^ ((2 ^ 32 - 1 - s.e) &&& s.g)
  let t1 := s.h + s1 + ch + k + w
  let s0 := rotr s.a 2 ^^^ rotr s.a 13 ^^^ rotr s.a 22
  let mj := (s.a &&& s.b) ^^^ (s.a &&& s.c) ^^^ (s.b &&& s.c)
  ⟨(t1 + s0 + mj) % 2 ^ 32, s.a, s.b, s.c, (s.d + t1) % 2 ^ 32, s.e, s.f, s.g⟩

/-- Sixty-four rounds over a sliding window of sixteen message words. -/
def shaRounds (s : ShaW) (w : List Nat) (i : Nat) : Nat → ShaW
  | 0 => s
  | n + 1 =>
    let x := w.getD 0 0
    let a := w.getD 1 0
    let b := w.getD 14 0
    let s0 := rotr a 7 ^^^ rotr a 18 ^^^ (a / 8)
    let s1 := rotr b 17 ^^^ rotr b 19 ^^^ (b / 1024)
    shaRounds (shaRound s (shaK i) x) (w.drop 1 ++ [(x + s0 + w.getD 9 0 + s1) % 2 ^ 32]) (i + 1) n

/-- Add two hash values. -/
def shaAdd (x y : ShaW) : ShaW :=
  let p (a b : Nat) : Nat := (a + b) % 2 ^ 32
  ⟨p x.a y.a, p x.b y.b, p x.c y.c, p x.d y.d, p x.e y.e, p x.f y.f, p x.g y.g, p x.h y.h⟩

/-- The hash over `n` blocks of a padded message. -/
def shaBlocks (h : ShaW) (m : List Byte) : Nat → ShaW
  | 0 => h
  | n + 1 =>
    let w := (List.range 16).map fun i => beNat ((m.drop (4 * i)).take 4)
    shaBlocks (shaAdd h (shaRounds h w 0 64)) (m.drop 64) n

/-- SHA-256. -/
def sha256 (m : List Byte) : List Byte :=
  let z := (119 - m.length % 64) % 64
  let p := m ++ 0x80 :: List.replicate z 0 ++ beBytes 8 (8 * m.length)
  let h := shaBlocks shaInit p (p.length / 64)
  [h.a, h.b, h.c, h.d, h.e, h.f, h.g, h.h].flatMap (beBytes 4)

/-! ### ECDSA over P-256 -/

/-- The field prime. -/
def p256 : Nat := 2 ^ 256 - 2 ^ 224 + 2 ^ 192 + 2 ^ 96 - 1
/-- The order n. -/
def n256 : Nat := 0xFFFFFFFF00000000FFFFFFFFFFFFFFFFBCE6FAADA7179E84F3B9CAC2FC632551
/-- The coefficient b. -/
def b256 : Nat := 0x5AC635D8AA3A93E7B3EBBD55769886BC651D06B0CC53B0F63BCE3C3E27D2604B
/-- The base point. -/
def g256 : Nat × Nat :=
  (0x6B17D1F2E12C4247F8BCE6E563A440F277037D812DEB33A0F4A13945D898C296,
   0x4FE342E2FE1A7F9B8EE7EB4A7C0F9E162BCE33576B315ECECBB6406837BF51F5)

/-- Power modulo `m`, `k` bits of the exponent from the top. -/
def powMod (m a e : Nat) : Nat → Nat
  | 0 => 1 % m
  | k + 1 =>
    let r := powMod m a (e / 2) k
    let r2 := r * r % m
    if e % 2 = 1 then r2 * a % m else r2

/-- Inverse modulo a prime. -/
def invMod (m a : Nat) : Nat := powMod m (a % m) (m - 2) 256

/-- A point in Jacobian coordinates; z = 0 for the point at infinity. -/
structure Jac where
  x : Nat
  y : Nat
  z : Nat
  deriving DecidableEq, Repr

/-- Difference modulo the field prime. -/
def fsub (a b : Nat) : Nat := (a + p256 - b) % p256

/-- Double a point. -/
def jacDbl (q : Jac) : Jac :=
  if q.z = 0 || q.y = 0 then ⟨1, 1, 0⟩
  else
    let d := q.z * q.z % p256
    let g := q.y * q.y % p256
    let b := q.x * g % p256
    let a := 3 * (fsub q.x d * ((q.x + d) % p256) % p256) % p256
    let x := fsub (a * a % p256) (8 * b % p256)
    ⟨x, fsub (a * fsub (4 * b % p256) x % p256) (8 * (g * g % p256) % p256), 2 * (q.y * q.z % p256) % p256⟩

/-- Add two points. -/
def jacAdd (q r : Jac) : Jac :=
  if q.z = 0 then r
  else if r.z = 0 then q
  else
    let z1 := q.z * q.z % p256
    let z2 := r.z * r.z % p256
    let u1 := q.x * z2 % p256
    let u2 := r.x * z1 % p256
    let s1 := q.y * (r.z * z2 % p256) % p256
    let s2 := r.y * (q.z * z1 % p256) % p256
    if u1 = u2 then (if s1 = s2 then jacDbl q else ⟨1, 1, 0⟩)
    else
      let h := fsub u2 u1
      let t := fsub s2 s1
      let h2 := h * h % p256
      let h3 := h * h2 % p256
      let v := u1 * h2 % p256
      let x := fsub (fsub (t * t % p256) h3) (2 * v % p256)
      ⟨x, fsub (t * fsub v x % p256) (s1 * h3 % p256), h * (q.z * r.z % p256) % p256⟩

/-- A multiple of a point, `n` bits of the factor from the top. -/
def jacMul (k : Nat) (q : Jac) : Nat → Jac
  | 0 => ⟨1, 1, 0⟩
  | n + 1 =>
    let r := jacDbl (jacMul (k / 2) q n)
    if k % 2 = 1 then jacAdd r q else r

/-- Affine coordinates; none for infinity. -/
def affine (q : Jac) : Option (Nat × Nat) :=
  if q.z = 0 then none
  else
    let i := invMod p256 q.z
    let i2 := i * i % p256
    some (q.x * i2 % p256, q.y * (i * i2 % p256) % p256)

/-- The point lies on the curve (R402: a valid point of P-256). -/
def onCurve (x y : Nat) : Bool :=
  decide (x < p256) && decide (y < p256) &&
  y * y % p256 == (fsub (x * x % p256 * x % p256) (3 * x % p256) + b256) % p256

/-- ECDSA verification of a 32-byte digest: key `qx`, `qy`, signature `r`, `s`. -/
def ecdsaVerify (qx qy r s : Nat) (dig : List Byte) : Bool :=
  if !onCurve qx qy || r = 0 || s = 0 || n256 ≤ r || n256 ≤ s then false
  else
    let w := invMod n256 s
    let u1 := beNat dig % n256 * w % n256
    let u2 := r * w % n256
    match affine (jacAdd (jacMul u1 ⟨g256.1, g256.2, 1⟩ 256) (jacMul u2 ⟨qx, qy, 1⟩ 256)) with
    | some (x, _) => x % n256 == r
    | none => false

/-- The public key of a secret key. -/
def pubOf (d : Nat) : Nat × Nat := (affine (jacMul d ⟨g256.1, g256.2, 1⟩ 256)).getD (0, 0)

/-- ECDSA signature of a digest with secret key `d` and per-signature secret `k`. -/
def ecdsaSign (d k : Nat) (dig : List Byte) : Nat × Nat :=
  let r := (pubOf k).1 % n256
  (r, invMod n256 k * ((beNat dig + r * d) % n256) % n256)

/-! ### CRC-32 -/

/-- One byte into the reflected CRC-32 register, `n` bits. -/
def crc32Bits (r : Nat) : Nat → Nat
  | 0 => r
  | n + 1 => crc32Bits (if r % 2 = 1 then r / 2 ^^^ 0xEDB88320 else r / 2) n

/-- The register after a byte. -/
def crc32Step (r : Nat) (b : Byte) : Nat := crc32Bits (r ^^^ b.toNat) 8

end Sys2Proof.Machine
end

