-- ==== Sys2Proof/Machine/Carry.lean ====
section
/-! DEFINITION. Command packets (R263 to R276): fragments, reassembly, the four places, checks 1 to 6 of R273, replies, and
commands that firmware runs. -/

namespace Sys2Proof.Machine

open Sys2Proof

/-! ### Packets -/

/-- Update the command interpreter. -/
def ck (s : State) (f : Cmds → Cmds) : State := { s with cmd := f s.cmd }

/-- Byte `i` of a packet. -/
def pByte (l : List Byte) (i : Nat) : Nat := (l.getD i 0).toNat
/-- OPCODE. -/
def pOp (l : List Byte) : Nat := pByte l 0
/-- AUTH. -/
def pAuth (l : List Byte) : Bool := bitOf (pByte l 1) 0
/-- REPLY. -/
def pReply (l : List Byte) : Bool := bitOf (pByte l 1) 1
/-- LEN. -/
def pLen (l : List Byte) : Nat := leNat ((l.drop 4).take 2)
/-- Length of the whole packet (R263). -/
def pTotal (l : List Byte) : Nat := 8 + (if pAuth l then 4 else 0) + pLen l
/-- The header passes its CRC (R264). -/
def pHdrOk (l : List Byte) : Bool := crc16 (l.take 6) == leNat ((l.drop 6).take 2)
/-- Payload bytes. -/
def pPay (l : List Byte) : List Byte := (l.drop (if pAuth l then 12 else 8)).take (pLen l)

/-- The command in place `p`. -/
def placeAt (s : State) (p : Nat) : Option Place := s.cmd.places.getD p none

/-- Change place `p`. -/
def setPlace (s : State) (p : Nat) (x : Option Place) : State := ck s fun c => { c with places := c.places.set p x }

/-- The lowest free place (R274). -/
def freePlace (s : State) : Option Nat := (List.range 4).find? fun p => (placeAt s p).isNone

/-! ### Sessions' part of a packet -/

/-- Set a SEC_EVT flag. -/
def secEvt (s : State) (b : Nat) : State := s.setFlag 0x4000E048 b

/-- Update the secrecy state. -/
def sk (s : State) (f : Secr → Secr) : State := { s with sec := f s.sec }

/-- The session ends (R398). -/
def endSession (s : State) : State :=
  if s.sec.sess.isSome then (secEvt (sk s fun c => { c with sess := none }) 2).put SEC_SESS_FAILS 0 else s

/-- One AUTH_FAIL (R398). -/
def authFail (s : State) : State := secEvt (s.bump SEC_AUTHCNT_COUNT 1) 3

/-- The first four bytes of the CMAC over a header and a nonce (R265). -/
def packetMac (key hdr : List Byte) (n : Nat) : List Byte := (cmac key (hdr ++ leBytes 8 n)).take 4

/-! ### Replies (R275) -/

/-- A reply's bytes. -/
def replyBytes (pl : Place) (pay : List Byte) : List Byte :=
  let flags := match pl.nonce with | some _ => 1 + 4 * pl.prin | none => 4 * 5
  let op := if pOp pl.pkt < 128 then pOp pl.pkt + 128 else pOp pl.pkt
  let h := BitVec.ofNat 8 op :: BitVec.ofNat 8 flags :: (pl.pkt.drop 2).take 2 ++ leBytes 2 pay.length
  let h := h ++ leBytes 2 (crc16 h)
  let mac := match pl.nonce with | some (n, k) => packetMac k h n | none => []
  h ++ mac ++ pay

/-- The status block and data of a reply. -/
def statusPay (s : State) (st why : Nat) (data : List Byte) : List Byte :=
  let rest := if st = 2 then leBytes 4 (statusWord s) else data
  BitVec.ofNat 8 st :: BitVec.ofNat 8 (if st = 2 then why else 0) :: 0 :: 0 :: rest

/-- Queue bytes as the reply of place `p`, or free the place when no reply was asked (R274). -/
def queueReply (s : State) (p : Nat) (pl : Place) (pay : List Byte) : State :=
  if pReply pl.pkt then
    let s := setPlace s p (some { pl with replied := true, waiting := false })
    ck s fun c => { c with replies := c.replies ++ [(p, replyBytes pl pay)] }
  else setPlace s p none

/-- Answer the command in place `p` with a status, a WHY code and data (R275). -/
def reply (s : State) (p st why : Nat) (data : List Byte) : State :=
  match placeAt s p with
  | some pl => if pl.replied then s else queueReply s p pl (statusPay s st why data)
  | none => s

/-- The opcode is one that the part has (check 3 of R273). -/
def opKnown (op : Nat) : Bool := (1 ≤ op && op ≤ 9) || (0x20 ≤ op && op ≤ 0x53)

/-- Checks 1 to 4 of R273: the status of the first that fails. -/
def check4 (s : State) (l : List Byte) : Option Nat :=
  if 1024 < pLen l then some 4
  else if 64 ≤ pByte l 1 || (pAuth l && 1 ≤ pOp l && pOp l < 0x20) then some 5
  else if !opKnown (pOp l) then some 6
  else if 0x40 ≤ pOp l && !s.cmd.mgmtUp then some 8
  else if 0x20 ≤ pOp l && pOp l < 0x40 && !s.on MBX_LFCFG_EN then some 8
  else none

/-- Store bytes in SRAM as the link engine: whole words, then single bytes. -/
def linkStore (s : State) (m : Master) (a : Nat) (l : List Byte) : State :=
  let k := l.length / 4
  let s := (List.range k).foldl (fun s i => (sramWrite s m (a + 4 * i) 4 (leNat ((l.drop (4 * i)).take 4))).2) s
  (List.range (l.length % 4)).foldl (fun s i => (sramWrite s m (a + 4 * k + i) 1 (l.getD (4 * k + i) 0).toNat).2) s

/-- An arrival word (R276). -/
def arrivalWord (prin cycno : Nat) : List Byte := leBytes 4 (prin + cycno % 65536 * 65536)

/-- A command that the management controller runs or checks is written to the link-management area (R276). The spec lays that
area out nowhere: one slot per place, as the link-firmware area has them (DESIGN CHOICE, log entry 56). -/
def mgmtEntry (s : State) (p : Nat) (pl : Place) : State :=
  let prin := if pAuth pl.pkt then (Config.claimed s.free).toNat else 5
  let s := if pAuth pl.pkt then { s with free := s.free + 1 } else s
  linkStore s .link (0x103F0000 + 0x800 * p) (arrivalWord prin pl.cycno ++ pl.pkt)

/-- A complete packet takes place `p` and passes checks 1 to 6, or is answered (R273, R274). -/
def takePlace (s : State) (p : Nat) (l : List Byte) : State :=
  let pl : Place := ⟨l, 5, none, false, false, s.get LNK_CYCNO_CYCNO % 65536, false⟩
  let s := setPlace s p (some pl)
  match check4 s l with
  | some st => reply s p st 0 []
  | none =>
    let s := if 0x40 ≤ pOp l || (pAuth l && 0x20 ≤ pOp l) then mgmtEntry s p pl else s
    if !pAuth l then s
    else match s.sec.sess with
      | none => reply s p 2 2 []
      | some x =>
        if packetMac x.key (l.take 8) x.nonce == (l.drop 8).take 4 && bitsOf (pByte l 1) 2 4 == x.prin then
          let s := sk s fun c => { c with sess := some { x with nonce := (x.nonce + 1) % 2 ^ 64 } }
          setPlace s p (some { pl with prin := x.prin, nonce := some (x.nonce, x.key) })
        else
          let s := authFail (s.put SEC_SESS_FAILS (s.get SEC_SESS_FAILS + 1))
          let s := if 16 ≤ s.get SEC_SESS_FAILS then endSession s else s
          reply s p 7 0 []

/-! ### The down stream -/

/-- A partial packet is discarded (R268). -/
def dropPartial (s : State) : State :=
  match s.cmd.partialPkt with
  | none => s
  | some _ => (ck s fun c => { c with partialPkt := none, aborted := true }).bump TBL_CMDCNT_ABORT 1

/-- What accepting bytes would make of the packet so far: none while it is still partial, else its bytes. -/
def completed (l : List Byte) : Option (List Byte) :=
  if l.length < 8 || !pHdrOk l then none
  else if 1024 < pLen l then some (l.take 8)
  else if pTotal l ≤ l.length then some (l.take (pTotal l)) else none

/-- The bytes of the packet after an accepted fragment are `l` (R269). Answers false, changing nothing, where the packet is
complete and no place is free (R267). -/
def acceptBytes (s : State) (dseq : Nat) (l : List Byte) : Bool × State :=
  let acc (s : State) : State := ck s fun c => { c with lastSeq := some dseq }
  if 8 ≤ l.length && !pHdrOk l then
    let s := ck (acc s) fun c => { c with partialPkt := none }
    (true, (s.setFlag 0x40007014 3).bump TBL_CMDCNT_HDR 1)
  else match completed l with
    | none => (true, ck (acc s) fun c => { c with partialPkt := some l })
    | some pkt => match freePlace s with
      | none => (false, s)
      | some p => (true, takePlace (ck (acc s) fun c => { c with partialPkt := none }) p pkt)

/-- A down fragment (R268): false where it is answered BUSY. -/
def downFragment (s : State) (sop : Bool) (dseq : Nat) (b : List Byte) : Bool × State :=
  if b.isEmpty then (true, s)
  else if sop then
    match acceptBytes { s with cmd := { s.cmd with partialPkt := none } } dseq b with
    | (false, _) => (false, s)
    | (true, t) =>
      if s.cmd.partialPkt.isSome then (true, (ck t fun c => { c with aborted := true }).bump TBL_CMDCNT_ABORT 1)
      else (true, t)
  else match s.cmd.lastSeq, s.cmd.partialPkt with
    | some e, some l =>
      if dseq = (e + 1) % 256 then acceptBytes s dseq (l ++ b)
      else if dseq = e then (true, s) else (true, dropPartial s)
    | some e, none => if dseq = e then (true, s) else (true, s)
    | none, _ => (true, dropPartial s)

/-! ### The up stream -/

/-- The last fragment of place `p`'s reply is acknowledged: the place is free, and a reset or a transition that waited for it is
due (R274, R279, R388). -/
def replyAcked (s : State) (p : Nat) : State :=
  let s := match placeAt s p with | some pl => if pl.replied then setPlace s p none else s | none => s
  let r := s.cmd.resetDev.map fun r => if r.2.2 = p then (r.1, 0, r.2.2) else r
  let t := s.sec.trans.map fun t => if t.place = p then { t with frames := 0 } else t
  { s with cmd := { s.cmd with resetDev := r }, sec := { s.sec with trans := t } }

/-- UACK names the fragment last sent: it is done with (R270). -/
def upAck (s : State) (uack : Nat) : State :=
  if uack != s.cmd.useq || s.cmd.upFrag.isNone || s.cmd.upDone then s
  else
    let s := ck s fun c => { c with upDone := true }
    if !s.cmd.rest.isEmpty then s
    else match s.cmd.upPlace with
      | some p => replyAcked (ck s fun c => { c with upPlace := none }) p
      | none => s

/-- The LINK cycles since START of the open frame. -/
def frameCycle (s : State) : Nat := match s.lnk.frame with | some f => f.n | none => 0

/-- PING, GET_STATE or FIRE_EVENT of this very frame whose reply waits for a later one (R271): it came in several fragments, its
reply does not fit, or this slot comes less than 8 LINK cycles after its last byte. -/
def heldBack (s : State) (p cap : Nat) (l : List Byte) : Bool :=
  match s.cmd.fresh.find? fun x => x.1 == p, placeAt s p with
  | some (_, whole, n), some pl =>
    1 ≤ pOp pl.pkt && pOp pl.pkt ≤ 3 && !(whole && decide (l.length ≤ cap) && decide (n + 8 ≤ frameCycle s))
  | _, _ => false

/-- Take the next fragment of at most `cap` bytes (R270). -/
def upNew (s : State) (cap : Nat) : State :=
  if cap = 0 then s
  else if !s.cmd.rest.isEmpty then
    let f := s.cmd.rest.take cap
    ck s fun c => { c with useq := (c.useq + 1) % 256, upFrag := some (false, f), upDone := false, rest := c.rest.drop cap }
  else match s.cmd.replies with
    | [] => s
    | (p, l) :: t =>
      if heldBack s p cap l then s
      else ck s fun c =>
        { c with useq := (c.useq + 1) % 256, upFrag := some (true, l.take cap), upDone := false, rest := l.drop cap
                 replies := t, upPlace := some p }

/-- The up fragment of a slot with room for `cap` bytes: SOP and its bytes (R270). With UACK at the last USEQ a new one, if any is
due; else the previous one again, unchanged, unless it is acknowledged and no reply bytes wait. -/
def upFragment (s : State) (uack cap : Nat) : Bool × List Byte × State :=
  let s := upAck s uack
  let s := if uack = s.cmd.useq && (s.cmd.upFrag.isNone || s.cmd.upDone) then upNew s cap else s
  match s.cmd.upFrag with
  | some (sop, l) =>
    let idle := s.cmd.upDone && (uack == (s.cmd.useq) || (s.cmd.rest.isEmpty && s.cmd.replies.isEmpty))
    if !idle && l.length ≤ cap then (sop, l, s) else (false, [], s)
  | none => (false, [], s)

/-- The words of an up payload: the up header and the fragment, zero-filled to `n` words (R266). -/
def upWords (s : State) (sop : Bool) (b : List Byte) (n : Nat) : List Word × State :=
  let dack := match s.cmd.lastSeq with | some e => e | none => (Config.dackNone s.free).toNat
  let h := b.length + b2n sop * 2 ^ 12 + b2n s.cmd.aborted * 2 ^ 13 + s.cmd.useq * 2 ^ 16 + dack * 2 ^ 24
  let w (i : Nat) : Word := BitVec.ofNat 32 (leNat ((b.drop (4 * i)).take 4))
  let s := { ck s (fun c => { c with aborted := false }) with free := s.free + 1 }
  ((BitVec.ofNat 32 h :: (List.range (n - 1)).map w), s)

/-- The interpreter serves (R22, R180, R267). -/
def cmdServing (s : State) : Bool :=
  s.cmd.serving && !s.ms.wipeQ.any fun r => 7 ≤ r && r < 12

/-- The place that a fragment of `n` bytes filled, its slot having begun at this LINK cycle (R271). -/
def noteFresh (s t : State) (sop : Bool) (n : Nat) : State :=
  match (List.range 4).find? fun p => (placeAt s p).isNone && (placeAt t p).isSome with
  | none => t
  | some p =>
    let auth := (placeAt t p).any fun pl => pAuth pl.pkt
    let k := if s.lnk.frame.any fun f => f.replicated then 11 + n else (11 + n) / 2
    ck t fun c => { c with fresh := (p, sop && !auth, frameCycle s + k) :: c.fresh.filter fun x => x.1 != p }

/-- COMMAND-CARRY at item 5 of R231 (R266 to R270). -/
def carrySlot (s : State) (h : SlotHdr) (pl : List Word) : State :=
  match pl with
  | [] => answer s h [] 4 0
  | w :: t =>
    if !cmdServing s then answer s h (zeros pl) 8 0
    else
      let v := w.toNat
      let cap := 4 * t.length
      let (sop, b, s) := upFragment s (bitsOf v 24 8) cap
      let n := bitsOf v 0 12
      let (st, s) :=
        if cap < n then (5, s)
        else
          let d := (t.flatMap fun x => leBytes 4 x.toNat).take n
          match downFragment s (bitOf v 12) (bitsOf v 16 8) d with
          | (true, t) => (0, noteFresh s t (bitOf v 12) n)
          | (false, s) => (1, s)
      let (l, s) := upWords s sop b pl.length
      answer s h l st 0

/-- COMMAND_CARRY_SLOT (R231, R266 to R273). -/
def execCommandCarrySlot (h : SlotHdr) (genw : Word) (payload : List Word) (cycles : Nat) (s : State)
    (bad : List (Nat × Nat) := []) :
    Host.Outcome State Fault Refusal :=
  live s (onSlot s 4 h genw payload bad cycles fun s pl _ =>
    if slotBad h 4 then answer s h pl stBadParam 0 else carrySlot s h pl)

/-! ### Commands that wait for another plane -/

/-- Cut the ties of place `p` to an operation that still runs (R274: its reply is discarded). -/
def orphan (s : State) (p : Nat) : State :=
  let ops := s.nvs.ops.map fun o => if o.place = some p then { o with place := none } else o
  let st := s.clk.staged.map fun x => if x.2 = some p then (x.1, none) else x
  let up := s.disp.upd.map fun u => if u.place = some p then { u with place := none } else u
  { s with nvs := { s.nvs with ops := ops }, clk := { s.clk with staged := st }, disp := { s.disp with upd := up } }

/-- COMMAND_TIMEOUT (R274): a command of opcode 0x20 to 0x7F has not run within 2^FWTO ms. The rule discards its later reply and
does not say whether one that has not begun still runs: a management command whose place is freed before it begins never takes
effect (DESIGN CHOICE, log entry 120). -/
def execCommandTimeout (place : Nat) (s : State) : Host.Outcome State Fault Refusal :=
  live s (match placeAt s place with
    | none => s
    | some pl =>
      if pl.replied || pOp pl.pkt < 0x20 then s
      else
        let s := (orphan (setPlace s place none) place).setFlag 0x40007014 6
        if pReply pl.pkt then
          let r := replyBytes pl (statusPay s 1 0 [])
          ck s fun c => { c with replies := c.replies ++ [(4, r)] }
        else s)

/-- A doorbell to firmware at a bit whose enable is set: producer 40 and the wake source MBX (R62, R282). -/
def doorbell (s : State) (en : Bool) : State := if en then wakeSource (yieldEv s 40) 11 else s

/-- FIRMWARE_COMMAND (R276, R405): the packet, its CMAC removed, is written to its entry slot after the arrival word, and the
doorbell rings. -/
def execFirmwareCommand (place : Nat) (s : State) : Host.Outcome State Fault Refusal :=
  live s (match placeAt s place with
    | none => s
    | some pl =>
      if pl.replied || pl.sent || pOp pl.pkt < 0x20 || 0x40 ≤ pOp pl.pkt then s
      else
        let l := arrivalWord pl.prin pl.cycno ++ pl.pkt.take 8 ++ pPay pl.pkt
        let s := setPlace s place (some { pl with sent := true })
        let s := linkStore s .link (0x103E8000 + 0x800 * place) l
        let s := s.put MBX_LFDB_ENTRY (s.get MBX_LFDB_ENTRY ||| 2 ^ place)
        doorbell s (bitOf (s.get MBX_LFINTEN_EN) place))

/-- Read bytes of SRAM as a master: none where a word is uncorrectable. -/
def loadBytes (s : State) (m : Master) (a n : Nat) : Option (List Byte) × State :=
  (List.range ((n + 3) / 4)).foldl (fun (r : Option (List Byte) × State) i =>
    let (w, s) := readWord r.2 m (a + 4 * i)
    (match r.1, w with | some l, some v => some ((l ++ leBytes 4 v).take n) | _, _ => none, s)) (some [], s)

/-- The link engine takes firmware's reply in reply slot `p`, or discards it (R276, R405). One whose words read uncorrectable is
discarded too, and its place is left to the timeout of R274 (R177 and R276 name no outcome; DESIGN CHOICE, log entry 117). -/
def takeReply (s : State) (p : Nat) : State :=
  match placeAt s p with
  | none => s
  | some pl =>
    if !pl.sent || pl.replied then s
    else
      let a := 0x103EA000 + 0x800 * p
      match loadBytes s .link a 8 with
      | (none, s) => s
      | (some h, s) =>
        if 1024 < pLen h || (h.drop 2).take 2 != (pl.pkt.drop 2).take 2 || pOp h != pOp pl.pkt + 128 then s
        else match loadBytes s .link (a + 8) (pLen h) with
          | (none, s) => s
          | (some d, s) => queueReply s p pl d

/-- A write of MBX_LFRPL: replies taken in ascending order, the bits cleared as they are taken (R405). -/
def writeLfrpl (s : State) (v : Nat) : State :=
  (List.range 4).foldl (fun s p => if bitOf v p then takeReply s p else s) s

end Sys2Proof.Machine
end

