-- ==== Sys2Proof/Machine/Nvs.lean ====
section
/-! DEFINITION. The non-volatile store's engines (ch. 11): page commands, records, tallies, scrub and page moves. A word that
waits for the hold capacitor waits for HOLD_CAPACITOR_READY or HOLD_WAIT_TIMEOUT. -/

namespace Sys2Proof.Machine

open Sys2Proof

/-- Set an NVS_EVT flag. -/
def nvsEvt (s : State) (b : Nat) : State := s.setFlag 0x40009004 b

/-- Replace the operations under way; NVS_STAT follows them. -/
def setOps (s : State) (l : List NvOp) : State :=
  let on := l.any fun o => o.begun && !o.susp && !o.words.isEmpty
  let s := { s with nvs := { s.nvs with ops := l, yielded := s.nvs.yielded && on } }
  let is (p : NvOp → Bool) : Nat := b2n (l.any fun o => o.fw && p o)
  let s := (s.put NVS_STAT_PGBUSY (is fun o => o.kind == 0)).put NVS_STAT_RECBUSY (is fun o => o.kind == 1 || o.kind == 4)
  let s := s.put NVS_STAT_TLYBUSY (is fun o => o.kind == 2 || o.kind == 3)
  s.put NVS_STAT_PGSUSP (b2n (l.any fun o => o.susp))

/-- Change the operation at index `i`. -/
def setOp (s : State) (i : Nat) (o : NvOp) : State := setOps s (s.nvs.ops.set i o)

/-- The holder number of a class 3 burst: 0 firmware's page, 1 the management controller's, 2 the record engine. -/
def opHolder (o : NvOp) : Nat := if o.kind = 1 then 2 else if o.fw then 0 else 1

/-- The regions of R33 by their assets. -/
def nvAssets : List Asset := [.vendor, .image, .calib, .recipes, .ownerRecords, .makerRecords, .tallies, .log]

/-- An operation of a starter and kinds is outstanding (R305 check 2, R315). -/
def outstanding (s : State) (fw : Bool) (kinds : List Nat) : Bool :=
  s.nvs.ops.any fun o => o.fw == fw && kinds.contains o.kind && o.src != 2

/-! ### Ends -/

/-- The class 3 run that is held ends: its reservation is given back, and producer 26 yields an event (R80, R282, R305). -/
def runEnd (s : State) (o : NvOp) : State :=
  if o.page.isSome then yieldEv (releaseBurst s 3 (opHolder o)) 26 else s

/-- NVS_PGSTAT (R305, R306). -/
def pgstat (s : State) (st words : Nat) (trunc cut hold : Bool) : State :=
  let s := ((s.put NVS_PGSTAT_RESULT st).put NVS_PGSTAT_WORDS words).put NVS_PGSTAT_TRUNC (b2n trunc)
  (s.put NVS_PGSTAT_CUT (b2n cut)).put NVS_PGSTAT_HOLDLOW (b2n hold)

/-- NVS_RECSTAT of a request that returns no payload. -/
def recstat (s : State) (st copy : Nat) : State :=
  let s := ((s.put NVS_RECSTAT_RESULT st).put NVS_RECSTAT_NOREC 0).put NVS_RECSTAT_TIE 0
  (((s.put NVS_RECSTAT_OLDER 0).put NVS_RECSTAT_UE 0).put NVS_RECSTAT_COPY copy).put NVS_RECSTAT_LEN 0

/-- NVS_TLYLO and NVS_TLYHI. -/
def tlyValue (s : State) (v : Nat) : State := (s.put NVS_TLYLO_VALUE v).put NVS_TLYHI_VALUE (v / 2 ^ 32)

/-- What the starter of an operation is told at its end (R305, R306, R313 to R320). -/
def opReport (s : State) (o : NvOp) (st why : Nat) (cut hold : Bool) : State :=
  if o.fw then
    match o.kind with
    | 0 => nvsEvt (pgstat s st o.done o.trunc cut hold) 2
    | 1 =>
      let s := recstat s st o.copy
      nvsEvt (if st = 0 then s.put NVS_RECSEQ_SEQ o.val else s) 3
    | 2 | 3 =>
      nvsEvt (tlyValue ((s.put NVS_TLYSTAT_RESULT st).put NVS_TLYSTAT_REPAIRED (b2n o.repaired)) o.val) 4
    | _ => nvsEvt (recstat s st 0) 3
  else match o.place with
    | none => s
    | some p =>
      match o.kind with
      | 0 => reply s p st why (if st = 0 || st = 9 then leBytes 2 o.done else [])
      | 1 => reply s p st why (if st = 0 then leBytes 4 o.val else [])
      | 2 | 3 => reply s p st why (if st = 0 then leBytes 8 o.val else [])
      | _ => reply s p st why []


/-! ### Records (R311 to R316) -/

/-- Base address of copy `c` of record `r`. -/
def recBase (r c : Nat) : Nat := 0x201A0000 + 2048 * r + 1024 * c

/-- The header of a copy: SEQ and LEN when it is valid (R312). One in a page that is being moved is read at once, where R309 has bus
accesses, page and record writes and tally operations wait (DESIGN CHOICE, log entry 125). -/
def recCopy (s : State) (m : Master) (r c : Nat) : Option (Nat × Nat) × State :=
  let b := recBase r c
  let (q, s) := nvRead s m b
  let (i, s) := nvRead s m (b + 4)
  let (l, s) := nvRead s m (b + 8)
  let (k, s) := nvRead s m (b + 0x3FC)
  (match q, i, l, k with
   | some q, some i, some l, some k =>
     if i = r + 256 * c && l ≤ 1008 && k = q ^^^ 0xC3C3C3C3 then some (q, l) else none
   | _, _, _, _ => none, s)

/-- Copy A is taken before copy B (R312, R313). -/
def aFirst (a b : Nat) : Bool := !(newer b a)

/-- The payload of a copy, and whether every word of it was readable; the bytes of one that is not are FREE. -/
def recPayload (s : State) (m : Master) (r c len : Nat) : (Bool × List Byte) × State :=
  (List.range ((len + 3) / 4)).foldl (fun (x : (Bool × List Byte) × State) i =>
    match nvRead x.2 m (recBase r c + 12 + 4 * i) with
    | (some v, s) => ((x.1.1, (x.1.2 ++ leBytes 4 v).take len), s)
    | (none, s) =>
      let d := (List.range 4).map fun j => Config.badByte (s.free + j)
      ((false, (x.1.2 ++ d).take len), { s with free := s.free + 4 })) ((true, []), s)

/-- A record read's outcome (R313). -/
structure RecGot where
  norec : Bool
  tie : Bool
  older : Bool
  ue : Bool
  copy : Nat
  len : Nat
  seq : Nat
  pay : List Byte
  deriving DecidableEq, Repr

/-- Select a copy and read it (R313). Where none is returned COPY, LEN and SEQ are 0 (DESIGN CHOICE, log entry 125). -/
def recSelect (s : State) (m : Master) (r : Nat) : RecGot × State :=
  let (a, s) := recCopy s m r 0
  let (b, s) := recCopy s m r 1
  let none' (ue tie : Bool) : RecGot := ⟨true, tie, false, ue, 0, 0, 0, []⟩
  let got (c : Nat) (h : Nat × Nat) (tie older : Bool) (d : List Byte) : RecGot := ⟨false, tie, older, false, c, h.2, h.1, d⟩
  let two (c : Nat) (h : Nat × Nat) (o : Nat × Nat) (tie : Bool) (s : State) : RecGot × State :=
    match recPayload s m r c h.2 with
    | ((true, d), s) => (got c h tie false d, s)
    | ((false, _), s) => let (x, s) := recPayload s m r (1 - c) o.2; (got (1 - c) o tie true x.2, s)
  let one (c : Nat) (h : Nat × Nat) (s : State) : RecGot × State :=
    match recPayload s m r c h.2 with
    | ((true, d), s) => (got c h false false d, s)
    | ((false, _), s) => (none' true false, s)
  match a, b with
  | some x, some y =>
    let tie := x.1 == y.1
    if aFirst x.1 y.1 then two 0 x y tie s else two 1 y x tie s
  | some x, none => one 0 x s
  | none, some y => one 1 y s
  | none, none => (none' false false, s)

/-- Target copy and sequence number of a write, as master `m` reads the headers (R299, R314). -/
def recTarget (s : State) (r : Nat) (m : Master := .dap) : Nat × Nat × State :=
  let (a, s) := recCopy s m r 0
  let (b, s) := recCopy s m r 1
  match a, b with
  | some x, some y => if aFirst x.1 y.1 then (1, (x.1 + 1) % 2 ^ 32, s) else (0, (y.1 + 1) % 2 ^ 32, s)
  | some x, none => (1, (x.1 + 1) % 2 ^ 32, s)
  | none, some y => (0, (y.1 + 1) % 2 ^ 32, s)
  | none, none => (0, 1, s)

/-- The word writes of a record write, in order (R314). -/
def recWords (s : State) (r c q : Nat) (pay : List Byte) : List (Nat × Nat) :=
  let b := recBase r c
  let k := s.rd b 4 ^^^ 0xC3C3C3C3
  let done := q ^^^ 0xC3C3C3C3
  let first := if k ^^^ 1 = done then k ^^^ 2 else k ^^^ 1
  let w (i : Nat) : Nat × Nat := (b + 12 + 4 * i, leNat ((pay.drop (4 * i)).take 4))
  [(b + 0x3FC, first), (b, q), (b + 4, r + 256 * c), (b + 8, pay.length)] ++
    (List.range ((pay.length + 3) / 4)).map w ++ [(b + 0x3FC, done)]

/-! ### Tallies (R317 to R320) -/

/-- Base address of a tally. -/
def tlyBase (t : Nat) : Nat := 0x201E0000 + 32 * t

/-- The journal is pending. -/
def tlyPending (s : State) (t : Nat) : Bool := s.rd (tlyBase t + 16) 4 == 0xA5C35A3C

/-- The writes of a repair (R319). -/
def tlyRepair (s : State) (t : Nat) : List (Nat × Nat) :=
  let b := tlyBase t
  if tlyPending s t then [(b + 4, s.rd (b + 12) 4), (b, s.rd (b + 8) 4), (b + 16, 0)] else []

/-- The value after repair. -/
def tlyVal (s : State) (t : Nat) : Nat :=
  let b := tlyBase t
  if tlyPending s t then s.rd (b + 8) 4 + s.rd (b + 12) 4 * 2 ^ 32 else s.rd b 4 + s.rd (b + 4) 4 * 2 ^ 32

/-- The writes of an add to a value, after any repair; none where it is refused (R318). -/
def tlyAdd (t v a : Nat) : Option (List (Nat × Nat)) :=
  let b := tlyBase t
  let low := v % 2 ^ 32 + a
  if a = 0 || 2 ^ 64 ≤ v + a then none
  else if low < 2 ^ 32 then some [(b, low)]
  else
    let h := v / 2 ^ 32 + 1
    some [(b + 8, low - 2 ^ 32), (b + 12, h), (b + 16, 0xA5C35A3C), (b + 4, h), (b, low - 2 ^ 32), (b + 16, 0)]

/-- A repair that wrote sets REPAIRED and JREPAIR, whoever asked for it, and is logged (R319, R434). -/
def noteRepair (s : State) (t : Nat) : State := (nvsEvt (s.put NVS_TLYSTAT_REPAIRED 1) 8).log 0xA t 0

/-- The cells a tally's value is read from: false when one of them is uncorrectable (R299, R319). -/
def tlyScan (s : State) (m : Master) (t : Nat) : Bool × State :=
  let b := tlyBase t
  let (k, s) := nvRead s m (b + 16)
  let o := if tlyPending s t then 8 else 0
  let (x, s) := nvRead s m (b + o)
  let (y, s) := nvRead s m (b + o + 4)
  (k.isSome && x.isSome && y.isSome, s)

/-- The tally's value once every add that waits or runs on it is made (R434). -/
def tlyAfter (s : State) (t : Nat) : Nat :=
  let v := s.nvs.ops.foldl (fun v o =>
    if o.kind = 2 && o.idx = t then (if o.begun then o.val else v + o.amt) else v) (tlyVal s t)
  (s.nvs.own.filter fun e => e.1 == t).foldl (fun v e => v + e.2) v

/-! ### Requests -/

/-- A new operation. -/
def newOp (kind : Nat) (fw : Bool) (tag : Nat) (place : Option Nat) (idx : Nat) (pay : List Byte) (amt : Nat) : NvOp :=
  { kind, fw, tag, place, idx, pay, amt, begun := false, words := [], done := 0, page := none, trunc := false, susp := false
    copy := 0, val := 0, bad := false, rep := false, repaired := false, src := 0 }

/-- The operation at index `i` ends. An add of the management controller's own that failed for want of the hold capacitor is
requested again, unless its journal stands and completes it (R320; DESIGN CHOICE, log entry 53). -/
def opEnd (s : State) (i : Nat) (o : NvOp) (st why : Nat) (cut hold : Bool) : State :=
  let s := opReport (runEnd (setOps s (s.nvs.ops.eraseIdx i)) o) o st why cut hold
  if o.src = 1 && st = 9 && !tlyPending s o.idx then { s with nvs := { s.nvs with own := s.nvs.own ++ [(o.idx, o.amt)] } } else s

/-- Admission of the next word's page as a class 3 burst: a run goes on while it stays in its page (R80, R314). A refusal is
NO_ENERGY whatever the ledger's reason (R305 check 5). Answers the status, and the operation as it then stands. -/
def runAdmit (s : State) (o : NvOp) (a : Nat) : Nat × NvOp × State :=
  let p := nvPage a
  if o.page = some p then (0, o, s)
  else
    let s := runEnd s o
    let o := { o with page := none }
    let (st, s) := burst s 3 (s.get (HRV_CLSAMT_AMOUNT 3)) o.tag (opHolder o)
    if st = 0 then (0, { o with page := some p }, s) else (9, o, yieldEv s 26)

/-- The first operation of the record engine (R315). -/
def engineHead (l : List NvOp) : Option Nat := l.findIdx? fun o => o.kind != 0

/-- A record read delivers (R313). -/
def recDeliver (s : State) (i : Nat) (o : NvOp) : State :=
  let m : Master := if o.fw then .dap else .mgmt
  let (g, s) := recSelect s m o.idx
  let s := setOps s (s.nvs.ops.eraseIdx i)
  let fl := b2n g.norec + 2 * b2n g.tie + 4 * b2n g.older + 8 * b2n g.ue
  if o.fw then
    let s := recstat s 0 g.copy
    let s := ((s.put NVS_RECSTAT_NOREC (b2n g.norec)).put NVS_RECSTAT_TIE (b2n g.tie)).put NVS_RECSTAT_OLDER (b2n g.older)
    let s := ((s.put NVS_RECSTAT_UE (b2n g.ue)).put NVS_RECSTAT_LEN g.len).put NVS_RECSEQ_SEQ g.seq
    nvsEvt s 3
  else match o.place with
    | some p => reply s p 0 0 (BitVec.ofNat 8 fl :: 0 :: leBytes 2 g.len ++ leBytes 4 g.seq ++ g.pay)
    | none => s

/-- A tally request whose writes are all made (R318, R319). -/
def tlyEnd (s : State) (i : Nat) (o : NvOp) : State :=
  opEnd s i o (if o.bad then 5 else 0) 0 false false

/-- The record engine takes up its first operation (R314 to R319). -/
def engineBegin (s : State) (i : Nat) (o : NvOp) : State :=
  match o.kind with
  | 1 =>
    let (c, q, s) := recTarget s o.idx (if o.fw then .dap else .mgmt)
    let touches := match s.nvs.moving with
      | some p => decide (nvPage (recBase o.idx c) ≤ p) && decide (p < nvPage (recBase o.idx c) + 4)
      | none => false
    let o := { o with begun := true, copy := c, val := q, words := recWords s o.idx c q o.pay }
    if touches then opEnd s i o 2 5 false false
    else
      let (st, o, s) := runAdmit s o (recBase o.idx c + 0x3FC)
      if st = 0 then setOp s i o else opEnd s i o st 0 false false
  | 4 => recDeliver s i o
  | _ =>
    match tlyScan (nvWait s (tlyBase o.idx)) (if o.fw then .dap else .mgmt) o.idx with
    | (false, s) => opEnd { s with free := s.free + 1 } i o (Config.ueStatus s.free).val 0 false false
    | (true, s) =>
      let rep := tlyRepair s o.idx
      let v := tlyVal s o.idx
      let (w, v', bad) := if o.kind = 2 then
          (match tlyAdd o.idx v o.amt with | some l => (l, v + o.amt, false) | none => ([], v, true))
        else ([], v, false)
      let o := { o with begun := true, words := rep ++ w, val := v', bad := bad, rep := !rep.isEmpty }
      if o.words.isEmpty then tlyEnd s i o else setOp s i o

/-- The management controller requests its next own tally add, once none of its tally requests is outstanding (R76, R315). -/
def feedOwn (s : State) : State :=
  match s.nvs.own with
  | [] => s
  | (t, a) :: l =>
    if outstanding s false [2, 3] then s
    else
      let s := { s with nvs := { s.nvs with own := l } }
      setOps s (s.nvs.ops ++ [{ newOp 2 false 1 none t [] a with src := 1 }])

/-- The record engine goes on to its next operation, at most `n` of them. -/
def pump (s : State) : Nat → State
  | 0 => s
  | n + 1 =>
    let s := feedOwn s
    match engineHead s.nvs.ops with
    | none => s
    | some i => match s.nvs.ops[i]? with
      | none => s
      | some o => if o.begun then s else pump (engineBegin s i o) n

/-- Operations of the record engine that can ever be outstanding. -/
def pumpFuel (s : State) : Nat := s.nvs.ops.length + s.nvs.own.length + 1

/-- Queue an operation of the record engine; a management request passes a firmware request that has not begun only by its
order of arrival (R315). -/
def enqueueOp (s : State) (o : NvOp) : State :=
  let s := setOps s (s.nvs.ops ++ [o])
  pump s (pumpFuel s)

/-- The management controller adds to a tally of its own accord (R76, R413): through the record engine, like any request. -/
def tallyOwn (s : State) (t a : Nat) : State :=
  let s := { s with nvs := { s.nvs with own := s.nvs.own ++ [(t, a)] } }
  pump s (pumpFuel s)

/-! ### Page commands (R305) -/

/-- Checks 1 to 4: the status and WHY of the first that fails. NV_WRITE_PAGE meets them in this order too, BUSY before BADPARAM and
WRONG_STATE, where R273 has these two come first (DESIGN CHOICE, log entry 120). -/
def pageCheck (s : State) (fw : Bool) (tag a n : Nat) : Option (Nat × Nat) :=
  let may := if inNv a then right s (nvAsset a) tag true else nvAssets.any fun x => right s x tag true
  if !may then some (3, 0)
  else if outstanding s fw [0] then some (1, 0)
  else if n = 0 || 64 < n || !inNv a || nvRegion a = 4 || nvRegion a = 5 || a % 4 != 0 then some (5, 0)
  else if s.nvs.moving = some (nvPage a) then some (2, 5)
  else none

/-- Start a page command that passed checks 1 to 4 (R305). -/
def pageStart (s : State) (fw : Bool) (tag : Nat) (place : Option Nat) (a : Nat) (l : List Nat) : State :=
  let room := (256 - a % 256) / 4
  let ws := ((List.range l.length).map fun j => (a + 4 * j, l.getD j 0)).take room
  let o := { newOp 0 fw tag place 0 [] 0 with begun := true, words := ws, trunc := decide (room < l.length) }
  let (st, o, s) := runAdmit s o a
  let s := setOps s (s.nvs.ops ++ [o])
  if st = 0 then s else opEnd s (s.nvs.ops.length - 1) o st 0 false false

/-- A write of NVS_PGCMD by a principal (R305). -/
def writePgcmd (s : State) (tag v : Nat) : State :=
  let s := s.put NVS_PGCMD_NWORDS v
  let n := v % 128
  let a := 4 * s.get NVS_PGADDR_ADDR
  match pageCheck s true tag a n with
  | some (st, _) => pgstat s st 0 false false false
  | none => pageStart s true tag none a ((List.range n).map fun j => s.get (NVS_WBUF_DATA j))

/-- A write of NVS_RECCMD by a principal (R313 to R315). A refused request sets RECDONE as a served one does, where R305 gives a
refused page command no flag and R315 is silent (DESIGN CHOICE, log entry 125). -/
def writeReccmd (s : State) (tag v : Nat) : State :=
  let s := ((s.put NVS_RECCMD_REC v).put NVS_RECCMD_OP (v / 2 ^ 8)).put NVS_RECCMD_LEN (v / 2 ^ 16)
  let r := v % 128
  let w := bitOf v 8
  let n := bitsOf v 16 10
  let st := if !right s (recAsset r) tag w then 3
    else if outstanding s true [1, 4] then 1
    else if w && 1008 < n then 5 else 0
  if st != 0 then nvsEvt (recstat s st 0) 3
  else
    let d := ((List.range ((n + 3) / 4)).flatMap fun j => leBytes 4 (s.get (NVS_WBUF_DATA j))).take n
    enqueueOp s (newOp (if w then 1 else 4) true tag none r (if w then d else []) 0)

/-- A principal may make a tally request (R411, R315). -/
def tlyRight (s : State) (tag t : Nat) (w : Bool) : Bool := right s .tallies tag w && !(w && 29 ≤ t && t < 32)

/-- A write of NVS_TLYCMD by a principal (R315, R318, R319). A refused request sets TLYDONE as a served one does (DESIGN CHOICE,
log entry 125). -/
def writeTlycmd (s : State) (tag v : Nat) : State :=
  let s := (s.put NVS_TLYCMD_TLY v).put NVS_TLYCMD_OP (v / 2 ^ 8)
  let t := v % 32
  let w := bitOf v 8
  let st := if !tlyRight s tag t w then 3 else if outstanding s true [2, 3] then 1 else 0
  if st != 0 then nvsEvt ((s.put NVS_TLYSTAT_RESULT st).put NVS_TLYSTAT_REPAIRED 0) 4
  else enqueueOp s (newOp (if w then 2 else 3) true tag none t [] (s.get NVS_TLYAMT_AMOUNT))

/-! ### Words -/

/-- The operation whose word the engine writes next (R304): the first, in order of arrival, that has begun and is not
suspended. -/
def nextOp (l : List NvOp) : Option Nat := l.findIdx? fun o => o.begun && !o.susp && !o.words.isEmpty

/-- An operation with no word left ends; one whose next word lies in another page ends its run and asks for the next (R314). -/
def opAfter (s : State) (i : Nat) (o : NvOp) : State :=
  match o.words with
  | [] => if o.kind = 2 || o.kind = 3 then tlyEnd s i o else opEnd s i o 0 0 false false
  | (a, _) :: _ =>
    if o.kind = 2 || o.kind = 3 then setOp s i o
    else
      let (st, o, s) := runAdmit s o a
      if st = 0 then setOp s i o else opEnd s i o st 0 false false

/-- The engine writes the next word of an operation, and may yield to a bus access again (R301, R304). -/
def opWord (s : State) : State :=
  let s := { s with nvs := { s.nvs with yielded := false } }
  match nextOp s.nvs.ops with
  | none => s
  | some i => match s.nvs.ops[i]? with
    | none => s
    | some o => match o.words with
      | [] => s
      | (a, v) :: t =>
        let s := nvPut (nvWait s a) a v
        let first := o.rep && !o.repaired
        let s := if first then noteRepair s o.idx else s
        let s := opAfter s i { o with words := t, done := o.done + 1, repaired := o.repaired || first }
        pump s (pumpFuel s)

/-- The NV engine can write a word: SYS runs, or the management controller's operation starts it (R36, R64). -/
def engineRuns (s : State) : Bool :=
  match (nextOp s.nvs.ops).bind fun i => s.nvs.ops[i]? with
  | some o => !o.fw || decide (2 ≤ s.get PWR_DOMSTAT_SYS)
  | none => false

/-- A bus access comes to the address `a`, whose turn in the NV store is before the engine's next word (R304): an engine that has
yielded to one already since its last word writes its next first, the hold capacitor being ready. The words of one step of
the management controller and the halves of a double word are one access (DESIGN CHOICE, log entry 125). -/
def busTurn (s : State) (a : Nat) : State :=
  if !inNv a then s
  else
    let s := if s.nvs.yielded && holdReady s && engineRuns s then opWord (demandStart s 0) else s
    { s with nvs := { s.nvs with yielded := engineRuns s } }

/-- MOVER_ELEMENT (R204, R205): the channel whose turn it is moves one element. Its read of the NV store is a bus access of R304. -/
def execMoverElement (n : Nat) (s : State) : Host.Outcome State Fault Refusal :=
  live s (if sysRuns s && nextRun s = some n then moveElement (busTurn { s with movRr := n } (chAt s n).src) n else s)

/-- The hold capacitor becomes ready: the word write that waits is begun and written whole; the bus goes before the engine (R301,
R304). -/
def holdComesNow (s : State) : State :=
  let waits := headWaits s
  let was := holdReady s
  let s := s.put NVS_STAT_HOLDRDY 1
  if waits then headGo s else if !was && engineRuns s then opWord s else s

/-- NV_WORD_WRITE (R301, R304): with the hold capacitor ready, one word is written and completes. -/
def execNvWordWrite (s : State) : Host.Outcome State Fault Refusal :=
  live s (if holdReady s && engineRuns s then opWord (demandStart s 0) else s)

/-- The word of the first operation that waits for the hold capacitor fails (R301, R306). -/
def opFail (s : State) : State :=
  match nextOp s.nvs.ops with
  | none => s
  | some i => match s.nvs.ops[i]? with
    | none => s
    | some o =>
      let o := if o.kind = 2 || o.kind = 3 then { o with val := tlyVal s o.idx } else o
      let s := opEnd s i o 9 0 false true
      pump s (pumpFuel s)

/-- Stop page commands and record writes that a test picks, with a status (R306): from the last index down. -/
def opsStop (s : State) (p : NvOp → Bool) (st : Nat) (cut : Bool) : State :=
  let n := s.nvs.ops.length
  let s := (List.range n).foldl (fun s k =>
    let i := n - 1 - k
    match s.nvs.ops[i]? with
    | some o => if p o then opEnd s i o st 0 cut false else s
    | none => s) s
  pump s (pumpFuel s)

/-- Page commands and record writes in progress: those R306 stops. -/
def isBurst (o : NvOp) : Bool := o.begun && (o.kind == 0 || o.kind == 1)

/-- A floor trip or a forced Basalt (R83, R306): the word in progress has completed, the rest is not written. -/
def nvCut (s : State) : State := opsStop s isBurst 9 true

/-- Sleep entry suspends page commands after their word (R52, R306). -/
def nvSuspend (s : State) : State := setOps s (s.nvs.ops.map fun o => if isBurst o then { o with susp := true } else o)

/-- Suspended page commands go on (R53). -/
def nvResume (s : State) : State := setOps s (s.nvs.ops.map fun o => { o with susp := false })

/-- PAGE_COMMAND_RESUME (R53): SYS runs, for the core or on demand, and no entry is under way. -/
def execPageCommandResume (s : State) : Host.Outcome State Fault Refusal :=
  live s (if 2 ≤ s.get PWR_DOMSTAT_SYS && s.pwr.entry.isNone then nvResume s else s)

/-! ### Scrub and moves (R307 to R310) -/

/-- Thirty days of the management controller's LF counter, in 1/256 s (R308). -/
def days30 : Nat := 30 * 86400 * 256

/-- A page was refreshed at this visit: three within 30 days move it (R308). -/
def noteRefresh (s : State) (p : Nat) : State :=
  let l := (p, s.clk.lf) :: s.nvs.refresh
  let near := l.filter fun e => e.1 == p && decide (s.clk.lf < e.2 + days30)
  let s := { s with nvs := { s.nvs with refresh := l } }
  if 3 ≤ near.length then moveStart s p else s


/-- The addresses of the engine's words that wait. -/
def engineAddrs (s : State) : List Nat :=
  s.nvs.ops.flatMap fun o => if o.begun && !o.susp then o.words.map (·.1) else []

/-- The most words the operations outstanding can write. -/
def engineFuel (s : State) : Nat := 300 * (s.nvs.ops.length + s.nvs.own.length)

/-- The engine's words that wait go first, at most `n` of them, after a bus store that waits (R304); one that meets the hold
capacitor not ready waits its 10 µs, and is written or fails (R301). -/
def engineDrain (s : State) : Nat → State
  | 0 => s
  | n + 1 =>
    if engineRuns s then
      match holdTurn s with
      | (true, s) => engineDrain (opWord s) n
      | (false, s) => engineDrain (opFail s) n
    else s

/-- The scrubber reads word `a` at its three levels; `weak` when it fails a reduced margin only, `late` when a write to it went
first: the refresh is then dropped (R321). Answers whether it was refreshed, and whether it was uncorrectable (R307). -/
def scrubWord (s : State) (a : Nat) (weak late : Bool) : Bool × Bool × State :=
  match nvRead s .mgmt a with
  | (none, s) => (false, true, s)
  | (some v, s) =>
    if !(weak || Sparse.look 0 s.ms.nvErr a != 0) || late then (false, false, s)
    else match holdTurn s with
      | (true, s) => (true, false, nvPut s a v)
      | (false, s) => (false, false, s)

/-- The words of a bus store that waits at the head of the store buffer (R301). -/
def busAddrs (s : State) : List Nat :=
  if headWaits s then s.dx.stores.head?.elim [] fun st => let a := st.addr - st.addr % 4; if st.size = 8 then [a, a + 4] else [a]
  else []

/-- One visit of page `p` (R307): it starts SYS on demand, and waits for the engine's words (R304). -/
def scrubVisit (s : State) (p : Nat) (weak : List Nat) : State :=
  let late := engineAddrs s ++ busAddrs s
  let s := engineDrain (demandStart s 0) (engineFuel s)
  let (r, u, s) := (List.range 64).foldl (fun (x : Bool × Bool × State) i =>
    let a := 0x20000000 + 256 * p + 4 * i
    let (r, u, s) := scrubWord x.2.2 a (weak.contains i) (late.contains a)
    (x.1 || r, x.2.1 || u, s)) (false, false, s)
  let s := { s.put NVS_SCRUBPOS_PAGE p with nvs := { s.nvs with sweep := p } }
  let s := if r then noteRefresh (nvsEvt s 5) p else s
  if u then moveStart s p else s

/-- NV_SCRUB_VISIT (R307): the page after the one visited last; `weak` names the words that fail a reduced margin. -/
def execNvScrubVisit (weak : List Nat) (s : State) : Host.Outcome State Fault Refusal :=
  live s (scrubVisit s ((s.nvs.sweep + 1) % 8192) weak)

/-- NV_PAGE_MOVE (R309): a move that was decided is carried out; with none decided, the next that is due is. -/
def execNvPageMove (page : Nat) (s : State) : Host.Outcome State Fault Refusal :=
  live s (if s.nvs.moving = some page then moveFinish s else if s.nvs.moving.isNone then moveNext s else s)

/-! ### Resets (R322) -/

/-- The store at a management restart: management work stops, firmware's page commands and record requests end NOT_READY, a
tally add that has begun completes. -/
def nvRestart (s : State) : State :=
  let s := { s with nvs := { s.nvs with moving := none, moveDue := [] } }
  let s := s.put NVS_STAT_MOVING 0
  let tly (o : NvOp) : Bool := o.kind == 2 || o.kind == 3
  let back := (s.nvs.ops.filter fun o => o.src == 1 && !o.begun).map fun o => (o.idx, o.amt)
  let s := { s with nvs := { s.nvs with own := back ++ s.nvs.own } }
  let s := setOps s (s.nvs.ops.filterMap fun o => if !o.fw && tly o && !o.begun then none
    else if o.fw || o.src == 1 then some o else some { o with place := none, src := 2 })
  opsStop s (fun o => !tly o) 8 false

/-- The store at a watchdog or software reset: what firmware started stops, its page's fields clear but for NVS_SCRUB and what
the hardware shows; a tally add that has begun completes unreported. -/
def nvSoftReset (s : State) : State :=
  let tly (o : NvOp) : Bool := o.kind == 2 || o.kind == 3
  let s := s.nvs.ops.foldl (fun s o => if o.fw && !tly o then runEnd s o else s) s
  let hold := s.get NVS_STAT_HOLDRDY
  let mv := s.get NVS_STAT_MOVING
  let l := s.nvs.ops.filterMap fun o =>
    if !o.fw then some o else if tly o && o.begun then some { o with fw := false, place := none, src := 2 } else none
  let s := setOps ((s.resetPage 0x40009000 [0x60]).put NVS_STAT_HOLDRDY hold |>.put NVS_STAT_MOVING mv) l
  pump s (pumpFuel s)

/-- The store at power-on reset, and at a loss of every supply: begun words are whole, nothing else is written (R301, R306,
R320, R322). -/
def nvPowerOn (s : State) : State :=
  let n := { s.nvs with ops := [], moving := none, moveDue := [], yielded := false }
  { s.resetPage 0x40009000 [] with nvs := n }

end Sys2Proof.Machine
end

