-- ==== Sys2Proof/Machine/Commands.lean ====
section
/-! DEFINITION. The opcodes of R277 and R278 that touch tables, memories, records, the ledger and the fabric: each runs the
packet a place holds, at checks 7 to 11 of R273. A row whose place holds another opcode changes nothing. -/

namespace Sys2Proof.Machine

open Sys2Proof

/-- Run opcode `op` held in place `p`: `f` gets the principal and the payload (R273, R274). -/
def runOp (s : State) (p op : Nat) (f : State → Nat → List Byte → State) : State :=
  match placeAt s p with
  | none => s
  | some pl => if pOp pl.pkt != op || pl.replied || pl.waiting then s else f s pl.prin (pPay pl.pkt)

/-- The command in place `p` waits for an engine. -/
def waitPlace (s : State) (p : Nat) : State :=
  match placeAt s p with
  | some pl => setPlace s p (some { pl with waiting := true })
  | none => s

/-- Bytes `o` to `o + n` of a payload as a number. -/
def pf (l : List Byte) (o n : Nat) : Nat := leNat ((l.drop o).take n)

/-- Checks 7 to 9 of R273 in order. -/
def gate (rgt len par : Bool) : Nat := if !rgt then 3 else if !len then 4 else if !par then 5 else 0

/-- Checks 7 to 9 where the right depends on a payload byte that must be there and in its fixed range (R273). -/
def gateBy (has range rgt len par : Bool) : Nat := if !has then 4 else if !range then 5 else gate rgt len par

/-- Answer a status with no data where it is not OK, else go on. -/
def orGo (s : State) (p st : Nat) (k : State → State) : State := if st = 0 then k s else reply s p st 0 []

/-! ### Control-plane opcodes (R277) -/

/-- PING (R277). -/
def execPing (place : Nat) (s : State) : Host.Outcome State Fault Refusal :=
  live s (runOp s place 1 fun s _ l => if 1020 < l.length then reply s place 4 0 [] else reply s place 0 0 l)

/-- GET_STATE (R277): MEM_CONF2 is cleared by this read. -/
def execGetState (place : Nat) (s : State) : Host.Outcome State Fault Refusal :=
  live s (runOp s place 2 fun s _ l =>
    if !l.isEmpty then reply s place 4 0 []
    else
      let w := [statusWord s, s.get LNK_LATECNT_COUNT, s.get (MEM_CONF_COUNT 2),
                s.get TBL_READY_READY + s.get TBL_LIVE_LIVE * 65536, s.get LNK_CYCNO_CYCNO]
      reply (s.put (MEM_CONF_COUNT 2) 0) place 0 0 (w.flatMap (leBytes 4)))

/-- FIRE_EVENT (R277, R291): a channel that LINE owns. -/
def execFireEvent (place : Nat) (s : State) : Host.Outcome State Fault Refusal :=
  live s (runOp s place 3 fun s _ l =>
    let c := pf l 0 1
    let st := gateBy (1 ≤ l.length) (c < 32) (s.get (EVF_CHOWN_PRIN c) == 5) (l.length == 4) (pf l 1 3 == 0)
    orGo s place st fun s => reply (fire s (2 ^ c)) place 0 0 [])

/-- SET_LEVEL (R43, R46, R277): LEVEL 6 and 7 are refused on R43's path. -/
def execSetLevel (place : Nat) (s : State) : Host.Outcome State Fault Refusal :=
  live s (runOp s place 4 fun s _ l =>
    orGo s place (gate true (l.length == 4) (pf l 0 1 ≤ 7 && pf l 1 1 == 0)) fun s =>
      let (st, s) := levelRequest s (pf l 0 1) (pf l 2 2) true
      reply s place st 0 (if st = 0 then [BitVec.ofNat 8 (b2n s.pwr.lvlQueue.isSome)] else []))

/-- SLEEP_HINT (R277). -/
def execSleepHint (place : Nat) (s : State) : Host.Outcome State Fault Refusal :=
  live s (runOp s place 5 fun s _ l =>
    let par := 1 ≤ pf l 0 1 && pf l 0 1 ≤ 3 && pf l 1 1 == 0
    orGo s place (gate true (l.length == 4) par) fun s =>
      let s := ((s.put TBL_HINT_STATE (pf l 0 1)).put TBL_HINT_MS (pf l 2 2)).setFlag 0x40007014 2
      reply s place 0 0 [])

/-- TABLE_COMMIT (R253, R277). -/
def execTableCommit (place : Nat) (s : State) : Host.Outcome State Fault Refusal :=
  live s (runOp s place 6 fun s _ l =>
    let m := pf l 0 2
    let rgt := (List.range 16).all fun n => !bitOf m n || s.on (TBL_SDESC0_CMDW n)
    orGo s place (gateBy (2 ≤ l.length) true rgt (l.length == 4) (pf l 2 2 == 0)) fun s =>
      let (st, _, s) := commitRequest s m
      reply s place st 1 [])

/-- The five words of TABLE_INFO. -/
def tableInfo (s : State) (n : Nat) : List Nat :=
  let a := 0x40007100 + 16 * n
  [s.word (a + 8), s.word (a + 12), s.word a, s.word (a + 4),
   b2n (s.bit TBL_CMTSTAT_PEND n) + 2 * b2n (s.bit TBL_READY_READY n) + 4 * b2n (s.bit TBL_LIVE_LIVE n)]

/-- TABLE_INFO (R277). -/
def execTableInfo (place : Nat) (s : State) : Host.Outcome State Fault Refusal :=
  live s (runOp s place 7 fun s _ l =>
    orGo s place (gate true (l.length == 4) (pf l 0 1 < 16 && pf l 1 3 == 0)) fun s =>
      reply s place 0 0 ((tableInfo s (pf l 0 1)).flatMap (leBytes 4)))

/-- Bytes `o` to `o + k` of a copy leave it, or lie in a live copy (R254). -/
def offCopy (s : State) (c o k : Nat) : Bool :=
  decide (0x80000 < o + k) || (List.range ((k + 3) / 4)).any fun i => inLiveCopy s (copyBase c + o + 4 * i)

/-- TABLE_WRITE (R251, R277): into the shadow copy at the staged layout. No commit has checked that layout: data that would
leave the copy or meet a live copy is refused as outside the extent (DESIGN CHOICE, log entry 55). -/
def execTableWrite (place : Nat) (s : State) : Host.Outcome State Fault Refusal :=
  live s (runOp s place 8 fun s _ l =>
    let n := pf l 0 1
    let len := 8 ≤ l.length && l.length ≤ 1020 && l.length % 4 == 0
    orGo s place (gateBy (1 ≤ l.length) (n < 16) (s.on (TBL_SDESC0_CMDW n)) len (pf l 1 1 == 0)) fun s =>
      let (base, size) := stagedExt s n
      let o := pf l 2 2 * esz (s.get (TBL_SDESC0_ESIZE n))
      let d := l.drop 4
      if s.bit TBL_CMTSTAT_PEND n then reply s place 2 1 []
      else if size < o + d.length || offCopy s (1 - liveCopy s n) (base + o) d.length then reply s place 0xB 0 []
      else reply (linkStore s .link (copyBase (1 - liveCopy s n) + base + o) d) place 0 0 [])

/-- Words of a table copy from byte `o` of an extent of `size` bytes at `a`: zeros past the extent; the index of the first word
that is uncorrectable, from which on all are zero (R177, R277). -/
def tableWords (s : State) (a size o k : Nat) : List Nat × Option Nat × State :=
  (List.range k).foldl (fun (x : List Nat × Option Nat × State) i =>
    let (l, late, s) := x
    if late.isSome || size ≤ o + 4 * i then (l ++ [0], late, s)
    else match readWord s .link (a + o + 4 * i) with
      | (some v, s) => (l ++ [v], none, s)
      | (none, s) => (l ++ [0], some i, s)) ([], none, s)

/-- TABLE_READ (R251, R277). An extent ends at the copy's end (log entry 55). -/
def execTableRead (place : Nat) (s : State) : Host.Outcome State Fault Refusal :=
  live s (runOp s place 9 fun s _ l =>
    let n := pf l 0 1
    let shadow := pf l 1 1 == 1
    let rgt := if shadow then s.on (TBL_SDESC0_CMDW n) else s.on (TBL_LDESC0_MR n)
    let cnt := pf l 4 2
    let par := 4 ≤ cnt && cnt ≤ 1016 && cnt % 4 == 0 && pf l 6 2 == 0
    orGo s place (gateBy (2 ≤ l.length) (n < 16 && pf l 1 1 < 2) rgt (l.length == 8) par) fun s =>
      let e := esz (s.get (if shadow then TBL_SDESC0_ESIZE n else TBL_LDESC0_ESIZE n))
      let (base, size) := if shadow then stagedExt s n else liveExt s n
      let a := copyBase (if shadow then 1 - liveCopy s n else liveCopy s n) + base
      let o := pf l 2 2 * e
      let size := min size (0x80000 - base)
      let (ws, late, s) := tableWords s a size o (cnt / 4)
      let st := if late.isSome then 0xC else if size < o + cnt then 0xB else 0
      reply s place st 0 (leBytes 2 (s.get (TBL_LDESC1_GEN n)) ++ leBytes 2 (late.getD 0) ++ ws.flatMap (leBytes 4)))

/-! ### Management opcodes (R278) -/

/-- LC_QUERY (R278). -/
def execLcQuery (place : Nat) (s : State) : Host.Outcome State Fault Refusal :=
  live s (runOp s place 0x43 fun s p l =>
    orGo s place (gate (right s .lifecycle p false) l.isEmpty true) fun s =>
      reply s place 0 0 [BitVec.ofNat 8 (lcState s)])

/-- Read bytes of the NV store for a command, one bus access of R304; an uncorrectable word gives it a status of its own, FREE
(R177). -/
def nvReply (s : State) (place a n : Nat) : State :=
  let b := a - a % 4
  match loadBytes (busTurn s b) .mgmt b (a % 4 + n) with
  | (some l, s) => reply s place 0 0 (l.drop (a % 4))
  | (none, s) => reply { s with free := s.free + 1 } place (Config.ueStatus s.free).val 0 []

/-- A principal's right to the region of an address; outside the store, to any region of it, as R305 has it for page commands and
R278 leaves open for NV_READ (DESIGN CHOICE, log entry 125). -/
def nvMay (s : State) (p a : Nat) (w : Bool) : Bool :=
  if inNv a then right s (nvAsset a) p w else nvAssets.any fun x => right s x p w

/-- NV_READ (R278): a range of the records region that holds owner and maker records needs the right to both assets (R409). -/
def execNvRead (place : Nat) (s : State) : Host.Outcome State Fault Refusal :=
  live s (runOp s place 0x45 fun s p l =>
    let a := pf l 0 4
    let n := pf l 4 2
    let b := a + max n 1 - 1
    let par := 1 ≤ n && n ≤ 1020 && pf l 6 2 == 0 && inNv a && inNv b && nvRegion a == nvRegion b
    let rgt := nvMay s p a false && (!par || nvMay s p b false)
    orGo s place (gateBy (4 ≤ l.length) true rgt (l.length == 8) par) fun s =>
      nvReply s place a n)

/-- NV_WRITE_PAGE (R278, R305). `during`: the command comes between the start of an image check and the end of its copy, which the
model takes within the step of a release or a reset; the maker firmware region is BUSY then (R421, R439). -/
def execNvWritePage (place : Nat) (s : State) (during : Bool := false) : Host.Outcome State Fault Refusal :=
  live s (runOp s place 0x46 fun s p l =>
    let a := pf l 0 4
    let len := 12 ≤ l.length && l.length ≤ 264 && l.length % 4 == 0
    orGo s place (gateBy (4 ≤ l.length) true (nvMay s p a true) len (a % 4 == 0 && pf l 4 4 == 0)) fun s =>
      let d := l.drop 8
      if during && inNv a && nvAsset a == .image then reply s place stBusy 0 []
      else match pageCheck s false p a (d.length / 4) with
      | some (st, why) => reply s place st why []
      | none => pageStart (waitPlace s place) false p (some place) a ((List.range (d.length / 4)).map fun i => pf d (4 * i) 4))

/-- Refuse, or hand an operation to the record engine (R315). -/
def engineOp (s : State) (place st : Nat) (kinds : List Nat) (o : NvOp) : State :=
  orGo s place st fun s =>
    if outstanding s false kinds then reply s place 1 0 [] else enqueueOp (waitPlace s place) o

/-- RECORD_READ (R278, R313, R315). -/
def execRecordRead (place : Nat) (s : State) : Host.Outcome State Fault Refusal :=
  live s (runOp s place 0x47 fun s p l =>
    let r := pf l 0 1
    let st := gateBy (1 ≤ l.length) (r < 128) (right s (recAsset r) p false) (l.length == 4) (pf l 1 3 == 0)
    engineOp s place st [1, 4] (newOp 4 false p (some place) r [] 0))

/-- RECORD_WRITE (R278, R314, R315). -/
def execRecordWrite (place : Nat) (s : State) : Host.Outcome State Fault Refusal :=
  live s (runOp s place 0x48 fun s p l =>
    let r := pf l 0 1
    let len := 4 ≤ l.length && l.length ≤ 1012
    let st := gateBy (1 ≤ l.length) (r < 128) (right s (recAsset r) p true) len (pf l 1 3 == 0)
    engineOp s place st [1, 4] (newOp 1 false p (some place) r (l.drop 4) 0))

/-- TALLY_READ (R278, R319). -/
def execTallyRead (place : Nat) (s : State) : Host.Outcome State Fault Refusal :=
  live s (runOp s place 0x49 fun s p l =>
    let t := pf l 0 1
    let st := gate (tlyRight s p t false) (l.length == 4) (t < 32 && pf l 1 3 == 0)
    engineOp s place st [2, 3] (newOp 3 false p (some place) t [] 0))

/-- TALLY_ADD (R278, R318, R411). -/
def execTallyAdd (place : Nat) (s : State) : Host.Outcome State Fault Refusal :=
  live s (runOp s place 0x4A fun s p l =>
    let t := pf l 0 1
    let st := gateBy (1 ≤ l.length) true (tlyRight s p t true) (l.length == 8) (t < 32 && pf l 1 3 == 0 && pf l 4 4 != 0)
    engineOp s place st [2, 3] (newOp 2 false p (some place) t [] (pf l 4 4)))

/-- ENERGY_QUERY (R87, R278): byte 4 of the payload is the level; with the ledger read right bytes 8 to 19 hold the figures. -/
def execEnergyQuery (place : Nat) (s : State) : Host.Outcome State Fault Refusal :=
  live s (runOp s place 0x4D fun s p l =>
    if !l.isEmpty then reply s place 4 0 []
    else
      let full := leBytes 4 (s.get HRV_EAVAIL_EAVAIL) ++ leBytes 4 (s.get HRV_ERESV_ERESV) ++
        leBytes 2 (s.get HRV_SUPPLY_VSTO) ++ leBytes 2 (s.get HRV_SUPPLY_VBAT)
      let d := if right s .ledger p false then full else List.replicate 12 0
      reply s place 0 0 (leBytes 4 (s.get HRV_ELEVEL_LEVEL) ++ d))

/-- BURST_RESERVE (R82, R278). -/
def execBurstReserve (place : Nat) (s : State) : Host.Outcome State Fault Refusal :=
  live s (runOp s place 0x4E fun s p l =>
    let op := pf l 0 1
    let par := (op == 0 && pf l 2 2 == 0 && pf l 4 4 < 2 ^ 20) ||
      (op == 1 && pf l 1 1 == 0 && pf l 2 1 < 8 && pf l 3 5 == 0)
    orGo s place (gate (right s .ledger p true) (l.length == 8) par) fun s =>
      if op = 0 then
        let (st, t, s) := preReserve s (pf l 1 1) (pf l 4 4) p
        reply s place st 0 (if st = 0 then [BitVec.ofNat 8 t] else [])
      else match ticketOf s (pf l 2 1) with
        | none => reply s place 3 0 []
        | some r =>
          if r.tag != p then reply s place 3 0 []
          else if r.bound then reply s place 2 8 []
          else reply (dropTicket s (pf l 2 1)) place 0 0 [])

/-- Lanes lost: of a port UP in this spell of service, without lock (R217, R278). -/
def lanesLost (s : State) : Nat :=
  (List.range 3).foldl (fun v p =>
    if s.lnk.everUp.contains p then v + (3 - s.get (laneFld p)) * 8 ^ p else v) 0

/-- SPARE_REPORT (R278, R435): the MEM_, DRM_ and NVS_ pages are read, for which SYS starts (R25, R64). -/
def execSpareReport (place : Nat) (s : State) : Host.Outcome State Fault Refusal :=
  live s (runOp s place 0x51 fun s p l =>
    orGo s place (gate (right s .log p false) l.isEmpty true) fun s =>
      let s := demandStart s 0
      let m := maskOf 4 fun n => dropped s n
      reply s place 0 0 (leBytes 4 (s.word 0x40003018) ++ leBytes 4 (s.word 0x4000301C) ++ leBytes 2 s.ms.remap.length ++
        leBytes 1 s.nvs.tags.length ++ leBytes 1 m ++ leBytes 1 (lanesLost s)))

/-- LOG_READ (R278). -/
def execLogRead (place : Nat) (s : State) : Host.Outcome State Fault Refusal :=
  live s (runOp s place 0x52 fun s p l =>
    let o := pf l 0 4
    let n := pf l 4 2
    let par := 1 ≤ n && n ≤ 1020 && pf l 6 2 == 0 && o + n ≤ 0x1C000
    orGo s place (gate (right s .log p false) (l.length == 8) par) fun s => nvReply s place (0x201E4000 + o) n)

/-- Frame starts until a reset or a transition begins: eight with a reply, one without (R279). -/
def framesFor (s : State) (p : Nat) : Nat :=
  match placeAt s p with
  | some pl => if pReply pl.pkt then 8 else 1
  | none => 1

/-- RESET_DEVICE (R278, R279): under a proven session; the reset starts later, beside one that is not yet due. -/
def execResetDevice (place : Nat) (s : State) : Host.Outcome State Fault Refusal :=
  live s (runOp s place 0x53 fun s p l =>
    let k := pf l 0 1
    let rgt := (k == 1 && (p == 4 || p == 2 || p == 1)) || (k == 2 && (p == 2 || p == 1))
    orGo s place (gateBy (1 ≤ l.length) (k == 1 || k == 2) rgt (l.length == 4) (pf l 1 3 == 0)) fun s =>
      let n := framesFor s place
      reply (ck s fun c => { c with resetDev := c.resetDev ++ [(k, n, if n = 1 then 5 else place)] }) place 0 0 [])

end Sys2Proof.Machine
end

