-- ==== Sys2Proof/Machine/Clock.lean ====
section
/-! DEFINITION. Clock, calendar and alarms (ch. 12). -/

namespace Sys2Proof.Machine

open Sys2Proof

/-- Update the clock. -/
def tk (s : State) (f : Clock → Clock) : State := { s with clk := f s.clk }

/-- Set an RTC_EVT flag. -/
def rtcEvt (s : State) (b : Nat) : State := s.setFlag 0x4000A018 b

/-! ### Counting (R326, R327) -/

/-- 2000 + y is a leap year. -/
def leap (y : Nat) : Bool := (2000 + y) % 4 == 0 && ((2000 + y) % 100 != 0 || (2000 + y) % 400 == 0)

/-- Length of month m in year y (R326). -/
def monthLen (m y : Nat) : Nat :=
  if m = 2 then (if leap y then 29 else 28) else if m = 4 || m = 6 || m = 9 || m = 11 then 30 else 31

/-- Year end. -/
def yearEnd (t : Time) : Time := { t with year := if 199 ≤ t.year then 0 else t.year + 1 }

/-- Month end. -/
def monthEnd (t : Time) : Time := if 12 ≤ t.month then yearEnd { t with month := 1 } else { t with month := t.month + 1 }

/-- Midnight. -/
def midnight (t : Time) : Time :=
  let t := { t with wday := if 6 ≤ t.wday then 0 else t.wday + 1 }
  if monthLen t.month t.year ≤ t.day then monthEnd { t with day := 1 } else { t with day := t.day + 1 }

/-- Hour edge. -/
def hourEdge (t : Time) : Time := if 23 ≤ t.hour then midnight { t with hour := 0 } else { t with hour := t.hour + 1 }

/-- Minute edge. -/
def minuteEdge (t : Time) : Time := if 59 ≤ t.min then hourEdge { t with min := 0 } else { t with min := t.min + 1 }

/-- Second edge. -/
def secondEdge (t : Time) : Time := if 59 ≤ t.sec then minuteEdge { t with sec := 0 } else { t with sec := t.sec + 1 }

/-- One edge of the 1/256 s count (R327). -/
def tickTime (t : Time) : Time := if t.sub = 255 then secondEdge { t with sub := 0 } else { t with sub := t.sub + 1 }

/-! ### Alarms (R334, R335) -/

/-- An alarm's compare field matches: its mask bit is 0, or the values are equal. -/
def fieldEq (s : State) (mask cmp : Fld) (v : Nat) : Bool := !s.on mask || s.get cmp == v

/-- Every compared field of alarm `n` but the weekday equals the given one, for the date. -/
def dateEq (s : State) (n y mo d : Nat) : Bool :=
  fieldEq s (RTC_ALMCFG_MYEAR n) (RTC_ALMT1_YEAR n) y && fieldEq s (RTC_ALMCFG_MMONTH n) (RTC_ALMT1_MONTH n) mo &&
  fieldEq s (RTC_ALMCFG_MDAY n) (RTC_ALMT1_DAY n) d

/-- As `dateEq`, for the time of day. -/
def todEq (s : State) (n h m c : Nat) : Bool :=
  fieldEq s (RTC_ALMCFG_MHOUR n) (RTC_ALMT0_HOUR n) h && fieldEq s (RTC_ALMCFG_MMIN n) (RTC_ALMT0_MIN n) m &&
  fieldEq s (RTC_ALMCFG_MSEC n) (RTC_ALMT0_SEC n) c

/-- Alarm `n` matches a time (R334). -/
def almMatches (s : State) (n : Nat) (t : Time) : Bool :=
  dateEq s n t.year t.month t.day && todEq s n t.hour t.min t.sec &&
  fieldEq s (RTC_ALMCFG_MWDAY n) (RTC_ALMT1_WDAY n) t.wday

/-- Alarm `n` fires (R334). -/
def almFire (s : State) (n : Nat) : State :=
  wakeSource (yieldEv (rtcEvt (s.put (RTC_ALMCFG_ARM n) 0) n) (6 + n)) (3 + n)

/-- The armed alarms that match the time at a second edge fire. -/
def almCheck (s : State) : State :=
  (List.range 2).foldl (fun s n => if s.on (RTC_ALMCFG_ARM n) && almMatches s n s.clk.t then almFire s n else s) s

/-- A date's place in the order of R333. -/
def dateKey (t : Time) : Nat := t.year * 512 + t.month * 32 + t.day
/-- A time of day's place, whole seconds. -/
def todKey (t : Time) : Nat := t.hour * 4096 + t.min * 64 + t.sec

/-- A commit is a forward jump (R333). -/
def forward (old new : Time) : Bool :=
  let k (t : Time) : Nat := (dateKey t * 2 ^ 17 + todKey t) * 256 + t.sub
  decide (k old < k new)

/-- A time of day strictly between two keys that alarm `n` compares equal. -/
def todBetween (s : State) (n lo hi : Nat) : Bool :=
  (List.range 24).any fun h => (List.range 60).any fun m =>
    todEq s n h m (s.get (RTC_ALMT0_SEC n)) &&
    let b := h * 4096 + m * 64
    let c := s.get (RTC_ALMT0_SEC n)
    if s.on (RTC_ALMCFG_MSEC n) then decide (c ≤ 59) && decide (lo ≤ b + c) && decide (b + c < hi)
    else decide (max lo b < min hi (b + 60))

/-- A valid date strictly between two keys that alarm `n` compares equal. -/
def dateBetween (s : State) (n y0 y1 lo hi : Nat) : Bool :=
  (List.range (y1 + 1 - y0)).any fun i =>
    let y := y0 + i
    fieldEq s (RTC_ALMCFG_MYEAR n) (RTC_ALMT1_YEAR n) y &&
    (List.range 12).any fun j =>
      let mo := j + 1
      fieldEq s (RTC_ALMCFG_MMONTH n) (RTC_ALMT1_MONTH n) mo &&
      (List.range (monthLen mo y)).any fun k =>
        let d := k + 1
        let x := y * 512 + mo * 32 + d
        dateEq s n y mo d && decide (lo < x) && decide (x < hi)

/-- The date of a time is valid (R326). -/
def dateOk (t : Time) : Bool := decide (1 ≤ t.month ∧ t.month ≤ 12 ∧ 1 ≤ t.day ∧ t.day ≤ monthLen t.month t.year)

/-- Alarm `n` is jumped over between the old time and the new (R335). -/
def jumpedOver (s : State) (n : Nat) (old new : Time) : Bool :=
  let on (t : Time) : Bool := dateOk t && dateEq s n t.year t.month t.day
  let top := 24 * 4096
  if dateKey old = dateKey new then on old && todBetween s n (todKey old + 1) (todKey new)
  else
    (on old && todBetween s n (todKey old + 1) top) || (on new && todBetween s n 0 (todKey new)) ||
    (todBetween s n 0 top && dateBetween s n old.year new.year (dateKey old) (dateKey new))

/-! ### Edges -/

/-- The address of RTC_PERIOD. -/
def periodAddr : Nat := 0x4000A040

/-- A write of an alarm's register or of the period: what stood before it is kept up to the next edge (R336, R337). -/
def noteLf (s : State) (a : Nat) : State :=
  tk s fun k => { k with lfOld := (a, if a = periodAddr then k.perCnt else s.word a) :: k.lfOld }

/-- A register of an alarm takes a word, or the periodic count a value. -/
def lfLoad (s : State) (a v : Nat) : State :=
  if a = periodAddr then tk s fun k => { k with perCnt := v } else (fieldsAt a).foldl (fun s f => s.put f (v / 2 ^ f.lo)) s

/-- An edge `f`: of the writes of the alarms and the period since the last edge the newest `soon` landed less than 2 LF cycles
before it, and act from the next edge on (R336, R337). -/
def atEdge (s : State) (soon : Nat) (f : State → State) : State :=
  let l := s.clk.lfOld.take soon
  let t := f (l.foldl (fun s e => lfLoad s e.1 e.2) (tk s fun k => { k with lfOld := [] }))
  l.foldl (fun t e => lfLoad t e.1 (if e.1 = periodAddr then s.clk.perCnt else s.word e.1)) t

/-- The calibration at an edge (R328): a written RTC_CAL takes effect at a second edge, with the accumulator at 0. -/
def calEdge (s : State) (second : Bool) : State :=
  let s := if second && s.clk.calNew then
      let c := sgn 12 (s.get RTC_CAL_CAL)
      tk s fun k => { k with calInt := c, acc := 0, calNew := false }
    else s
  let a := s.clk.acc + s.clk.calInt * 32
  let (a, p) := if 1000000 ≤ a then (a - 1000000, 127) else if a ≤ -1000000 then (a + 1000000, 129) else (a, 128)
  tk s fun k => { k with acc := a, period := p }

/-- The period in force in edges (R337). -/
def perLen (s : State) : Nat := min (s.get RTC_PERIOD_PERIOD) 33177600

/-- The periodic count and the management controller's own count at an edge (R308, R337). -/
def perEdge (s : State) : State :=
  let s := tk s fun k => { k with lf := k.lf + 1 }
  match s.clk.perCnt with
  | 0 => s
  | 1 => let p := perLen s; tk s fun k => { k with perCnt := p, perDue := true }
  | c + 2 => tk s fun k => { k with perCnt := c + 1 }

/-- One 1/256 s edge of counting (R327, R328, R334, R337). Answers whether it is a second edge. -/
def subEdge (s : State) : Bool × State :=
  let t := tickTime s.clk.t
  let second := t.sub == 0
  let s := perEdge (calEdge (tk s fun k => { k with t := t }) second)
  if second then (true, almCheck (yieldEv s 9)) else (false, s)

/-- The alarms at a forward jump (R335). -/
def jumpCheck (s : State) (old new : Time) : State :=
  if !forward old new then s
  else (List.range 2).foldl (fun s n =>
    if s.on (RTC_ALMCFG_ARM n) && jumpedOver s n old new then
      (if s.on (RTC_ALMCFG_CATCH n) then almFire s n else rtcEvt s (3 + n))
    else s) s

/-- The commit edge (R331 to R335, R338). -/
def commitEdge (s : State) : State :=
  match s.clk.staged with
  | none => s
  | some (new, place) =>
    let old := tickTime s.clk.t
    let s := tk s fun k => { k with t := { new with sub := 0 }, staged := none }
    let s := (s.put RTC_STAT_OSF 0).put RTC_STAT_CPEND 0
    let s := perEdge (calEdge s true)
    let s := jumpCheck s old { new with sub := 0 }
    let s := almCheck (yieldEv s 9)
    match place with
    | some p => reply s p 0 0 []
    | none => s

/-- RTC_COMMIT_EDGE (R331). The last `soon` writes of the alarms and the period landed less than 2 LF cycles before (R336, R337). -/
def execRtcCommitEdge (s : State) (soon : Nat := 0) : Host.Outcome State Fault Refusal :=
  live s (if s.on RTC_STAT_CPEND then atEdge s soon commitEdge else s)

/-- PERIODIC_WAKE (R337): the count has run out. -/
def execPeriodicWake (s : State) : Host.Outcome State Fault Refusal :=
  live s (if s.clk.perDue then
      wakeSource (yieldEv (rtcEvt (tk s fun k => { k with perDue := false }) 2) 8) 5
    else s)

/-- CRYSTAL_STOP (R323, R324, R434). -/
def execCrystalStop (s : State) : Host.Outcome State Fault Refusal :=
  live s (if s.on RTC_STAT_SRC then s
    else State.log (rtcEvt ((s.put RTC_STAT_SRC 1).put RTC_STAT_OSF 1) 5) 0xD 0 0)

/-- CRYSTAL_RETURN (R323). -/
def execCrystalReturn (s : State) : Host.Outcome State Fault Refusal :=
  live s (if s.on RTC_STAT_SRC then rtcEvt (s.put RTC_STAT_SRC 0) 6 else s)

/-! ### Registers and commands -/

/-- A read of RTC_TIME0 takes the snapshot (R329). -/
def rtcSnap (s : State) : State :=
  let t := s.clk.t
  let s := (((s.put RTC_TIME0_SUBSEC t.sub).put RTC_TIME0_SEC t.sec).put RTC_TIME0_MIN t.min).put RTC_TIME0_HOUR t.hour
  (((s.put RTC_TIME1_WDAY t.wday).put RTC_TIME1_DAY t.day).put RTC_TIME1_MONTH t.month).put RTC_TIME1_YEAR t.year

/-- Place a commit (R331). -/
def stageTime (s : State) (t : Time) (p : Option Nat) : State :=
  (tk s fun k => { k with staged := some (t, p) }).put RTC_STAT_CPEND 1

/-- A write of RTC_COMMIT (R331, R332). -/
def writeRtcCommit (s : State) (v : Nat) : State :=
  if !bitOf v 0 then s
  else if s.on RTC_STAT_CPEND then rtcEvt s 7
  else stageTime s ⟨0, s.get RTC_STAGE0_SEC, s.get RTC_STAGE0_MIN, s.get RTC_STAGE0_HOUR, s.get RTC_STAGE1_WDAY,
    s.get RTC_STAGE1_DAY, s.get RTC_STAGE1_MONTH, s.get RTC_STAGE1_YEAR⟩ none

/-- After a write of RTC_ALMCFGn: ARM=1 clears ALMSKIPn (R336). -/
def afterAlmcfg (s : State) (n v : Nat) : State :=
  if bitOf v 8 then s.put (if n = 0 then RTC_EVT_ALMSKIP0 else RTC_EVT_ALMSKIP1) 0 else s

/-- After a write of RTC_PERIOD: the count restarts at the next edge (R337). -/
def afterPeriod (s : State) : State :=
  let p := perLen s
  tk s fun k => { k with perCnt := if p = 0 then 0 else p + 1 }

/-- After a write of RTC_CAL (R328). -/
def afterCal (s : State) : State := tk s fun k => { k with calNew := true }

/-- RTC_GET (R278, R330). -/
def execRtcGet (place : Nat) (s : State) : Host.Outcome State Fault Refusal :=
  live s (runOp s place 0x4B fun s p l =>
    orGo s place (gate (right s .clock p false) l.isEmpty true) fun s =>
      let t := s.clk.t
      let b := s.get RTC_STAT_OSF + 2 * b2n (s.on RTC_EVT_ALMSKIP0 || s.on RTC_EVT_ALMSKIP1)
      reply s place 0 0 ([t.sub, t.sec, t.min, t.hour, t.wday, t.day, t.month, t.year, b].map (BitVec.ofNat 8 ·)))

/-- RTC_SET (R278, R332): answered at its commit edge. -/
def execRtcSet (place : Nat) (s : State) : Host.Outcome State Fault Refusal :=
  live s (runOp s place 0x4C fun s p l =>
    let t : Time := ⟨0, pf l 0 1, pf l 1 1, pf l 2 1, pf l 3 1, pf l 4 1, pf l 5 1, pf l 6 1⟩
    let par := t.sec < 64 && t.min < 64 && t.hour < 32 && t.wday < 8 && t.day < 32 && t.month < 16 && pf l 7 1 == 0
    orGo s place (gate (right s .clock p true) (l.length == 8) par) fun s =>
      if s.on RTC_STAT_CPEND then reply s place 2 7 []
      else stageTime (waitPlace s place) t (some place))

end Sys2Proof.Machine
end

