-- ==== Sys2Proof/Machine/Display.lean ====
section
/-! DEFINITION. The segment LCD and the electrophoretic label (ch. 13), and the clock's edge, which samples their
temperatures. -/

namespace Sys2Proof.Machine

open Sys2Proof

/-- Update the displays. -/
def dk (s : State) (f : Disp → Disp) : State := { s with disp := f s.disp }

/-- Set a SEG_EVT flag. -/
def segEvt (s : State) (b : Nat) : State := s.setFlag 0x4000B018 b
/-- Set an EPD_EVT flag. -/
def epdEvt (s : State) (b : Nat) : State := s.setFlag 0x4000C03C b

/-- The die temperature lies within the operating conditions (R448). -/
def tdieOk (t : Int) : Bool := decide (-40 ≤ t) && decide (t ≤ 105)

/-- The checksum of R340 over bytes. -/
def crc32 (l : List Byte) : Nat := l.foldl crc32Step 0xFFFFFFFF ^^^ 0xFFFFFFFF

/-! ### Segment LCD -/

/-- The V_LCD set for a temperature, 10 mV (R347). -/
def vlcdFor (s : State) (t : Int) : Nat :=
  let v : Int := ((s.get SEG_VLCD_V0 : Int) * 100 + sgn 8 (s.get SEG_VLCD_SLOPE) * (t - 25)) / 100
  (min (max v 240) 540).toNat

/-- The second's sample of the segment driver (R347). -/
def vlcdUpdate (s : State) (t : Int) : State :=
  (s.put SEG_STAT_VLCD (vlcdFor s t)).put SEG_STAT_TEMP (unsgn 8 t)

/-- A pending commit is copied at a frame start (R345). -/
def segCopyIn (s : State) : State :=
  if !s.on SEG_STAT_CPEND then s
  else match loadBytes (s.put SEG_STAT_CPEND 0) .display 0x10340000 64 with
    | (some l, s) =>
      let e := s.get SEG_CRCEXP_EXP
      segEvt (dk s fun d => { d with segCopy := l, segExp := e }) 2
    | (none, s) => segEvt s 3

/-- The segments of common `c` that the frame copy turns on (R343). -/
def segsOn (l : List Byte) (c : Nat) : Nat := leNat ((l.drop (8 * c)).take 8) % 2 ^ 60

/-- The frame the driver drives (R342 to R344, R348): two half-frames, each the commons 0 to NCOM in ascending order; a common
above NCOM has no slot and stands at 0 V. -/
def lcdFrame (s : State) : Nat × List LcdSlot :=
  let n := max 8 (s.get SEG_CFG_DIV)
  (s.get SEG_CFG_BIAS, [0, 1].flatMap fun h => (List.range (s.get SEG_CFG_NCOM + 1)).map fun c => ⟨h, c, segsOn s.disp.segCopy c, n⟩)

/-- SEG_FRAME_START (R344 to R346, R348): with EN=0 it stands for the half-frame boundary at which the driver stops (log entry
65). `soon`: the pending commit landed less than 2 LF cycles ago, which no earlier frame start saw; it waits for the following
one (R345, R369). -/
def execSegFrameStart (s : State) (soon : Bool := false) : Host.Outcome State Fault Refusal :=
  live s (
    if !s.on SEG_CFG_EN then dk s fun d => { d with lcd := none, pump := false }
    else
      let s := yieldEv (segEvt s 0) 27
      let s := if soon && !s.disp.segSeen then s else segCopyIn s
      let s := dk s fun d => { d with segSeen := true, lcd := some (lcdFrame s) }
      let c := crc32 s.disp.segCopy
      let s := s.put SEG_CRC_CRC c
      if !s.on SEG_CFG_CHKEN then s
      else if c = s.disp.segExp then s.put SEG_STAT_MIS 0
      else yieldEv (segEvt (s.put SEG_STAT_MIS 1) 1) 28)

/-- A write of SEG_COMMIT (R345). -/
def writeSegCommit (s : State) (v : Nat) : State :=
  if !bitOf v 0 || s.on SEG_STAT_CPEND then s else dk (s.put SEG_STAT_CPEND 1) fun d => { d with segSeen := false }

/-- After a write of SEG_CFG (R348): EN=1 starts the pump. EN=0 lets the frame in progress run to its next half-frame boundary. -/
def afterSegCfg (s : State) : State := if s.on SEG_CFG_EN then dk s fun d => { d with pump := true } else s

/-! ### Panel geometry, temperature, bands -/

/-- WIDTH in effect. -/
def epdWidth (s : State) : Nat := (min (max (s.get EPD_PANEL_WIDTH) 8) 1024 + 3) / 4 * 4
/-- HEIGHT in effect. -/
def epdHeight (s : State) : Nat := min (max (s.get EPD_PANEL_HEIGHT) 1) 768
/-- Base of the state array (R356). -/
def epdBase (s : State) : Nat := 0x80000000 + 0x400000 * s.get EPD_CFG_SEG
/-- GPW in effect (R350). -/
def epdGpw (s : State) : Nat := min (s.get EPD_TIM0_GPW) (s.get EPD_TIM0_LINE - 1)

/-- The band of a temperature (R354). -/
def bandOf (s : State) (t : Int) : Nat :=
  (List.range 15).foldl (fun n i => if sgn 8 (s.get (EPD_BANDT_T (i / 4) (i % 4))) ≤ t then n + 1 else n) 0

/-- The temperature in use changes: EPD_STAT, and running updates that have drifted (R353, R354). -/
def setTemp (s : State) (t : Int) : State :=
  let b := bandOf s t
  let fit := decide (-128 ≤ t) && decide (t ≤ 127)
  let s := (dk s fun d => { d with temp := t }).put EPD_STAT_BAND b
  let s := if fit then s.put EPD_STAT_TEMP (unsgn 8 t)
    else { s.put EPD_STAT_TEMP (Config.tempOut s.free).toNat with free := s.free + 1 }
  let far (u : Upd) : Bool := u.running && (decide (u.band + 2 < b) || decide (b + 2 < u.band))
  let s := s.disp.upd.foldl (fun s u => if far u then (s.put (EPD_RGNST_TDRIFT u.region) 1).put EPD_STAT_TEMPDRIFT 1 else s) s
  dk s fun d => { d with upd := d.upd.map fun u => if far u then { u with drift := true } else u }

/-- The label temperature is sampled: die temperature and thermistor reading (R353). -/
def epdSample (s : State) (tdie : Int) (raw : Nat) : State :=
  if !s.on EPD_CFG_THSEL then setTemp s tdie
  else
    let r := min raw 4095
    let s := s.put EPD_THRAW_RAW r
    if r = 0 || r = 4095 then setTemp (s.put EPD_STAT_THFAULT 1) tdie
    else
      let k := sgn 8 (s.get EPD_THCFG_K)
      setTemp (s.put EPD_STAT_THFAULT 0) (sgn 8 (s.get EPD_THCFG_T0) + k * ((r : Int) - s.get EPD_THCFG_RAW0) / 64)

/-- SUBSECOND_EDGE (R327, R328, R334, R336, R347, R353): at a second edge both displays sample. The last `soon` writes of the alarms
and the period landed less than 2 LF cycles before. -/
def execSubsecondEdge (tdie : Int) (raw : Nat) (s : State) (soon : Nat := 0) : Host.Outcome State Fault Refusal :=
  if !tdieOk tdie then .fault .outsideOperatingConditions
  else live s (atEdge s soon fun s => match subEdge s with
    | (true, s) => epdSample (vlcdUpdate s tdie) tdie raw
    | (false, s) => s)

/-! ### Regions (R359, R360) -/

/-- The rectangle of a region: x0, y0, x1, y1, inclusive. -/
def rgnRect (s : State) (n : Nat) : Nat × Nat × Nat × Nat :=
  (s.get (EPD_RGNLO_X0 n), s.get (EPD_RGNLO_Y0 n), s.get (EPD_RGNHI_X1 n), s.get (EPD_RGNHI_Y1 n))

/-- Two inclusive rectangles meet. -/
def rectMeet (a b : Nat × Nat × Nat × Nat) : Bool :=
  decide (a.1 ≤ b.2.2.1) && decide (b.1 ≤ a.2.2.1) && decide (a.2.1 ≤ b.2.2.2) && decide (b.2.1 ≤ a.2.2.2) &&
  decide (a.1 ≤ a.2.2.1) && decide (b.1 ≤ b.2.2.1) && decide (a.2.1 ≤ a.2.2.2) && decide (b.2.1 ≤ b.2.2.2)

/-- Region `n`, enabled, overlaps an enabled region of another owner (R359). -/
def rgnClash (s : State) (n : Nat) : Bool :=
  s.on (EPD_RGNOWN_EN n) && (List.range 16).any fun m =>
    m != n && s.on (EPD_RGNOWN_EN m) && s.get (EPD_RGNOWN_PRIN m) != s.get (EPD_RGNOWN_PRIN n) &&
    rectMeet (rgnRect s n) (rgnRect s m)

/-- A write of a region register of region `n` by a principal, where `put'` sets its fields (R359, R360). -/
def writeRegion (s : State) (n tag : Nat) (own : Bool) (put' : State → State) : State :=
  if s.on (EPD_RGNOWN_LOCKED n) || s.disp.upd.any (fun u => u.region == n) then s
  else
    let t := put' s
    if rgnClash t n then epdEvt s 8
    else if own && tag == 8 && t.get (EPD_RGNOWN_PRIN n) == 3 && t.on (EPD_RGNOWN_EN n) then
      dk t fun d => { d with lockDue := d.lockDue ||| 2 ^ n }
    else t

/-- An access to the EPD_ page starts PIX, and SYS, which leads to it (R24 to R26, R64). -/
def pixWake (s : State) : State := demandStart (demandStart s 0) 2

/-- REGION_LOCK (R360): the management controller records a region that FIRMWARE-M gave to OWNER, and locks it; SYS and PIX start
for that (R64). -/
def execRegionLock (n : Nat) (s : State) : Host.Outcome State Fault Refusal :=
  live s (
    if !bitOf s.disp.lockDue n then s
    else
      let a := 0x4000C200 + 32 * n
      let e := (n, s.word a, s.word (a + 4), s.get (EPD_RGNOWN_PRIN n))
      let s := dk s fun d => { d with lockDue := d.lockDue - 2 ^ n, locks := d.locks.filter (fun x => !(x.1 == n)) ++ [e] }
      (pixWake s).put (EPD_RGNOWN_LOCKED n) 1)

/-- Every recorded region is restored and locked (R360). -/
def restoreRegions (s : State) : State :=
  s.disp.locks.foldl (fun s e =>
    let (n, lo, hi, own) := e
    let s := (((s.put (EPD_RGNLO_X0 n) lo).put (EPD_RGNLO_Y0 n) (lo / 2 ^ 16)).put (EPD_RGNHI_X1 n) hi).put
      (EPD_RGNHI_Y1 n) (hi / 2 ^ 16)
    ((s.put (EPD_RGNOWN_PRIN n) own).put (EPD_RGNOWN_EN n) 1).put (EPD_RGNOWN_LOCKED n) 1) s

/-! ### Requests (R361 to R364) -/

/-- A request for region `n` by a principal is allowed (R361). -/
def rgnAllowed (s : State) (n p : Nat) : Bool :=
  let o := s.get (EPD_RGNOWN_PRIN n)
  right s .display p true && (if o = 3 then p == 3 else authority p o)

/-- Bytes of a source image. -/
def imgBytes (w h : Nat) : Nat := h * ((w + 1) / 2)

/-- The source image lies where R362 allows it. -/
def srcOk (s : State) (set a n : Nat) : Bool :=
  let within (lo hi : Nat) : Bool := decide (lo ≤ a) && decide (a + n ≤ hi)
  within 0x10341000 0x1037C000 || (set == 1 && within 0x1037C000 0x10380000) ||
  within (epdBase s + 0x180000) (epdBase s + 0x3C0000)

/-- The timing of R362 holds. -/
def timOk (s : State) : Bool :=
  let h := epdHeight s
  let l := s.get EPD_TIM0_LINE
  let q := epdWidth s / 4
  let f := s.get EPD_TIM1_FRAME
  decide (h * l ≤ f) && decide (q + 16 ≤ l) && decide ((h - 1) * l + q + 1 + epdGpw s ≤ f)

/-- Checks 1 to 4 of R362 on request set `set` by principal `p`. -/
def rqCheck (s : State) (set p : Nat) : Nat :=
  let n := s.get (EPD_RQCTL_REGION set)
  let x := s.get (EPD_RQPOS_X set)
  let y := s.get (EPD_RQPOS_Y set)
  let w := s.get (EPD_RQSIZE_W set)
  let h := s.get (EPD_RQSIZE_H set)
  let (x0, y0, x1, y1) := rgnRect s n
  let inside := decide (x0 ≤ x) && decide (y0 ≤ y) && decide (x + w ≤ x1 + 1) && decide (y + h ≤ y1 + 1)
  if !rgnAllowed s n p then 3
  else if s.on EPD_STAT_STATELOST || s.on EPD_STAT_INITBUSY || !s.on EPD_CFG_EN then 8
  else if w = 0 || h = 0 || !inside || !s.on (EPD_RGNOWN_EN n) || !srcOk s set (s.get (EPD_RQSRC_ADDR set)) (imgBytes w h) ||
    !timOk s then 5
  else if 16 ≤ s.disp.upd.length then 1
  else 0

/-- Two updates' rectangles overlap. -/
def updMeet (a b : Upd) : Bool :=
  decide (a.x < b.x + b.w) && decide (b.x < a.x + a.w) && decide (a.y < b.y + b.h) && decide (b.y < a.y + a.h)

/-- An accepted update waits, where those of the numbers in `w` do (R363). -/
def waitsAmong (s : State) (w : List Nat) (u : Upd) : Bool :=
  u.evwait || s.disp.upd.any fun v =>
    v.id != u.id && updMeet u v &&
    (if u.queue then decide (v.id < u.id)
     else (!v.running && decide (v.id < u.id) && w.contains v.id) || (v.running && v.band != s.get EPD_STAT_BAND))

/-- The numbers of the updates that wait, judged in order of acceptance. -/
def waiting (s : State) : List Nat :=
  s.disp.upd.foldl (fun w u => if !u.running && waitsAmong s w u then w ++ [u.id] else w) []

/-- An accepted update waits (R363). -/
def waits (s : State) (u : Upd) : Bool := waitsAmong s (waiting s) u

/-- The most recent update accepted for its region is `u` (R366). -/
def newestOfRegion (s : State) (u : Upd) : Bool := s.disp.newest.look 0 u.region == u.id + 1
/-- The most recent update accepted from its request set is `u` (R362). -/
def newestOfSet (s : State) (u : Upd) : Bool := s.disp.newest.look 0 (16 + u.set) == u.id + 1

/-- The waiting updates are judged again: EPD_RQSTATs.WAIT follows the newest of each set (R362, R363). -/
def judge (s : State) : State :=
  s.disp.upd.foldl (fun s u =>
    if !u.running && newestOfSet s u then s.put (EPD_RQSTAT_WAIT u.set) (b2n (waits s u)) else s) s

/-- Put an update in place of the one with its number. -/
def setUpd (s : State) (u : Upd) : State := dk s fun d => { d with upd := d.upd.map fun v => if v.id = u.id then u else v }

/-- Set the state a region reports, where the update is its newest (R366). -/
def rgnState (s : State) (u : Upd) (st : Nat) : State := if newestOfRegion s u then s.put (EPD_RGNST_STATE u.region) st else s

/-- A request from a set (R362); a command that made it gives its place and its staged bytes. -/
def epdRequest (s : State) (set p : Nat) (place : Option Nat) (staged : Nat) : Nat × State :=
  let st := rqCheck s set p
  let s := s.put (EPD_RQSTAT_RESULT set) st
  if st != 0 then (st, s)
  else
    let u : Upd :=
      { id := s.disp.nextId, region := s.get (EPD_RQCTL_REGION set), x := s.get (EPD_RQPOS_X set), y := s.get (EPD_RQPOS_Y set)
        w := s.get (EPD_RQSIZE_W set), h := s.get (EPD_RQSIZE_H set), src := s.get (EPD_RQSRC_ADDR set)
        exp := s.get (EPD_RQCRC_EXP set), queue := s.on (EPD_RQCTL_QUEUE set), force := s.on (EPD_RQCTL_FORCE set)
        chk := s.on (EPD_RQCTL_CHK set), evwait := s.on (EPD_RQCTL_EVWAIT set), staged := staged, place := place, set := set
        tag := p, running := false, band := 0, ptr := 0, crc := 0xFFFFFFFF, young := 0, bad := [], floored := false
        drift := false }
    let s := dk s fun d => { d with upd := d.upd ++ [u], nextId := d.nextId + 1 }
    let last (m : Sparse Nat) : Sparse Nat := (m.set 0 u.region (u.id + 1)).set 0 (16 + set) (u.id + 1)
    let s := dk s fun d => { d with newest := last d.newest }
    let s := (s.put (EPD_RQSTAT_WAIT set) (b2n (waits s u))).put (EPD_RGNST_STATE u.region) 2
    match place with
    | some k => if waits s u then (0, reply (setUpd s { u with place := none }) k 0 0 []) else (0, s)
    | none => (0, s)

/-- A write of EPD_RQCTLs by a principal (R362). -/
def writeRqctl (s : State) (set p v : Nat) : State :=
  let s := ((s.put (EPD_RQCTL_REGION set) v).put (EPD_RQCTL_QUEUE set) (v / 16)).put (EPD_RQCTL_FORCE set) (v / 32)
  let s := (s.put (EPD_RQCTL_CHK set) (v / 64)).put (EPD_RQCTL_EVWAIT set) (v / 128)
  (epdRequest s set p none 0).2

/-- The command's status for an engine's result (R367), which names none for CUT: FREE (log entry 66). -/
def rqStatus (s : State) (r : Nat) : Nat :=
  if r = 0x40 || r = 0x42 then 1 else if r = 0x41 then (Config.cutStatus s.free).val else r

/-- A command that waits for an update's admission is answered. -/
def updReply (s : State) (u : Upd) (r : Nat) : State :=
  match u.place with
  | some k =>
    let st := rqStatus s r
    reply { setUpd s { u with place := none } with free := if r = 0x41 then s.free + 1 else s.free } k st 0 []
  | none => s

/-- The newest update of region `n` that has ended did not end by R365: EPD_RGNSTn.MATCH and EPD_RGNCRCn report it (R366), and
no rule gives their values: FREE (log entry 118). -/
def noSum (s : State) (n : Nat) : State :=
  let s := (s.put (EPD_RGNCRC_CRC n) (Config.endSum s.free).toNat).put (EPD_RGNST_MATCH n) (b2n (Config.endMatch s.free))
  { s with free := s.free + 1 }

/-- An update leaves: its staged bytes are wiped and its region reports (R365 to R367). -/
def updLeave (s : State) (u : Upd) (r : Nat) : State :=
  let s := updReply s u r
  let s := if u.staged = 0 then s else wipeSram s u.src ((u.staged + 3) / 4 * 4)
  let s := rgnState s u 0
  let s := if newestOfSet s u then s.put (EPD_RQSTAT_WAIT u.set) 0 else s
  let s := (s.put (EPD_RGNST_RESULT u.region) r).put (EPD_RGNST_TDRIFT u.region) (b2n u.drift)
  dk s fun d => { d with upd := d.upd.filter fun v => !(v.id == u.id) }

/-- An update ends with a result (R365, R366). -/
def updEnd (s : State) (u : Upd) (r : Nat) : State :=
  yieldEv (epdEvt (updLeave (if u.running then releaseBurst s 0 u.id else s) u r) 0) 29

/-- Admission of one update (R364, R351 step 1). One admitted at the frame start after the run's last frame keeps the run going, as
in the chapter's example of a QUEUE update. One that is refused has never run and yields no producer 29 (R282 speaks of updates that
end; DESIGN CHOICE, log entry 121). -/
def admitUpd (s : State) (u : Upd) : State :=
  let (st, s) := burst s 0 (s.get (HRV_CLSAMT_AMOUNT 0)) u.tag u.id
  if st != 0 then epdEvt (updLeave (noSum s u.region) u st) 7
  else
    let y := s.disp.upd.foldl (fun a v => if v.running then max a (v.young + 1) else a) 0
    let u := { u with running := true, band := s.get EPD_STAT_BAND, young := y }
    let s := rgnState (setUpd s u) u 1
    let s := if newestOfSet s u then s.put (EPD_RQSTAT_WAIT u.set) 0 else s
    let s := dk (updReply s u 0) fun d => { d with quiet := false }
    (s.put EPD_STAT_HVON 1).put PWR_DOMSTAT_PIX 1

/-- Some update is ready to be offered. -/
def anyReady (s : State) : Bool := s.disp.upd.any fun u => !u.running && !waits s u

/-- Offer every update that does not wait, in order of acceptance; one that waits has its command answered (R363, R364). -/
def offerAll (s : State) : State :=
  (s.disp.upd.map (·.id)).foldl (fun s i =>
    match s.disp.upd.find? fun u => u.id == i with
    | none => s
    | some u => if u.running then s else if waits s u then updReply s u 0 else admitUpd s u) s

/-- An event of consumer 16 releases every update that waits for one (R363). -/
def epdRelease (s : State) : State := judge (dk s fun d => { d with upd := d.upd.map fun u => { u with evwait := false } })

/-! ### Rails and stops (R351, R352, R368) -/

/-- VCOM for a temperature, in 0.1 mV (R352). -/
def vcomFor (s : State) (t : Int) : Int :=
  let v : Int := -((s.get EPD_VCOM_V0 : Int) * 100) + sgn 8 (s.get EPD_VCOM_VSLOPE) * (t - 25)
  min (max v (-30000)) (-2000)

/-- HVPG_RISE (R351 step 2): without VIO2 the input reads 0 (R444). -/
def execHvpgRise (s : State) : Host.Outcome State Fault Refusal :=
  live s (if s.on EPD_STAT_HVON && !s.disp.hvpg && bitOf s.vio 2 then
      let v := vcomFor s s.disp.temp
      dk s fun d => { d with hvpg := true, vcom := v }
    else s)

/-- Rails off, panel silent (R351 power-down steps 2 and 3). -/
def railsOff (s : State) : State :=
  let off (d : Disp) : Disp :=
    { d with hvpg := false, quiet := false, vcom := 0, dead := [], sent := [], blank := false, part := none, scan := none }
  let s := dk s off
  ((s.put EPD_STAT_SCAN 0).put EPD_STAT_HVON 0).put PWR_DOMSTAT_PIX 0

/-- STATELOST is set (R358). -/
def stateLost (s : State) : State := epdEvt (s.put EPD_STAT_STATELOST 1) 5

/-- HV_TIMEOUT (R351): every update that waits for this run ends with HVFAIL. -/
def execHvTimeout (s : State) : Host.Outcome State Fault Refusal :=
  live s (if s.on EPD_STAT_HVON && !s.disp.hvpg then
      let l := s.disp.upd.filter fun u => u.running
      epdEvt (railsOff (l.foldl (fun s u => updEnd (noSum s u.region) u 0x40) s)) 3
    else s)

/-- An abrupt stop: every update ends with CUT, STATELOST is set, the cut is logged (R351, R368, R434). Each yields producer 29, one
that a reset discards too (R282, R368; DESIGN CHOICE, log entry 121). -/
def epdAbrupt (s : State) : State :=
  let l := s.disp.upd
  if l.isEmpty && !s.on EPD_STAT_HVON then s
  else
    let s := stateLost (railsOff (l.foldl (fun s u => updEnd (noSum s u.region) u 0x41) s))
    if l.isEmpty then s else s.log 0xB l.length 0

/-- HVPG_FALL while SCAN=1 (R368). -/
def execHvpgFall (s : State) : Host.Outcome State Fault Refusal :=
  live s (if s.on EPD_STAT_SCAN then epdEvt (epdAbrupt s) 3 else s)

/-- EPD_POWER_DOWN (R351): the run has ended and its frame of code 0b00 has been sent. -/
def execEpdPowerDown (s : State) : Host.Outcome State Fault Refusal :=
  live s (if s.disp.quiet && s.disp.blank then railsOff s else s)

/-! ### Frames (R355 to R357, R365) -/

/-- A drive code of the waveform of band `b` from level `f` to `t`, phase `k`: none for END (R355, R368). -/
def drive (s : State) (b f t k : Nat) : Option Nat × State :=
  let a := 0x10300000 + 64 * ((b * 16 + f) * 16 + t) + k / 4
  match readWord s .display (a - a % 4) with
  | (none, s) => (none, epdEvt s 2)
  | (some w, s) =>
    let c := w / 256 ^ (a % 4) / 4 ^ (k % 4) % 4
    (if c = 3 then none else some c, s)

/-- The level of column `x` in a row of an update's source image. -/
def levelAt (u : Upd) (row : List Byte) (x : Nat) : Nat :=
  let i := x - u.x
  ((row.getD (i / 2) 0).toNat / 16 ^ (i % 2)) % 16

/-- One pixel of R357: `w` is its state word, `lv` its level in the youngest update `u`. Answers the code sent and the new state
word. -/
def pixel (s : State) (u : Upd) (init : Bool) (lv w : Nat) : Nat × Nat × State :=
  let cur := w % 16
  let tgt := w / 16 % 16
  let ph := w / 256 % 256
  let tgt := if ph = 0 && init then lv else tgt
  if ph = 0 && tgt = cur && !(init && u.force) then (0, cur + tgt * 16, s)
  else
    let (d, s) := drive s u.band cur tgt ph
    let (last, s) := if d.isNone || ph = 255 then (true, s) else
      (match drive s u.band cur tgt (ph + 1) with | (e, s) => (e.isNone, s))
    if last then (d.getD 0, tgt + (if lv != tgt then lv else tgt) * 16, s)
    else (d.getD 0, cur + tgt * 16 + (ph + 1) * 256, s)

/-- Address of a pixel's state word. -/
def pixAddr (s : State) (x y : Nat) : Nat := epdBase s + 2 * (y * epdWidth s + x)

/-- Running updates whose rectangle meets row `y`, oldest first. -/
def rowUpds (s : State) (y : Nat) : List Upd := s.disp.upd.filter fun u => u.running && decide (u.y ≤ y) && decide (y < u.y + u.h)

/-- The youngest of some updates that holds column `x`, with its source row. -/
def youngest (l : List (Upd × List Byte)) (x : Nat) : Option (Upd × List Byte) :=
  l.foldl (fun a e =>
    if e.1.x ≤ x && x < e.1.x + e.1.w then
      (match a with | some b => if b.1.young < e.1.young then some e else some b | none => some e)
    else a) none

/-- Row `y` of an update is late from now on: a word of its source image read uncorrectable (R368). -/
def badRow (s : State) (u : Upd) (y : Nat) : State :=
  dk s fun d => { d with upd := d.upd.map fun v => if v.id = u.id then { v with bad := y :: v.bad } else v }

/-- The source rows of a row's updates: none where a word is uncorrectable (R368). -/
def rowSources (s : State) (y : Nat) : Option (List (Upd × List Byte)) × State :=
  (rowUpds s y).foldl (fun (r : Option (List (Upd × List Byte)) × State) u =>
    let n := (u.w + 1) / 2
    let a := u.src + (y - u.y) * n
    let b := a - a % 4
    match loadBytes r.2 .display b (a % 4 + n) with
    | (some l, s) => (r.1.map fun k => k ++ [(u, l.drop (a % 4))], s)
    | (none, s) => (none, badRow s u y)) (some [], s)

/-- The slot of pixel `x` in row `y`: its code (R357, R368). -/
def pixelSlot (s : State) (l : List (Upd × List Byte)) (y x : Nat) : Nat × State :=
  match youngest l x with
  | none => (0, s)
  | some (u, row) =>
    let a := pixAddr s x y
    let b := a - a % 32
    if s.disp.dead.contains b then (0, s)
    else match readWord s .display (a - a % 4) with
      | (none, s) => (0, dk s fun d => { d with dead := b :: d.dead })
      | (some w, s) =>
        let v := w / 256 ^ (a % 4) % 65536
        let (c, n, s) := pixel s u (decide (y - u.y = u.ptr)) (levelAt u row x) v
        (c, if n = v then s else (dramWrite s .display a 2 n).2)

/-- The source bytes of a row of codes (R350). -/
def sourceBytes (rev : Bool) (l : List Nat) : List Byte :=
  (List.range (l.length / 4)).map fun k =>
    BitVec.ofNat 8 ((List.range 4).foldl (fun b j => b + l.getD (4 * k + j) 0 * 4 ^ (if rev then 3 - j else j)) 0)

/-- A row is initialised by the updates whose pointer stands on it: the pointer moves and the checksum takes the row (R357). -/
def initRow (s : State) (l : List (Upd × List Byte)) (y : Nat) : State :=
  l.foldl (fun s e =>
    let (u, row) := e
    if y - u.y = u.ptr then
      let c := (row.take ((u.w + 1) / 2)).foldl crc32Step u.crc
      dk s fun d => { d with upd := d.upd.map fun v => if v.id = u.id then { v with ptr := v.ptr + 1, crc := c } else v }
    else s) s

/-- A row's source bytes go to the panel. -/
def sendRow (s : State) (y : Nat) (l : List Byte) : State := dk s fun d => { d with sent := d.sent ++ [(y, l)] }

/-- The source bytes of a row whose every pixel is sent 0b00. -/
def zeroRow (s : State) : List Byte := List.replicate (epdWidth s / 4) 0

/-- A row is processed (R357): one with no running update is sent 0b00, and so is a late one, which changes nothing. A row of
which a source word has read uncorrectable is late in every later frame too, without another EPD_EVT.UE (R368; DESIGN CHOICE,
log entry 124). -/
def doRow (s : State) (late : Bool) (y : Nat) : State :=
  let lateRow (s : State) : State := sendRow (epdEvt (s.bump EPD_LATECNT_COUNT 1) 4) y (zeroRow s)
  if (rowUpds s y).isEmpty then sendRow s y (zeroRow s)
  else if late || (rowUpds s y).any (fun u => u.bad.contains y) then lateRow s
  else match rowSources s y with
    | (none, s) => lateRow (epdEvt s 2)
    | (some l, s) =>
      let (cs, s) := (List.range (epdWidth s)).foldl (fun (r : List Nat × State) x =>
        let (c, s) := pixelSlot r.2 l y x
        (r.1 ++ [c], s)) ([], s)
      let b := sourceBytes (s.on EPD_CFG_REV) cs
      initRow (sendRow s y b) l y

/-- A state word shows an idle pixel (R356). -/
def idleWord (w : Nat) : Bool := w / 256 % 256 == 0 && w % 16 == w / 16 % 16

/-- The halfword at `a` of the DRAM as corrected; none in an uncorrectable burst (R189). -/
def stateWord (s : State) (a : Nat) : Option Nat :=
  (rsDecode (burstOf s (a - a % 32))).map fun x => leNat ((x.1.drop (a % 32)).take 2)

/-- The pixel whose state word lies at `a` is idle, or lost to an uncorrectable burst. -/
def wordDone (s : State) (a : Nat) : Bool :=
  s.disp.dead.contains (a - a % 32) || (match stateWord s a with | some w => idleWord w | none => true)

/-- A pixel is idle, or lost to an uncorrectable burst. -/
def pixDone (s : State) (x y : Nat) : Bool := wordDone s (pixAddr s x y)

/-- Pixels of an update that lie on the panel. -/
def updPixels (s : State) (u : Upd) : List (Nat × Nat) :=
  (List.range (min (u.y + u.h) (epdHeight s) - u.y)).flatMap fun j =>
    (List.range (min (u.x + u.w) (epdWidth s) - u.x)).map fun i => (u.x + i, u.y + j)

/-- A running update has come to its end (R365). -/
def updDone (s : State) (u : Upd) : Bool :=
  u.running && decide (min (u.y + u.h) (epdHeight s) - u.y ≤ u.ptr) &&
  (updPixels s u).all fun p => pixDone s p.1 p.2 || s.disp.upd.any fun v =>
    v.running && decide (u.young < v.young) && decide (v.x ≤ p.1) && decide (p.1 < v.x + v.w) && decide (v.y ≤ p.2) &&
    decide (p.2 < v.y + v.h)

/-- An update ends at a frame's end: checksum, match, tly31, reservation, events (R76, R365, R368). With CHK=0 nothing is compared,
and the MATCH that R366 has report this update is FREE (log entry 118). -/
def finishUpd (s : State) (u : Upd) : State :=
  let c := u.crc ^^^ 0xFFFFFFFF
  let s := s.put (EPD_RGNCRC_CRC u.region) c
  let s := if !u.chk then { s.put (EPD_RGNST_MATCH u.region) (b2n (Config.endMatch s.free)) with free := s.free + 1 }
    else if c = u.exp then s.put (EPD_RGNST_MATCH u.region) 1
    else yieldEv (epdEvt (s.put (EPD_RGNST_MATCH u.region) 0) 1) 30
  let s := if u.floored then tallyOwn s 31 1 else s
  let bad := (updPixels s u).any fun p => let a := pixAddr s p.1 p.2; s.disp.dead.contains (a - a % 32)
  updEnd s u (if bad then 0x42 else 0)

/-- The bursts of a segment that can hold anything but zero: those with a listed byte or a listed check byte, and those of a cached
check line. -/
def usedBursts (s : State) (base : Nat) : List Nat :=
  s.mem.filterMap (fun e =>
    if base ≤ e.1 && e.1 < base + 0x3C0000 then some (e.1 - e.1 % 32)
    else if base + 0x3C0000 ≤ e.1 && e.1 < base + 0x400000 then some (base + (e.1 - base - 0x3C0000) / 2 * 32)
    else none) ++
  s.ms.ckl.flatMap fun l => (List.range 16).map fun i => 0x80000000 + 512 * l.line + 32 * i

/-- No pixel of the panel is in flight or pending. -/
def panelIdle (s : State) : Bool :=
  let b := epdBase s
  let n := 2 * epdWidth s * epdHeight s
  (usedBursts s b).all fun r => (List.range 16).all fun i =>
    let a := r + 2 * i
    !(decide (b ≤ a) && decide (a < b + n)) || wordDone s a

/-- The end of a frame: finished updates end, and the run with them (R365, R368). -/
def frameEnd (s : State) : State :=
  let l := s.disp.upd.filter fun u => updDone s u
  let s := l.foldl finishUpd s
  if s.disp.upd.any (fun u => u.running) || !panelIdle s then s
  else
    let s := if s.disp.dead.isEmpty then s else stateLost s
    dk s fun d => { d with quiet := true, dead := [] }

/-- Rows `k` to `k + n - 1` of the frame in progress. -/
def frameRows (s : State) (late : List Nat) (k n : Nat) : State :=
  (List.range n).foldl (fun s i => doRow s (late.contains (k + i)) (k + i)) s

/-- The frame in progress runs from row `k` to its end. -/
def finishFrame (s : State) (late : List Nat) (k : Nat) : State :=
  let s := frameRows s late k (epdHeight s - k)
  frameEnd (dk s fun d => { d with part := none })

/-- How the port scans a row (R350). -/
def epdScan (s : State) : EpdScan :=
  ⟨s.get EPD_TIM0_LINE, epdWidth s / 4, epdWidth s / 4, epdGpw s, s.get EPD_TIM1_FRAME⟩

/-- A frame starts (R351, R357, R363): after the run's end it has every code 0b00; else it runs to its end, or to the end of row
`upto`. -/
def startFrame (s : State) (late : List Nat) (upto : Option Nat) : State :=
  let s := judge ((dk s fun d => { d with sent := [], scan := some (epdScan s) }).put EPD_STAT_SCAN 1)
  if s.disp.quiet then
    let z := (List.range (epdHeight s)).map fun y => (y, zeroRow s)
    dk s fun d => { d with sent := z, blank := true }
  else
    let s := demandStart (dramWait s (epdBase s)) 0
    match upto with
    | none => finishFrame s late 0
    | some k =>
      let n := min (k + 1) (epdHeight s)
      dk (frameRows s late 0 n) fun d => { d with part := some (n, late) }

/-- EPD_FRAME_START (R351, R357, R365): the rest of a frame in progress runs first. `late` names the rows whose words were not
ready in time; `upto` is the row in progress when the next command comes, which an abrupt stop ends: none for a frame that runs
whole. -/
def execEpdFrameStart (late : List Nat) (s : State) (upto : Option Nat := none) : Host.Outcome State Fault Refusal :=
  live s (
    if !s.on EPD_STAT_HVON || !s.disp.hvpg then s
    else
      let s := match s.disp.part with
        | some (k, l) => finishFrame s l k
        | none => s
      startFrame s late upto)

/-- EPD_ADMISSION (R353, R363, R364): updates that do not wait are offered, after a temperature sample. With SCAN=1 that is at a
frame start, so the frame in progress first runs to its end; while the closing frame is sent none is offered before the
power-down (R351). -/
def execEpdAdmission (tdie : Int) (raw : Nat) (s : State) : Host.Outcome State Fault Refusal :=
  if !tdieOk tdie then .fault .outsideOperatingConditions
  else live s (
    let s := match s.disp.part with
      | some (k, l) => finishFrame s l k
      | none => s
    if s.disp.blank || !anyReady s then s else judge (offerAll (epdSample s tdie raw)))

/-! ### INIT and state confirmation (R358, R369) -/

/-- A write of EPD_INIT. -/
def writeEpdInit (s : State) (v : Nat) : State :=
  let s := s.put EPD_INIT_LEVEL v
  if bitOf v 8 && s.disp.upd.isEmpty then s.put EPD_STAT_INITBUSY 1 else s

/-- Every state word set to one level (R358): whole bursts with their check bytes, of which nothing is read first, then what is
left, as a store of part of a burst (DESIGN CHOICE, log entry 106). -/
def initState (s : State) : State :=
  let l := s.get EPD_INIT_LEVEL
  let b := epdBase s
  let s := ckDrop (ckFlush (dramWait s b)) (s.get EPD_CFG_SEG)
  let n := epdWidth s * epdHeight s
  let two : List Byte := [BitVec.ofNat 8 (17 * l), 0]
  let k := n / 16
  let (c0, c1) := rsCheck (List.replicate 16 two).flatten
  let chk : List Byte := [BitVec.ofNat 8 c0, BitVec.ofNat 8 c1]
  let s := (s.fill b (List.replicate (16 * k) two).flatten).fill (checkAddr b) (List.replicate k chk).flatten
  (List.range (n % 16)).foldl (fun s i => (dramWrite s .display (b + 2 * (16 * k + i)) 2 (17 * l)).2) s

/-- EPD_INIT_DONE (R358). -/
def execEpdInitDone (s : State) : Host.Outcome State Fault Refusal :=
  live s (if s.on EPD_STAT_INITBUSY then
      epdEvt (((initState s).put EPD_STAT_INITBUSY 0).put EPD_STAT_STATELOST 0) 6
    else s)

/-- A write of EPD_CTL (R358, R369). -/
def writeEpdCtl (s : State) (v : Nat) : State :=
  if bitOf v 0 && !s.on EPD_STAT_INITBUSY then s.put EPD_STAT_STATELOST 0 else s

/-! ### Resets and commands -/

/-- Management, watchdog or software reset of the display engine (R349, R360, R368). -/
def epdReset (s : State) : State :=
  let s := epdAbrupt s
  let s := s.resetPage 0x4000C000 []
  restoreRegions (dk s fun d => { d with upd := [], newest := [], lockDue := 0, temp := 0 })

/-- DISPLAY_STATUS (R278, R366). R366 has it return RESULT too, for which R278 names no byte: it stands in byte 6, which no field of
the reply takes (DESIGN CHOICE, log entry 118). -/
def execDisplayStatus (place : Nat) (s : State) : Host.Outcome State Fault Refusal :=
  live s (runOp s place 0x50 fun s p l =>
    let n := pf l 0 1
    orGo s place (gate (right s .display p false) (l.length == 4) (n < 16 && pf l 1 3 == 0)) fun s =>
      let d := [s.get (EPD_RGNST_STATE n), s.get (EPD_RGNST_MATCH n) + 2 * s.get (EPD_RGNST_TDRIFT n), s.get (EPD_RGNST_RESULT n), 0]
      reply (pixWake s) place 0 0 (d.map (BitVec.ofNat 8 ·) ++ leBytes 4 (s.get (EPD_RGNCRC_CRC n))))

/-- Room for `n` bytes in the management staging area: the lowest offset free (R341, R367). -/
def stageRoom (s : State) (n : Nat) : Option Nat :=
  let used := (s.disp.upd.filter fun u => u.staged != 0).map fun u => (u.src, u.src + (u.staged + 3) / 4 * 4)
  let m := (n + 3) / 4 * 4
  let fits (a : Nat) : Bool := decide (a + m ≤ 0x10380000) && used.all fun r => decide (a + m ≤ r.1) || decide (r.2 ≤ a)
  ((0x1037C000 :: used.map (·.2)).filter fits).min?

/-- The image of a DISPLAY_REGION_UPDATE: none with a status where it cannot be had (R367). -/
def stageImage (s : State) (l : List Byte) (src n : Nat) : (Nat ⊕ List Byte) × State :=
  match src with
  | 0 => (if l.length = 20 + n then .inr (l.drop 20) else .inl 4, s)
  | 1 =>
    let a := pf l 16 4
    if nvAsset a == .recipes && nvAsset (a + n - 1) == .recipes then
      (match loadBytes (busTurn s a) .mgmt (a - a % 4) (a % 4 + n) with
       | (some d, s) => (.inr (d.drop (a % 4)), s)
       | (none, s) => (.inl (Config.ueStatus s.free).val, { s with free := s.free + 1 }))
    else (.inl 5, s)
  | _ =>
    let (g, s) := recSelect s .mgmt (pf l 16 4)
    if g.norec && g.ue then (.inl (Config.ueStatus s.free).val, { s with free := s.free + 1 })
    else if g.norec || g.len < n then (.inl 5, s)
    else (.inr (g.pay.take n), s)

/-- DISPLAY_REGION_UPDATE (R278, R367, R384). The staging area and the EPD_ page start the domains they lie in (R25, R64). -/
def execDisplayRegionUpdate (place : Nat) (s : State) : Host.Outcome State Fault Refusal :=
  live s (runOp s place 0x4F fun s p l =>
    let r := pf l 0 1
    let fl := pf l 1 1
    let src := bitsOf fl 1 2
    let rec' := pf l 16 4
    let rgt := right s .display p true && (16 ≤ r || rgnAllowed s r p) &&
      (match src with | 1 => right s .recipes p false | 2 => right s (recAsset rec') p false | _ => true)
    let x := pf l 4 2
    let y := pf l 6 2
    let w := pf l 8 2
    let h := pf l 10 2
    let par := r < 16 && fl < 8 && src != 3 && pf l 2 2 == 0 && x < 2048 && y < 1024 && w < 2048 && h < 1024
    let len := if src = 0 then l.length == 20 + imgBytes w h else l.length == 20
    let st := gateBy (2 ≤ l.length && (src != 2 || 20 ≤ l.length)) (src != 2 || rec' < 128) rgt len par
    orGo s place st fun s =>
      match stageImage s l src (imgBytes w h) with
      | (.inl st, s) => reply s place st 0 []
      | (.inr d, s) =>
        match stageRoom s d.length with
        | none => reply s place 1 0 []
        | some a =>
          let s := pixWake (linkStore (demandStart s 0) .mgmt a d)
          let s := (((s.put (EPD_RQPOS_X 1) x).put (EPD_RQPOS_Y 1) y).put (EPD_RQSIZE_W 1) w).put (EPD_RQSIZE_H 1) h
          let s := ((s.put (EPD_RQSRC_ADDR 1) a).put (EPD_RQCRC_EXP 1) (pf l 12 4)).put (EPD_RQCTL_REGION 1) r
          let s := ((s.put (EPD_RQCTL_QUEUE 1) fl).put (EPD_RQCTL_FORCE 1) 0).put (EPD_RQCTL_CHK 1) 1
          match epdRequest (waitPlace (s.put (EPD_RQCTL_EVWAIT 1) 0) place) 1 p (some place) d.length with
          | (0, s) => s
          | (st, s) => reply (wipeSram s a ((d.length + 3) / 4 * 4)) place st 0 [])

end Sys2Proof.Machine
end

