-- ==== Sys2Proof/Machine/Touch.lean ====
section
/-! DEFINITION. The touch front end (ch. 14). -/

namespace Sys2Proof.Machine

open Sys2Proof

/-! ### Roles, nodes, thresholds (R370, R372) -/

/-- A channel at rest. -/
def tch0 : Tch := ⟨0, 0, 0, 0, none, (0, 0), 0, 0, 0, 0⟩

/-- Channel `n`. -/
def tchAt (s : State) (n : Nat) : Tch := s.tch.ch.getD n tch0

/-- Update the sequencer. -/
def uk (s : State) (f : Touch → Touch) : State := { s with tch := f s.tch }

/-- Change channel `n`. -/
def setTch (s : State) (n : Nat) (c : Tch) : State := uk s fun t => { t with ch := t.ch.set n c }

/-- Set a TCH_EVT flag. -/
def tchEvt (s : State) (b : Nat) : State := s.setFlag 0x4000D020 b

/-- Pins of a role, ascending. -/
def rolePins (s : State) (r : Nat) : List Nat := (List.range 16).filter fun n => s.get (TCH_PINCFG_ROLE n) == r

/-- X pins by x. -/
def xPins (s : State) : List Nat := (rolePins s 1).take 8
/-- Y pins by y. -/
def yPins (s : State) : List Nat := (rolePins s 2).take 8

/-- A channel is not off: a ninth or later X or Y pin acts as off (R370). -/
def roleOn (s : State) (n : Nat) : Bool := s.get (TCH_PINCFG_ROLE n) == 3 || (xPins s).contains n || (yPins s).contains n

/-- After a write of TCH_PINCFG (R370). -/
def afterPincfg (s : State) : State :=
  if 8 < (rolePins s 1).length || 8 < (rolePins s 2).length then tchEvt s 5 else s

/-- SELF in force. -/
def thSelf (s : State) : Nat := max 1 s.tch.thr.1
/-- MUT in force. -/
def thMut (s : State) : Nat := max 1 s.tch.thr.2
/-- MAXON in ms. -/
def maxOn (s : State) : Nat := 1000 * max 1 s.tch.sec
/-- Pin `n` is dropped since the last pass boundary (R379). -/
def dropIn (s : State) (n : Nat) : Bool := bitOf s.tch.drop n

/-- The self pass of the pair in progress does not measure pin `n` (R371, R379). -/
def selfDropped (s : State) (n : Nat) : Bool := bitOf s.tch.selfDrop n

/-- A pass boundary: the bits of TCH_DROP take effect (R379, R381). -/
def passBound (s : State) : State := uk s fun t => { t with drop := s.get TCH_DROP_DROP }

/-- A pair starts with its self pass: TCH_THR, TCH_MAXON and TCH_DROP are taken as they stand (R371, R379, R381). -/
def pairBegin (s : State) : State :=
  let thr := (s.get TCH_THR_SELF, s.get TCH_THR_MUT)
  let d := s.get TCH_DROP_DROP
  uk s fun t => { t with pair := true, thr := thr, sec := s.get TCH_MAXON_SEC, drop := d, mutPass := false, selfDrop := d }

/-- The self pass ends and the mutual pass of the pair starts (R371, R379). -/
def mutualBegin (s : State) : State := uk (passBound s) fun t => { t with mutPass := true }

/-- The pins of node `m`. -/
def nodePins (s : State) (m : Nat) : Option (Nat × Nat) :=
  match (xPins s)[m / 8]?, (yPins s)[m % 8]? with
  | some x, some y => some (x, y)
  | _, _ => none

/-- Node `m` is measured: both pins stand and neither is dropped (R371, R379). -/
def nodeOn (s : State) (m : Nat) : Bool :=
  match nodePins s m with | some (x, y) => !dropIn s x && !dropIn s y | none => false

/-- Nodes on the line of pin `n`. -/
def lineNodes (s : State) (n : Nat) : List Nat :=
  (List.range 64).filter fun m => match nodePins s m with | some (x, y) => x == n || y == n | none => false

/-- The mutual delta of node `m`; none while it is not measured or has no baseline (R372, R377). -/
def nodeDelta (s : State) (m : Nat) : Option Int :=
  if nodeOn s m && bitOf s.tch.nbase m then some ((s.get (TCH_NODE_COUNT m) : Int) - s.get (TCH_NODE_MBASE m)) else none

/-- The lowest of two deltas that may be missing. -/
def optMin (a b : Option Int) : Option Int :=
  match a, b with | some x, some y => some (min x y) | some x, none => some x | none, y => y

/-- The mutual delta of a channel: the lowest among its measured nodes (R372). -/
def chanMut (s : State) (n : Nat) : Option Int :=
  (lineNodes s n).foldl (fun a m => optMin a (nodeDelta s m)) none

/-- A mutual delta of −MUT or less, for a channel that has a matrix role; with no measured node it is FREE. -/
def mutLow (s : State) (n : Nat) : Bool :=
  match chanMut s n with
  | some d => decide (d ≤ -(thMut s : Int))
  | none => Config.noNode (s.free + n)

/-- R372: the result of channel `n` for a self delta: 0 none, 1 finger, 2 water. -/
def tchResult (s : State) (n : Nat) (d : Int) : Nat :=
  if d < (thSelf s : Int) then 0
  else if s.get (TCH_PINCFG_ROLE n) = 3 || mutLow s n then 1 else 2

/-! ### States -/

/-- TCH_STATE follows the channels (R373). -/
def tchState (s : State) : State :=
  let is (k : Nat) : Nat := maskOf 16 fun n => s.get (TCH_CHST_STATE n) == k
  (s.put TCH_STATE_TOUCHED (is 3)).put TCH_STATE_WET (is 4)

/-- Channel `n` enters a state: its counts start afresh. -/
def enter (s : State) (n st : Nat) : State :=
  setTch (s.put (TCH_CHST_STATE n) st) n { tchAt s n with run := 0, cnt := 0, ms := 0 }

/-- Set the self baseline of channel `n`, and the mutual baselines of the nodes on its line that a test picks, to the counts of
this pair. -/
def rebase (s : State) (n : Nat) (p : Nat → Bool) : State :=
  let s := s.put (TCH_CHBASE_SBASE n) (s.get (TCH_CHST_SELF n))
  ((lineNodes s n).filter fun m => p m && nodeOn s m).foldl (fun s m =>
    let s := s.put (TCH_NODE_MBASE m) (s.get (TCH_NODE_COUNT m))
    if bitOf s.tch.nbase m then s else uk s fun t => { t with nbase := t.nbase + 2 ^ m }) s

/-- The return from STUCK, or in its stead (R375, R381). -/
def unstick (s : State) (n : Nat) : State := tchEvt (enter (rebase s n fun _ => true) n 2) 2

/-- One count toward a value. -/
def toward (b c : Nat) : Nat := if b < c then b + 1 else if c < b then b - 1 else b

/-- The counts of a pair are taken: every channel and node that is measured (R371, R379). -/
def takeCounts (s : State) (sc mc : List Nat) : State :=
  let s := (List.range 16).foldl (fun s n =>
    if roleOn s n && !selfDropped s n then s.put (TCH_CHST_SELF n) (sc.getD n 0) else s) s
  (List.range 64).foldl (fun s m => if nodeOn s m then s.put (TCH_NODE_COUNT m) (mc.getD m 0) else s) s

/-- The new state of a channel by its result and the run of it, when DEB pairs gave it (R373). -/
def debounced (st r : Nat) : Nat :=
  match st, r with
  | 2, 1 => 3 | 2, 2 => 4 | 4, 1 => 3 | 3, 2 => 4 | 3, 0 => 2 | 4, 0 => 2 | _, _ => st

/-- An UNARMED channel at the end of a pair of `ms` (R377). -/
def unarmedStep (s : State) (n ms : Nat) : State :=
  let c := tchAt s n
  let x := s.get (TCH_CHST_SELF n)
  if c.prev.isNone || thSelf s < 4 * (max x c.win.1 - min x c.win.1) then setTch s n { c with win := (x, 0), prev := some x }
  else if c.win.2 + ms < 2000 then setTch s n { c with win := (c.win.1, c.win.2 + ms), prev := some x }
  else
    let s := rebase (setTch s n { c with prev := some x }) n fun _ => true
    tchEvt ((enter s n 2).put (TCH_CHST_PROV n) 1) 6

/-- An IDLE, TOUCHED, WET or STUCK channel at the end of a pair (R373, R375, R377, R381): `r` is its result and `low` whether its
mutual delta is −MUT or less. -/
def armedStep (s : State) (n ms r : Nat) (low : Bool) : State :=
  let c := tchAt s n
  let x := s.get (TCH_CHST_SELF n)
  let st := s.get (TCH_CHST_STATE n)
  let rel := match c.prev with | some p => decide (x + thSelf s ≤ p) | none => false
  let run := if r = c.last then c.run + 1 else 1
  let c := { c with last := r, run := run, prev := some x, ms := c.ms + ms, cnt := c.cnt + 1 }
  let s := setTch s n c
  let prov := rel && s.on (TCH_CHST_PROV n)
  let s :=
    if st = 5 then (if rel || (maxOn s ≤ c.ms && !low) then unstick s n else s)
    else if st = 3 && maxOn s ≤ c.ms then (if rel then unstick s n else tchEvt (enter s n 5) 1)
    else if max 1 (s.get TCH_CFG_DEB) ≤ run && debounced st r != st then enter s n (debounced st r)
    else s
  if prov then (rebase s n fun _ => true).put (TCH_CHST_PROV n) 0 else s

/-- The result of channel `n` in a pair, and whether its mutual delta is −MUT or less, from the pair's own deltas (R372, R375). -/
def pairResult (s : State) (n : Nat) : Nat × Bool :=
  (tchResult s n ((s.get (TCH_CHST_SELF n) : Int) - s.get (TCH_CHBASE_SBASE n)), s.get (TCH_PINCFG_ROLE n) != 3 && mutLow s n)

/-- Channel `n` enters DROPPED (R373, R379). -/
def toDropped (s : State) (n : Nat) : State :=
  setTch (s.put (TCH_CHST_STATE n) 6) n { tchAt s n with saved := s.get (TCH_CHST_STATE n) }

/-- One channel at the end of a pair: DROPPED comes and goes with its bit (R373), and one that leaves it in a pair that measured
it counts that pair's self pass for its next release step (R375); an UNARMED one starts a new window at that count (R377). A pin
dropped at a boundary within the pair, be its bit cleared since, gets no result and enters DROPPED; one dropped at the pair's
end enters it after the pair's result (R379, R381). -/
def tchStep (ms : Nat) (s : State) (e : Nat × Nat × Bool) : State :=
  let n := e.1
  let st := s.get (TCH_CHST_STATE n)
  if st = 0 then s
  else if st = 6 then
    let c := tchAt s n
    if s.bit TCH_DROP_DROP n then s
    else
      let x := if selfDropped s n then none else some (s.get (TCH_CHST_SELF n))
      setTch (s.put (TCH_CHST_STATE n) c.saved) n { c with run := 0, ms := 0, prev := x, win := (s.get (TCH_CHST_SELF n), 0) }
  else if selfDropped s n || dropIn s n then toDropped s n
  else
    let s := if st = 1 then unarmedStep s n ms else armedStep s n ms e.2.1 e.2.2
    if s.bit TCH_DROP_DROP n then toDropped s n else s

/-- Baselines track (R374): those of IDLE channels after every 2^TRACK pairs in IDLE; a node's while both its pins are IDLE,
counted from the later of them. A channel that was not IDLE in `old`, before the pair, has not counted it. -/
def track (old s : State) : State :=
  let k := 2 ^ s.get TCH_CFG_TRACK
  let idle (s : State) (n : Nat) : Bool := s.get (TCH_CHST_STATE n) == 2 && old.get (TCH_CHST_STATE n) == 2
  let due (c : Nat) : Bool := c != 0 && c % k == 0
  let s := (List.range 16).foldl (fun s n =>
    if idle s n && due (tchAt s n).cnt then
      s.put (TCH_CHBASE_SBASE n) (toward (s.get (TCH_CHBASE_SBASE n)) (s.get (TCH_CHST_SELF n)))
    else s) s
  (List.range 64).foldl (fun s m =>
    match nodePins s m with
    | some (x, y) =>
      if nodeOn s m && idle s x && idle s y && due (min (tchAt s x).cnt (tchAt s y).cnt) then
        s.put (TCH_NODE_MBASE m) (toward (s.get (TCH_NODE_MBASE m)) (s.get (TCH_NODE_COUNT m)))
      else s
    | none => s) s

/-- The node with the lowest mutual delta at −MUT or less, ties to the lowest node (R376). -/
def strongest (s : State) : Option (Nat × Int) :=
  (List.range 64).foldl (fun b m =>
    match nodeDelta s m with
    | some d => if d ≤ -(thMut s : Int) && (match b with | some (_, e) => decide (d < e) | none => true) then some (m, d) else b
    | none => b) none

/-- TCH_STRONG after a pair (R376). -/
def writeStrong (s : State) : State :=
  match strongest s with
  | some (m, d) =>
    (((s.put TCH_STRONG_X (m / 8)).put TCH_STRONG_Y (m % 8)).put TCH_STRONG_VALID 1).put TCH_STRONG_DELTA (unsgn 16 d)
  | none => s.put TCH_STRONG_VALID 0

/-- A report (R376, R62). -/
def tchReport (s : State) : State := wakeSource (yieldEv (tchEvt s 0) 31) 7

/-- The report of a pair: made when a bit of TCH_STATE changed, or when it is due anyway (R376, R377). -/
def reportIf (s : State) (was : Nat) (anyway : Bool) : State :=
  let s := tchState s
  if anyway || s.word 0x4000D01C != was then tchReport s else s

/-- A pair ends (R371 to R376). -/
def pairEnd (s : State) (sc mc : List Nat) (ms : Nat) : State :=
  let was := s.word 0x4000D01C
  let s := takeCounts s sc mc
  let res := (List.range 16).map fun n => (n, pairResult s n)
  let old := writeStrong s
  let s := res.foldl (tchStep ms) old
  let s := reportIf (track old s) was false
  { passBound (uk s fun t => { t with pair := false, mutPass := false }) with free := s.free + 16 }

/-! ### Starting (R377) -/

/-- Read the factory table under the MAKER tag: its words when it is valid. -/
def factoryTable (s : State) : Option (List Nat) × State :=
  if !right s .calib 2 false then (none, s)
  else
    let (l, s) := (List.range 43).foldl (fun (x : Option (List Nat) × State) i =>
      let a := 0x200DFF00 + 4 * i
      let (w, s) := nvRead (nvWait x.2 a) .dap a
      (match x.1, w with | some l, some v => some (l ++ [v]) | _, _ => none, s)) (some [], s)
    match l with
    | some l =>
      if l.getD 0 0 = 0x54424C31 && l.getD 2 0 = crc32 ((l.drop 3).flatMap (leBytes 4)) then (some l, s) else (none, s)
    | none => (none, s)

/-- Halfword `i` after the third word. -/
def facHalf (l : List Nat) (i : Nat) : Nat := l.getD (3 + i / 2) 0 / 2 ^ (16 * (i % 2)) % 65536

/-- Pin `n` has a stored baseline. -/
def stored (l : Option (List Nat)) (n : Nat) : Bool := match l with | some l => bitOf (l.getD 1 0) n | none => false

/-- Baselines of the factory table are taken: pins by their mask bits, nodes by both pins. -/
def loadFactory (s : State) (l : List Nat) : State :=
  let s := (List.range 16).foldl (fun s n =>
    if stored (some l) n then s.put (TCH_CHBASE_SBASE n) (facHalf l n) else s) s
  (List.range 64).foldl (fun s m =>
    match nodePins s m with
    | some (x, y) =>
      if stored (some l) x && stored (some l) y then
        uk (s.put (TCH_NODE_MBASE m) (facHalf l (16 + m))) fun t => { t with nbase := t.nbase + 2 ^ m }
      else s
    | none => s) s

/-- The start decides one channel (R377): its state after the pair. A channel dropped at a boundary was not measured. -/
def startState (s : State) (l : Option (List Nat)) (n : Nat) : Nat :=
  if !roleOn s n then 0
  else if selfDropped s n || dropIn s n then 6
  else if stored l n then
    match tchResult s n ((s.get (TCH_CHST_SELF n) : Int) - s.get (TCH_CHBASE_SBASE n)) with | 1 => 3 | 2 => 4 | _ => 2
  else 1

/-- The start decides every channel (R377). Baselines of a TOUCHED or WET channel's nodes are kept. A channel whose pin was dropped
in the mutual pass is decided, and enters DROPPED then (R379). -/
def startDecide (s : State) (sc mc : List Nat) : State :=
  let was := s.word 0x4000D01C
  let (l, s) := factoryTable s
  let s := uk (s.put TCH_STAT_FBASE (b2n l.isSome)) fun t => { t with nbase := 0, starting := false, pair := false, mutPass := false }
  let s := match l with | some l => loadFactory s l | none => s
  let s := writeStrong (takeCounts s sc mc)
  let sts := (List.range 16).map (startState s l)
  let busy (n : Nat) : Bool := sts.getD n 0 == 3 || sts.getD n 0 == 4
  let free' (s : State) (m : Nat) : Bool := match nodePins s m with | some (x, y) => !busy x && !busy y | none => false
  let s := (List.range 16).foldl (fun s n =>
    let st := sts.getD n 0
    let x := s.get (TCH_CHST_SELF n)
    let c := { tch0 with prev := if st = 0 || st = 6 then none else some x, win := (x, 0), saved := 1 }
    let s := setTch (((s.put (TCH_CHST_STATE n) st).put (TCH_CHST_TAS n) (b2n (st == 3))).put (TCH_CHST_PROV n) 0) n c
    let s := if st = 2 then rebase s n (free' s) else if st = 3 then tchEvt s 3 else s
    if s.bit TCH_DROP_DROP n && st != 0 && st != 6 then toDropped s n else s) s
  let s := passBound (reportIf s was (sts.contains 3))
  { s with free := s.free + 16 }

/-- EN goes from 0 to 1 (R377): the start pair runs. -/
def tchStart (s : State) : State :=
  let s := pairBegin (s.put TCH_STAT_RUN (b2n !s.tch.halted))
  uk s fun t => { t with pair := !t.halted, starting := true, queued := false }

/-- EN goes to 0: every channel is OFF (R373). -/
def tchStop (s : State) : State :=
  let s := uk (s.put TCH_STAT_RUN 0) fun t => { t with pair := false, starting := false, queued := false, mutPass := false }
  tchState ((List.range 16).foldl (fun s n => s.put (TCH_CHST_STATE n) 0) s)

/-- A write of TCH_CFG (R371, R373, R377). -/
def writeTchCfg (s : State) (v : Nat) : State :=
  let was := s.on TCH_CFG_EN
  let s := ((s.put TCH_CFG_EN v).put TCH_CFG_MODE (v / 2)).put TCH_CFG_DEB (v / 2 ^ 4)
  let s := (s.put TCH_CFG_TRACK (v / 2 ^ 8)).put TCH_CFG_PERIOD (v / 2 ^ 16)
  if bitOf v 0 && !was then tchStart s else if !bitOf v 0 && was then tchStop s else s

/-! ### Commands -/

/-- The sequencer has answered a sleep request: no further pass starts (R52, R381). -/
def tchHeld (s : State) : Bool := s.pwr.entry.any fun e => e.answered

/-- Pairs may run: enabled, and not stopped for Basalt or by a hold that has been answered (R22, R52, R380). -/
def pairsRun (s : State) : Bool := s.on TCH_CFG_EN && !s.tch.halted && !tchHeld s

/-- TOUCH_PAIR_START (R371): a pair starts by mode; by event only where an event of consumer 17 waits. With `mutPass` the mutual
pass of the running pair starts (R379, R381); a pair that ends without it took no write of TCH_DROP in its self pass. -/
def execTouchPairStart (s : State) (mutPass : Bool := false) : Host.Outcome State Fault Refusal :=
  live s (if mutPass then (if s.tch.pair && !s.tch.mutPass && !tchHeld s then mutualBegin s else s)
    else if !pairsRun s || s.tch.pair || (s.get TCH_CFG_MODE = 2 && !s.tch.queued && !s.tch.starting) then s
    else uk (pairBegin s) fun t => { t with queued := false })

/-- TOUCH_PAIR_END (R371 to R377): the running pair ends with its counts, `ms` of LF time after the last. -/
def execTouchPairEnd (sc mc : List Nat) (ms : Nat) (s : State) : Host.Outcome State Fault Refusal :=
  live s (if !s.tch.pair then s else if s.tch.starting then startDecide s sc mc else pairEnd s sc mc ms)

/-- An event reaches consumer 17 (R371): one pair starts when no pair runs. -/
def tchEvent (s : State) : State :=
  if s.on TCH_CFG_EN && s.get TCH_CFG_MODE = 2 then uk s fun t => { t with queued := true } else s

/-- The sequencer acknowledges a hold (R52, R380, R381): a self pass not followed by its mutual pass is given up; on the way to
Basalt full pairs stop and the wake scan starts. -/
def tchHold (s : State) (basalt : Bool) : State :=
  let s := passBound (uk s fun t => { t with pair := false, mutPass := false })
  if !basalt then s
  else
    let l := (List.range 16).map fun n => { tchAt s n with hit := 0, wbase := s.get (TCH_CHBASE_SBASE n), wcnt := 0 }
    let s := uk s fun t => { t with ch := l, halted := true }
    (s.put TCH_STAT_RUN 0).put TCH_STAT_WSCAN (b2n (s.get TCH_WAKE_SLOTEN != 0))

/-- At wake from Basalt the wake scan stops and full pairs resume, with their counts started afresh (R380); the last pair before
it and the window of an UNARMED channel stand (R375, R376). -/
def tchWake (s : State) : State :=
  if !s.tch.halted then s
  else
    let l := (List.range 16).map fun n =>
      { tchAt s n with run := 0, hit := 0 }
    let s := uk s fun t => { t with ch := l, halted := false }
    (s.put TCH_STAT_RUN (s.get TCH_CFG_EN)).put TCH_STAT_WSCAN 0

/-- Any reset (R22, R381): every field at its reset value. -/
def tchReset (s : State) : State :=
  { s.resetPage 0x4000D000 [] with tch := State.reset.tch }

/-- One sample of one pin (R380). -/
def wakeSample (s : State) (n v : Nat) : State :=
  let c := tchAt s n
  if c.wbase + max 1 (s.get TCH_WAKE_TH) ≤ v then
    let t := setTch s n { c with hit := min 2 (c.hit + 1) }
    if c.hit = 0 then t else wakeSource (yieldAt (tchEvt t 4) 32 (aLevel s 32)) 7
  else if c.wcnt = 63 then setTch s n { c with hit := 0, wcnt := 0, wbase := toward c.wbase v }
  else setTch s n { c with hit := 0, wcnt := c.wcnt + 1 }

/-- The wake scan samples pin `n` (R380): an enabled slot names it, and it is not off, dropped or UNARMED. -/
def wakePin (s : State) (n : Nat) : Bool :=
  ((List.range 4).any fun j => s.bit TCH_WAKE_SLOTEN j && s.get (TCH_WAKE_PIN j) == n) &&
  !s.bit TCH_DROP_DROP n && !([0, 1, 6].contains (s.get (TCH_CHST_STATE n)))

/-- WAKE_SCAN_SAMPLE (R380): the pins of the enabled slots, each once. -/
def execWakeScanSample (sc : List Nat) (s : State) : Host.Outcome State Fault Refusal :=
  live s (
    if !s.on TCH_STAT_WSCAN then s
    else ((List.range 16).filter (wakePin s)).foldl (fun s n => wakeSample s n (sc.getD n 0 % 65536)) s)

end Sys2Proof.Machine
end

