-- ==== Sys2Proof/Machine/Secrecy.lean ====
section
/-! DEFINITION. Keys, sessions, authenticated debug, the image check, services and the tamper wipe (ch. 15). -/

namespace Sys2Proof.Machine

open Sys2Proof

/-! ### Keys (R392 to R394) -/

/-- The four ASCII bytes of a label (R392). -/
def label (a b c d : Nat) : List Byte := [a, b, c, d].map (BitVec.ofNat 8 ·)

/-- DEVID as 8 bytes (R393). -/
def devidBytes (s : State) : List Byte := leBytes 8 s.sec.devid

/-- A principal that has a key slot. -/
def slotted (p : Nat) : Bool := decide (1 ≤ p ∧ p ≤ 4)

/-- The salt of a claimed slot (R394). -/
def saltOf (s : State) (p : Nat) : Option (List Byte) := if slotted p then s.sec.slots.getD (p - 1) none else none

/-- A key of principal `p` derived from the device secret: DXPK or DXSL (R393). -/
def secretKey (s : State) (lab : List Byte) (p : Nat) (salt : List Byte) : List Byte :=
  kdf s.sec.secret lab (BitVec.ofNat 8 p :: salt ++ devidBytes s) 128

/-- Kp for a salt. -/
def prinKey (s : State) (p : Nat) (salt : List Byte) : List Byte := secretKey s (label 0x44 0x58 0x50 0x4B) p salt

/-- The sealing key of `p`, while its slot is claimed. -/
def sealKey (s : State) (p : Nat) : Option (List Byte) := (saltOf s p).map (secretKey s (label 0x44 0x58 0x53 0x4C) p)

/-- The command key of a session (R393). -/
def cmdKey (kp nh cd : List Byte) : List Byte := kdf kp (label 0x44 0x58 0x43 0x4D) (nh ++ cd) 128

/-- The attestation key d (R393). -/
def attKey (s : State) : Nat := beNat (kdf s.sec.secret (label 0x44 0x58 0x41 0x54) (devidBytes s) 256) % (n256 - 1) + 1

/-- The proof message M (R397). -/
def proofMsg (p dbg : Nat) (nh cd : List Byte) : List Byte := BitVec.ofNat 8 p :: BitVec.ofNat 8 dbg :: 0 :: 0 :: (nh ++ cd)

/-- Sixteen zero bytes. -/
def zero16 : List Byte := List.replicate 16 0

/-- A slot may be claimed in the present state (R390). -/
def claimable (s : State) (p : Nat) : Bool :=
  match lcState s with | 1 => p == 1 || p == 2 || p == 4 | 2 => p == 3 | _ => false

/-! ### Sessions (R395 to R398) -/

/-- Discard the open challenge, or the claim with its salt. -/
def dropChal (s : State) : State := sk s fun c => { c with chal := none, claim := none }

/-- SESSION_OPEN (R383, R395, R396, R413). -/
def sessionOpen (s : State) (place : Nat) (l : List Byte) : State :=
  let p := pf l 0 1
  let nh := (l.drop 4).take 16
  let par := slotted p && pf l 1 3 == 0 && ((saltOf s p).isSome || claimable s p)
  orGo s place (gate (!s.sec.tampin) (l.length == 20) par) fun s =>
    if s.sec.sess.isSome then reply s place 2 3 []
    else
      let (r, s) := s.random 16
      match saltOf s p with
      | some salt =>
        let s := sk s fun c => { c with chal := some ⟨p, prinKey s p salt, nh, r, 0⟩, claim := none }
        reply s place 0 0 r
      | none =>
        let kp := prinKey s p r
        let s := sk s fun c => { c with chal := some ⟨p, kp, nh, zero16, 0⟩, claim := some r }
        reply s place 0 0 kp

/-- SESSION_OPEN. -/
def execSessionOpen (place : Nat) (s : State) : Host.Outcome State Fault Refusal :=
  live s (runOp s place 0x40 fun s _ l => sessionOpen s place l)

/-- The words of a claimed slot, salt and CLAIMED, are written once the hold capacitor is ready; where it does not become so the
slot stays unclaimed (R301, R394). False: not written. -/
def claimSlot (s : State) (p : Nat) (salt : List Byte) : Bool × State :=
  match holdTurn s with
  | (true, s) => (true, secEvt (sk s fun c => { c with slots := c.slots.set (p - 1) (some salt) }) 4)
  | (false, s) => (false, s)

/-- The slot of a passing proof's claim, if it is one (R395). -/
def claimDone (s : State) (p : Nat) : Bool × State :=
  match s.sec.claim with
  | some salt => claimSlot s p salt
  | none => (true, s)

/-- A passing proof opens the session, a claim's once its slot is written (R394, R395, R397). False: the slot was not written, and
the salt is discarded (R395). -/
def sessionBegin (s : State) (x : Sess) : Bool × State :=
  match claimDone s x.prin with
  | (false, s) => (false, dropChal s)
  | (true, s) =>
    let s := sk (dropChal s) fun c => { c with sess := some { x with key := cmdKey x.key x.nh x.cd, nonce := 1 } }
    (true, secEvt (s.put SEC_SESS_FAILS 0) 1)

/-- SESSION_PROVE (R395, R397): NO_ENERGY where the hold capacitor does not let a claim be written (R301). -/
def execSessionProve (place : Nat) (s : State) : Host.Outcome State Fault Refusal :=
  live s (runOp s place 0x41 fun s _ l =>
    orGo s place (gate true (l.length == 16) true) fun s =>
      match s.sec.chal with
      | none => reply s place 2 4 []
      | some x =>
        if l == cmac x.key (proofMsg x.prin 0 x.nh x.cd) then
          let (ok, s) := sessionBegin s x
          reply s place (if ok then 0 else stNoEnergy) 0 []
        else reply (authFail (dropChal s)) place 7 0 [])

/-- SESSION_CLOSE (R398): the reply carries its CMAC under the session that ends (R275). -/
def execSessionClose (place : Nat) (s : State) : Host.Outcome State Fault Refusal :=
  live s (runOp s place 0x42 fun s _ l =>
    orGo s place (gate true l.isEmpty true) fun s =>
      if (placeAt s place).any (fun pl => pl.nonce.isSome) then reply (endSession s) place 0 0 []
      else reply s place 2 2 [])

/-- SESSION_TIMEOUT (R398): SESSTO seconds have passed with no command passing check 6. -/
def execSessionTimeout (s : State) : Host.Outcome State Fault Refusal := live s (endSession s)

/-! ### Authenticated debug (R400) -/

/-- SEC_DBGCTL.RESULT. -/
def dbgResult (s : State) (r : Nat) : State := s.put SEC_DBGCTL_RESULT r

/-- The port may gain a principal's tag by proof in the present state (R410). -/
def dbgMay (s : State) (p : Nat) : Bool :=
  bitOf (match p with | 1 => sMFR | 2 => 12 | 3 => 4 | 4 => 12 | _ => 0) (lcState s)

/-- OPEN: a fresh challenge for the principal sought. -/
def dbgOpen (s : State) : State :=
  let p := s.get SEC_DBGCTL_PRIN
  if s.sec.tampin then dbgResult s 3
  else if (saltOf s p).isNone || !dbgMay s p then dbgResult s 5
  else
    let (r, s) := s.random 16
    let s := (List.range 4).foldl (fun s n => s.put (SEC_DBGCHAL_DATA n) (leNat ((r.drop (4 * n)).take 4))) s
    dbgResult (sk s fun c => { c with dbgChal := some (p, r) }) 0

/-- The response registers as bytes. -/
def dbgRsp (s : State) : List Byte := (List.range 4).flatMap fun n => leBytes 4 (s.get (SEC_DBGRSP_DATA n))

/-- PROVE: a passing proof gives the port the tag; any other outcome is a failing one. -/
def dbgProve (s : State) : State :=
  let ok := match s.sec.dbgChal with
    | some (p, cd) =>
      dbgMay s p && (match saltOf s p with | some salt => dbgRsp s == cmac (prinKey s p salt) (proofMsg p 1 zero16 cd) | none => false)
    | none => false
  let p := match s.sec.dbgChal with | some (p, _) => p | none => 0
  let s := sk s fun c => { c with dbgChal := none }
  if ok then secEvt (dbgResult (sk s fun c => { c with dbgPrin := p, dbgProved := true }) 0) 6
  else authFail (dbgResult s 7)

/-- The port's tag and any open challenge are dropped. -/
def dbgEnd (s : State) : State := sk s fun c => { c with dbgPrin := 0, dbgProved := false, dbgChal := none }

/-- A write of SEC_DBGCTL by the debug access port. -/
def writeDbgctl (s : State) (v : Nat) : State :=
  let s := s.put SEC_DBGCTL_PRIN v
  let s := if bitOf v 4 then dbgOpen s else s
  let s := if bitOf v 5 then dbgProve s else s
  if bitOf v 6 then dbgEnd s else s

/-- SEC_DBGCTL.STATE: 2 proved, 1 challenge open, 3 open by the life-cycle state, 0 none. -/
def dbgState (s : State) : Nat :=
  if s.sec.dbgProved then 2 else if s.sec.dbgChal.isSome then 1 else if dapTag s != 0 then 3 else 0

/-! ### The image (R401 to R404) -/

/-- What the image check found. -/
structure Image where
  auth : Nat
  key : List Byte
  digest : List Byte
  limg : Nat
  deriving DecidableEq, Repr

/-- Base address of the maker firmware region. -/
def imgBase : Nat := 0x20010000

/-- The signature and the point check of R402 over a digest. -/
def imgSigned (h : List Byte) (dig : List Byte) : Bool :=
  let n (o : Nat) : Nat := beNat ((h.drop o).take 32)
  ecdsaVerify (n 0x10) (n 0x30) (n 0x50) (n 0x70) dig

/-- The format of the header: identifier, length and zero fields (R401). -/
def imgFormat (h : List Byte) : Bool :=
  let limg := pf h 4 4
  pf h 0 4 == 0x46584431 && limg % 4 == 0 && 4 ≤ limg && limg ≤ 786176 && pf h 12 4 == 0 &&
    (h.drop 0x90).all fun b => b == 0

/-- Check the stored image (R402): `anchored` asks for the anchor fuses. -/
def imageCheck (s : State) (anchored : Bool) : Image × State :=
  let free' (s : State) : List Byte := (List.range 8).flatMap fun i => leBytes 4 (Config.noDigest (s.free + i)).toNat
  let bad (s : State) : Image × State := (⟨2, [], free' s, 0⟩, { s with free := s.free + 8 })
  match loadBytes (busTurn s imgBase) .mgmt imgBase 256 with
  | (none, s) => bad s
  | (some h, s) =>
    let limg := pf h 4 4
    if limg < 4 || 786176 < limg || limg % 4 != 0 then bad s
    else match loadBytes s .mgmt (imgBase + 0x100) limg with
      | (none, s) => bad s
      | (some img, s) =>
        let dig := sha256 (h.take 0x50 ++ img)
        let key := (h.drop 0x10).take 64
        let auth := if !imgFormat h || !imgSigned h dig then 2
          else if anchored && s.sec.anchor != some (sha256 key) then 3 else 1
        (⟨auth, key, dig, limg⟩, s)

/-- Judge owner acceptance for a digest (R404): whether the policy page is present, and whether acceptance holds. -/
def policy (s : State) (dig : List Byte) : Bool × Bool × State :=
  let (w, s) := readWord (busTurn s 0x200E0000) .mgmt 0x200E0000
  if w != some 0x4F504C31 then (false, true, s)
  else
    let (a, s) := loadBytes s .mgmt 0x200E0008 32
    let (b, s) := loadBytes s .mgmt 0x200E0028 32
    (true, a == some dig || b == some dig, s)

/-- The image is checked at a boot in MADE, FIELDED or RETURNED: SEC_FWSTAT, SEC_FWDIGn, acceptance, and FWFAIL with its log
entry (R402 to R404, R434). -/
def bootCheck (s : State) : Image × State :=
  let (im, s) := imageCheck s (lcState s != 1)
  let s := s.put SEC_FWSTAT_AUTH im.auth
  let s := (List.range 8).foldl (fun s n => s.put (SEC_FWDIG_DIG n) (leNat ((im.digest.drop (4 * n)).take 4))) s
  let (pol, acc, s) := policy s im.digest
  let s := (s.put SEC_FWSTAT_POLICY (b2n pol)).put SEC_FWSTAT_ACCEPT (b2n acc)
  (im, if im.auth = 1 then s else State.log (secEvt s 7) 9 im.auth 0)

/-! ### Life-cycle (R386 to R389) -/

/-- Wipe NV words (R388): every word zero, with valid check bits. Whoever calls it has waited for the hold capacitor (R301). -/
def wipeNv (s : State) (a n : Nat) : State :=
  let s := s.wipe a n
  let err := s.ms.nvErr.filter fun e => e.1 < a || a + n ≤ e.1
  { s with ms := { s.ms with nvErr := err } }

/-- Unlock every locked region (R386, R360). -/
def unlockRegions (s : State) : State :=
  let s : State := { s with disp := { s.disp with locks := [], lockDue := 0 } }
  (List.range 16).foldl (fun s n => s.put (EPD_RGNOWN_LOCKED n) 0) s

/-- The owner wipe (R386): recipes, rec0 to rec63, the OWNER slot, the locked regions. -/
def ownerWipe (s : State) : State :=
  let s := wipeNv (wipeNv s 0x200E0000 0xC0000) 0x201A0000 0x20000
  unlockRegions (sk s fun c => { c with slots := c.slots.set 2 none })

/-- The wipes of a transition (R386). -/
def lcWipes (s : State) (old new : Nat) : State :=
  if new = 4 then
    let s := wipeNv (wipeNv (ownerWipe s) imgBase 0xD0000) 0x201C0000 0x20000
    sk s fun c => { c with slots := List.replicate 4 none }
  else if old = 2 && new = 3 then ownerWipe s else s

/-- The wipe-pending mark's address (R473). -/
def markAddr : Nat := 0x2000FFFC

/-- The mark of a transition (R473). -/
def markOf (old new : Nat) : Nat := 0x57504D00 + 16 * old + new

/-- A mark stands (R473): an uncorrectable word is none. -/
def markStands (s : State) : Bool := !nvBad s markAddr && s.rd markAddr 4 / 256 == 0x57504D

/-- Write the mark, or clear it, as one word: none where the hold capacitor does not become ready (R301, R473). -/
def markPut (s : State) (v : Nat) : Bool × State :=
  match holdTurn s with
  | (true, s) => (true, nvPut s markAddr v)
  | (false, s) => (false, s)

/-- Burn the fuse of a transition (R386, R391, R402): a fuse burnt stays burnt. -/
def burn (s : State) (old new : Nat) : State :=
  if new = 4 then sk s fun c => { c with fuses := c.fuses ||| 2 ^ 63 }
  else if old = 0 then
    let (r, s) := s.random 32
    sk s fun c => { c with fuses := c.fuses ||| 1, secret := r }
  else
    let k := 1 + ((List.range 62).find? fun i => !bitOf s.sec.fuses (i + 1)).getD 0
    let s := if old = 1 then
        let (im, s) := imageCheck s false
        sk s fun c => { c with anchor := some (sha256 im.key) }
      else s
    sk s fun c => { c with fuses := c.fuses ||| 2 ^ k }

/-- Session, open challenge and debug proof end (R388 step 2, R398, R400). -/
def endProofs (s : State) : State := dbgEnd (dropChal (endSession s))

/-- Who may ask for a transition through LC_ADVANCE (R386). -/
def lcAsker (old new p : Nat) : Bool :=
  match old, new with
  | 1, 2 | 3, 2 => p == 2
  | 2, 3 => p == 3 || p == 2
  | 1, 4 | 2, 4 | 3, 4 => p == 2 || p == 1
  | _, _ => false

/-- A transition of R386 exists. -/
def lcExists (old new : Nat) : Bool := [(1, 2), (2, 3), (3, 2), (1, 4), (2, 4), (3, 4)].contains (old, new)

/-- The condition of a transition holds (R386). -/
def lcCond (s : State) (old new : Nat) : Bool × State :=
  match old, new with
  | 1, 2 => let (im, s) := imageCheck s false; ((saltOf s 2).isSome && im.auth == 1, s)
  | 3, 2 => (tenure s < 62, s)
  | _, _ => (true, s)

/-- R387, from check 7 on: the status and WHY of the first check that fails. -/
def lcRefusal (s : State) (p : Nat) (l : List Byte) : Option (Nat × Nat) × State :=
  let old := lcState s
  let new := pf l 0 1
  let b1 := pf l 1 1
  if !right s .lifecycle p true then (some (3, 0), s)
  else if l.length != 4 then (some (4, 0), s)
  else if 4 < new || 1 < b1 || pf l 2 2 != 0 then (some (5, 0), s)
  else if b1 != 0 && !(old == 2 && new == 3) then (some (5, 0), s)
  else if old == 2 && new == 3 && p != (if b1 = 0 then 3 else 2) then (some (3, 0), s)
  else if lcExists old new && !lcAsker old new p then (some (3, 0), s)
  else if !lcExists old new || s.sec.trans.isSome then (some (2, 6), s)
  else match lcCond s old new with
    | (true, s) => (none, s)
    | (false, s) => (some (2, 6), s)

/-- LC_ADVANCE (R387, R388 step 1). -/
def execLcAdvance (place : Nat) (s : State) : Host.Outcome State Fault Refusal :=
  live s (runOp s place 0x44 fun s p l =>
    match lcRefusal s p l with
    | (some (st, why), s) => reply s place st why []
    | (none, s) =>
      let n := framesFor s place
      let t : Trans := ⟨lcState s, pf l 0 1, n, if n = 1 then 5 else place⟩
      reply (sk s fun c => { c with trans := some t }) place 0 0 [])

/-- A write of SEC_LCCMD (R386, R388): in BLANK the key starts the transition to MADE at step 3. -/
def writeLccmd (s : State) (v : Nat) : State :=
  if v % 65536 = 0x4D31 && lcState s = 0 && s.sec.trans.isNone then
    sk (markPut s (markOf 0 1)).2 fun c => { c with trans := some ⟨0, 1, 0, 5⟩ }
  else s

/-! ### Services (R405 to R408) -/

/-- Base address of service slot `q`. -/
def svcBase (q : Nat) : Nat := 0x103E0000 + 0x1000 * q

/-- Slot `q` is the lowest submitted. -/
def svcNext (s : State) (q : Nat) : Bool := (List.range 8).find? (fun k => s.bit MBX_FMDB_RQ k) == some q

/-- A write of MBX_FMDB by a tag (R406). -/
def writeFmdb (s : State) (tag v : Nat) : State :=
  let was := s.get MBX_FMDB_RQ
  let l := (List.range 8).map fun q => if bitOf v q && !bitOf was q then tag else s.sec.svcTag.getD q 0
  (sk s fun c => { c with svcTag := l }).put MBX_FMDB_RQ (was ||| v % 256)

/-- The outcome is written to the slot, and the service is reported (R406). -/
def svcEnd (s : State) (q st : Nat) (out : List Byte) : State :=
  let b := svcBase q
  let s := (sramWrite s .mgmt (b + 4) 4 st).2
  let s := linkStore (sramWrite s .mgmt (b + 12) 4 out.length).2 .mgmt (b + 0x20) out
  let s := s.clrBits MBX_FMDB_RQ (2 ^ q)
  doorbell (s.put MBX_FMDONE_DONE (s.get MBX_FMDONE_DONE ||| 2 ^ q)) (bitOf (s.get MBX_FMINTEN_EN) q)

/-- The listed service codes. -/
def svcKnown (c : Nat) : Bool := decide (1 ≤ c ∧ c ≤ 6)

/-- Serve slot `q` when it holds code `code`, or a code not listed, which is answered UNKNOWN_OP (R406). `f` gets the tag, the
parameters and the data, and answers a status and the output. -/
def service (s : State) (q code : Nat) (deny : State → Nat → List Byte → Bool)
    (f : State → List Byte → List Byte → Nat × List Byte × State) : State :=
  if !svcNext s q || !s.cmd.mgmtUp then s
  else
    let tag := s.sec.svcTag.getD q 0
    match loadBytes s .mgmt (svcBase q) 32 with
    | (none, t) => svcEnd { t with free := t.free + 1 } q (Config.ueStatus t.free).val []
    | (some h, t) =>
      let c := pf h 0 1
      let n := pf h 8 4
      if !svcKnown c then svcEnd t q 6 []
      else if c != code then s
      else if deny t tag (h.drop 16) then svcEnd t q 3 []
      else if 4064 < n then svcEnd t q 4 []
      else match loadBytes t .mgmt (svcBase q + 0x20) n with
        | (none, t) => svcEnd { t with free := t.free + 1 } q (Config.ueStatus t.free).val []
        | (some d, t) =>
          let (st, out, t) := f t (h.drop 16) d
          svcEnd t q st out

/-- SEAL (R406, R407). -/
def execSeal (slot : Nat) (s : State) : Host.Outcome State Fault Refusal :=
  live s (service s slot 1
    (fun s tag par =>
      !((tag == 8 || tag == 9) && (pf par 0 4 == 2 || (pf par 0 4 == 3 && s.on SEC_FWSTAT_ACCEPT && lcState s == 2))))
    fun s par d =>
      match sealKey s (pf par 0 4) with
      | some k => (0, ctr k ((par.drop 4).take 12) d, s)
      | none => ((Config.noSealKey s.free).val, [], { s with free := s.free + 1 }))

/-- SIGN (R406, R408). -/
def execSign (slot : Nat) (s : State) : Host.Outcome State Fault Refusal :=
  live s (service s slot 2 (fun _ tag _ => tag == 10) fun s _ d =>
    let (r, s) := s.random 32
    let k := beNat r % (n256 - 1) + 1
    let (a, b) := ecdsaSign (attKey s) k (sha256 (1 :: d))
    (0, beBytes 32 a ++ beBytes 32 b, s))

/-- PUBKEY (R406). -/
def execPubkey (slot : Nat) (s : State) : Host.Outcome State Fault Refusal :=
  live s (service s slot 3 (fun _ _ _ => false) fun s _ _ =>
    let (x, y) := pubOf (attKey s)
    (0, beBytes 32 x ++ beBytes 32 y, s))

/-- VERIFY (R406): key, signature, message. -/
def execVerify (slot : Nat) (s : State) : Host.Outcome State Fault Refusal :=
  live s (service s slot 4 (fun _ _ _ => false) fun s _ d =>
    let n (o : Nat) : Nat := beNat ((d.drop o).take 32)
    if d.length < 128 then (4, [], s)
    else if ecdsaVerify (n 0) (n 32) (n 64) (n 96) (sha256 (d.drop 128)) then (0, [], s)
    else (7, [], authFail s))

/-- RANDOM (R406). -/
def execRandomBytes (slot : Nat) (s : State) : Host.Outcome State Fault Refusal :=
  live s (service s slot 5 (fun _ _ _ => false) fun s _ d =>
    let (r, s) := s.random d.length
    (0, r, s))

/-- HASH (R406). -/
def execHash (slot : Nat) (s : State) : Host.Outcome State Fault Refusal :=
  live s (service s slot 6 (fun _ _ _ => false) fun s _ d => (0, sha256 d, s))

/-! ### Tamper (R413) -/

/-- A management opcode in progress is abandoned: its engine work goes, and it is answered DENIED with AUTH=0. A tally add that
has begun completes unreported (R320). A label update that still owes its reply leaves with DENIED, its staged bytes wiped
(R366, R367). -/
def tamperAbandon (s : State) : State :=
  let mgmtOp (p : Nat) : Bool := (placeAt s p).any fun pl => pl.waiting && !pl.replied && 0x40 ≤ pOp pl.pkt
  let busy (o : NvOp) : Bool := o.place.isSome
  let keep (o : NvOp) : Bool := !busy o || ((o.kind == 2 || o.kind == 3) && o.begun)
  let held := s.nvs.ops.filter fun o => busy o && !keep o && o.page.isSome
  let s := held.foldl (fun s o => runEnd s o) s
  let s := setOps s ((s.nvs.ops.filter keep).map fun o => { o with place := none })
  let rtc := s.clk.staged.any fun x => x.2.isSome
  let s := if rtc then (tk s fun k => { k with staged := none }).put RTC_STAT_CPEND 0 else s
  let s := (s.disp.upd.filter fun u => u.place.isSome).foldl
    (fun s u => updLeave (noSum s u.region) { u with place := none } 3) s
  ((List.range 4).filter mgmtOp).foldl (fun s p =>
    match placeAt s p with
    | some pl => reply (setPlace s p (some { pl with nonce := none })) p 3 0 []
    | none => s) s

/-- A life-cycle transition that waits before step 4 is abandoned; one whose fuse is burnt completes (R389). -/
def transAbandon (s : State) : State :=
  match s.sec.trans with
  | none => s
  | some t =>
    if lcState s = t.new then s else
    let s := if markStands s then (markPut s 0).2 else s
    sk s fun c => { c with trans := none }

/-- The tamper wipe (R160, R413, R434). -/
def tamperWipe (s : State) : State :=
  let s := transAbandon s
  let s := tamperAbandon (endProofs (startWipes s [6]))
  let s := wakeSource (yieldEv (secEvt s 0) 33) 8
  let s := tallyOwn s 29 1
  let s := s.log 7 0 (tlyAfter s 29)
  { s with dx := { s.dx with nmiTamper := true } }

/-- TAMPER_EDGE (R413): a detected rising edge; `high` when the input stays high after it; `fall` for the edge at which it falls
again. -/
def execTamperEdge (high : Bool) (s : State) (fall : Bool := false) : Host.Outcome State Fault Refusal :=
  live s (if fall then sk s fun c => { c with tampin := false } else sk (tamperWipe s) fun c => { c with tampin := high })

end Sys2Proof.Machine
end

