-- ==== Sys2Proof/Machine/Power.lean ====
section
/-! DEFINITION. Waking (R59 to R63), forced Basalt (R60), the floor trip (R83), the ledger's tick (R76, R77), domains on demand
(R64) and the supply's crossings (R70 to R74) that reach other blocks. -/

namespace Sys2Proof.Machine

open Sys2Proof

/-- Update the power controller. -/
def pk (s : State) (f : Pwr → Pwr) : State := { s with pwr := f s.pwr }

/-- Write PWR_STAT (R51, R55, R57, R60). -/
def pwrStat (s : State) (aborted refused forced : Bool) (abtpt reached refusers : Nat) : State :=
  let s := ((s.put PWR_STAT_ABORTED (b2n aborted)).put PWR_STAT_REFUSED (b2n refused)).put PWR_STAT_FORCED (b2n forced)
  ((s.put PWR_STAT_ABTPT abtpt).put PWR_STAT_REACHED reached).put PWR_STAT_REFUSERS refusers

/-- Set a PWR_EVT flag. -/
def pwrEvt (s : State) (b : Nat) : State := s.setFlag 0x40000030 b

/-! ### The watchdog (R427 to R429) -/

/-- PERIOD in force. -/
def wdPeriod (s : State) : Nat := max 1 (s.get PWR_WDCFG_PERIOD)

/-- WARN in force. -/
def wdWarn (s : State) : Nat := min (s.get PWR_WDCFG_WARN) (wdPeriod s - 1)

/-- The watchdog is reloaded. -/
def wdReload (s : State) : State := s.put PWR_WDSTAT_REMAIN (128 * wdPeriod s)

/-- The watchdog counts: enabled, the core in Run or Chalk, no reset sequence running. -/
def wdRuns (s : State) : Bool :=
  s.on PWR_WDCFG_EN && s.dx.running && s.boot.isNone && decide (s.get PWR_DOMSTAT_STATE ≤ 1)

/-- A write of PWR_WDCFG (R427, R429). -/
def writeWdcfg (s : State) (v : Nat) : State :=
  let locked := s.on PWR_WDCFG_LOCK
  let s := if locked then s
    else ((s.put PWR_WDCFG_PERIOD v).put PWR_WDCFG_WARN (v / 2 ^ 16)).put PWR_WDCFG_EN (v / 2 ^ 24)
  wdReload (if bitOf v 31 then s.put PWR_WDCFG_LOCK 1 else s)

/-- A write of PWR_WDSVC (R429). -/
def writeWdsvc (s : State) (v : Nat) : State := if v % 65536 = 0x3C96 then wdReload s else s.put PWR_WDSTAT_BADSVC 1

/-- WATCHDOG_WARNING (R428): the count falls to the warning point. -/
def execWatchdogWarning (s : State) : Host.Outcome State Fault Refusal :=
  live s (
    if !wdRuns s || wdWarn s = 0 || s.get PWR_WDSTAT_REMAIN ≤ 128 * wdWarn s then s
    else
      let s := yieldEv ((s.put PWR_WDSTAT_REMAIN (128 * wdWarn s)).put PWR_WDSTAT_WARNED 1) 39
      { s with dx := { s.dx with nmiWd := true } })

/-! ### Wake (R39 to R41, R59 to R63) -/

/-- Segments that KEEPSEG, as latched, does not keep. -/
def unkept (s : State) : Nat := 0xFFFF - s.pwr.keepLat % 2 ^ 16

/-- The die rests in the sleep state of domain `d`, its check lines written back (R36, R40, R191): in Granite and Basalt the
segments not kept lose their content and wait for the wiper (R41). A kept one waits for no wipe, also where PWR_SEGLOST still has
its bit of an earlier wake, and the wait is shown from the entry on (R197; DESIGN CHOICE, log entry 117). -/
def dieSleeps (s : State) (d : Nat) : State :=
  if d < 3 then dieRests s 1
  else
    let s := dieRests s (b2n (s.pwr.keepLat % 2 ^ 16 != 0))
    let s := (List.range 16).foldl (fun s n => if bitOf (unkept s) n then ckDrop s n else s) s
    s.put DRM_STAT_UNWIPED (s.get DRM_STAT_UNWIPED ||| unkept s)

/-- A wake from Granite or Basalt reports the segments lost (R40, R41). The label's state is lost where PWR_SEGLOST has its
segment's bit, be it of an earlier wake (R358). -/
def loseSegs (s : State) : State :=
  let lost := unkept s
  let s := if lost = 0 then s else pwrEvt (s.put PWR_SEGLOST_LOST (s.get PWR_SEGLOST_LOST ||| lost)) 4
  if s.bit PWR_SEGLOST_LOST (s.get EPD_CFG_SEG) then stateLost s else s

/-- The core runs again: what waited goes on (R46, R55, R57, R209). -/
def resume (s : State) : State := startQueued (moverRelease s)

/-- Wake to Run (R63): from Granite and Basalt segments may be lost; the watchdog is reloaded except from Chalk; the link leaves
OFF; full touch pairs resume. -/
def wakeUp (s : State) : State :=
  let d := s.get PWR_DOMSTAT_STATE
  if d = 0 then s
  else
    let forced := s.on PWR_STAT_FORCED
    let s := (s.put PWR_DOMSTAT_STATE 0).put PWR_DOMSTAT_SYS 3
    let s := if 3 ≤ d then loseSegs s else s
    let s := if s.get LNK_STAT_STATE = 0 then s.put LNK_STAT_STATE 1 else s
    let s := if forced then pwrEvt s 5 else s
    let s := tchWake (pk s fun p => { p with raised := false })
    let s := if 2 ≤ d then wdReload s else s
    resume (yieldEv s 19)

/-- The part wakes if it sleeps, a wake event is pending, and wakes are not withheld; an interrupt that wakes it is recorded
(R59, R61, R62). -/
def wakeIf (s : State) : State :=
  let d := s.get PWR_DOMSTAT_STATE
  if d = 0 || s.pwr.entry.isSome || !wakePending s d then s
  else wakeUp (if irqWake s d then s.setBit PWR_WAKESRC_SRC 10 else s)

/-- WAKE_EVENT (R59, R62, R63): source `src` occurs. The interrupt source is a level, not an occurrence. -/
def execWakeEvent (src : Nat) (s : State) : Host.Outcome State Fault Refusal :=
  live s (wakeIf (if src = 10 then s else wakeSource s src))

/-! ### The floor trip (R83) -/

/-- FLOOR_TRIP (R83): every admitted burst meets the outcome of its class. -/
def floorTrip (s : State) : State :=
  let s := hrvEvt (s.put HRV_STAT_FLOOR 1) 0
  let l := s.disp.upd.map fun u => if u.running then { u with floored := true } else u
  let s : State := { s with disp := { s.disp with upd := l } }
  let s := if !s.on DRM_SESS_OPENST then s
    else if moverDram s then { s with ms := { s.ms with cutWait := true } } else moverRelease (sessCut s)
  let s := if burstHeld s 2 then levelDrop s else s
  linkFloorDrop (nvCut s)

/-- FLOOR_TRIP. -/
def execFloorTrip (s : State) : Host.Outcome State Fault Refusal := live s (if s.on HRV_STAT_FLOOR then s else floorTrip s)

/-! ### The tick (R76, R77) -/

/-- A transfer is in progress in block `k` (R465 to R468). -/
def portBusy (s : State) (k : Nat) : Bool :=
  if k < 2 then s.on (SPI_STAT_BUSY k)
  else if k = 2 then s.on I2C_STAT_BUSY || s.on I2C_STAT_HELD
  else
    let p := s.ports.getD 3 ⟨[], [], 0, 0, false, 0⟩
    !p.tx.isEmpty || p.len != 0 || p.dir != 0

/-- A port transfer is in progress (R52 agent 8). -/
def portsBusy (s : State) : Bool := (List.range 4).any fun k => portBusy s k

/-- No I/O group falls below 1.2 V while a block of it works (R444): SPI on VIO0, I2C and UART on VIO1, the panel on VIO2. -/
def vioOk (s : State) (v : Nat) : Bool :=
  (bitOf v 0 || !(portBusy s 0 || portBusy s 1)) && (bitOf v 1 || !(portBusy s 2 || portBusy s 3)) && (bitOf v 2 || !s.on EPD_STAT_HVON)

/-- Voltages of a tick lie within the ratings and operating conditions (R447, R448). -/
def tickOk (s : State) (vsto vbat : Nat) : Bool :=
  decide (vsto ≤ 4000) && decide (vbat ≤ 4200) &&
  (if s.on HRV_STAT_SRC then decide (vbat ≤ 3900) else decide (vsto ≤ 3600))

/-- Charge drawn from the cell, in µC, goes to tly30 in whole µAh with its remainder carried (R76). -/
def countCharge (s : State) (charge : Nat) : State :=
  let q := s.led.chargeRem + charge
  let keep (s : State) (r : Nat) : State := { s with led := { s.led with chargeRem := r } }
  if q < 3600 then keep s q else tallyOwn (keep s (q % 3600)) 30 (q / 3600)

/-- CAP_MEASURE_START's voltage is within its rating; its write goes through the bus (R79). -/
def capVoltOk (vsto : Nat) : Bool := decide (vsto ≤ 4000)

/-! ### Domains on demand (R64) -/

/-- DOMAIN_DEMAND_START (R64). -/
def execDomainDemandStart (d : Nat) (s : State) : Host.Outcome State Fault Refusal := live s (demandStart s d)

/-- DOMAIN_DEMAND_TIMEOUT (R64): 64 AON cycles with no access and no wake of the core; the domain returns to what the sleep state
gives it. PIX stops unless the label runs. -/
def execDomainDemandTimeout (d : Nat) (s : State) : Host.Outcome State Fault Refusal :=
  live s (
    let st := s.get PWR_DOMSTAT_STATE
    match d with
    | 0 => if s.get PWR_DOMSTAT_SYS = 2 then s.put PWR_DOMSTAT_SYS (if st = 2 then 1 else 0) else s
    | 1 => if st < 2 || s.on DRM_STAT_WIPING || s.on DRM_SESS_OPENST || s.get PWR_DOMSTAT_MEM != 2 then s
      else dieSleeps s st
    | _ => if s.on EPD_STAT_HVON || s.on EPD_STAT_INITBUSY then s else s.put PWR_DOMSTAT_PIX 0)

end Sys2Proof.Machine
end

