-- ==== Sys2Proof/Machine/Startup.lean ====
section
/-! DEFINITION. Resets and their sequences (ch. 16), life-cycle transitions (R388), and the sleep handshake with its abort
points (R50 to R58, R474), where a reset may wait. -/

namespace Sys2Proof.Machine

open Sys2Proof

/-! ### Kinds and causes (R417, R419) -/

/-- Rank of a cause: 3 power-on reset, 2 management restart, 1 watchdog reset, 0 software reset. -/
def rank (cause : Nat) : Nat := if cause ≤ 2 then 3 else if cause ≤ 5 then 2 else if cause = 6 then 1 else 0

/-! ### Blocks (R22) -/

/-- The DX core: registers zero, CORE_ fields at reset but the decode table, CORE_UCFG and CORE_DBLF; what it held back is
gone (R95, R132, R146, R148, R170, R439), but for the request of a tamper wipe, which stays until it is taken (R160, R413). -/
def coreReset (s : State) : State :=
  let keep := [0xB4, 0x240] ++ (List.range 16).map fun n => 0x280 + 4 * n
  let s := s.resetPage 0x40002000 keep
  { s with dx := { State.reset.dx with ustore := s.dx.ustore, uBad := s.dx.uBad, nmiTamper := s.dx.nmiTamper } }

/-- The DRAM controller (R86, R194, R195, R199): its session closes, the wiper starts at once. -/
def dramReset (s : State) : State :=
  let s := (sessClose s).resetPage 0x40004000 []
  ({ s with ms := { s.ms with scrubPos := 0, cutWait := false } }).put PWR_DOMSTAT_MEM 2

/-- The port blocks (R464, R465). What the board gives the balls, which the field of GPIO_IN holds, stays. -/
def portsReset (s : State) : State :=
  let s := (((s.resetPage 0x40010000 []).resetPage 0x40011000 []).resetPage 0x40012000 []).resetPage 0x40013000 []
  { s.resetPage 0x40014000 [0, 4, 8, 0xC, 0x10] with ports := State.reset.ports, evo := State.reset.evo }

/-- Slot serving, the table server and the mailbox (R256, R272, R405): commands not yet replied to are gone; what runs goes on
with no reply. -/
def tablesReset (s : State) : State :=
  let s := (List.range 4).foldl orphan s
  let c := { State.reset.cmd with aborted := true, serving := s.cmd.serving, mgmtUp := s.cmd.mgmtUp, resetDev := s.cmd.resetDev }
  let s := (s.resetPage 0x40007000 []).resetPage 0x4000F000 []
  let t := s.sec.trans.map fun t => { t with place := 5 }
  sk { s with cmd := { c with resetDev := c.resetDev.map fun r => (r.1, r.2.1, 5) } } fun x =>
    { x with trans := t, svcTag := State.reset.sec.svcTag }

/-- The SRAM controller's status fields (R174, R187); `all` at a management restart, which clears MEM_CONF3 too. -/
def memReset (s : State) (all : Bool) : State :=
  let rgn := (List.range 48).map fun i => 0x100 + 4 * i + 4 * (i / 3)
  s.resetPage 0x40003000 ([0x18, 0x1C, 0x28, 0x30] ++ (if all then [] else [0x2C]) ++ rgn)

/-- What every reset below power-on restarts (R22), the NV engine apart. -/
def blocksReset (s : State) (all : Bool) : State :=
  let s := levelReset s
  let s := epdReset s
  let s := dramReset (moverReset s)
  memReset (tablesReset (portsReset (tchReset (coreReset s)))) all

/-! ### Steps of the sequences (R420 to R425) -/

/-- The wipes of R424. -/
def bankWipes (s : State) (all : Bool) : State :=
  let l := if all then [0, 1, 2, 3, 4, 5, 6, 7] else [0, 1, 2, 3, 4, 5, 8, 9, 11]
  let s := startWipes s l
  l.foldl wipeRegion s

/-- Repair the pending tally journals (step 7 of R420): the mask of those repaired. An add that has begun completes by itself
(R320); a journal with an uncorrectable cell is left as it is. -/
def repairTallies (s : State) : Nat × State :=
  (List.range 32).foldl (fun (m, s) t =>
    if s.nvs.ops.any fun o => o.kind == 2 && o.idx == t && o.begun then (m, s)
    else match tlyScan s .mgmt t with
      | (false, s) => (m, s)
      | (true, s) =>
        if !tlyPending s t then (m, s)
        else match holdTurn s with
          | (true, s) => (m + 2 ^ t, noteRepair (nvWords s (tlyRepair s t)) t)
          | (false, s) => (m, s)) (0, s)

/-- Scan every record's copies (R312): the mask of those with a valid copy. -/
def scanRecords (s : State) : Nat × State :=
  (List.range 128).foldl (fun (m, s) r =>
    let (a, s) := recCopy s .mgmt r 0
    let (b, s) := recCopy s .mgmt r 1
    if a.isSome || b.isSome then (m + 2 ^ r, s) else (m, s)) (0, s)

/-- Soft repairs recorded for bank `b`: rows (0) or columns (1). -/
def softOf (s : State) (b c : Nat) : Nat := s.ms.soft / 16 ^ (8 * c + b) % 16

/-- Test repairs in bank `b`, held in fuses: four bits a bank. -/
def testOf (v b : Nat) : Nat := v / 16 ^ b % 16

/-- The SRAM soft repairs are re-applied, and the counts from boot start afresh (R178, R196). -/
def reapply (s : State) : State :=
  let s : State := { s with ms := { s.ms with rowCnt := [], colHits := [], moveDue := [], ueAtCopy := [], dramRow := [] } }
  (List.range 8).foldl (fun s b =>
    (s.put (MEM_SPARE_ROWS b) (testOf s.sec.testRows b + softOf s b 0)).put (MEM_SPARECOL_COLS b)
      (testOf s.sec.testCols b + softOf s b 1)) s

/-- How many soft repairs stand. -/
def softCount (s : State) : Nat := (List.range 8).foldl (fun n b => n + softOf s b 0 + softOf s b 1) 0

/-- The image is copied to bank 0 (R421). -/
def copyImage (s : State) (limg : Nat) : State :=
  match loadBytes (busTurn s imgBase) .mgmt (imgBase + 0x100) limg with
  | (some l, s) => s.fill 0x10000000 l
  | (none, s) => s

/-- SYS is returned to P0 after the P2 of the image check: two transitions, each of which yields producer 20 (R282, R420, R421),
the ports choose their dividers for P0 (R458), and a waiting request starts (R46). -/
def levelBack (s : State) : State :=
  let s := (((switchTo s 0).put PWR_LVLSTAT_TARGET 0).put PWR_LVLSTAT_BUSY 0).put PWR_LVLSTAT_RESULT 0
  startQueued (yieldEv (yieldEv (pwrEvt s 0) 20) 20)

/-- What a sequence hands over (R423). -/
structure HandOver where
  us : Nat
  limg : Nat
  recs : Nat
  tallies : Nat
  repairs : Nat
  deriving DecidableEq, Repr

/-- The hand-over block (R423). -/
def handOver (s : State) (h : HandOver) : State :=
  let recs := if s.on SEC_FWSTAT_ACCEPT then h.recs else h.recs / 2 ^ 64 * 2 ^ 64
  let fl := s.get RTC_STAT_OSF + 2 * s.get SEC_FWSTAT_POLICY + 4 * s.get SEC_FWSTAT_ACCEPT + 8 * b2n s.sec.lcDone
  let b := leBytes 4 0x48444F31 ++ leBytes 4 (s.get PWR_RSTCAUSE_LAST) ++ leBytes 4 h.us ++ leBytes 4 h.limg ++
    leBytes 16 recs ++ leBytes 4 h.tallies ++ leBytes 4 fl ++ leBytes 2 h.repairs ++ leBytes 2 s.ms.remap.length ++
    leBytes 1 s.nvs.tags.length ++ leBytes 1 (maskOf 4 fun n => s.get (HRV_CHSTAT_STATE n) == 4)
  sk (s.fill 0x101FFFC0 (b ++ List.replicate 18 0)) fun c => { c with lcDone := false }

/-- Image check and copy, hand-over and release (steps 8 and 9 of R420, 4 and 5 of R425). An image that is not authentic starts
no firmware (R403). -/
def startCore (s : State) (h : HandOver) : State :=
  let (im, s) := bootCheck s
  if im.auth != 1 then sk (levelBack s) fun c => { c with lcDone := false }
  else
    let s := handOver (levelBack (copyImage s im.limg)) { h with limg := im.limg }
    wdReload { s with dx := { s.dx with running := true } }

/-- The states in which firmware is started (R390). -/
def fwStates (s : State) : Bool := bitOf sMFR (lcState s)

/-- Steps 5 and 6 of R388: wipes, mark cleared, log entry. A mark whose fuse was not burnt names an abandoned transition
(R389): only the mark is cleared. Where the hold capacitor does not become ready no word is wiped and the mark stays (R301). -/
def lcFinish (s : State) (old new : Nat) : State :=
  if lcState s != new then (markPut s 0).2
  else match holdTurn s with
    | (false, s) => s
    | (true, s) =>
      let s := (markPut (lcWipes s old new) 0).2
      let s : State := State.log s 8 new (entries s)
      sk s fun c => { c with lcDone := true }

/-- Step 4 of R420: a mark that stands is carried out; whether a transition completed. -/
def markStep (s : State) : Bool × State :=
  match nvRead s .mgmt markAddr with
  | (some w, s) =>
    if w / 256 == 0x57504D then
      let s := lcFinish s (w / 16 % 16) (w % 16)
      (s.sec.lcDone, s)
    else (false, s)
  | (none, s) => (false, s)

/-- Log the reset taken, with CORE_EPC at a watchdog reset (R434). -/
def logReset (s : State) (epc : Nat) : State := State.log s 1 (s.get PWR_RSTCAUSE_LAST) epc

/-- The search for the newest log entry reads every SEQ word (step 7 of R420, R433): words in error count, and are entered
(R299). -/
def logScan (s : State) : State :=
  (s.ms.nvErr.filter fun e => decide (0x201E4000 ≤ e.1) && decide (e.1 < 0x20200000) && e.1 % 16 == 12).foldl
    (fun s e => (nvRead s .mgmt e.1).2) s

/-- Steps 5 to 9 of R420, `us` from the reset to the release; `por` after a power-on reset. In BLANK and SCRAPPED the policy page is
read and no acceptance judged (R404). -/
def powerSteps (s : State) (us : Nat) (por : Bool := false) : State :=
  let s := bankWipes (reapply s) true
  let (tal, s) := repairTallies s
  let (recs, s) := scanRecords s
  let s := if por then logScan s else s
  let s := logReset (restoreRegions s) 0
  let s := ck s fun c => { c with mgmtUp := true }
  if fwStates s then startCore s ⟨us, 0, recs, tal, softCount s⟩ else sk (policy s []).2.2 fun c => { c with lcDone := false }

/-- Steps 2 to 5 of R425. -/
def softSteps (s : State) (us epc : Nat) : State :=
  let s := bankWipes s false
  let (recs, s) := scanRecords s
  let s := logReset s epc
  if fwStates s then startCore s ⟨us, 0, recs, 0, 0⟩ else sk s fun c => { c with lcDone := false }

/-! ### Management restart -/

/-- What a management restart restarts beyond R22's lower resets: the management controller, the event fabric, the secrecy
logic, part of the NV engine (R22, R297, R322, R398, R400, R416). -/
def mgmtBlocks (s : State) : State :=
  let s := nvRestart s
  let s := { (s.resetPage 0x40008000 []) with evHeld := 0, evCap := [], evWin := [] }
  let s := ((endProofs s).resetPage 0x4000E000 [])
  let s := transClear s
  ck s fun c => { c with mgmtUp := false, resetDev := [] }
where
  /-- A transition the management controller had not begun is forgotten with its own work (R389). -/
  transClear (s : State) : State := sk s fun c => { c with trans := none }

/-- The sequence of a management restart from step 2 (R420): step 4 may end a life-cycle transition and begin it again with
cause 0x4; while the hold capacitor keeps the mark standing, the sequence waits for it before firmware starts (R301, R389; log
entry 111). SYS steps wait while wakes are withheld (R471): `waited` then says so, and the time has no bound (R423). -/
def restartSteps (s : State) (waited : Bool := false) : State :=
  let us := if waited then (Config.waitTime s.free).toNat else (Config.restartTime s.free).val
  let (again, s) := markStep { s with free := s.free + 1 }
  if markStands s then { s with boot := some (s.get PWR_RSTCAUSE_LAST, 0) }
  else powerSteps (if again then
      let s := (s.put PWR_RSTCAUSE_LAST 4).put PWR_RSTCAUSE_SEEN (s.get PWR_RSTCAUSE_SEEN ||| 2 ^ 4)
      secEvt s 5
    else s) us

/-! ### Taking a reset (R419, R471) -/

/-- A management restart leaves the ledger as it is: the reservations and the fields that follow them (R86). -/
def keepLedger (s t : State) : State :=
  let t := { t with led := { t.led with res := s.led.res } }
  ((t.put HRV_ERESV_ERESV (s.get HRV_ERESV_ERESV)).put HRV_ELEVEL_LEVEL (s.get HRV_ELEVEL_LEVEL)).put HRV_RESSTAT_PEND
    (s.get HRV_RESSTAT_PEND)

/-- The reset of a cause takes effect (R420, R425): a sleeping part wakes for it, unless wakes are withheld, when the steps in SYS
wait. Wipes of a transition that were done before it are none of its sequence (R423). -/
def takeReset (s : State) (cause : Nat) : State :=
  let epc := if cause = 6 then s.word 0x40002084 else 0
  let s := if s.pwr.withheld then s else wakeUp s
  let s := sk (pk s fun p => { p with pendReset := none, entry := none }) fun c => { c with lcDone := false }
  let s := s.put PWR_RSTCAUSE_LAST cause
  if rank cause = 2 then
    let s := keepLedger s (blocksReset (mgmtBlocks s) true)
    let s := if cause = 4 then secEvt s 5 else s
    if s.pwr.withheld then { s with boot := some (cause, 0) } else restartSteps { s with boot := none }
  else
    let s := nvSoftReset (blocksReset s false)
    if s.pwr.withheld then { s with boot := some (cause, epc) }
    else softSteps { s with boot := none, free := s.free + 1 } (Config.softTime s.free).val epc

/-- A reset is called (R419, R58): discarded while one of equal or higher rank runs its sequence; during a sleep entry it waits for
the next abort point. -/
def callReset (s : State) (cause : Nat) : State :=
  let s := s.put PWR_RSTCAUSE_SEEN (s.get PWR_RSTCAUSE_SEEN ||| 2 ^ cause)
  let beats (o : Option Nat) : Bool := match o with | some c => decide (rank c < rank cause) | none => true
  if !beats (s.boot.map (·.1)) then s
  else if s.pwr.entry.isSome then
    (if beats s.pwr.pendReset then pk s fun p => { p with pendReset := some cause } else s)
  else takeReset s cause

/-- WATCHDOG_EXPIRY (R428). -/
def execWatchdogExpiry (s : State) : Host.Outcome State Fault Refusal :=
  live s (if wdRuns s then callReset (s.put PWR_WDSTAT_REMAIN 0) 6 else s)

/-- MANAGEMENT_MONITOR_EXPIRY (R430). -/
def execManagementMonitorExpiry (s : State) : Host.Outcome State Fault Refusal := live s (callReset s 5)

/-- SOFTWARE_RESET (R417, R425): causes 7 to 9 are software resets. -/
def execSoftwareReset (cause : Nat) (s : State) : Host.Outcome State Fault Refusal :=
  live s (if 7 ≤ cause && cause ≤ 9 then callReset s cause else s)

/-- RESET_DEVICE_START (R279): of the resets asked for the first that is due starts. -/
def execResetDeviceStart (s : State) : Host.Outcome State Fault Refusal :=
  live s (match s.cmd.resetDev.find? fun r => r.2.1 == 0 with
    | some r => callReset (ck s fun c => { c with resetDev := c.resetDev.erase r }) (if r.1 = 2 then 3 else 9)
    | none => s)

/-- A transition whose mark stands is still under way. -/
def transDone (s : State) : State := if markStands s then s else sk s fun c => { c with trans := none }

/-- LIFECYCLE_TRANSITION (R388): a transition that is due runs steps 2 to 6. One whose mark the hold capacitor held back has
step 2 done and stays due (R301); one whose wipes it held back goes on from step 5 (R389). -/
def execLifecycleTransition (s : State) : Host.Outcome State Fault Refusal :=
  live s (match s.sec.trans with
    | some ⟨old, new, 0, _⟩ =>
      if lcState s = new then transDone (lcFinish s old new)
      else match markPut (endProofs s) (markOf old new) with
      | (false, s) => s
      | (true, s) => callReset (transDone (lcFinish (burn s old new) old new)) 4
    | _ => s)

/-! ### Power-on reset (R418, R420) -/

/-- The part as power-on reset leaves it (R22): fuses, slots, the NV array with its tags and recorded repairs are kept, as is what
the board gives the balls (R464), and the count of R308 only stands still. -/
def porState (s : State) (cause : Nat) (resetn : Bool) : State :=
  let r := State.reset
  let nv := s.mem.filter fun e => inNv e.1
  let sec := { r.sec with
    fuses := s.sec.fuses, secret := s.sec.secret, anchor := s.sec.anchor, devid := s.sec.devid
    testRows := s.sec.testRows, testCols := s.sec.testCols, slots := s.sec.slots, tampin := s.sec.tampin }
  let ms := { r.ms with nvErr := s.ms.nvErr, soft := s.ms.soft, remap := s.ms.remap }
  let nvs := { r.nvs with tags := s.nvs.tags, refresh := s.nvs.refresh }
  let disp := { r.disp with locks := s.disp.locks }
  let t := { r with pending := s.pending, free := s.free, mem := nv, sec := sec, ms := ms, nvs := nvs, disp := disp
                    clk := { r.clk with lf := s.clk.lf }, vio := s.vio, resetnLow := resetn, jtag := { s.jtag with ir := 1 } }
  ((t.put GPIO_IN_IN (s.get GPIO_IN_IN)).put PWR_RSTCAUSE_LAST cause).put PWR_RSTCAUSE_SEEN (2 ^ cause)

/-- RESETN_LOW (R418): a low of 10 µs asserts power-on reset; one called while it is asserted is only seen. -/
def execResetnLow (s : State) : Host.Outcome State Fault Refusal :=
  .next (if s.por then
      { s.put PWR_RSTCAUSE_SEEN (s.get PWR_RSTCAUSE_SEEN ||| 4) with resetnLow := true }
    else porState s 2 true)

/-- SUPPLY_LOSS (R74): VSTO below 1.55 V with VBAT below 2.0 V, whether or not power-on reset stands. -/
def execSupplyLoss (s : State) : Host.Outcome State Fault Refusal :=
  .next (porState s 1 s.resetnLow)

/-- COLD_START (R70): the start-up control begins boosting. -/
def execColdStart (s : State) : Host.Outcome State Fault Refusal :=
  .next (if s.por then { s with led := { s.led with startUp := true } } else s)

/-- POWER_ON_RELEASE (R418, R420): RESETN is high and the supply has stood 1 ms; the sequence runs, `elapsed` µs to the core's
release. -/
def execPowerOnRelease (elapsed : Nat) (s : State) : Host.Outcome State Fault Refusal :=
  .next (if !s.por then s
    else
      let s := { s with por := false, resetnLow := false, led := { s.led with startUp := false } }
      let s := ((s.put LNK_STAT_STATE 1).put NVS_STAT_HOLDRDY 1).put PWR_DOMSTAT_MEM 2
      let s := ck s fun c => { c with serving := true, aborted := true }
      let (again, s) := markStep s
      let s := if again then secEvt ((s.put PWR_RSTCAUSE_LAST 4).put PWR_RSTCAUSE_SEEN (s.get PWR_RSTCAUSE_SEEN ||| 2 ^ 4)) 5
        else s
      powerSteps s elapsed true)

/-- A reset sequence that waited goes on (R389, R471): its time has no bound (R423). -/
def bootGo (s : State) (c epc : Nat) : State :=
  if rank c = 2 then restartSteps s true
  else softSteps { s with free := s.free + 1 } (Config.waitTime s.free).toNat epc

/-- The hold capacitor becomes ready: what waits for it goes on, a reset sequence too (R301, R389). -/
def holdUp (s : State) : State :=
  let s := holdComesNow s
  match s.boot with
  | some (c, epc) => if s.pwr.withheld then s else bootGo { s with boot := none } c epc
  | none => s

/-- The supply that carries the load tells whether the hold capacitor is ready (R301). -/
def setHold (s : State) (ready : Bool) : State := if ready then holdUp s else s.put NVS_STAT_HOLDRDY 0

/-- FORCED_WAKE_GRANT (R61, R471): the supply is back; a waiting reset sequence goes on, else what is latched wakes the part. -/
def execForcedWakeGrant (s : State) : Host.Outcome State Fault Refusal :=
  live s (
    if !s.pwr.withheld then s
    else
      let s := pk s fun p => { p with withheld := false }
      match s.boot with
      | none => wakeIf s
      | some (c, epc) => bootGo (wakeUp { s with boot := none }) c epc)

/-! ### The sleep handshake (R50 to R58) -/

/-- The core's clock has run since SLEEP issued: its cycles count, and the rules give no number: FREE (R57, R102; log
entry 116). -/
def entryTick (s : State) : State := bundleTick s 0 none

/-- SLEEP completes: the agents are released, the core goes on, and a reset that waited takes effect. -/
def sleepEnds (s : State) : State :=
  let s := entryTick s
  let s := linkRelease (pk s fun p => { p with entry := none })
  match s.pwr.pendReset with
  | some c => takeReset s c
  | none => resume s

/-- Set or clear the refusal code of an agent (R54). -/
def nakCode (s : State) (k c : Nat) : State :=
  if k < 8 then s.put (PWR_NAKRSN0_AG k) c else s.put (if k = 8 then PWR_NAKRSN1_AG8 else PWR_NAKRSN1_AG9) c

/-- A reset waits, so the entry is abandoned with no completion reported (R58). -/
def resetWaits (s : State) : Bool := s.pwr.pendReset.isSome

/-- An interrupt that is a wake event of target `t` sets its bit (R56, R62). -/
def latchIrq (s : State) (t : Nat) : State := if irqWake s (t + 1) then s.setBit PWR_WAKESRC_SRC 10 else s

/-- An entry to `t` is refused by the agents of a list, with their codes (R55, R56). -/
def sleepRefused (s : State) (t : Nat) (l : List (Nat × Nat)) : State :=
  if resetWaits s then sleepEnds s
  else
    let s := l.foldl (fun s e => nakCode s e.1 e.2) (latchIrq s t)
    sleepEnds (pwrStat s false true false 0 0 (l.foldl (fun v e => v ||| 2 ^ e.1) 0))

/-- Abandoned at an abort point (R57). -/
def sleepAborted (s : State) (pt : Nat) : State :=
  sleepEnds (pwrStat s true false false pt 0 0)

/-- Step 8 of R57: the part is asleep, its core's clock stopped. In Granite and Basalt the panel port and HVEN are low (R442): a
power-down that is outstanding, of a run in which no update is left, is made (R351; DESIGN CHOICE, log entry 124). -/
def asleep (s : State) (t : Nat) : State :=
  let s := if 2 ≤ t && s.on EPD_STAT_HVON then railsOff s else s
  let s := pk (entryTick s) fun p => { p with entry := none }
  let s := (s.put PWR_DOMSTAT_STATE (t + 1)).put PWR_DOMSTAT_SYS (if t = 0 then 3 else if t = 1 then 1 else 0)
  let s := if t = 0 then s else dieSleeps s (t + 1)
  let s := if t = 3 then
      (let s := tchHold s true
       if s.on PWR_CFG_LISTEN then s else s.put LNK_STAT_STATE 0)
    else s
  pwrStat s false false false 0 (t + 1) 0

/-- The event registers of the interrupt lines that reach the power controller in Slate (R62): the PWR_, HRV_, RTC_, LNK_, TBL_,
EPD_, TCH_ and SEC_ pages', MBX_FMDONE and MBX_LFDB. -/
def irqRegs : List Nat :=
  [0x40000030, 0x40001028, 0x4000A018, 0x4000600C, 0x40007014, 0x4000C03C, 0x4000D020, 0x4000E048, 0x4000F004, 0x4000F014]

/-- The producer whose event is a setting of bit `b` of the event register at `a` (R282), and the wake source beside it (R62). -/
def evtProducer (a b : Nat) : Option (Nat × Option Nat) :=
  match a, b with
  | 0x4000600C, 11 => some (2, none)
  | 0x4000600C, 0 => some (3, none)
  | 0x40007014, 0 => some (4, none)
  | 0x40007014, 1 => some (5, none)
  | 0x4000A018, 0 => some (6, some 3)
  | 0x4000A018, 1 => some (7, some 4)
  | 0x4000A018, 2 => some (8, some 5)
  | 0x40001028, b => some (10 + b, if b = 7 || b = 8 then some 9 else none)
  | 0x4000C03C, 0 => some (29, none)
  | 0x4000C03C, 1 => some (30, none)
  | 0x4000D020, 0 => some (31, some 7)
  | 0x4000D020, 4 => some (32, some 7)
  | 0x4000E048, 0 => some (33, some 8)
  | _, _ => none

/-- Alarm `n` matches at a second edge: it fires if it is armed (R334). -/
def alarmDue (s : State) (n : Nat) : State := if s.on (RTC_ALMCFG_ARM n) then almFire s n else s

/-- Set bit `b` of the event register at `a`, where it has one, with the event of its producer and its wake source (R62, R282). -/
def setEvt (s : State) (a b : Nat) : State :=
  if a = 0x4000A018 && b < 2 then alarmDue s b
  else match (fieldsAt a).find? fun f => decide (f.lo ≤ b) && decide (b < f.lo + f.w) with
  | some f =>
    let s := s.setBit f (b - f.lo)
    let s := if a = 0x4000F014 then doorbell s (bitOf (s.get MBX_LFINTEN_EN) b)
      else if a = 0x4000F004 then doorbell s (bitOf (s.get MBX_FMINTEN_EN) b) else s
    (match evtProducer a b with
      | some (p, w) =>
        let s := yieldEv s p
        (match w with | some i => wakeSource s i | none => s)
      | none => s)
  | none => s

/-- What falls between A1 and a later abort point (R57, R58): a wake source 0 to 11, 16 plus the cause of a reset that is
called, or an event flag that asserts an interrupt line, as 32 times its register's address plus its bit. -/
def midEvent (s : State) (e : Nat) : State :=
  if e < 16 then (if e = 10 then s else if e = 3 || e = 4 then alarmDue s (e - 3) else wakeSource s e)
  else if e < 32 then
    (if e = 22 then (if wdRuns s then callReset (s.put PWR_WDSTAT_REMAIN 0) 6 else s)
     else if 19 ≤ e && e ≤ 25 then callReset s (e - 16) else s)
  else if irqRegs.contains (e / 32) then setEvt s (e / 32) (e % 32)
  else s

/-- A1 to A4 (R57, R474), once every agent has answered ACK: `mid` is what falls after A1, with the abort point that next looks
for it, A2 or A3. What is undone there beyond A1's undoing, clocks and retention, no register shows. -/
def a1 (s : State) (mid : Option (Nat × Nat)) : State :=
  match s.pwr.entry with
  | none => s
  | some e =>
    let back (s : State) : State := if e.dram then s.put PWR_DOMSTAT_MEM 2 else s
    if resetWaits s then sleepEnds (back s)
    else if wakePending s (e.target + 1) then
      sleepAborted (back (latchIrq s e.target)) 1
    else match mid with
      | none => asleep s e.target
      | some (ev, pt) =>
        let s := midEvent s ev
        if resetWaits s then sleepEnds (back s)
        else if wakePending s (e.target + 1) then
          sleepAborted (back (latchIrq s e.target)) (if pt = 2 then 2 else 3)
        else asleep s e.target

/-- A0 (R50, R57, R59): a reset, a source latched already or a wake event pending ends the entry; Chalk is entered at once; else
KEEPSEG is latched and the agents are asked. -/
def a0 (s : State) (t : Nat) : State :=
  if resetWaits s then sleepEnds s
  else if !s.pwr.withheld && (wakeLatched s || irqWake s (t + 1)) then
    sleepAborted (latchIrq s t) 0
  else if t = 0 then asleep s 0
  else
    let keep := if t = 1 then 0xFFFF else s.get PWR_KEEPSEG_KEEP
    pk s fun p => { p with entry := some ⟨t, false, false, 0, false⟩, keepLat := keep }

/-- SLEEP issues (R48, R51): the codes of the last refusal are cleared; a level transition or a waiting request is let end
first. -/
def sleepIssue (s : State) (t : Nat) : State :=
  let s := (List.range 10).foldl (fun s k => nakCode s k 0) s
  if s.on PWR_LVLSTAT_BUSY || s.pwr.lvlQueue.isSome then
    pk s fun p => { p with entry := some ⟨t, true, false, 0, false⟩ }
  else a0 s t

/-- A SLEEP that waited for the levels reaches A0 (R48). -/
def sleepGo (s : State) : State :=
  match s.pwr.entry with
  | some e => if e.wait && !s.on PWR_LVLSTAT_BUSY && s.pwr.lvlQueue.isNone then
      a0 (pk s fun p => { p with entry := none }) e.target else s
  | none => s

/-- LEVEL_TRANSITION_DONE (R45, R46, R48). -/
def execLevelTransitionDone (s : State) : Host.Outcome State Fault Refusal := live s (sleepGo (levelDone s))

/-- The agents that answer NAK for a target, with their codes (R52, R54, R368). -/
def naks (s : State) (t : Nat) : List (Nat × Nat) :=
  (if s.on DRM_STAT_WIPING then [(1, 4)] else []) ++
  (if t = 3 && 2 ≤ s.get LNK_STAT_STATE && !s.on PWR_CFG_LINKSTOP then [(2, 3)] else []) ++
  (if 2 ≤ t && !s.disp.upd.isEmpty then [(5, 1)] else []) ++
  (if portsBusy s then [(8, 5)] else []) ++
  (if burstHeld s 1 || burstHeld s 2 then [(9, 2)] else [])

/-- The agents that answer HOLD (R52). -/
def holds (s : State) (t : Nat) : Nat :=
  b2n (moverRuns s) + 2 * b2n (s.get PWR_DOMSTAT_MEM == 2) + 4 * b2n (t == 3 && decide (2 ≤ s.get LNK_STAT_STATE)) +
  16 * b2n (nextOp s.nvs.ops).isSome + 64 * b2n s.tch.pair

/-- SLEEP_AGENT_ANSWERS (R52, R55): the first answers are in; with no HOLD among them the entry runs on, as `a1` says. -/
def execSleepAgentAnswers (s : State) (mid : Option (Nat × Nat) := none) : Host.Outcome State Fault Refusal :=
  live s (match s.pwr.entry with
    | none => s
    | some e =>
      if e.wait || e.answered then s
      else
        let l := naks s e.target
        if !l.isEmpty then sleepRefused s e.target l
        else
          let h := holds s e.target
          let s := nvSuspend s
          let dram := s.get PWR_DOMSTAT_MEM == 2
          let s := pk s fun p => { p with entry := some { e with answered := true, hold := h, dram := dram } }
          let s := if bitOf h 2 then leaveService s 2 else s
          if h = 0 then a1 s mid else entryTick s)

/-- What an agent's ACK waits for has come about: the mover at its boundaries, the link out of service, a mutual pass at the end of
its pair (R381). -/
def ackReady (s : State) (k : Nat) : Bool :=
  match k with | 0 => !moverRuns s | 2 => decide (s.get LNK_STAT_STATE < 2) | 6 => !(s.tch.pair && s.tch.mutPass) | _ => true

/-- An agent turns its HOLD into ACK. -/
def agentAck (s : State) (e : Entry) (k : Nat) (mid : Option (Nat × Nat)) : State :=
  let s := match k with
    | 1 => dieRests s 1
    | 6 => tchHold s false
    | _ => s
  let h := e.hold - (e.hold &&& 2 ^ k)
  let s := pk s fun p => { p with entry := some { e with hold := h } }
  if h = 0 then a1 s mid else entryTick s

/-- AGENT_HOLD_ACK (R52): with the last one the entry runs on, as `a1` says. -/
def execAgentHoldAck (k : Nat) (s : State) (mid : Option (Nat × Nat) := none) : Host.Outcome State Fault Refusal :=
  live s (match s.pwr.entry with
    | some e => if e.answered && bitOf e.hold k && ackReady s k then agentAck s e k mid else s
    | none => s)

/-- AGENT_HOLD_OVERRUN (R52, R55): the sole refuser, with HOLD_OVERRUN. -/
def execAgentHoldOverrun (k : Nat) (s : State) : Host.Outcome State Fault Refusal :=
  live s (match s.pwr.entry with
    | some e => if e.answered && bitOf e.hold k then sleepRefused s e.target [(k, 6)] else s
    | none => s)

/-! ### Forced Basalt (R60) -/

/-- Basalt is forced: everything stops at once, a word in progress excepted; segments lost before stay lost. A reset that waited
for an abort point takes effect (R58, R471). -/
def forceBasalt (s : State) : State :=
  let old := if 3 ≤ s.get PWR_DOMSTAT_STATE then s.pwr.keepLat else 0xFFFF
  let keep := s.get PWR_KEEPSEG_KEEP &&& old
  let s := if s.pwr.entry.isSome then entryTick s else s
  let s := linkRelease (pk s fun p => { p with entry := none, keepLat := keep, withheld := true, raised := false })
  let s := epdAbrupt (linkForced (moverCut s))
  let s := if s.on DRM_SESS_OPENST then sessCut s else s
  let s := tchHold (nvCut s) true
  let s := (dieSleeps (s.put DRM_STAT_WIPING 0) 4).put PWR_DOMSTAT_SYS 0
  let s := pwrStat ((s.put PWR_DOMSTAT_STATE 4).put PWR_DOMSTAT_PIX 0) false false true 0 4 0
  match s.pwr.pendReset with
  | some c => takeReset s c
  | none => s

/-- VSTO_BROWN (R60, R72): only while the load is on the store. -/
def execVstoBrown (s : State) : Host.Outcome State Fault Refusal :=
  live s (if s.on HRV_STAT_SRC || s.pwr.withheld then s else forceBasalt (hrvEvt (s.put NVS_STAT_HOLDRDY 0) 5))

/-- VBAT has fallen below 2.0 V: a load on the cell moves back to the store, which stands at `vsto` mV (R73, R301). -/
def primaryLost (s : State) (vsto : Nat) : State :=
  if !s.on HRV_STAT_SRC then s.put HRV_STAT_PRIMOK 0
  else
    let s := setHold (toStore (s.put HRV_STAT_PRIMOK 0)) (decide (1800 ≤ vsto))
    if vsto < 1780 && !s.pwr.withheld then forceBasalt (hrvEvt s 5) else s

/-- PRIMARY_LOSS (R73): VBAT falls below 2.0 V while the load is on it; the store takes the load at `vsto` mV. -/
def execPrimaryLoss (vsto : Nat) (s : State) : Host.Outcome State Fault Refusal := live s (primaryLost s vsto)

/-- PRIMOK_CHANGE (R73, R301): VBAT rises to, or falls below, 2.0 V; of the store the last sample tells how it stands (DEDUCED, log
entry 47). -/
def execPrimokChange (ok : Bool) (s : State) : Host.Outcome State Fault Refusal :=
  live s (if ok then s.put HRV_STAT_PRIMOK 1 else primaryLost s (s.get HRV_SUPPLY_VSTO))

/-- LOAD_TO_PRIMARY (R72, R73): with the load on VSTO and PRIMOK, the load moves to VBAT. -/
def execLoadToPrimary (s : State) : Host.Outcome State Fault Refusal :=
  live s (if s.on HRV_STAT_SRC || !s.on HRV_STAT_PRIMOK then s else holdUp (capAbort (hrvEvt (s.put HRV_STAT_SRC 1) 1)))

/-- LOAD_TO_STORE (R72): VSTO has risen to 2.00 V. -/
def execLoadToStore (s : State) : Host.Outcome State Fault Refusal :=
  live s (if s.on HRV_STAT_SRC then holdUp (toStore s) else s)

/-- LEDGER_TICK (R76 to R78, R82, R88, R301), with the I/O groups at 1.2 V or more (R444). The figures are computed too while
the SYS steps of a management restart wait for a wake (R86, R471 leave that open; DESIGN CHOICE, log entry 101). -/
def execLedgerTick (vsto vbat charge : Nat) (s : State) (vio : Nat := 15) : Host.Outcome State Fault Refusal :=
  if !tickOk s vsto vbat || !vioOk s vio then .fault .outsideOperatingConditions
  else live s (
    let s := setVio s vio
    let ready := decide (1800 ≤ if s.on HRV_STAT_SRC then vbat else vsto)
    countCharge (tickFigures (setHold s ready) vsto vbat) charge)

end Sys2Proof.Machine
end

