-- ==== Sys2Proof/Machine/Ports.lean ====
section
/-! DEFINITION. The balls (ch. 17): general I/O and its event functions (R464), the SPI, I2C and UART blocks (R465 to R468) and
the JTAG port's own instructions (R463). Ports 0 and 1 are SPI, 2 is I2C, 3 is the UART. -/

namespace Sys2Proof.Machine

open Sys2Proof

/-! ### General I/O (R464) -/

/-- A write of GPIO_FUNC, GPIO_OUT or GPIO_POL may raise a ball or an event level. -/
def writeGpio (s : State) (f : State → State) : State := gpioEdges s (f s)

/-- The board takes a ball low. -/
def gpioFall (s : State) (n : Nat) : State := gpioEdges s (s.clrBits GPIO_IN_IN (2 ^ n))

/-- The board takes a ball high: a ball that the part drives does not follow. -/
def gpioRise (s : State) (n : Nat) : State := gpioEdges s (s.setBit GPIO_IN_IN n)

/-- GPIO_EDGE (R464): the board takes GPIOn high, or low with `fall`; a rise of a ball that it holds high comes after a fall.
Without VIO1 its block sees nothing (R444). -/
def execGpioEdge (n : Nat) (s : State) (fall : Bool := false) : Host.Outcome State Fault Refusal :=
  live s (
    if !bitOf s.vio 1 then s
    else
      let t := if s.bit GPIO_IN_IN n then gpioFall s n else s
      if fall then t else gpioRise t n)

/-! ### The serial blocks (R465) -/

/-- A block. -/
def port (s : State) (k : Nat) : Port := s.ports.getD k ⟨[], [], 0, 0, false, 0⟩

/-- Replace a block. -/
def setPort (s : State) (k : Nat) (p : Port) : State := { s with ports := s.ports.set k p }

/-- A block's base address. -/
def portBase (k : Nat) : Nat := 0x40010000 + 0x1000 * k

/-- Address of a block's EVT register. -/
def portEvtAddr (k : Nat) : Nat := if k = 3 then 0x40013010 else portBase k + 0x14

/-- Set a flag of a block's EVT register; DONE (the UART's RXBYTE) yields the block's producer (R465). -/
def portEvt (s : State) (k b : Nat) : State :=
  let s := s.setFlag (portEvtAddr k) b
  if b = 0 then yieldEv s (41 + k) else s

/-- Bits of TXOVF and RXOVF. -/
def txovf (k : Nat) : Nat := if k < 2 then 1 else if k = 2 then 3 else 2
/-- Bit of RXOVF. -/
def rxovf (k : Nat) : Nat := txovf k + 1

/-- A write of a transmit data register (R465). A disabled SPI block keeps its FIFOs empty. -/
def txData (s : State) (k v : Nat) : State :=
  let p := port s k
  if k < 2 && !s.on (SPI_CFG_EN k) then s
  else if 16 ≤ p.tx.length then portEvt s k (txovf k)
  else setPort s k { p with tx := p.tx ++ [BitVec.ofNat 8 v] }

/-- A read of a receive data register: the word it answers, and the FIFO without the byte (R465). -/
def rxData (s : State) (k : Nat) : Nat × State :=
  let p := port s k
  match p.rx with
  | [] => (0, s)
  | e :: t => (e % 256 + 256 + e / 256 % 4 * 512, setPort s k { p with rx := t })

/-- A byte or character is received (R465). -/
def rxPush (s : State) (k e : Nat) : State :=
  let p := port s k
  if 16 ≤ p.rx.length then portEvt s k (rxovf k) else setPort s k { p with rx := p.rx ++ [e] }

/-! ### SPI (R466) -/

/-- A write of SPIn_CFG: a block whose EN is written 0 raises chip select, empties its FIFOs and works no more; SPI0 ignores
QUAD. -/
def writeSpiCfg (s : State) (n v : Nat) : State :=
  let s := (s.put (SPI_CFG_EN n) v).put (SPI_CFG_MODE n) (v / 2)
  let s := if n = 1 then s.put (SPI_CFG_QUAD n) (v / 4) else s
  let s := (s.put (SPI_CFG_CSHOLD n) (v / 8)).put (SPI_CFG_RATE n) (v / 256)
  if bitOf v 0 then s
  else setPort ((s.put (SPI_STAT_BUSY n) 0).put (SPI_STAT_CSLOW n) 0) n ⟨[], [], 0, 0, false, 0⟩

/-- A write of SPIn_CMD (R466). -/
def spiCmd (s : State) (n v : Nat) : State :=
  let len := v % 65536
  let dir := if v / 65536 % 4 = 3 then 0 else v / 65536 % 4
  if !s.on (SPI_CFG_EN n) then s
  else if s.on (SPI_STAT_BUSY n) then portEvt s n 3
  else if s.on (SPI_CFG_QUAD n) && dir = 0 then portEvt s n 3
  else if len = 0 then s
  else
    let s := s.put (SPI_DIV_N n) (spiN n (s.get PWR_LVLSTAT_CUR) (s.get (SPI_CFG_RATE n)))
    setPort ((s.put (SPI_STAT_BUSY n) 1).put (SPI_STAT_CSLOW n) 1) n { port s n with len := len, dir := dir }

/-- Bytes a transfer can move now: as the FIFOs allow (R466). -/
def spiMoves (p : Port) (got : Nat) : Nat :=
  let room := 16 - p.rx.length
  match p.dir with
  | 0 => min p.len (min p.tx.length (min got room))
  | 1 => min p.len p.tx.length
  | _ => min p.len (min got room)

/-- SPI_TRANSFER_DONE (R466): the transfer has moved what the FIFOs and the received bytes allow; with the last byte it ends.
Without VIO0 every byte received is 0 (R444). -/
def spiDone (s : State) (n : Nat) (received : List Byte) : State :=
  let p := port s n
  let received := if bitOf s.vio 0 then received else received.map fun _ => 0
  if !s.on (SPI_STAT_BUSY n) || !sysRuns s then s
  else
    let k := spiMoves p received.length
    let tx := if p.dir = 2 then p.tx else p.tx.drop k
    let rx := if p.dir = 1 then p.rx else p.rx ++ (received.take k).map fun b => b.toNat
    let s := setPort s n { p with tx := tx, rx := rx, len := p.len - k }
    if p.len = k then
      portEvt ((s.put (SPI_STAT_BUSY n) 0).put (SPI_STAT_CSLOW n) (s.get (SPI_CFG_CSHOLD n))) n 0
    else s

/-- SPI_TRANSFER_DONE (R466). -/
def execSpiTransferDone (n : Nat) (received : List Byte) (s : State) : Host.Outcome State Fault Refusal :=
  live s (spiDone s n received)

/-! ### I2C (R467) -/

/-- A write of I2C_CMD (R467). -/
def i2cCmd (s : State) (v : Nat) : State :=
  if !s.on I2C_CFG_EN then s
  else if s.on I2C_STAT_BUSY then portEvt s 2 6
  else
    let p := { port s 2 with len := bitsOf v 8 8, dir := bitsOf v 7 1, nostop := bitOf v 16, addr := v % 128 }
    setPort ((s.put I2C_STAT_BUSY 1).put I2C_STAT_HELD 0) 2 p

/-- The transaction ends; DONE is set whatever its outcome. -/
def i2cEnd (s : State) (held : Bool) : State :=
  portEvt ((s.put I2C_STAT_BUSY 0).put I2C_STAT_HELD (b2n held)) 2 0

/-- A write of I2C_CFG: a block that does not work holds no bus. A transaction it ends sets DONE; one that held the bus has set
its own. -/
def writeI2cCfg (s : State) (v : Nat) : State :=
  let s := (s.put I2C_CFG_EN v).put I2C_CFG_FAST (v / 2)
  if bitOf v 0 then s
  else if s.on I2C_STAT_BUSY then i2cEnd s false
  else s.put I2C_STAT_HELD 0

/-- The bytes of an I2C transaction: sent as the FIFO holds them, received whether or not it has room. -/
def i2cMove (s : State) (received : List Byte) : State :=
  let p := port s 2
  if p.dir = 0 then
    let k := min p.len p.tx.length
    setPort s 2 { p with tx := p.tx.drop k, len := p.len - k }
  else
    let k := min p.len received.length
    (received.take k).foldl (fun s b => rxPush s 2 b.toNat) (setPort s 2 { p with len := p.len - k })

/-- I2C_TRANSACTION_DONE (R467). Without VIO1 both lines read low, and only the timeout ends it (R444). -/
def i2cDone (s : State) (nackA nackD : Bool) (received : List Byte) : State :=
  let p := port s 2
  if !s.on I2C_STAT_BUSY || !sysRuns s || !bitOf s.vio 1 then s
  else if nackA then i2cEnd (portEvt s 2 1) false
  else if nackD then
    if p.dir = 0 && 0 < p.len then i2cEnd (portEvt (setPort s 2 { p with tx := [] }) 2 2) false else s
  else
    let s := i2cMove s received
    if (port s 2).len = 0 then i2cEnd s p.nostop else s

/-- I2C_TRANSACTION_DONE (R467). -/
def execI2cTransactionDone (nackA nackD : Bool) (received : List Byte) (s : State) : Host.Outcome State Fault Refusal :=
  live s (i2cDone s nackA nackD received)

/-- I2C_TIMEOUT (R467): a line stayed low for 25 ms; the block releases both. -/
def execI2cTimeout (s : State) : Host.Outcome State Fault Refusal :=
  live s (if s.on I2C_STAT_BUSY && sysRuns s then i2cEnd (portEvt s 2 5) false else s)

/-! ### UART (R468) -/

/-- The divider in force (R462, R468). -/
def uartDiv (s : State) : Nat :=
  let r := max 1 (s.get UART_CFG_RATE)
  let f := fSys (s.get PWR_LVLSTAT_CUR) * 1000
  let d := f / (16 * r)
  let m := f % (16 * r)
  max 1 (if 2 * m < 16 * r then d else if 16 * r < 2 * m then d + 1 else if Config.uartTie r then d + 1 else d)

/-- A character is being sent, or bytes wait to be (R468). -/
def uartSends (p : Port) : Bool := !p.tx.isEmpty || p.len != 0

/-- UART_TRANSMIT_DONE (R468): the FIFO is empty and the last stop bit has been sent; or, where `taken` is given, that many
bytes have left the FIFO and the last of them is still being sent (DESIGN CHOICE, log entry 15). -/
def execUartTransmitDone (s : State) (taken : Option Nat := none) : Host.Outcome State Fault Refusal :=
  live s (
    let p := port s 3
    if !s.on UART_CFG_TXEN || !sysRuns s || !uartSends p then s
    else match taken with
      | none => portEvt (setPort s 3 { p with tx := [], len := 0 }) 3 1
      | some k => if k = 0 || p.tx.length < k then s else setPort s 3 { p with tx := p.tx.drop k, len := 1 })

/-- A write of UART_CFG: a block that no longer receives leaves the character it was in. -/
def writeUartCfg (s t : State) : State :=
  if t.on UART_CFG_RXEN then t else setPort t 3 { port s 3 with dir := 0 }

/-- A start bit arrives: receiving is in progress until its stop bit (R468). -/
def uartStart (s : State) : State :=
  if !s.on UART_CFG_RXEN || !sysRuns s then s else setPort s 3 { port s 3 with dir := 1 }

/-- A character arrives (R468). A parity error needs a parity. Without VIO1 RXD reads low: a break, 0x00 with FERR, whose parity
bit of 0 is wrong for odd parity (R444). -/
def uartChar (s : State) (b : Byte) (perr ferr : Bool) : State :=
  if !s.on UART_CFG_RXEN || !sysRuns s then s
  else
    let par := s.get UART_CFG_PARITY
    let (b, perr, ferr) := if bitOf s.vio 1 then (b, perr, ferr) else (0, par == 2, true)
    let pe := perr && (par == 1 || par == 2)
    let s := rxPush (setPort s 3 { port s 3 with dir := 0 }) 3 (b.toNat + 256 * b2n pe + 512 * b2n ferr)
    let s := if pe then portEvt s 3 4 else s
    let s := if ferr then portEvt s 3 5 else s
    portEvt s 3 0

/-- UART_CHARACTER_RECEIVED (R468): a whole character, or with `start` its start bit alone (DESIGN CHOICE, log entry 15). -/
def execUartCharacterReceived (b : Byte) (perr ferr : Bool) (s : State) (start : Bool := false) : Host.Outcome State Fault Refusal :=
  live s (if start then uartStart s else uartChar s b perr ferr)

/-! ### JTAG (R399, R463) -/

/-- Change the JTAG port. -/
def jk (s : State) (f : Jtag → Jtag) : State := { s with jtag := f s.jtag }

/-- Something no rule gives is shifted out. -/
def tdoFree (s : State) : State :=
  { s with jtag := { s.jtag with tdo := Config.tdoOut s.free }, free := s.free + 1 }

/-- EXTEST and SAMPLE/PRELOAD work only while the port carries VENDOR or MAKER (R399). -/
def scanWorks (s : State) : Bool := dapTag s == 1 || dapTag s == 2

/-- The boundary-scan cells drive the balls: EXTEST is the instruction and works (R399, R463). -/
def scanDrives (s : State) : Bool := s.jtag.ir == 0 && scanWorks s

/-- What the JTAG port does; without VIO3 it sees no clock (R444). -/
def jtagOn (s t : State) : State := if bitOf s.vio 3 then t else s

/-- EXTEST (R463): a scan captures the levels of the balls, which it shifts out, while `bits` are shifted in and drive them. -/
def execExtest (bits : BitVec 171) (s : State) (levels : BitVec 171 := 0) : Host.Outcome State Fault Refusal :=
  live s (jtagOn s <| if scanWorks s then jk s fun j => { j with ir := 0, bsr := bits, pins := levels }
    else tdoFree (jk s fun j => { j with ir := 0 }))

/-- SAMPLE/PRELOAD (R463): the levels captured are shifted out, and the cells preloaded. -/
def execSamplePreload (pins preload : BitVec 171) (s : State) : Host.Outcome State Fault Refusal :=
  live s (jtagOn s <| if scanWorks s then jk s fun j => { j with ir := 2, pins := pins, bsr := preload }
    else tdoFree (jk s fun j => { j with ir := 2 }))

/-- IDCODE (R463). -/
def execIdcode (s : State) : Host.Outcome State Fault Refusal :=
  live s (jtagOn s <| jk s fun j => { j with ir := 1, tdo := 0x1964062D })

/-- BYPASS, or any code not listed (R463): the one-bit register is captured as 0 and shifted once. -/
def execBypass (code : BitVec 5) (tdi : Bool) (s : State) : Host.Outcome State Fault Refusal :=
  live s (jtagOn s <| if [0, 1, 2, 8].contains code.toNat then s else jk s fun j => { j with ir := code, byp := tdi, tdo := 0 })

/-- Five TCK cycles with TMS high (R463): Test-Logic-Reset, where IDCODE stands in the instruction register. -/
def execTapReset (s : State) : Host.Outcome State Fault Refusal := live s (jtagOn s <| jk s fun j => { j with ir := 1 })

end Sys2Proof.Machine
end

