-- ==== Sys2Proof/Machine/Special.lean ====
section
/-! DEFINITION. Writes and reads of registers by their access codes (R10), and the special registers of the DX core, reached
through the CORE_ page and through MVFS and MVTS alike (R101, R119, R145, R169). -/

namespace Sys2Proof.Machine

open Sys2Proof

/-! ### Access codes (R10) -/

/-- A register as a read returns it: write-only fields read zero. -/
def readFields (s : State) (a : Nat) : Nat :=
  (fieldsAt a).foldl (fun v f => if f.acc == .wo then v else v + s.get f * 2 ^ f.lo) 0

/-- A write of one field by its access code; `lock` is the lock bit that governs RWL fields, as it stood before the write. -/
def writeField (lock : Bool) (v : Nat) (s : State) (f : Fld) : State :=
  let x := v / 2 ^ f.lo % 2 ^ f.w
  match f.acc with
  | .rw => s.put f x
  | .w1c => s.clrBits f x
  | .w1s => s.put f (s.get f ||| x)
  | .rwl => if lock then s else s.put f x
  | _ => s

/-- A write of every field of the register at `a`. -/
def writeFields (s : State) (a v : Nat) (lock : Bool) : State := (fieldsAt a).foldl (writeField lock v) s

/-- A read of RC fields clears them in the same access. -/
def clearRc (s : State) (a : Nat) : State :=
  (fieldsAt a).foldl (fun s f => if f.acc == .rc then s.put f 0 else s) s

/-! ### The microstore (R145) -/

/-- Change the core. -/
def xk (s : State) (f : Dx → Dx) : State := { s with dx := f s.dx }

/-- A write of the decode table or the microstore took effect (R144). -/
def genUp (s : State) : State := s.put CORE_UCFG_GEN (s.get CORE_UCFG_GEN + 1)

/-- The window address steps on. -/
def usNext (s : State) : State := s.put CORE_USADDR_ADDR (s.get CORE_USADDR_ADDR + 1)

/-- A write of CORE_USDHI: the microword is written with its parity, and ADDR advances. -/
def usCommit (s : State) (v : Nat) : State :=
  let a := s.get CORE_USADDR_ADDR
  let w := s.dx.usLo + v % 2 ^ 32 * 2 ^ 32
  let s := xk s fun d => { d with ustore := Sparse.set 0 d.ustore a w, uBad := d.uBad.filter fun k => !(k == a) }
  genUp (usNext s)

/-! ### Special register writes -/

/-- Only the bits of a mask change. -/
def maskedWrite (old new m : Nat) : Nat := (old - (old &&& m)) + (new &&& m)

/-- The mask of CORE_IRQPRIn that S may change: the fields of delegated lines (R169). -/
def priMask (s : State) (n : Nat) : Nat :=
  (List.range 8).foldl (fun m k => if s.bit CORE_IRQDLG_LINES (8 * n + k) then m + 7 * 2 ^ (4 * k) else m) 0

/-- A write of special register `k` that takes effect, at privilege level `lvl` (MVTS; 2 for a bus write): R101, R145, R148,
R153, R165, R169. -/
def setSpecial (s : State) (lvl k v : Nat) : State :=
  let a := 0x40002000 + 4 * k
  let lock := s.on CORE_UCFG_LOCK
  if k = 0x20 then
    let old := s.get CORE_STATUS_PPL
    let t := writeFields s a v false
    if lvl = 1 && 2 ≤ v / 16 % 4 then t.put CORE_STATUS_PPL old else t
  else if k = 0x30 && lvl = 1 then
    s.put CORE_IRQEN_LINES (maskedWrite (s.get CORE_IRQEN_LINES) (v % 2 ^ 32) (s.get CORE_IRQDLG_LINES))
  else if 0x34 ≤ k && k ≤ 0x37 && lvl = 1 then
    writeFields s a (maskedWrite (s.word a) (v % 2 ^ 32) (priMask s (k - 0x34))) false
  else if k = 0x23 then
    let t := writeFields s a v false
    if t.get CORE_EXCCFG_STBUF = s.get CORE_EXCCFG_STBUF then t else xk t fun d => { d with drainDue := true }
  else if k = 0x2C then (if v % 65536 = 0x5A3C then callReset s 7 else s)
  else if k = 0x93 then (if lock then s else xk s fun d => { d with usLo := v % 2 ^ 32 })
  else if k = 0x94 then (if lock then s else usCommit s v)
  else if 0xA0 ≤ k && k ≤ 0xAF then (if lock then s else genUp (writeFields s a v false))
  else writeFields s a v false

/-- A write of the decode table or the microstore waits while a custom instruction runs, and what follows it with it (R27, R145). -/
def usWaits (k : Nat) (l : List (Nat × Nat × Nat)) : Bool := k == 0x93 || k == 0x94 || (0xA0 ≤ k && k ≤ 0xAF) || !l.isEmpty

/-- A write of special register `k` (R101, R145). -/
def writeSpecial (s : State) (lvl k v : Nat) : State :=
  match s.dx.usHeld with
  | some l => if usWaits k l then xk s fun d => { d with usHeld := some (l ++ [(lvl, k, v)]) } else setSpecial s lvl k v
  | none => setSpecial s lvl k v

/-- The custom instruction has ended or is suspended: the writes that waited take effect (R145). -/
def usRelease (s : State) : State :=
  let l := s.dx.usHeld.getD []
  l.foldl (fun s w => setSpecial s w.1 w.2.1 w.2.2) (xk s fun d => { d with usHeld := none })

/-- A read of special register `k`: its value and the effects of the read (R102, R145, R157). -/
def readSpecial (s : State) (k : Nat) : Nat × State :=
  if k = 2 then (s.dx.cyc % 2 ^ 32, s.put CORE_CYCHI_COUNT (s.dx.cyc / 2 ^ 32))
  else if k = 0x31 then (irqLines s, s)
  else if k = 0x93 then
    let w := Sparse.look 0 s.dx.ustore (s.get CORE_USADDR_ADDR)
    (w % 2 ^ 32, xk s fun d => { d with usHi := w / 2 ^ 32 })
  else if k = 0x94 then (s.dx.usHi, usNext s)
  else (readFields s (0x40002000 + 4 * k), s)

end Sys2Proof.Machine
end

