-- ==== Sys2Proof/Machine/Regs.lean ====
section
/-! DEFINITION. The register pages on the bus (R8 to R13): what each register answers, what a read or a write of it does, and
one bus access judged by the region guard and the rights table. -/

namespace Sys2Proof.Machine

open Sys2Proof

/-! ### What registers answer -/

/-- PWR_DOMSTAT.LINK (R36, R39). -/
def domLink (s : State) : Nat := if s.get LNK_STAT_STATE = 3 then 2 else min (s.get LNK_STAT_STATE) 1

/-- SEC_LCSTAT. -/
def lcStat (s : State) : Nat :=
  lcState s + entries s % 32 * 8 + b2n s.sec.anchor.isSome * 256 + b2n (markStands s) * 512 +
  maskOf 4 (fun k => (s.sec.slots.getD k none).isSome) * 2 ^ 12 + b2n s.sec.tampin * 2 ^ 16

/-- The principal of the session or the open challenge. -/
def sessPrin (s : State) : Nat :=
  match s.sec.sess, s.sec.chal with
  | some x, _ => x.prin
  | none, some x => x.prin
  | none, none => 0

/-- SEC_SESS. -/
def sessStat (s : State) : Nat :=
  b2n s.sec.sess.isSome + 2 * b2n s.sec.chal.isSome + 4 * b2n (s.sec.chal.isSome && s.sec.claim.isSome) + 16 * sessPrin s +
  256 * s.get SEC_SESS_FAILS

/-- TXLVL and RXLVL of a serial block. -/
def fifoLevels (s : State) (k : Nat) : Nat := (port s k).tx.length * 2 ^ 8 + (port s k).rx.length * 2 ^ 16

/-- What the register at `a` answers, where it is computed from the block's state; else its fields. -/
def viewReg (s : State) (a : Nat) : Nat :=
  let v := readFields s a
  if a = 0x40000028 then v + domLink s * 16
  else if a = 0x40000048 then v + b2n (wdRuns s) * 2 ^ 24
  else if a = 0x4000401C then s.ms.remap.length
  else if a = 0x40009068 then s.nvs.tags.length
  else if a = 0x4000C038 then v + min s.disp.upd.length 31 * 2 ^ 16
  else if a = 0x4000E000 then s.sec.devid % 2 ^ 32
  else if a = 0x4000E004 then s.sec.devid / 2 ^ 32 % 2 ^ 32
  else if a = 0x4000E008 then lcStat s
  else if a = 0x4000E040 then sessStat s
  else if a = 0x4000E080 then v + dbgState s * 2 ^ 8 + dapTag s * 2 ^ 12
  else if a = 0x40010010 then v + fifoLevels s 0
  else if a = 0x40011010 then v + fifoLevels s 1
  else if a = 0x40012010 then v + fifoLevels s 2
  else if a = 0x4001300C then v + b2n (uartSends (port s 3)) + 2 * (port s 3).dir + fifoLevels s 3
  else if a = 0x40014008 then maskOf 8 fun n => gpioLevel s n
  else if a = 0x40013018 then uartDiv s % 2 ^ 20
  else v

/-- The serial block whose receive data register lies at `a`. -/
def rxdPort (a : Nat) : Option Nat :=
  if a = 0x4001000C then some 0 else if a = 0x4001100C then some 1 else if a = 0x4001200C then some 2
  else if a = 0x40013008 then some 3 else none

/-- A read that the rights allow: the value, and the effects of the read (R10, R102, R145, R236, R295, R329, R465). -/
def regRead (s : State) (a : Nat) : Nat × State :=
  let o := a % 4096
  if a / 4096 = 0x40002 then readSpecial s (o / 4)
  else if a = 0x40006028 then
    let s := linkTimeLatch s
    (s.get LNK_LTIMELO_TIME, s)
  else if a = 0x4000A000 then
    let s := rtcSnap s
    (readFields s a, s)
  else if a / 4096 = 0x40008 && 0x404 ≤ o && o < 0x440 && o % 16 = 4 then (readFields s a, capLowRead s ((o - 0x404) / 16))
  else match rxdPort a with
    | some k => rxData s k
    | none => (viewReg s a, clearRc s a)

/-! ### What writes do -/

/-- The PWR_ page; LISTEN cleared in Basalt turns the listener off (R241). -/
def pwrWrite (s : State) (a v : Nat) : State :=
  match a % 4096 with
  | 0x000 => basaltOff (writeFields s a v false)
  | 0x004 => (levelRequest (writeFields s a v false) (v % 8) (bitsOf v 8 16) false).2
  | 0x040 => writeWdcfg s v
  | 0x044 => writeWdsvc s v
  | _ => writeFields s a v false

/-- The HRV_ page; a capacitance measurement starts with the VSTO of the last tick. -/
def hrvWrite (s : State) (p a v : Nat) : State :=
  match a % 4096 with
  | 0x000 => writeHrvCfg s v
  | 0x038 => capStart s v (s.get HRV_SUPPLY_VSTO)
  | 0x050 => resReq s p v
  | 0x058 => resRel s p v
  | _ => writeFields s a v false

/-- The MOV_ page. -/
def movWrite (s : State) (p a v : Nat) : State :=
  let o := a % 4096
  if 0x100 ≤ o && o < 0x180 && o % 32 = 0 then writeChctl s ((o - 0x100) / 32) p v else writeFields s a v false

/-- The LNK_ page; LNK_POS is the firmware's only with POSMODE=1 (R226). -/
def lnkWrite (s : State) (p a v : Nat) : State :=
  match a % 4096 with
  | 0x000 => writeLnkCfg s p v
  | 0x004 => if s.on LNK_CFG_POSMODE then writeFields s a v false else s
  | _ => writeFields s a v false

/-- The TBL_ page; a staged descriptor is not written while its commit is pending (R252). -/
def tblWrite (s : State) (a v : Nat) : State :=
  let o := a % 4096
  if o = 0 then writeCommit s v
  else if o = 8 then writeCancel s v
  else if 0x100 ≤ o && o < 0x200 && o % 16 < 8 then
    (if s.bit TBL_CMTSTAT_PEND ((o - 0x100) / 16) then s else writeFields s a v false)
  else writeFields s a v false

/-- A write of EVF_CHPMLOc or EVF_CHPMHIc opens its window (R296). -/
def writeMask (s : State) (a v : Nat) : State :=
  let c := (a % 4096 - 0x100) / 16
  let t := writeFields s a v false
  asyncRise s (if prodMask t c = prodMask s c then t else openWin t (0, c, prodMask s c))

/-- The EVF_ page. A selection, or a channel's mode, may raise an EVO ball (R464). -/
def evfWrite (s : State) (p a v : Nat) : State :=
  let o := a % 4096
  if o = 0 then fire s v
  else if o = 4 then gpioEdges s (writeAsync s v)
  else if 0x100 ≤ o && o < 0x300 && o % 16 = 0 then asyncRise s (writeOwner s ((o - 0x100) / 16) v)
  else if 0x300 ≤ o && o < 0x358 then gpioEdges s (writeCsel s ((o - 0x300) / 4) p v)
  else if 0x100 ≤ o && o < 0x300 then writeMask s a v
  else writeFields s a v false

/-- The NVS_ page. -/
def nvsWrite (s : State) (p a v : Nat) : State :=
  match a % 4096 with
  | 0x024 => writePgcmd s p v
  | 0x030 => writeReccmd s p v
  | 0x040 => writeTlycmd s p v
  | _ => writeFields s a v false

/-- The RTC_ page; staging is refused while a commit is pending (R332). -/
def rtcWrite (s : State) (a v : Nat) : State :=
  match a % 4096 with
  | 0x008 | 0x00C => if s.on RTC_STAT_CPEND then rtcEvt s 7 else writeFields s a v false
  | 0x010 => writeRtcCommit s v
  | 0x020 | 0x024 | 0x030 | 0x034 => writeFields (noteLf s a) a v false
  | 0x028 => afterAlmcfg (writeFields (noteLf s a) a v false) 0 v
  | 0x038 => afterAlmcfg (writeFields (noteLf s a) a v false) 1 v
  | 0x040 => afterPeriod (writeFields (noteLf s a) a v false)
  | 0x044 => afterCal (writeFields s a v false)
  | _ => writeFields s a v false

/-- EPD_CFG: EN is not cleared while an update runs or waits, SEG not changed while the panel is scanned. -/
def writeEpdCfg (s : State) (v : Nat) : State :=
  let t := (s.put EPD_CFG_THSEL (v / 2)).put EPD_CFG_REV (v / 4)
  let t := if !bitOf v 0 && !s.disp.upd.isEmpty then t else t.put EPD_CFG_EN v
  if s.on EPD_STAT_SCAN then t else t.put EPD_CFG_SEG (v / 16)

/-- The EPD_ page. -/
def epdWrite (s : State) (p a v : Nat) : State :=
  let o := a % 4096
  if o = 0 then writeEpdCfg s v
  else if o = 4 || o = 8 || o = 0xC then (if s.on EPD_STAT_SCAN then s else writeFields s a v false)
  else if o = 0x30 then writeEpdInit s v
  else if o = 0x34 then writeEpdCtl s v
  else if o = 0x90 then writeRqctl s 0 p v
  else if o = 0xB0 then writeRqctl s 1 p v
  else if 0x200 ≤ o && o < 0x400 && o % 32 < 12 then
    writeRegion s ((o - 0x200) / 32) p (o % 32 == 8) fun t => writeFields t a v false
  else writeFields s a v false

/-- The TCH_ page; TCH_PINCFG is not written while EN=1 (R370). -/
def tchWrite (s : State) (a v : Nat) : State :=
  match a % 4096 with
  | 0x000 => writeTchCfg s v
  | 0x004 => if s.on TCH_CFG_EN then s else afterPincfg (writeFields s a v false)
  | _ => writeFields s a v false

/-- The SEC_ page. -/
def secWrite (s : State) (a v : Nat) : State :=
  let o := a % 4096
  if o = 0x80 then writeDbgctl s v
  else if 0xA0 ≤ o && o < 0xB0 then s.put (SEC_DBGRSP_DATA ((o - 0xA0) / 4)) v
  else if o = 0xC0 then writeLccmd s v
  else writeFields s a v false

/-- The condition of irq8 or irq9 holds (R405). -/
def mbxRings (s : State) : Bool :=
  s.get MBX_FMDONE_DONE &&& s.get MBX_FMINTEN_EN != 0 || s.get MBX_LFDB_ENTRY &&& s.get MBX_LFINTEN_EN != 0

/-- The MBX_ page; an enable may raise the doorbell's condition. -/
def mbxWrite (s : State) (p a v : Nat) : State :=
  match a % 4096 with
  | 0x000 => writeFmdb s p v
  | 0x018 => writeLfrpl s v
  | _ =>
    let t := writeFields s a v false
    doorbell t (!mbxRings s && mbxRings t)

/-- The SPI, I2C, UART and GPIO pages. -/
def portWrite (s : State) (a v : Nat) : State :=
  if a = 0x40010000 then writeSpiCfg s 0 v
  else if a = 0x40011000 then writeSpiCfg s 1 v
  else if a = 0x40010004 then spiCmd s 0 v
  else if a = 0x40011004 then spiCmd s 1 v
  else if a = 0x40010008 then txData s 0 v
  else if a = 0x40011008 then txData s 1 v
  else if a = 0x40012000 then writeI2cCfg s v
  else if a = 0x40012004 then i2cCmd s v
  else if a = 0x40012008 then txData s 2 v
  else if a = 0x40013004 then txData s 3 v
  else if a = 0x40013000 then writeUartCfg s (writeFields s a v false)
  else if a = 0x40014000 || a = 0x40014004 || a = 0x4001400C then writeGpio s fun t => writeFields t a v false
  else writeFields s a v false

/-- A write that the rights allow, by principal `p`. -/
def regWrite (s : State) (p a v : Nat) : State :=
  match a / 4096 with
  | 0x40000 => pwrWrite s a v
  | 0x40001 => hrvWrite s p a v
  | 0x40002 => writeSpecial s 2 (a % 4096 / 4) v
  | 0x40003 => writeFields s a v (s.on MEM_RGCFG_LOCK)
  | 0x40004 => if a = 0x40004004 then writeDrmSess s p v else writeFields s a v false
  | 0x40005 => movWrite s p a v
  | 0x40006 => lnkWrite s p a v
  | 0x40007 => tblWrite s a v
  | 0x40008 => evfWrite s p a v
  | 0x40009 => nvsWrite s p a v
  | 0x4000A => rtcWrite s a v
  | 0x4000B =>
    if a = 0x4000B008 then writeSegCommit s v
    else if a = 0x4000B000 then afterSegCfg (writeFields s a v false) else writeFields s a v false
  | 0x4000C => epdWrite s p a v
  | 0x4000D => tchWrite s a v
  | 0x4000E => secWrite s a v
  | 0x4000F => mbxWrite s p a v
  | _ => portWrite s a v

/-! ### One bus access -/

/-- LINK, stopped, runs for an access: the capture units take the events held for them (R285). -/
def linkWake (s : State) : State :=
  if 2 ≤ s.get LNK_STAT_STATE then s
  else (List.range 4).foldl (fun s n => if bitOf s.evHeld (8 + n) then capture (takeHeld s (8 + n)) n else s) s

/-- An access starts the page's domain where it is stopped, and SYS, which leads to the LINK and PIX pages (R24 to R26, R64).
The LNK_ page is then served from its retained registers (R246); that of the table server starts LINK for the access alone
(DEDUCED, log entry 105). -/
def pageWake (s : State) (a : Nat) : State :=
  if a / 4096 = 0x4000C then pixWake s
  else if a / 4096 = 0x40007 then linkWake (demandStart s 0)
  else if [0x40002, 0x40003, 0x40004, 0x40005, 0x40006, 0x40009, 0x4000A, 0x4000B].contains (a / 4096) || 0x40010000 ≤ a then
    demandStart s 0
  else s

/-- A bus access starts the domains it needs (R25, R64): SYS for every memory but the ROM and the banks that the management
controller reaches through its AON ports (R173). -/
def busWake (s : State) (m : Master) (a : Nat) : State :=
  if inPage a then pageWake s a
  else if inRom a || (m == .mgmt && inSram a && 6 ≤ bankOf a) then s else demandStart s 0

/-- A bus read of an aligned word by a master with tag `p`. A word that reads uncorrectable is answered so on State.bus: the
table of R177 has no row for the debug access port (DESIGN CHOICE, log entry 117). -/
def busRead (s : State) (m : Master) (p a : Nat) : State :=
  match if a % 4 = 0 then access s m p a 4 0 0 else .busErr with
  | .busErr => { s with bus := .busError a }
  | .refuse r => { recordRefusal s m p a 0 r with bus := .guard a }
  | .ok =>
    if inPage a then
      let (v, s) := regRead (busWake s m a) a
      { s with bus := .ok v }
    else match readMem (busTurn (busWake s m a) a) m a 4 with
      | (some v, s) => { s with bus := .ok v }
      | (none, s) => { s with bus := .uncorrectable a }

/-- A bus write of an aligned word by a master with tag `p`; `f` is what an allowed write of the register does. A write of part of a
burst that reads uncorrectable is answered so on State.bus (R177; DESIGN CHOICE, log entry 117). -/
def busWriteBy (f : State → State) (s : State) (m : Master) (p a v : Nat) : State :=
  match if a % 4 = 0 then access s m p a 4 1 v else .busErr with
  | .busErr => { s with bus := .busError a }
  | .refuse r => { recordRefusal s m p a 1 r with bus := .guard a }
  | .ok =>
    if inPage a then { f (busWake s m a) with bus := .ok 0 }
    else match writeMem (busTurn (busWake s m a) a) m a 4 v with
      | (true, s) => { s with bus := .ok 0 }
      | (false, s) => { s with bus := .uncorrectable a }

/-- A bus write of an aligned word by a master with tag `p`. -/
def busWrite (s : State) (m : Master) (p a v : Nat) : State := busWriteBy (fun t => regWrite t p a v) s m p a v

end Sys2Proof.Machine
end

