-- ==== Sys2Proof/Machine/StoreBuf.lean ====
section
/-! DEFINITION. The store buffer (R162 to R165), and the hold capacitor's wait (R301). -/

namespace Sys2Proof.Machine

open Sys2Proof

/-- The core issues bundles: released, in Run, with no SLEEP and no reset under way. -/
def coreRuns (s : State) : Bool :=
  s.dx.running && s.get PWR_DOMSTAT_STATE == 0 && s.pwr.entry.isNone && s.boot.isNone

/-- Perform a store at its target: whether it succeeded (R162, R163). Writes to pages of different domains, which R27 lets land in
either order, land in the order the core issued them, buffered or not (DESIGN CHOICE, log entry 119). -/
def performStore (s : State) (st : Store) : Bool × State :=
  if inPage st.addr then (true, regWrite (pageWake s st.addr) st.tag st.addr st.val)
  else writeMem (busTurn s st.addr) .core st.addr st.size st.val

/-- A store of the NV store at the head of the buffer waits for the move of its page (R309), in which it may be written as the hold
capacitor becomes ready: then the buffer is one shorter. -/
def headMoved (s : State) : State :=
  match s.dx.stores with
  | st :: _ => if inNv st.addr then nvWait s st.addr else s
  | [] => s

/-- Complete the head of the buffer, which keeps its place in front of the others until it is performed (R162). A word write of the
NV store waits for the hold capacitor first (R301). -/
def completeHead (s : State) : State :=
  let n := s.dx.stores.length
  let s := headMoved s
  if s.dx.stores.length < n then s
  else match s.dx.stores with
    | [] => s
    | st :: t =>
      let (ok, s) := performStore (xk s fun d => { d with stores := t }) st
      if ok then noteLater s else lateError s st

/-- Complete up to `n` stores in order. -/
def completeStores : Nat → State → State
  | 0, s => s
  | n + 1, s => completeStores n (completeHead s)

/-- The buffer drains (R51, R114, R151, R165). -/
def drainStores (s : State) : State := completeStores s.dx.stores.length s

/-- The core waits while the buffer drains: its cycles count, and the rules give no length (R102, R118). -/
def drainWait (s : State) : State := if s.dx.stores.isEmpty then s else drainStores (bundleTick s 0 none)

/-- The buffer drains after a change of STBUF (R165). -/
def stbufDrain (s : State) : State := if s.dx.drainDue then xk (drainWait s) fun d => { d with drainDue := false } else s

/-- How many stores, from the oldest, end with the last one that `p` picks. -/
def throughLast (p : Store → Bool) : List Store → Nat
  | [] => 0
  | st :: t => let k := throughLast p t; if k != 0 then k + 1 else if p st then 1 else 0

/-- An address of the CORE_ page, which mirrors the special registers (R8). -/
def mirror (a : Nat) : Bool := inPage a && a / 4096 == 0x40002

/-- What the core stored to the CORE_ page is seen by the next bundle: the buffer drains through the last such store first (R8,
R162). That the core waits for it, and that it lands over an MVTS of its own bundle, are a DESIGN CHOICE (log entry 123). -/
def mirrorDrain (s : State) : State :=
  let n := throughLast (fun st => mirror st.addr) s.dx.stores
  if n = 0 then s else completeStores n (bundleTick s 0 none)

/-- What lands between two bundles (R8, R165). -/
def boundary (s : State) : State := stbufDrain (mirrorDrain s)

/-- BUFFERED_STORE_COMPLETE (R162): the oldest store completes at its target. -/
def execBufferedStoreComplete (s : State) : Host.Outcome State Fault Refusal :=
  live s (if headWaits s then s else completeHead s)

/-- HOLD_CAPACITOR_READY (R301): a reset sequence that waits for the wipes of a transition goes on too (R389). -/
def execHoldCapacitorReady (s : State) : Host.Outcome State Fault Refusal := live s (holdUp s)

/-- HOLD_WAIT_TIMEOUT (R301): the word that has waited 10 µs fails. -/
def execHoldWaitTimeout (s : State) : Host.Outcome State Fault Refusal :=
  live s (if holdReady s then s else if headWaits s then failHead s else opFail s)

/-! ### Bytes a load waits for -/

/-- Two ranges of bytes meet. -/
def rangesMeet (a n b k : Nat) : Bool := decide (a < b + k) && decide (b < a + n)

/-- A load of `n` bytes at `a` waits for a buffered store: it reads a byte of it, or lies in the same register page (R27, R162). -/
def loadWaits (a n : Nat) (st : Store) : Bool :=
  if inPage a then inPage st.addr && st.addr / 4096 == a / 4096
  else !inPage st.addr && rangesMeet (unalias a) n (unalias st.addr) st.size

/-- The stores a load waits for complete first. -/
def beforeLoad (s : State) (a n : Nat) : State := completeStores (throughLast (loadWaits a n) s.dx.stores) s

/-- The core was restarted, or stopped, while older stores of the bundle in hand completed. -/
def restarted (s t : State) : Bool := !coreRuns t || !s.dx.bundle.isEmpty && t.dx.bundle.isEmpty

/-- A store that passed its checks: into the buffer with STBUF=1, room made by completing the oldest; at its target at once with
STBUF=0, once every store that is still buffered has completed (R162 to R164). False when the target reports an error. A reset that
an older store starts as it completes ends it (R22). -/
def issueStore (s : State) (st : Store) : Bool × State :=
  if s.on CORE_EXCCFG_STBUF then
    if s.dx.stores.length < 4 then (true, xk s fun d => { d with stores := d.stores ++ [st] })
    else
      let t := completeHead s
      (true, if restarted s t then t else xk t fun d => { d with stores := d.stores ++ [st] })
  else
    let t := drainWait s
    if !s.dx.stores.isEmpty && restarted s t then (true, t)
    else
      let (ok, s) := performStore t st
      (ok, if ok then noteLater s else s)

end Sys2Proof.Machine
end

