-- ==== Sys2Proof/Machine/Entry.lean ====
section
/-! DEFINITION. The DX core's registers as bundles see them, exception entry, asynchronous entries and the double fault (R95, R100,
R147 to R163, R166). -/

namespace Sys2Proof.Machine

open Sys2Proof

/-! ### Registers (R95, R100) -/

/-- The shadow record stands in for register `r`: no bundle has completed since the RETE (R100). -/
def shadowed (s : State) (r : Nat) : Bool := s.dx.armShadow && s.get CORE_LSHAD_REG == r

/-- Register `r` as a bundle reads it: g0 reads 0, and 32 to 35 are the microcode's u0 to u3 (R95, R137). -/
def rd (s : State) (r : Nat) : Word :=
  if r = 0 then 0
  else if 32 ≤ r then BitVec.ofNat 32 (s.get (CORE_UT_VALUE (r - 32)))
  else if shadowed s r then BitVec.ofNat 32 (s.get CORE_LSHADV_VALUE)
  else s.dx.g[r]?.getD 0

/-- Write register `r`; writes of g0 are discarded (R95). -/
def wg (s : State) (r : Nat) (v : Word) : State :=
  if r = 0 then s
  else if 32 ≤ r then s.put (CORE_UT_VALUE (r - 32)) v.toNat
  else xk s fun d => { d with g := d.g.setIfInBounds r v }

/-- A write by a long instruction under way, which must see it again: to the shadow's value where the record stands in. -/
def wgLong (s : State) (r : Nat) (v : Word) : State :=
  if r != 0 && shadowed s r then s.put CORE_LSHADV_VALUE v.toNat else wg s r v

/-- Predicate `i`; p0 reads 1 (R95). -/
def pd (s : State) (i : Nat) : Bool := i == 0 || s.bit CORE_PRED_P1_P7 (i - 1)

/-- Write predicate `i`; writes of p0 are discarded (R95). -/
def wp (s : State) (i : Nat) (v : Bool) : State :=
  if i = 0 then s
  else if v then s.setBit CORE_PRED_P1_P7 (i - 1) else s.clrBits CORE_PRED_P1_P7 (2 ^ (i - 1))

/-- Accumulator `i`. -/
def ac (s : State) (i : Nat) : BitVec 40 := s.dx.acc[i]?.getD 0

/-- Write accumulator `i`. -/
def wa (s : State) (i : Nat) (v : BitVec 40) : State := xk s fun d => { d with acc := d.acc.setIfInBounds i v }

/-- The loads in flight land (R98). -/
def landLoads (s : State) : State :=
  let l := s.dx.loads
  l.foldl (fun s e => wg s e.1 (BitVec.ofNat 32 e.2)) (xk s fun d => { d with loads := [] })

/-- The core's level (R147). -/
def coreLvl (s : State) : Nat := min (s.get CORE_STATUS_PL) 2

/-! ### Entry (R149 to R152) -/

/-- The progress of a long instruction (R166). -/
inductive Prog where
  | multi (next addr : Nat)
  | bmov
  | custom (upc lc : Nat) (z : Bool)
  deriving DecidableEq, Repr

/-- An entry: slot, CORE_EPC, position of the deciding syllable, whether a fetch raised it, the faulting address, and for an
interrupt the threshold it sets. -/
structure Ent where
  slot : Nat
  epc : Nat
  sylix : Nat
  fetch : Bool
  faddr : Option Nat
  thr : Option Nat
  deriving DecidableEq, Repr

/-- The level an entry is handled at (R149, R150). -/
def handleLevel (s : State) (slot : Nat) : Nat :=
  if slot ≤ 2 then 2
  else if 64 ≤ slot then (if slot < 96 && coreLvl s < 2 then 1 else 2)
  else if 16 ≤ slot then (if s.bit CORE_IRQDLG_LINES (slot - 16) then 1 else 2)
  else if coreLvl s = 2 then 2
  else if s.bit CORE_EXCDLG_DLG (slot - 3) then 1 else 2

/-- The shadow record at an entry (R100): of the first load in flight, which lands; else none, unless the record of a return
still stands because no bundle has completed. Of the pair that an LDD loads the record names the first register: R100 has room
for one, and the second reads its loaded value after the return (DESIGN CHOICE, log entry 57). -/
def shadowAtEntry (s : State) : State :=
  match s.dx.loads with
  | (r, _) :: _ =>
    let old := rd s r
    landLoads (((s.put CORE_LSHAD_VALID 1).put CORE_LSHAD_REG r).put CORE_LSHADV_VALUE old.toNat)
  | [] => if s.dx.armShadow then s else s.put CORE_LSHAD_VALID 0

/-- CORE_PROG and CORE_PROGA at an entry (R166, R167). -/
def progAtEntry (s : State) : Option Prog → State
  | some (.multi n a) =>
    (((s.put CORE_PROG_VALID 1).put CORE_PROG_KIND 1).put CORE_PROG_NEXT n).put CORE_PROGA_ADDR a
  | some .bmov => (s.put CORE_PROG_VALID 1).put CORE_PROG_KIND 2
  | some (.custom u lc z) =>
    let s := (((s.put CORE_PROG_VALID 1).put CORE_PROG_KIND 3).put CORE_PROG_NEXT u).put CORE_PROG_LC lc
    (s.put CORE_PROG_Z (b2n z)).put CORE_USUSP_SGEN (s.get CORE_UCFG_GEN)
  | none => s.put CORE_PROG_VALID 0

/-- CORE_REPST at an entry (R134): iterations still to run where an iteration raised it. -/
def repAtEntry (s : State) : Option Nat → State
  | some n => (s.put CORE_REPST_VALID 1).put CORE_REPST_REMAIN n
  | none => s.put CORE_REPST_VALID 0

/-- Steps 2 and 3 of R151: the return address, the cause, the level. -/
def statusAtEntry (s : State) (e : Ent) : State :=
  let h := handleLevel s e.slot
  let s := (((s.put CORE_EPC_ADDR (e.epc / 4)).put CORE_ECAUSE_SLOT e.slot).put CORE_ECAUSE_SYLIX e.sylix)
  let s := (s.put CORE_ECAUSE_FETCH (b2n e.fetch)).put CORE_ECAUSE_HLVL h
  let s := match e.faddr with | some a => s.put CORE_FADDR_ADDR a | none => s
  let s := (s.put CORE_STATUS_PPL (coreLvl s)).put CORE_STATUS_PIE (s.get CORE_STATUS_IE)
  let s := (s.put CORE_STATUS_PTHR (s.get CORE_STATUS_THR)).put CORE_STATUS_PL h
  let s := (s.put CORE_STATUS_IE 0).put CORE_STATUS_EL 1
  match e.thr with | some t => s.put CORE_STATUS_THR t | none => s

/-- The address of a vector slot (R149). -/
def vector (slot : Nat) : Nat := 0x10000000 + 32 * slot

/-- The core goes on at an address with nothing gathered. -/
def goTo (s : State) (a : Nat) : State := xk s fun d => { d with pc := a % 2 ^ 32, bundle := [], rep := none }

/-- Taking an entry (R151): `prog` the progress of a long instruction it cuts, `rem` the iterations left of a repeat it cuts. -/
def takeIn (s : State) (e : Ent) (prog : Option Prog) (rem : Option Nat) : State :=
  let s := repAtEntry (progAtEntry (shadowAtEntry (statusAtEntry s e)) prog) rem
  let s := xk s fun d => { d with armShadow := false, armProg := false, deferred := false, loads := [] }
  tick (goTo s (vector e.slot)) 4

/-- A double fault (R152): recorded, and a software reset starts. -/
def doubleFault (s : State) (slot : Nat) : State :=
  let s := (s.put CORE_DBLF_SLOT slot).put CORE_DBLF_PSLOT (s.get CORE_ECAUSE_SLOT)
  callReset (s.put CORE_DBLF_VALID 1) 8

/-- A precise exception or a trap is raised (R152). -/
def raise (s : State) (e : Ent) (prog : Option Prog) (rem : Option Nat) : State :=
  if s.on CORE_STATUS_EL then doubleFault s e.slot else takeIn s e prog rem

/-! ### Asynchronous entries (R158 to R160, R163) -/

/-- The priority of a line. -/
def linePri (s : State) (n : Nat) : Nat := s.get (CORE_IRQPRI_PRI (n / 8) (n % 8))

/-- Line `n` is a candidate (R158). -/
def candidate (s : State) (n : Nat) : Bool :=
  let l := handleLevel s (16 + n)
  bitOf (irqLines s) n && s.bit CORE_IRQEN_LINES n && decide (min (s.get CORE_STATUS_THR) 8 ≤ linePri s n) &&
  (decide (coreLvl s < l) || l == coreLvl s && s.on CORE_STATUS_IE)

/-- The candidate of highest priority, the lowest line among equals (R158). -/
def bestLine (s : State) : Option Nat :=
  (List.range 32).foldl (fun b n =>
    if candidate s n then
      match b with
      | some m => if linePri s m < linePri s n then some n else b
      | none => some n
    else b) none

/-- The slot of the asynchronous entry that is pending and not held by EL, in the order of R159, with the threshold an interrupt
sets (R151). -/
def asyncKind (s : State) : Option (Nat × Option Nat) :=
  if s.on CORE_STATUS_EL then none
  else if s.dx.mcPend then some (2, none)
  else if s.dx.nmiWd || s.dx.nmiTamper then some (1, none)
  else (bestLine s).map fun n => (16 + n, some (linePri s n + 1))

/-- The machine check of a drain that a change of STBUF called for pends: it is taken before the next bundle, whatever loads are
in flight (R165). -/
def drainCheck (s : State) : Bool := s.dx.mcDrain && s.dx.mcPend

/-- From REP to its last iteration no asynchronous entry is taken, the machine check of a drain included (R132): R165 takes that
one before the next bundle, and where this is a repeated one it waits until the iterations have run (DEDUCED, log entry 122). -/
def repHolds (s : State) : Bool := s.dx.rep.isSome

/-- The asynchronous entry decided at this bundle boundary (R99, R132, R159, R165). -/
def dueEntry (s : State) : Option (Nat × Option Nat) :=
  if coreRuns s && s.dx.bundle.isEmpty && !repHolds s && (s.dx.loads.isEmpty || s.dx.deferred || drainCheck s) then asyncKind s
  else none

/-- Take an asynchronous entry (R151, R160): a machine check drains the store buffer first. No syllable decides one, and
CORE_ECAUSE.SYLIX reads 0 (DESIGN CHOICE, log entry 102). No repeat is under way, and VALID of CORE_REPST becomes 0 (R132, R134).
-/
def enterAsync (s : State) (k : Nat × Option Nat) (epc : Nat) (prog : Option Prog) : State :=
  let e : Ent := ⟨k.1, epc, 0, false, none, k.2⟩
  if k.1 = 2 then
    let s := drainWait s
    if s.dx.mcPend then takeIn (xk s fun d => { d with mcPend := false, mcDrain := false }) e prog none else s
  else if k.1 = 1 then takeIn (xk s fun d => { d with nmiWd := false, nmiTamper := false }) e prog none
  else takeIn s e prog none

/-- Take the entry decided at this boundary when it is of the kind `p`. -/
def takeEntry (s : State) (p : Nat → Bool) : State :=
  match dueEntry s with
  | some k => if p k.1 then enterAsync s k s.dx.pc none else s
  | none => s

/-- INTERRUPT_ENTRY (R158, R151). -/
def execInterruptEntry (s : State) : Host.Outcome State Fault Refusal := live s (takeEntry s fun k => decide (16 ≤ k))

/-- NMI_ENTRY (R160, R151). -/
def execNmiEntry (s : State) : Host.Outcome State Fault Refusal := live s (takeEntry s fun k => k == 1)

/-- MACHINE_CHECK_ENTRY (R163, R151). -/
def execMachineCheckEntry (s : State) : Host.Outcome State Fault Refusal := live s (takeEntry s fun k => k == 2)

end Sys2Proof.Machine
end

