-- ==== Sys2Proof/Machine/RegRows.lean ====
section
/-! DEFINITION. The rows that are one bus access: a register write or read by a master, and DAPACC (R8 to R13, R399, R463). -/

namespace Sys2Proof.Machine

open Sys2Proof

/-- The master can make an access of its own choosing on the bus now: the core while it issues bundles, the management
controller while it runs, the debug access port (R28). The core's waits while an asynchronous entry is to be taken first (R159).
The other masters' accesses to pages are no commands of theirs (R8, R32). -/
def masterActs (s : State) : Master → Bool
  | .core => coreRuns s && (dueEntry s).isNone
  | .dap => true
  | .mgmt => s.cmd.mgmtUp
  | _ => false

/-- An access of the core follows its buffered stores (R162). -/
def ordered (s : State) (m : Master) : State := if m = .core && masterActs s .core then drainStores s else s

/-- What stops an access of the core reaches it (R112, R154, R163, R164, R177, R185): an exception at the bundle the core stands
at, in place of the store or load that makes the access (DESIGN CHOICE, log entry 63), with the iterations left of a repeat of
that bundle (R134), or a late bus error of a buffered store. A store that completes behind a failed one counts (R163). -/
def coreTakes (s : State) (a v : Nat) (store : Bool) : State :=
  let rem := (s.dx.rep.filter fun r => r.kind != 2).map fun r => r.count
  let exc (k : Nat) : State := raise s ⟨k, s.dx.pc, 0, false, some a, none⟩ none rem
  match s.bus with
  | .guard _ => exc 9
  | .busError _ => exc (if a % 4 = 0 then 8 else 5)
  | .uncorrectable _ => if store && s.on CORE_EXCCFG_STBUF then lateError s ⟨a, 4, v, 0, coreTag s⟩ else exc 8
  | _ => if store then noteLater s else s

/-- A write by a master with the tag it carries (R28); `f` is what an allowed write does. -/
def rowWriteBy (f : State → State) (m : Master) (a v : Nat) (s : State) : State :=
  let s := ordered s m
  if !masterActs s m then s
  else
    let t := busWriteBy f s m (masterTag s m) a v
    if m = .core then coreTakes t a v true else t

/-- A write by a master with the tag it carries (R28). -/
def rowWrite (m : Master) (a v : Nat) (s : State) : State :=
  rowWriteBy (fun t => regWrite t (masterTag (ordered s m) m) a v) m a v s

/-- A read by a master with the tag it carries (R28). -/
def rowRead (m : Master) (a : Nat) (s : State) : State :=
  let s := ordered s m
  if !masterActs s m then s
  else
    let t := busRead s m (masterTag s m) a
    if m = .core then coreTakes t a 0 false else t

/-- REGISTER_WRITE (R10). -/
def execRegisterWrite (m : Master) (addr v : Word) (s : State) : Host.Outcome State Fault Refusal :=
  live s (rowWrite m addr.toNat v.toNat s)

/-- A word store by the core, judged as any access and then made through the store buffer (R162, R175). -/
def coreWordStore (s : State) (a v : Nat) : State :=
  match if a % 4 = 0 then access s .core (coreTag s) a 4 1 v else .busErr with
  | .busErr => coreTakes { s with bus := .busError a } a v true
  | .refuse r => coreTakes { recordRefusal s .core (coreTag s) a 1 r with bus := .guard a } a v true
  | .ok => match issueStore s ⟨a, 4, v, if inSet a then 1 else if inClr a then 2 else 0, coreTag s⟩ with
    | (true, s) => { s with bus := .ok 0 }
    | (false, s) => coreTakes { s with bus := .uncorrectable a } a v true

/-- ALIAS_WRITE (R175): by the core a store like any other, after the drain that a change of STBUF calls for (R165); the debug
port's is made at once; to another master an alias is a bus error. -/
def execAliasWrite (m : Master) (addr v : Word) (s : State) : Host.Outcome State Fault Refusal :=
  live s (
    let a := addr.toNat
    if m = .core then
      let s := if masterActs s .core then stbufDrain s else s
      if masterActs s .core then coreWordStore s a v.toNat else s
    else if (inSet a || inClr a) && !masterActs s m && m != .mgmt then { s with bus := .busError a }
    else rowWrite m a v.toNat s)

/-- LEVEL_REQUEST (R43): PWR_LEVEL. -/
def execLevelRequest (m : Master) (v : Word) (s : State) : Host.Outcome State Fault Refusal :=
  live s (rowWrite m 0x40000004 v.toNat s)

/-- WATCHDOG_SERVICE (R429): PWR_WDSVC. -/
def execWatchdogService (m : Master) (v : Word) (s : State) : Host.Outcome State Fault Refusal :=
  live s (rowWrite m 0x40000044 v.toNat s)

/-- RESERVATION_PREREQUEST (R82): HRV_RESREQ. -/
def execReservationPrerequest (m : Master) (v : Word) (s : State) : Host.Outcome State Fault Refusal :=
  live s (rowWrite m 0x40001050 v.toNat s)

/-- RESERVATION_RELEASE (R82): HRV_RESREL. -/
def execReservationRelease (m : Master) (v : Word) (s : State) : Host.Outcome State Fault Refusal :=
  live s (rowWrite m 0x40001058 v.toNat s)

/-- MICROSTORE_WRITE_LOW (R145): CORE_USDLO. -/
def execMicrostoreWriteLow (m : Master) (v : Word) (s : State) : Host.Outcome State Fault Refusal :=
  live s (rowWrite m 0x4000224C v.toNat s)

/-- MICROSTORE_WRITE_HIGH (R145): CORE_USDHI. -/
def execMicrostoreWriteHigh (m : Master) (v : Word) (s : State) : Host.Outcome State Fault Refusal :=
  live s (rowWrite m 0x40002250 v.toNat s)

/-- CORE_SOFTWARE_RESET_WRITE (R148): CORE_SWRST. -/
def execCoreSoftwareResetWrite (m : Master) (v : Word) (s : State) : Host.Outcome State Fault Refusal :=
  live s (rowWrite m 0x400020B0 v.toNat s)

/-- DRAM_SESSION_OPEN (R194): DRM_SESS. -/
def execDramSessionOpen (m : Master) (v : Word) (s : State) : Host.Outcome State Fault Refusal :=
  live s (rowWrite m 0x40004004 v.toNat s)

/-- DRAM_SESSION_CLOSE (R194): DRM_SESS. -/
def execDramSessionClose (m : Master) (v : Word) (s : State) : Host.Outcome State Fault Refusal :=
  live s (rowWrite m 0x40004004 v.toNat s)

/-- MOVER_START (R200): MOV_CHCTLn. -/
def execMoverStart (m : Master) (n : Nat) (v : Word) (s : State) : Host.Outcome State Fault Refusal :=
  live s (rowWrite m (0x40005100 + 32 * n) v.toNat s)

/-- MOVER_STOP (R200): MOV_CHCTLn. -/
def execMoverStop (m : Master) (n : Nat) (v : Word) (s : State) : Host.Outcome State Fault Refusal :=
  live s (rowWrite m (0x40005100 + 32 * n) v.toNat s)

/-- LINK_TRAIN_COMMAND (R241): LNK_CFG. -/
def execLinkTrainCommand (m : Master) (v : Word) (s : State) : Host.Outcome State Fault Refusal :=
  live s (rowWrite m 0x40006000 v.toNat s)

/-- TABLE_COMMIT_REQUEST (R253): TBL_COMMIT. -/
def execTableCommitRequest (m : Master) (v : Word) (s : State) : Host.Outcome State Fault Refusal :=
  live s (rowWrite m 0x40007000 v.toNat s)

/-- TABLE_CANCEL (R255): TBL_CANCEL. -/
def execTableCancel (m : Master) (v : Word) (s : State) : Host.Outcome State Fault Refusal :=
  live s (rowWrite m 0x40007008 v.toNat s)

/-- EVENT_FIRE (R291): EVF_FIRE. -/
def execEventFire (m : Master) (v : Word) (s : State) : Host.Outcome State Fault Refusal :=
  live s (rowWrite m 0x40008000 v.toNat s)

/-- ASYNC_MODE_WRITE (R288): EVF_ASYNC. -/
def execAsyncModeWrite (m : Master) (v : Word) (s : State) : Host.Outcome State Fault Refusal :=
  live s (rowWrite m 0x40008004 v.toNat s)

/-- CHANNEL_OWNER_WRITE (R293): EVF_CHOWNc. -/
def execChannelOwnerWrite (m : Master) (c : Nat) (v : Word) (s : State) : Host.Outcome State Fault Refusal :=
  live s (rowWrite m (0x40008100 + 16 * c) v.toNat s)

/-- PAGE_COMMAND (R305): NVS_PGCMD. -/
def execPageCommand (m : Master) (v : Word) (s : State) : Host.Outcome State Fault Refusal :=
  live s (rowWrite m 0x40009024 v.toNat s)

/-- NVS_RECORD_READ (R313): NVS_RECCMD. -/
def execNvsRecordRead (m : Master) (v : Word) (s : State) : Host.Outcome State Fault Refusal :=
  live s (rowWrite m 0x40009030 v.toNat s)

/-- NVS_RECORD_WRITE (R314): NVS_RECCMD. -/
def execNvsRecordWrite (m : Master) (v : Word) (s : State) : Host.Outcome State Fault Refusal :=
  live s (rowWrite m 0x40009030 v.toNat s)

/-- NVS_TALLY_READ (R319): NVS_TLYCMD. -/
def execNvsTallyRead (m : Master) (v : Word) (s : State) : Host.Outcome State Fault Refusal :=
  live s (rowWrite m 0x40009040 v.toNat s)

/-- NVS_TALLY_ADD (R318): NVS_TLYCMD. -/
def execNvsTallyAdd (m : Master) (v : Word) (s : State) : Host.Outcome State Fault Refusal :=
  live s (rowWrite m 0x40009040 v.toNat s)

/-- RTC_COMMIT (R331). -/
def execRtcCommit (m : Master) (v : Word) (s : State) : Host.Outcome State Fault Refusal :=
  live s (rowWrite m 0x4000A010 v.toNat s)

/-- SEG_COMMIT (R345). -/
def execSegCommit (m : Master) (v : Word) (s : State) : Host.Outcome State Fault Refusal :=
  live s (rowWrite m 0x4000B008 v.toNat s)

/-- SEG_ENABLE (R348): SEG_CFG. -/
def execSegEnable (m : Master) (v : Word) (s : State) : Host.Outcome State Fault Refusal :=
  live s (rowWrite m 0x4000B000 v.toNat s)

/-- EPD_INIT (R358). -/
def execEpdInit (m : Master) (v : Word) (s : State) : Host.Outcome State Fault Refusal :=
  live s (rowWrite m 0x4000C030 v.toNat s)

/-- EPD_STATE_OK (R358): EPD_CTL. -/
def execEpdStateOk (m : Master) (v : Word) (s : State) : Host.Outcome State Fault Refusal :=
  live s (rowWrite m 0x4000C034 v.toNat s)

/-- EPD_REQUEST (R362): EPD_RQCTLs. -/
def execEpdRequest (m : Master) (set : Nat) (v : Word) (s : State) : Host.Outcome State Fault Refusal :=
  live s (rowWrite m (0x4000C090 + 32 * set) v.toNat s)

/-- DEBUG_OPEN (R400): SEC_DBGCTL. -/
def execDebugOpen (m : Master) (v : Word) (s : State) : Host.Outcome State Fault Refusal :=
  live s (rowWrite m 0x4000E080 v.toNat s)

/-- DEBUG_PROVE (R400): SEC_DBGCTL. -/
def execDebugProve (m : Master) (v : Word) (s : State) : Host.Outcome State Fault Refusal :=
  live s (rowWrite m 0x4000E080 v.toNat s)

/-- DEBUG_END (R400): SEC_DBGCTL. -/
def execDebugEnd (m : Master) (v : Word) (s : State) : Host.Outcome State Fault Refusal :=
  live s (rowWrite m 0x4000E080 v.toNat s)

/-- LC_BLANK_TO_MADE (R386): SEC_LCCMD. -/
def execLcBlankToMade (m : Master) (v : Word) (s : State) : Host.Outcome State Fault Refusal :=
  live s (rowWrite m 0x4000E0C0 v.toNat s)

/-- FIRMWARE_REPLY (R405): MBX_LFRPL. -/
def execFirmwareReply (m : Master) (v : Word) (s : State) : Host.Outcome State Fault Refusal :=
  live s (rowWrite m 0x4000F018 v.toNat s)

/-- SPI_TRANSFER (R466): SPIn_CMD. -/
def execSpiTransfer (m : Master) (n : Nat) (v : Word) (s : State) : Host.Outcome State Fault Refusal :=
  live s (rowWrite m (0x40010004 + 0x1000 * n) v.toNat s)

/-- SPI_TRANSMIT_DATA (R465): SPIn_TXD. -/
def execSpiTransmitData (m : Master) (n : Nat) (v : Word) (s : State) : Host.Outcome State Fault Refusal :=
  live s (rowWrite m (0x40010008 + 0x1000 * n) v.toNat s)

/-- I2C_TRANSACTION (R467): I2C_CMD. -/
def execI2cTransaction (m : Master) (v : Word) (s : State) : Host.Outcome State Fault Refusal :=
  live s (rowWrite m 0x40012004 v.toNat s)

/-- I2C_TRANSMIT_DATA (R465): I2C_TXD. -/
def execI2cTransmitData (m : Master) (v : Word) (s : State) : Host.Outcome State Fault Refusal :=
  live s (rowWrite m 0x40012008 v.toNat s)

/-- UART_TRANSMIT_DATA (R465): UART_TXD. -/
def execUartTransmitData (m : Master) (v : Word) (s : State) : Host.Outcome State Fault Refusal :=
  live s (rowWrite m 0x40013004 v.toNat s)

/-- READ_CLEAR (R10). -/
def execReadClear (m : Master) (addr : Word) (s : State) : Host.Outcome State Fault Refusal :=
  live s (rowRead m addr.toNat s)

/-- MICROSTORE_READ_LOW (R145): CORE_USDLO. -/
def execMicrostoreReadLow (m : Master) (s : State) : Host.Outcome State Fault Refusal :=
  live s (rowRead m 0x4000224C s)

/-- MICROSTORE_READ_HIGH (R145): CORE_USDHI. -/
def execMicrostoreReadHigh (m : Master) (s : State) : Host.Outcome State Fault Refusal :=
  live s (rowRead m 0x40002250 s)

/-- CYCLE_COUNTER_READ (R102): CORE_CYCLO. -/
def execCycleCounterRead (m : Master) (s : State) : Host.Outcome State Fault Refusal :=
  live s (rowRead m 0x40002008 s)

/-- CAPTURE_READ (R295): EVF_CAPLOn. -/
def execCaptureRead (m : Master) (n : Nat) (s : State) : Host.Outcome State Fault Refusal :=
  live s (rowRead m (0x40008404 + 16 * n) s)

/-- RTC_SNAPSHOT (R329): RTC_TIME. -/
def execRtcSnapshot (m : Master) (s : State) : Host.Outcome State Fault Refusal :=
  live s (rowRead m 0x4000A000 s)

/-- SPI_RECEIVE_DATA (R465): SPIn_RXD. -/
def execSpiReceiveData (m : Master) (n : Nat) (s : State) : Host.Outcome State Fault Refusal :=
  live s (rowRead m (0x4001000C + 0x1000 * n) s)

/-- I2C_RECEIVE_DATA (R465): I2C_RXD. -/
def execI2cReceiveData (m : Master) (s : State) : Host.Outcome State Fault Refusal :=
  live s (rowRead m 0x4001200C s)

/-- UART_RECEIVE_DATA (R465): UART_RXD. -/
def execUartReceiveData (m : Master) (s : State) : Host.Outcome State Fault Refusal :=
  live s (rowRead m 0x40013008 s)

/-- CAP_MEASURE_START (R79): HRV_CAPMEAS, with VSTO at the start in mV. -/
def execCapMeasureStart (m : Master) (v : Word) (vsto : Nat) (s : State) : Host.Outcome State Fault Refusal :=
  if s.por || capVoltOk vsto then live s (rowWriteBy (fun t => capStart t v.toNat vsto) m 0x40001038 v.toNat s)
  else .fault .outsideOperatingConditions

/-- LINK_TIME_READ (R236): LNK_LTIMELO, `cycles` LINK cycles after the last command that counted them. -/
def execLinkTimeRead (m : Master) (cycles : Nat) (s : State) : Host.Outcome State Fault Refusal :=
  live s (rowRead m 0x40006028 (advance s cycles))

/-- TOUCH_START (R377): TCH_CFG, and the counts of the start's pair, which decides every channel. -/
def execTouchStart (m : Master) (v : Word) (sc mc : List Nat) (s : State) : Host.Outcome State Fault Refusal :=
  live s (
    let t := rowWrite m 0x4000D000 v.toNat s
    if t.tch.starting && t.tch.pair && !s.tch.starting then startDecide t sc mc else t)

/-- What DAPACC shifts out: the word that an allowed read answered, with the bits above it as they come; all as it comes
otherwise (R399, R463 give neither). -/
def dapTdo (s : State) (read : Bool) : State :=
  let f := Config.tdoOut s.free
  let t := match s.bus with
    | .ok v => if read then (f >>> 32).setWidth 8 ++ BitVec.ofNat 32 v else f
    | _ => f
  jk { s with free := s.free + 1 } fun j => { j with ir := 8, tdo := t }

/-- DAPACC (R463): bit 39 write, bits 38:32 the word's number in the SEC_ page, bits 31:0 data. A word of the debug window
stands for the address `window`, which R463 does not lay down and the command brings (DESIGN CHOICE, log entry 21). -/
def execDapacc (w : BitVec 40) (s : State) (window : Option Word := none) : Host.Outcome State Fault Refusal :=
  live s (jtagOn s <|
    let a := match window with | some b => b.toNat | none => 0x4000E000 + 4 * (w.toNat / 2 ^ 32 % 128)
    let wr := bitOf w.toNat 39
    dapTdo (if wr then busWrite s .dap (dapTag s) a (w.toNat % 2 ^ 32) else busRead s .dap (dapTag s) a) (!wr))

end Sys2Proof.Machine
end

