-- ==== Sys2Proof/Machine/Delivery.lean ====
section
/-! DEFINITION. EVENT_DELIVERY: a held event reaches its consumer (R283 to R287). -/

namespace Sys2Proof.Machine

open Sys2Proof

/-- The clock of consumer `k` runs (R283, R285): SYS, also on demand, LINK, whose accesses on demand deliver at once, PIX, or AON,
which starts on demand. -/
def consumerRuns (s : State) (k : Nat) : Bool :=
  if k < 8 || (12 ≤ k && k ≤ 15) then sysClocked s
  else if 8 ≤ k && k < 12 then decide (2 ≤ s.get LNK_STAT_STATE)
  else if k = 16 then s.get PWR_DOMSTAT_PIX != 0
  else true

/-- A pulse on EVOn, which its own ball's GPIO_EDGE sees (R283, R286, R464). -/
def evoPulse (s : State) (n : Nat) : State :=
  if !evoOn s n then s
  else
    let t : State := { s with evo := s.evo.set n (s.evo.getD n 0 + 1) }
    if sysClocked s then t.setBit GPIO_EDGE_EDGE (4 + n) else t

/-- The action of consumer `k`; 22 is the wake consumer (R283). -/
def consume (s : State) (k : Nat) : State :=
  if k < 8 then s.put (EVF_CSEL_PEND k) 1
  else if k < 12 then capture s (k - 8)
  else if k < 16 then triggerMover s (k - 12)
  else if k = 16 then epdRelease s
  else if k = 17 then tchEvent s
  else if k < 22 then evoPulse s (k - 18)
  else wakeSource s 6

/-- EVENT_DELIVERY (R284, R285): the event held for consumer `k` reaches it, though its EN has been cleared since it was held
(DESIGN CHOICE, log entry 121). -/
def execEventDelivery (k : Nat) (s : State) : Host.Outcome State Fault Refusal :=
  live s (if bitOf s.evHeld k && consumerRuns s k then wakeIf (consume (takeHeld s k) k) else s)

end Sys2Proof.Machine
end

