-- ==== Sys2Proof/Machine/Flags.lean ====
section
/-! DEFINITION. What the ALU and MAC syllables compute (R107 to R109, R115, R120 to R124), with the saturation and wrap flags
of CORE_DSPSTAT (R125). -/

namespace Sys2Proof.Machine

open Sys2Proof

/-! ### Saturation -/

/-- Clamp to the signed 32-bit range (R109, R121, R124). -/
def clamp32 (i : Int) : Int := max (-(2 ^ 31)) (min i (2 ^ 31 - 1))

/-- The result of a saturating or wrapping 32-bit sum (R109). -/
def sum32 (sat : Bool) (i : Int) : Word := BitVec.ofInt 32 (if sat then clamp32 i else i)

/-! ### ALU (R107) -/

/-- Sign- or zero-extension by MOD[1:0] (XTN). -/
def xtnOf (m : Nat) (x : Word) : Word :=
  match m with
  | 0 => (x.setWidth 8).signExtend 32
  | 1 => (x.setWidth 16).signExtend 32
  | 2 => (x.setWidth 8).setWidth 32
  | _ => (x.setWidth 16).setWidth 32

/-- A field of `n` bits from a position; bits beyond bit 31 read 0 (EXTU). -/
def extuOf (pos n : Nat) (x : Word) : Word := BitVec.ofNat 32 (x.toNat / 2 ^ pos % 2 ^ n)

/-- As EXTU, sign-extended from the field's top bit (EXTS). -/
def extsOf (pos n : Nat) (x : Word) : Word := BitVec.ofInt 32 (sgn n (x.toNat / 2 ^ pos % 2 ^ n))

/-- Leading zeros, 32 for zero (CLZ). -/
def clzOf (x : Word) : Word := BitVec.ofNat 32 (if x = 0 then 32 else 31 - topBit x.toNat)

/-- A left shift, saturating with SAT (SHL, R109). -/
def shlOf (sat : Bool) (n : Nat) (x : Word) : Word := sum32 sat (x.toInt * (2 ^ n : Nat))

/-- The register result of an ALU opcode other than compares and predicate operations: `x` is g[A], `y` is g[B] or the
immediate, `sel` the predicate of SEL. -/
def aluOf (op mod : Nat) (sel : Bool) (x y : Word) : Word :=
  let sat := bitOf mod 3
  let n := y.toNat % 32
  match op with
  | 0x00 => sum32 sat (x.toInt + y.toInt)
  | 0x01 => sum32 sat (x.toInt - y.toInt)
  | 0x02 => x + y
  | 0x03 => sum32 true (x.toInt + y.toInt)
  | 0x04 => y - x
  | 0x05 => sum32 sat (-x.toInt)
  | 0x06 => sum32 sat (if x.toInt < 0 then -x.toInt else x.toInt)
  | 0x08 | 0x09 => x &&& y
  | 0x0A | 0x0B => x ||| y
  | 0x0C | 0x0D => x ^^^ y
  | 0x0E => x &&& ~~~y
  | 0x0F => ~~~x
  | 0x10 => shlOf sat n x
  | 0x11 => x <<< n
  | 0x12 | 0x13 => x >>> n
  | 0x14 | 0x15 => x.sshiftRight n
  | 0x16 | 0x17 => x.rotateRight n
  | 0x18 => if x.toInt ≤ y.toInt then x else y
  | 0x19 => if x.toInt ≤ y.toInt then y else x
  | 0x1A => if x ≤ y then x else y
  | 0x1B => if x ≤ y then y else x
  | 0x1C => clzOf x
  | 0x1D => xtnOf (mod % 4) x
  | 0x1E => extuOf (y.toNat / 16 % 32) (y.toNat % 16 + 1) x
  | 0x1F => extsOf (y.toNat / 16 % 32) (y.toNat % 16 + 1) x
  | 0x20 => x
  | 0x21 => y
  | _ => if sel then x else y

/-- The result c of a compare (R107, R108). -/
def cmpOf (op : Nat) (x y : Word) : Bool :=
  match op % 8 with
  | 0 => x == y
  | 1 => x != y
  | 2 => decide (x.toInt < y.toInt)
  | 3 => decide (x.toInt ≤ y.toInt)
  | 4 => decide (x.toNat < y.toNat)
  | _ => decide (x.toNat ≤ y.toNat)

/-- How a compare's result is combined with p[D]: D[4:3] (R108). -/
def combine (m : Nat) (p c : Bool) : Bool :=
  match m with
  | 0 => c
  | 1 => p && c
  | _ => p || c

/-- A predicate operation (R107). -/
def predOf (op : Nat) (a b : Bool) : Bool :=
  match op with
  | 0x38 => a && b
  | 0x39 => a || b
  | 0x3A => a != b
  | 0x3B => a && !b
  | _ => !a

/-! ### MAC (R115, R120, R121) -/

/-- The low half of a register, signed. -/
def lo16 (x : Word) : Int := (x.setWidth 16).toInt
/-- The high half of a register, signed. -/
def hi16 (x : Word) : Int := ((x >>> 16).setWidth 16).toInt

/-- The product or sum of products of an accumulating opcode (R115, R120). -/
def macProd (op : Nat) (x y : Word) : Int :=
  match op with
  | 0x08 | 0x09 | 0x0C => lo16 x * lo16 y + hi16 x * hi16 y
  | 0x0A | 0x0B => lo16 x * hi16 y + hi16 x * lo16 y
  | _ => x.toInt * y.toInt

/-- The exact result of an accumulating opcode: `a` is acc[D] at issue (R120). -/
def macExact (op : Nat) (a : Int) (x y : Word) : Int :=
  match op with
  | 0x08 | 0x0A | 0x0D => a + macProd op x y
  | 0x09 | 0x0B | 0x0E => a - macProd op x y
  | _ => macProd op x y

/-- What an accumulator result writes: the 40 bits, whether a clamp changed it (SATF) and whether it wrapped (OVF40)
(R121, R125). -/
structure AccRes where
  val : BitVec 40
  satf : Bool
  ovf : Bool
  deriving DecidableEq, Repr

/-- Write an exact result by the mode (R121): clamped in native mode with SAT=1, else its bits 39:0. -/
def accWrite (guard sat : Bool) (i : Int) : AccRes :=
  if sat && !guard then ⟨BitVec.ofInt 40 (clamp32 i), clamp32 i != i, false⟩
  else ⟨BitVec.ofInt 40 i, false, decide (i < -(2 ^ 39)) || decide (2 ^ 39 ≤ i)⟩

/-- MVA: the shifted value, and whether a clamp changed it (R121, R123). -/
def mvaOf (guard sat : Bool) (a : BitVec 40) (n : Nat) : Word × Bool :=
  let i := a.toInt / (2 ^ n : Nat)
  if sat && !guard then (BitVec.ofInt 32 (clamp32 i), clamp32 i != i) else (BitVec.ofInt 32 i, false)

/-- The word SATST stores, and whether it was clamped (R124). -/
def satstOf (a : BitVec 40) : Word × Bool := (BitVec.ofInt 32 (clamp32 a.toInt), clamp32 a.toInt != a.toInt)

/-- MUL, MULH, MULHU and MULI (R115). -/
def mulOf (op : Nat) (x y : Word) : Word :=
  match op with
  | 0x01 => BitVec.ofInt 32 (x.toInt * y.toInt / (2 ^ 32 : Nat))
  | 0x02 => BitVec.ofNat 32 (x.toNat * y.toNat / 2 ^ 32)
  | _ => x * y

end Sys2Proof.Machine
end

