-- ==== Sys2Proof/Machine/Legal.lean ====
section
/-! DEFINITION. Syllables placed in their bundle, and which are legal (R89 to R93, R107 to R117, R130, R135, R168). -/

namespace Sys2Proof.Machine

open Sys2Proof

/-- A syllable ready to execute: class, opcode, fields, the registers D, A and B name (32 to 35 for u0 to u3), and its word's
position in the bundle. -/
structure Sy where
  cls : Nat
  op : Nat
  x : Syl
  d : Nat
  a : Nat
  b : Nat
  pos : Nat
  deriving DecidableEq, Repr

/-- Words of a syllable with its LIMM. -/
def bwords (y : BSyl) : Nat := 1 + b2n y.x.limm.isSome

/-- Words of a bundle. -/
def words (l : List BSyl) : Nat := l.foldl (fun n y => n + bwords y) 0

/-- A bundle's syllables with their positions. -/
def place (i : Nat) : List BSyl → List Sy
  | [] => []
  | y :: t => ⟨y.cls, y.op, y.x, y.x.d.toNat, y.x.a.toNat, y.x.b.toNat, i⟩ :: place (i + bwords y) t

/-- The fields D, A, B and MOD as numbers, IMM9 and IMM19 unsigned (R90). -/
def fD (x : Syl) : Nat := x.d.toNat
def fA (x : Syl) : Nat := x.a.toNat
def fB (x : Syl) : Nat := x.b.toNat
def fM (x : Syl) : Nat := x.mod.toNat
def imm9 (x : Syl) : Nat := fB x * 16 + fM x
def imm19 (x : Syl) : Nat := fD x * 2 ^ 14 + fA x * 2 ^ 9 + imm9 x

/-- An immediate, sign-extended from `w` bits or widened by its LIMM (R90, R91). -/
def immOf (w : Nat) (x : Syl) (raw : Nat) : Word :=
  match x.limm with
  | some l => BitVec.ofNat 32 (l.toNat * 16 + raw % 16)
  | none => BitVec.ofInt 32 (sgn w raw)

/-- ALU opcodes in form I (R107). -/
def aluImm (op : Nat) : Bool :=
  [2, 3, 4, 9, 0xB, 0xD, 0x11, 0x13, 0x15, 0x17, 0x1E, 0x1F, 0x21].contains op || (0x30 ≤ op && op ≤ 0x35)

/-- A load or store of the LSU: direction, size, sign extension, address form (0 immediate, 1 form G, 2 post-modify), SATST. -/
structure Lsu where
  load : Bool
  size : Nat
  sx : Bool
  mode : Nat
  sat : Bool
  deriving DecidableEq, Repr

/-- The loads and stores (R110, R124). -/
def lsuOp (op : Nat) : Option Lsu :=
  let ld (k m : Nat) : Option Lsu := some ⟨true, [1, 1, 2, 2, 4, 8].getD k 4, k == 0 || k == 2, m, false⟩
  let st (k m : Nat) : Option Lsu := some ⟨false, 2 ^ k, false, m, false⟩
  if op ≤ 5 then ld op 0
  else if 8 ≤ op && op ≤ 0xD then ld (op - 8) 1
  else if 0x10 ≤ op && op ≤ 0x15 then ld (op - 0x10) 2
  else if 0x18 ≤ op && op ≤ 0x1B then st (op - 0x18) 0
  else if 0x1C ≤ op && op ≤ 0x1F then st (op - 0x1C) 1
  else if 0x20 ≤ op && op ≤ 0x23 then st (op - 0x20) 2
  else if 0x24 ≤ op && op ≤ 0x26 then some ⟨false, 4, false, op - 0x24, true⟩
  else none

/-- SAVEM, LOADM and BMOV (R113). -/
def isLongLsu (y : Sy) : Bool := y.cls == 2 && (y.op == 0x30 || y.op == 0x31 || y.op == 0x32)

/-- CUSTOM0 to CUSTOM15 (R117). -/
def isCustom (y : Sy) : Bool := y.cls == 6 && y.op < 16

/-- REP and REPR (R117). -/
def isRep (y : Sy) : Bool := y.cls == 6 && (y.op == 0x13 || y.op == 0x14)

/-- SLEEP (R117). -/
def isSleep (y : Sy) : Bool := y.cls == 6 && y.op == 0x12

/-- The opcodes a LIMM may follow: the L columns (R91). -/
def limmOk (cls op : Nat) : Bool :=
  match cls with
  | 0 | 1 => [2, 3, 4, 9, 0xB, 0xD, 0x21].contains op || (0x30 ≤ op && op ≤ 0x35)
  | 2 => op ≤ 5 || (0x18 ≤ op && op ≤ 0x1B) || op == 0x24
  | 3 | 4 => op == 3
  | 5 => op == 0 || op == 2
  | _ => false

/-- The opcode is listed and its must-be-zero and register fields are as its row asks: ALU (R107 to R109). -/
def aluLegal (op : Nat) (x : Syl) : Bool :=
  let m := fM x
  let satOnly := m % 8 == 0
  if [0, 1, 0x10].contains op then satOnly
  else if [5, 6].contains op then satOnly && fB x == 0
  else if [8, 0xA, 0xC, 0xE, 0x12, 0x14, 0x16, 0x18, 0x19, 0x1A, 0x1B].contains op then m == 0
  else if [0xF, 0x1C, 0x20].contains op then m == 0 && fB x == 0
  else if op == 0x1D then m < 4 && fB x == 0
  else if [0x11, 0x13, 0x15, 0x17].contains op then imm9 x < 32
  else if op == 0x21 then fA x == 0
  else if op == 0x22 then m < 8
  else if 0x28 ≤ op && op ≤ 0x2D then fD x < 24 && m == 0
  else if 0x30 ≤ op && op ≤ 0x35 then fD x < 24
  else if 0x38 ≤ op && op ≤ 0x3B then fD x < 8 && fA x < 8 && fB x < 8 && m == 0
  else if op == 0x3C then fD x < 8 && fA x < 8 && fB x == 0 && m == 0
  else [2, 3, 4, 9, 0xB, 0xD, 0x1E, 0x1F].contains op

/-- As `aluLegal`, for the LSU (R110, R111, R113, R114). -/
def lsuLegal (op : Nat) (x : Syl) : Bool :=
  match lsuOp op with
  | some l =>
    (l.size != 8 || (fD x % 2 == 0 && fD x != 31)) && (l.mode != 1 || 8 ≤ fM x || fM x % 4 == 0) && (!l.sat || fD x < 4)
  | none =>
    if op = 0x30 then fD x ≤ fB x && fM x < 2
    else if op = 0x31 then fD x ≤ fB x && fM x < 2 && !(fM x == 1 && fD x ≤ fA x && fA x ≤ fB x)
    else if op = 0x32 then
      fD x != 0 && fA x != 0 && fB x != 0 && fD x != fA x && fD x != fB x && fA x != fB x && fM x == 0
    else op == 0x38 && imm19 x == 0

/-- As `aluLegal`, for the MAC units (R115, R121). -/
def macLegal (op : Nat) (x : Syl) : Bool :=
  let m := fM x
  if op ≤ 2 then m == 0
  else if op = 3 then true
  else if 8 ≤ op && op ≤ 0xF then fD x < 4 && m % 8 == 0
  else if op = 0x10 then fA x < 4 && m % 8 == 0
  else if op = 0x11 then fA x < 4 && fB x == 0 && m == 0
  else if op = 0x12 || op = 0x13 then fD x < 4 && fB x == 0 && m == 0
  else if op = 0x14 then fD x < 4 && fA x == 0 && fB x == 0 && m == 0
  else if op = 0x15 || op = 0x16 then fD x < 4 && fA x < 4 && m % 8 == 0
  else op == 0x17 && fD x < 4 && fA x < 4 && fB x < 4 && m % 8 == 0

/-- As `aluLegal`, for the BRU (R116). -/
def bruLegal (op : Nat) (x : Syl) : Bool :=
  if op = 0 || op = 2 then true
  else if op = 1 || op = 3 then fD x == 0 && fB x == 0 && fM x == 0
  else if op = 4 || op = 5 then imm19 x == 0
  else op == 6 && imm19 x < 64

/-- As `aluLegal`, for EXT (R101, R117). -/
def extLegal (op : Nat) (x : Syl) : Bool :=
  if op < 16 then true
  else if op = 0x10 then fA x == 0 && (coreLevel (imm9 x) false).isSome
  else if op = 0x11 then fD x == 0 && (coreLevel (imm9 x) true).isSome
  else if op = 0x12 then imm19 x < 4
  else if op = 0x13 then imm19 x < 1024
  else op == 0x14 && fD x == 0 && fB x == 0 && fM x == 0

/-- A syllable is legal (R93). -/
def sylLegal (cls op : Nat) (x : Syl) : Bool :=
  (x.limm.isNone || limmOk cls op) &&
  match cls with
  | 0 | 1 => aluLegal op x
  | 2 => lsuLegal op x
  | 3 | 4 => macLegal op x
  | 5 => bruLegal op x
  | 6 => extLegal op x
  | _ => false

/-! ### Bundles (R92) -/

/-- Positions at which the order of classes is broken. -/
def orderBad : List Sy → List Nat
  | y :: z :: t => (if z.cls ≤ y.cls then [z.pos] else []) ++ orderBad (z :: t)
  | _ => []

/-- Positions of the LIMM syllables. -/
def limms (l : List Sy) : List Nat := l.filterMap fun y => if y.x.limm.isSome then some (y.pos + 1) else none

/-- A CUSTOM syllable meets a syllable its entry blocks, or is not alone though its entry is interruptible (R135 step 1). -/
def customBlocked (s : State) (l : List Sy) (y : Sy) : Bool :=
  isCustom y && l.length != 1 &&
    (s.on (CORE_DTE_INTR y.op) || l.any fun z => z.cls != 6 && bitOf (s.get (CORE_DTE_BLOCK y.op)) z.cls)

/-- KIND of the long instruction a syllable is (R166). -/
def longKind (y : Sy) : Nat :=
  if y.cls == 2 && (y.op == 0x30 || y.op == 0x31) then 1 else if y.cls == 2 && y.op == 0x32 then 2
  else if isCustom y then 3 else 0

/-- Progress stands but the bundle holds no long instruction of its kind (R168). -/
def progMisses (s : State) (l : List Sy) : Bool :=
  s.dx.armProg && (s.get CORE_PROG_KIND == 0 || !(l.any fun y => longKind y == s.get CORE_PROG_KIND))

/-- A syllable a repeated bundle may not hold (R130). -/
def repBad (y : Sy) : Bool := 5 ≤ y.cls || isLongLsu y

/-- The position of the first illegality of a bundle of `n` words, stopped or not (R92, R93, R135, R168); `rep` for a repeated
bundle (R130). A bundle without the long instruction that stands in progress is so at position 0 (DESIGN CHOICE, log entry 102). -/
def illegalAt (s : State) (l : List Sy) (n : Nat) (stop rep : Bool) : Option Nat :=
  let bad := (l.filter fun y => !sylLegal y.cls y.op y.x || customBlocked s l y || (isRep y && l.length != 1) ||
    (rep && repBad y)).map fun y => y.pos
  let bad := bad ++ orderBad l ++ (limms l).drop 1 ++ (if 7 < n || !stop then [6] else []) ++
    (if progMisses s l then [0] else [])
  bad.min?

end Sys2Proof.Machine
end

