-- ==== Sys2Proof/Machine/Effects.lean ====
section
/-! DEFINITION. What syllables write and which accesses they make, with operands read at issue (R96 to R98, R103 to R127). -/

namespace Sys2Proof.Machine

open Sys2Proof

/-! ### Results -/

/-- One effect of a bundle at its completion; of MVFS also the high half of the cycle counter as it stood at issue (R102). -/
inductive Wr where
  | g (r : Nat) (v : Word)
  | p (r : Nat) (v : Bool)
  | acc (r : Nat) (v : BitVec 40)
  | satf
  | ovf
  | fence
  | call (ret : Nat)
  | ret
  | mvfs (k hi : Nat)
  | mvts (lvl k : Nat) (v : Word)
  deriving DecidableEq, Repr

/-- A number for the register an effect writes: g at 0, predicates at 64, accumulators at 96. -/
def wrKey : Wr → Option Nat
  | .g r _ => some r
  | .p r _ => some (64 + r)
  | .acc r _ => some (96 + r)
  | _ => none

/-- ALU syllables (R107 to R109). -/
def aluWrites (s : State) (y : Sy) : List Wr :=
  let m := fM y.x
  let rhs := if aluImm y.op then immOf 9 y.x (imm9 y.x) else rd s y.b
  if y.op < 0x28 then [.g y.d (aluOf y.op m (pd s (m % 8)) (rd s y.a) rhs)]
  else if y.op < 0x38 then
    let i := fD y.x % 8
    [.p i (combine (fD y.x / 8) (pd s i) (cmpOf y.op (rd s y.a) rhs))]
  else [.p (fD y.x) (predOf y.op (pd s (fA y.x)) (pd s (fB y.x)))]

/-- A result written to an accumulator, with the conditions it sets (R121, R125), also where a later syllable's or the microcode's
write of that accumulator overrides the result (R96, R136; DESIGN CHOICE, log entry 123). -/
def accWrites (i : Nat) (r : AccRes) : List Wr :=
  [.acc i r.val] ++ (if r.satf then [.satf] else []) ++ (if r.ovf then [.ovf] else [])

/-- MAC syllables (R115, R120 to R123). -/
def macWrites (s : State) (y : Sy) : List Wr :=
  let guard := s.on CORE_DSPCFG_GUARD
  let sat := bitOf (fM y.x) 3
  let rhs := if y.op = 3 then immOf 9 y.x (imm9 y.x) else rd s y.b
  let d := fD y.x
  let a := fA y.x
  let b := fB y.x
  if y.op ≤ 3 then [.g y.d (mulOf y.op (rd s y.a) rhs)]
  else if y.op ≤ 0xF then accWrites d (accWrite guard sat (macExact y.op (ac s d).toInt (rd s y.a) rhs))
  else match y.op with
    | 0x10 =>
      let (v, c) := mvaOf guard sat (ac s a) b
      [.g y.d v] ++ (if c then [.satf] else [])
    | 0x11 => [.g y.d (((ac s a) >>> 32).setWidth 8 |>.signExtend 32)]
    | 0x12 => [.acc d ((rd s y.a).signExtend 40)]
    | 0x13 => [.acc d ((rd s y.a).setWidth 8 ++ (ac s d).setWidth 32)]
    | 0x14 => [.acc d 0]
    | 0x15 => accWrites d (accWrite guard sat ((ac s a).toInt / (2 ^ b : Nat)))
    | 0x16 => accWrites d (accWrite guard sat ((ac s a).toInt * (2 ^ b : Nat)))
    | _ => accWrites d (accWrite guard sat ((ac s a).toInt + (ac s b).toInt))

/-! ### Loads and stores -/

/-- Address and updated base of a load or store (R110, R111, R126, R127). -/
def lsuAddr (s : State) (y : Sy) (l : Lsu) : Nat × Option Word :=
  let p := (rd s y.a).toNat
  let imm := sgn 9 (imm9 y.x) * l.size
  let m := fM y.x
  let st := (rd s y.b).toInt
  let base := s.get (CORE_CBASE_BASE (m % 4))
  let len := s.get (CORE_CLEN_LEN (m % 4))
  match l.mode with
  | 0 => (match y.x.limm with | some _ => addW p (immOf 9 y.x (imm9 y.x)).toInt | none => addW p imm, none)
  | 2 => (p, some (BitVec.ofNat 32 (addW p imm)))
  | _ =>
    match m / 4 with
    | 0 => (addW p st, none)
    | 1 => (p, some (BitVec.ofNat 32 (addW p st)))
    | 2 => (p, some (BitVec.ofNat 32 (circStep base len p st)))
    | _ => (p, some (BitVec.ofNat 32 (bitRevStep base len p st (topBit l.size))))

/-- An access to make: its syllable's position, form, address, the value a store stores, and the register a load writes. -/
structure Axs where
  pos : Nat
  lsu : Lsu
  addr : Nat
  val : Nat
  d : Nat
  deriving DecidableEq, Repr

/-- The access of a load or store, with operands read now. -/
def accOf (s : State) (y : Sy) : Option Axs :=
  if y.cls != 2 then none
  else (lsuOp y.op).map fun l =>
    let v := if l.sat then (satstOf (ac s (fD y.x))).1.toNat
      else if l.size = 8 then (rd s y.d).toNat + (rd s (y.d + 1)).toNat * 2 ^ 32
      else (rd s y.d).toNat % 2 ^ (8 * l.size)
    ⟨y.pos, l, (lsuAddr s y l).1, v, y.d⟩

/-- What a load or store writes beside memory and its destination: the base, and SATF (R110, R125). -/
def lsuWrites (s : State) (y : Sy) : List Wr :=
  match lsuOp y.op with
  | some l =>
    (match (lsuAddr s y l).2 with | some v => [.g y.a v] | none => []) ++
      (if l.sat && (satstOf (ac s (fD y.x))).2 then [.satf] else [])
  | none => if y.op = 0x38 then [.fence] else []

/-- What the guard and the address decoding answer to an access (R162, R181). -/
def accGuard (s : State) (p : Axs) : Guard :=
  access s .core (coreTag s) p.addr p.lsu.size (b2n (!p.lsu.load)) p.val

/-- A load's value from the bytes read. -/
def extend (l : Lsu) (v : Nat) : Nat := if l.sx then unsgn 32 (sgn (8 * l.size) v) else v

/-- The registers a load writes. -/
def loadDest (p : Axs) (v : Nat) : List (Nat × Nat) :=
  if p.lsu.size = 8 then [(p.d, v % 2 ^ 32), (p.d + 1, v / 2 ^ 32)] else [(p.d, extend p.lsu v)]

/-- A core read of `n` bytes, the stores it waits for first (R162): none on a target error. -/
def coreLoad (s : State) (a n : Nat) : Option Nat × State :=
  let s := beforeLoad s a n
  if inPage a then
    let (v, s) := regRead (pageWake s a) a
    (some v, s)
  else readMem (busTurn s a) .core a n

/-- A core store of `n` bytes; false on a precise target error (R164). -/
def coreStore (s : State) (a n v : Nat) : Bool × State :=
  issueStore s ⟨a, n, v, if inSet a then 1 else if inClr a then 2 else 0, coreTag s⟩

/-- Make an access: what it loads, or none on a data bus error. -/
def doAccess (s : State) (p : Axs) : Option (List (Nat × Nat)) × State :=
  if p.lsu.load then
    let (v, s) := coreLoad s p.addr p.lsu.size
    (v.map (loadDest p), s)
  else
    let (ok, s) := coreStore s p.addr p.lsu.size p.val
    (if ok then some [] else none, s)

/-! ### Branches and special registers -/

/-- Where a branch goes: register, relative or widened target (R116), or the return stack (R103). -/
def target (s : State) (pc : Nat) (y : Sy) : Nat :=
  if y.op = 1 || y.op = 3 then (rd s y.a).toNat
  else if y.op = 4 then s.get (CORE_RSW_ADDR (s.get CORE_RSP_TOP)) * 4
  else match y.x.limm with
    | some _ => (immOf 19 y.x (imm19 y.x)).toNat
    | none => addW pc (sgn 19 (imm19 y.x) * 4)

/-- DEPTH; a value above 16 acts as 16. -/
def rsDepth (s : State) : Nat := min (s.get CORE_RSP_DEPTH) 16

/-- The push of R103. -/
def rsPush (s : State) (ret : Nat) : State :=
  let t := (s.get CORE_RSP_TOP + 1) % 16
  let n := min (rsDepth s + 1) 16
  ((s.put CORE_RSP_TOP t).put (CORE_RSW_ADDR t) (ret / 4)).put CORE_RSP_DEPTH n

/-- The pop of R103. -/
def rsPop (s : State) : State :=
  let n := rsDepth s - 1
  (s.put CORE_RSP_TOP ((s.get CORE_RSP_TOP + 15) % 16)).put CORE_RSP_DEPTH n

/-- Effects of a BRU syllable on the return stack (R103). -/
def bruWrites (y : Sy) (next : Nat) : List Wr :=
  if y.op = 2 || y.op = 3 then [.call next] else if y.op = 4 then [.ret] else []

/-- MVFS and MVTS (R101). -/
def extWrites (s : State) (y : Sy) : List Wr :=
  let k := imm9 y.x
  if y.op = 0x10 then [.g y.d (BitVec.ofNat 32 (readSpecial s k).1), .mvfs k (s.dx.cyc / 2 ^ 32)]
  else if y.op = 0x11 then [.mvts (coreLvl s) k (rd s y.a)]
  else []

/-- Everything a syllable writes at completion but what a load loads; `next` is the bundle that follows. -/
def writes (s : State) (next : Nat) (y : Sy) : List Wr :=
  match y.cls with
  | 0 | 1 => aluWrites s y
  | 2 => lsuWrites s y
  | 3 | 4 => macWrites s y
  | 5 => bruWrites y next
  | _ => extWrites s y

/-- The core was restarted while its bundle ran: nothing more of it takes effect. -/
def gone (s : State) : Bool := s.dx.bundle.isEmpty

/-- One effect. A write of the register whose shadow record stands in is lost to the loaded value (R98, R100). -/
def apply (s : State) (w : Wr) : State :=
  if gone s then s
  else match w with
    | .g r v => if shadowed s r then s else wg s r v
    | .p r v => wp s r v
    | .acc r v => wa s r v
    | .satf => s.put CORE_DSPSTAT_SATF 1
    | .ovf => s.put CORE_DSPSTAT_OVF40 1
    | .fence => drainStores s
    | .call a => rsPush s a
    | .ret => rsPop s
    | .mvfs k hi => if k = 2 then s.put CORE_CYCHI_COUNT hi else (readSpecial s k).2
    | .mvts l k v => writeSpecial s l k v.toNat

/-- A sticky condition that a bundle sets (R125). -/
def isSticky (w : Wr) : Bool := w == .satf || w == .ovf

/-- The address lies in a bank the core owns (R31). -/
def ownBank (a : Nat) : Bool := inSram a && bankOf a < 2

/-- The page of an address is clocked in SYS (R26). -/
def sysPage (a : Nat) : Bool :=
  inPage a && ([0x40002, 0x40003, 0x40004, 0x40005, 0x40009, 0x4000A, 0x4000B].contains (a / 4096) || 0x40010000 ≤ a)

/-- A store enters the buffer without a stall: an entry is free, or frees at once as its store lies in a bank the core owns
(R113, R162; DESIGN CHOICE, log entry 102). -/
def bufferTakes (s : State) : Bool :=
  s.dx.stores.length < 4 || match s.dx.stores with | st :: _ => ownBank st.addr | [] => false

/-- The stall of an access where R118 gives it: none in a bank the core owns or a page in SYS and none for a store the buffer
takes, 8 at a miss of the NV store's read buffer (R162, R300); else it is FREE. -/
def accStall (s : State) (p : Axs) : Option Nat :=
  if p.lsu.load then
    if s.dx.stores.any fun st => loadWaits p.addr p.lsu.size st then none
    else if ownBank p.addr || sysPage p.addr then some 0
    else if inNv p.addr then some (if s.nvs.rblk = some (p.addr / 64) then 0 else 8)
    else none
  else if s.on CORE_EXCCFG_STBUF && bufferTakes s then some 0 else none

/-- The core waits for an access (R102, R118). -/
def accWait (s : State) (p : Axs) : State := bundleTick s 0 (accStall s p)

/-- The stalls of the active syllables of a bundle (R118); a long instruction counts those of its accesses as it makes them. -/
def stallOf (s : State) : List Sy → Option Nat
  | [] => some 0
  | y :: t =>
    let one := match accOf s y with
      | some p => accStall s p
      | none => if y.cls = 2 && y.op = 0x38 && !s.dx.stores.isEmpty then none else some 0
    match one, stallOf s t with
    | some a, some b => some (a + b)
    | _, _ => none

/-- MVTS takes effect last. -/
def isMvts : Wr → Bool
  | .mvts _ _ _ => true
  | _ => false

end Sys2Proof.Machine
end

