-- ==== Sys2Proof/Machine/Checks.lean ====
section
/-! DEFINITION. The precise exceptions a bundle raises before it takes effect, in the order of R154. -/

namespace Sys2Proof.Machine

open Sys2Proof

/-- A precise exception: slot, position, whether a fetch raised it (slot 8), the faulting address, the refusal to record (kind of
access and reason, R185), and a microcode fault's cause, micro-PC and entry (R141). -/
structure Exc where
  slot : Nat
  pos : Nat
  fetch : Bool
  faddr : Option Nat
  ref : Option (Nat × Nat)
  uf : Option (Nat × Nat × Nat)
  deriving DecidableEq, Repr

/-- An exception with neither address nor record. -/
def excAt (slot pos : Nat) : Exc := ⟨slot, pos, false, none, none, none⟩

/-- Raise it with CORE_EPC at `epc`. -/
def raiseExc (s : State) (e : Exc) (epc : Nat) (prog : Option Prog) (rem : Option Nat) : State :=
  let s := match e.ref, e.faddr with
    | some (k, r), some a => recordRefusal s .core (coreTag s) a k r
    | _, _ => s
  let s := match e.uf with
    | some (c, u, n) => ((s.put CORE_UFSTAT_CAUSE c).put CORE_UFSTAT_UPC u).put CORE_UFSTAT_ENTRY n
    | none => s
  raise s ⟨e.slot, epc, e.pos, e.fetch, e.faddr, none⟩ prog rem

/-- Its predicate holds (R96). -/
def active (s : State) (y : Sy) : Bool := pd s y.x.pred.toNat

/-- R135 step 2. No microword faults here, and CORE_UFSTAT.UPC takes the entry's ENTRY (R141 gives none; DESIGN CHOICE, log
entry 58). -/
def invalidExc (s : State) (y : Sy) : Option Exc :=
  if isCustom y && !s.on (CORE_DTE_VALID y.op) then
    some { excAt 10 y.pos with uf := some (1, s.get (CORE_DTE_ENTRY y.op), y.op) }
  else none

/-- The level is below what the syllable needs (R101, R116, R117, R135, R153). -/
def lacksLevel (s : State) (y : Sy) : Bool :=
  let l := coreLvl s
  let spr (w : Bool) : Bool := match coreLevel (imm9 y.x) w with | some k => k != 3 && decide (l < k) | none => false
  if y.cls = 5 then y.op == 5 && (l == 0 || (l == 1 && decide (2 ≤ s.get CORE_STATUS_PPL)))
  else if y.cls != 6 then false
  else if y.op < 16 then decide (l < min (s.get (CORE_DTE_PRIV y.op)) 2)
  else if y.op = 0x10 then spr false
  else if y.op = 0x11 then spr true
  else y.op == 0x12 && l == 0

/-- R112, R116: the misaligned address. A SAVEM or LOADM that is resumed goes on from CORE_PROGA, and its base is no address
(R168). -/
def misaligned (s : State) (pc : Nat) (y : Sy) : Option Nat :=
  let bad (a n : Nat) : Option Nat := if a % n = 0 then none else some a
  if y.cls = 2 then
    (match accOf s y with
      | some p => bad p.addr p.lsu.size
      | none => if (y.op = 0x30 || y.op = 0x31) && !s.dx.armProg then bad (rd s y.a).toNat 4 else none)
  else if y.cls = 5 && y.op ≤ 3 then bad (target s pc y) 4
  else none

/-- R104: the slot of a return-stack exception. -/
def stackSlot (s : State) (y : Sy) : Option Nat :=
  if y.cls != 5 || s.on CORE_RSCFG_OVF then none
  else if (y.op = 2 || y.op = 3) && rsDepth s = 16 then some 6
  else if y.op = 4 && rsDepth s = 0 then some 7
  else none

/-- The guard refuses a fetch of a word of the bundle (R181). -/
def fetchRefused (s : State) (pc n : Nat) : Option Exc :=
  (List.range n).findSome? fun i =>
    let a := (pc + 4 * i) % 2 ^ 32
    match guard s .core (coreTag s) a 4 2 0 with
    | .refuse r => some { excAt 9 i with faddr := some a, ref := some (2, r) }
    | _ => none

/-- The address lies in the banks the core fetches from (R94). -/
def fetchable (a : Nat) : Bool := decide (0x10000000 ≤ a) && decide (a < 0x10200000)

/-- Read the words of a bundle from place `i` on: the first outside banks 0 and 1 or uncorrectable (R94, R177). -/
def fetchBundle (pc i : Nat) : Nat → State → Option Nat × State
  | 0, s => (none, s)
  | n + 1, s =>
    let a := (pc + 4 * i) % 2 ^ 32
    if !fetchable a then (some i, s)
    else match readWord s .core a with
      | (some _, s) => fetchBundle pc (i + 1) n s
      | (none, s) => (some i, s)

/-- Fetch a bundle of `n` words. One of which the guard refuses a word is not read (R181, R184). -/
def fetchAll (pc n : Nat) (s : State) : Option Nat × State :=
  if (fetchRefused s pc n).isNone then fetchBundle pc 0 n s
  else ((List.range n).find? fun i => !fetchable ((pc + 4 * i) % 2 ^ 32), s)

/-- What stops a data access before it is made: the guard, then its address (R154 steps 7 and 8). -/
def dataExc (s : State) (p : Axs) : Option Exc :=
  match accGuard s p with
  | .ok => none
  | .refuse r => some { excAt 9 p.pos with faddr := some p.addr, ref := some (b2n (!p.lsu.load), r) }
  | .busErr => some { excAt 8 p.pos with faddr := some p.addr }

/-- Steps 3 to 8 of R154 for a legal bundle of `n` words at `pc`. -/
def preExc (s : State) (pc n : Nat) (ys : List Sy) : Option Exc :=
  let act := ys.filter (active s)
  let data := (act.findSome? (accOf s)).bind (dataExc s)
  let guards := match fetchRefused s pc n, data with
    | some e, some d => if d.slot = 9 && d.pos < e.pos then some d else some e
    | some e, none => some e
    | none, d => d
  act.findSome? (invalidExc s) <|>
  (act.find? (lacksLevel s)).map (fun y => excAt 4 y.pos) <|>
  act.findSome? (fun y => (misaligned s pc y).map fun a => { excAt 5 y.pos with faddr := some a }) <|>
  act.findSome? (fun y => (stackSlot s y).map fun k => excAt k y.pos) <|>
  guards

end Sys2Proof.Machine
end

