-- ==== Sys2Proof/Machine/Long.lean ====
section
/-! DEFINITION. The long instructions SAVEM, LOADM and BMOV: their words and transfers, what cuts them, and how they resume (R113,
R166 to R168). -/

namespace Sys2Proof.Machine

open Sys2Proof

/-- A long instruction may be resumed (R166, R167). -/
def longRes (s : State) : Bool := s.on CORE_EXCCFG_LONGRES

/-- A precise exception from one word or transfer. -/
def longExc (s : State) (e : Exc) (epc : Nat) (p : Prog) : State := raiseExc s e epc (if longRes s then some p else none) none

/-- An asynchronous entry pending between words or transfers is taken there (R166). -/
def cutAsync (s : State) (epc : Nat) (p : Prog) : Option State :=
  if longRes s then (asyncKind s).map fun k => enterAsync s k epc (some p) else none

/-- One access of `n` bytes at `a` of a long instruction: its exception, else what was read. A store stores `v`. -/
def longAccess (s : State) (pos : Nat) (load : Bool) (a n v : Nat) : (Exc ⊕ Nat) × State :=
  let p : Axs := ⟨pos, ⟨load, n, false, 0, false⟩, a, v, 0⟩
  if a % n != 0 then (.inl { excAt 5 pos with faddr := some a }, s)
  else match dataExc s p with
    | some e => (.inl e, s)
    | none =>
      let s := accWait s p
      let (r, s) := if load then coreLoad s a n
        else
          let (ok, s) := coreStore s a n v
          (if ok then some 0 else none, s)
      match r with
      | some x => (.inr x, s)
      | none => (.inl { excAt 8 pos with faddr := some a }, s)

/-- SAVEM and LOADM from the registers of a list, words from address `a`, a cycle each (R113). -/
def multi (y : Sy) (epc : Nat) : List Nat → Nat → State → State
  | [], _, s => s
  | r :: t, a, s =>
    let load := y.op == 0x31
    let (x, s) := longAccess s y.pos load a 4 (rd s r).toNat
    if gone s then s
    else match x with
      | .inl e => longExc s e epc (.multi r a)
      | .inr v =>
        let s := if load then wgLong s r (BitVec.ofNat 32 v) else s
        let s := tick s 1
        let a := (a + 4) % 2 ^ 32
        if t.isEmpty then s
        else match cutAsync s epc (.multi (r + 1) a) with
          | some s => s
          | none => multi y epc t a s

/-- Bytes of BMOV's next transfer: a word where both addresses are aligned and a word is left, else a byte. R113 gives only the
cycles of the whole copy (DESIGN CHOICE, log entry 59). -/
def bmovSize (a d c : Nat) : Nat := if a % 4 = 0 && d % 4 = 0 && 4 ≤ c then 4 else 1

/-- Cycles of the first `k` bytes of a copy, its addresses equal in bits 1:0 or not (R113). -/
def bmovCost (eq : Bool) (k : Nat) : Nat := if eq then (k + 3) / 4 else k

/-- BMOV, a transfer at a time; its three registers hold its progress (R113). `eq` and `all` are its alignment and its count. A
transfer whose store raises an exception takes no effect, nor does its read (R166): it is as if only the store were made. -/
def bmov (y : Sy) (epc : Nat) (eq : Bool) (all : Nat) : Nat → State → State
  | 0, s => s
  | f + 1, s =>
    let a := (rd s y.a).toNat
    let d := (rd s y.d).toNat
    let c := (rd s y.b).toNat % 65536
    let n := bmovSize a d c
    if c = 0 then s
    else
      let (x, t) := longAccess s y.pos true a n 0
      if gone t then t
      else match x with
        | .inl e => longExc t e epc .bmov
        | .inr v =>
          let unread := xk { s with free := t.free } fun d => { d with cyc := t.dx.cyc }
          let (z, s) := longAccess t y.pos false d n v
          if gone s then s
          else match z with
            | .inl e => longExc (longAccess unread y.pos false d n v).2 e epc .bmov
            | .inr _ =>
              let s := wgLong (wgLong s y.a (BitVec.ofNat 32 (a + n))) y.d (BitVec.ofNat 32 (d + n))
              let s := wgLong s y.b (BitVec.ofNat 32 (c - n))
              let s := tick s (bmovCost eq (all - c + n) - bmovCost eq (all - c))
              if c = n then s
              else match cutAsync s epc .bmov with
                | some s => s
                | none => bmov y epc eq all f s

/-- Registers from one number to another. -/
def regRange (lo hi : Nat) : List Nat := (List.range (hi + 1 - lo)).map fun i => lo + i

/-- Run a long LSU instruction, from its recorded progress where it is resumed. Its cycles beyond the bundle's one count as they
pass (R102, R113). -/
def runLong (s : State) (y : Sy) (epc : Nat) (resumed : Bool) : State :=
  if y.op = 0x32 then
    let c := (rd s y.b).toNat % 65536
    let s := bmov y epc ((rd s y.a).toNat % 4 == (rd s y.d).toNat % 4) c c (tick s 2)
    if gone s then s else wgLong s y.b 0
  else
    let base := rd s y.a
    let a := if resumed then s.get CORE_PROGA_ADDR else base.toNat
    let first := if resumed then s.get CORE_PROG_NEXT else y.d
    let s := multi y epc (regRange first y.b) a (tick s 1)
    if gone s || fM y.x = 0 then s else wgLong s y.a (base + BitVec.ofNat 32 (4 * (y.b - y.d + 1)))

/-- The registers a long LSU instruction writes (R168). -/
def longKeys (y : Sy) : List Nat :=
  if y.op = 0x32 then [y.a, y.b, y.d]
  else (if y.op = 0x31 then regRange y.d y.b else []) ++ (if fM y.x = 1 then [y.a] else [])

end Sys2Proof.Machine
end

