-- ==== Sys2Proof/Machine/Micro.lean ====
section
/-! DEFINITION. The microcode engine: CUSTOM syllables (R135 to R144). -/

namespace Sys2Proof.Machine

open Sys2Proof

/-- What is fixed while a custom instruction runs: entry, the CUSTOM syllable, its position and bundle address, the blocked classes,
whether it is resumable, the runaway limit, and the microstore as it stood at the start (R145). -/
structure MicCtx where
  entry : Nat
  x : Syl
  pos : Nat
  epc : Nat
  block : Nat
  resum : Bool
  maxw : Nat
  store : Sparse Nat
  bad : List Nat
  deriving DecidableEq, Repr

/-- The engine's own state: micro-PC, LC, Z, microwords since the start or the last interruption point, microwords and loads in all,
and the registers written. -/
structure Mic where
  upc : Nat
  lc : Nat
  z : Bool
  since : Nat
  n : Nat
  loads : Nat
  wrote : List Nat
  deriving DecidableEq, Repr

/-- What a microword leads to. -/
inductive MicOut where
  | go (u : Mic) (s : State)
  | fin (u : Mic) (s : State)
  | stop (s : State)
  deriving DecidableEq, Repr

/-- Fields of a syllable that name general registers: D, A, B (R137). -/
def gFields (cls op : Nat) : Bool × Bool × Bool :=
  match cls with
  | 0 | 1 => (decide (op < 0x28), decide (op < 0x38), decide (op < 0x38) && !aluImm op)
  | 2 =>
    match lsuOp op with
    | some l => (!l.sat, true, l.mode == 1)
    | none => (false, false, false)
  | _ =>
    if op ≤ 3 then (true, true, op != 3) else if op ≤ 0xF then (false, true, true)
    else if op ≤ 0x11 then (true, false, false) else if op ≤ 0x13 then (false, true, false) else (false, false, false)

/-- The embedded syllable of a microword after replacement and mapping (R137). -/
def embedded (c : MicCtx) (w : Nat) : Sy :=
  let y := w / 2 ^ 32
  let cls := bitsOf y 28 3
  let op := bitsOf y 19 6
  let sd := bitOf w 30
  let sa := bitOf w 29
  let sb := bitOf w 28
  let d := if sd then fD c.x else bitsOf y 14 5
  let a := if sa then fA c.x else bitsOf y 9 5
  let b := if sb then fB c.x else bitsOf y 4 5
  let (gd, ga, gb) := gFields cls op
  let mp (named repl : Bool) (r : Nat) : Nat := if bitOf w 27 && named && !repl && 28 ≤ r then r + 4 else r
  let x : Syl := ⟨false, BitVec.ofNat 3 (bitsOf y 25 3), BitVec.ofNat 5 d, BitVec.ofNat 5 a, BitVec.ofNat 5 b, BitVec.ofNat 4 y, none⟩
  ⟨cls, op, x, mp gd sd d, mp ga sa a, mp gb sb b, c.pos⟩

/-- A microword that breaks R137 or R138. -/
def illWord (w : Nat) : Bool :=
  let seq := bitsOf w 17 3
  let ualu := bitsOf w 24 3
  w % 128 != 0 || seq == 7 || (1 ≤ seq && seq ≤ 4 && [1, 4, 5].contains ualu) || (!bitOf w 31 && w / 2 ^ 32 != 0) || bitOf w 63

/-- The embedded syllable is illegal, or of a class or opcode R139 excludes. -/
def illSyl (y : Sy) : Bool := 5 ≤ y.cls || isLongLsu y || !sylLegal y.cls y.op y.x

/-- An effect of microcode, which it must see again. -/
def applyMic (s : State) (w : Wr) : State :=
  match w with
  | .g r v => if gone s then s else wgLong s r v
  | w => apply s w

/-- Execute an embedded syllable: its exception, else the registers written and whether it was a load (R139). -/
def runEmbedded (s : State) (y : Sy) : (Exc ⊕ List Nat) × State :=
  if !active s y then (.inr [], s)
  else match misaligned s 0 y with
    | some a => (.inl { excAt 5 y.pos with faddr := some a }, s)
    | none =>
      let ws := writes s 0 y
      match accOf s y with
      | none => (.inr (ws.filterMap wrKey), ws.foldl applyMic s)
      | some p =>
        match dataExc s p with
        | some e => (.inl e, s)
        | none =>
          match doAccess (accWait s p) p with
          | (none, s) => (.inl { excAt 8 y.pos with faddr := some p.addr }, s)
          | (some l, s) =>
            let s := l.foldl (fun s e => if gone s then s else wgLong s e.1 (BitVec.ofNat 32 e.2)) (ws.foldl applyMic s)
            (.inr (ws.filterMap wrKey ++ l.map fun e => e.1), s)

/-- The micro-ALU (R138): temporaries, LC and Z. -/
def microAlu (w : Nat) (u : Mic) (s : State) : Mic × State :=
  let x := CORE_UT_VALUE (bitsOf w 22 2)
  let y := s.get (CORE_UT_VALUE (bitsOf w 20 2))
  let imm := bitsOf w 7 9
  match bitsOf w 24 3 with
  | 0 => (u, s)
  | 1 => (u, s.put x imm)
  | 2 => (u, s.put x y)
  | 3 => (u, s.put x (s.get x + y))
  | 4 => (u, s.put x (s.get x + imm))
  | 5 => ({ u with lc := imm }, s)
  | 6 => ({ u with lc := y % 65536 }, s)
  | _ => ({ u with z := y == 0 }, s)

/-- The sequencer (R138): LC and the next address, none at END. FAULT is decided before. -/
def microSeq (w : Nat) (u : Mic) : Mic × Option Nat :=
  let imm := bitsOf w 7 9
  let next := u.upc + 1
  match bitsOf w 17 3 with
  | 1 => (u, some imm)
  | 2 => if u.lc = 0 then (u, some next) else ({ u with lc := u.lc - 1 }, some (if u.lc = 1 then next else imm))
  | 3 => (u, some (if u.z then imm else next))
  | 4 => (u, some (if u.z then next else imm))
  | 5 => (u, none)
  | _ => (u, some next)

/-- A microcode fault (R141). -/
def microFault (c : MicCtx) (u : Mic) (s : State) (cause : Nat) : MicOut :=
  .stop (raiseExc s { excAt 10 c.pos with uf := some (cause, u.upc, c.entry) } c.epc none none)

/-- A microword past its checks: embedded syllable, micro-ALU, sequencer, in that order; one that faults takes no effect (R138,
R141). The micro-ALU so sees a temporary that the embedded syllable writes, and also one that it loads, since R138's order stands
before R139's next microword (DESIGN CHOICE, log entry 107). An embedded load costs its cycle with a predicate of 0 too (R140).
-/
def microExec (c : MicCtx) (w : Nat) (u : Mic) (s : State) : MicOut :=
  let y := embedded c w
  let (r, t) := if bitOf w 31 then runEmbedded s y else (.inr [], s)
  if gone t then .stop t
  else match r with
    | .inl e => .stop (raiseExc t e c.epc (if c.resum then some (.custom u.upc u.lc u.z) else none) none)
    | .inr k =>
      let ld := bitOf w 31 && (match accOf s y with | some p => p.lsu.load | none => false)
      let (v, t) := microAlu w { u with n := u.n + 1, since := u.since + 1, loads := u.loads + b2n ld, wrote := k ++ u.wrote } t
      let t := tick t (1 + b2n ld)
      if bitsOf w 17 3 = 6 then microFault c u s 8
      else match microSeq w v with
        | (v, none) => .fin v t
        | (v, some a) => if a = 512 then microFault c u s 9 else .go { v with upc := a } t

/-- One microword: interruption point, the checks of R141, execution. Of several checks that one microword fails, R141 does not
say which decides: RUNAWAY, PARITY, ILLWORD, ILLSYL, BLOCKED, in this order (DESIGN CHOICE, log entry 61). A microword that
fails its parity check is no interruption point, be its IPT bit 1 (R142 is silent; DESIGN CHOICE, log entry 107). -/
def microStep (c : MicCtx) (u : Mic) (s : State) : MicOut :=
  let w := Sparse.look 0 c.store u.upc
  let bad := c.bad.contains u.upc
  let point := c.resum && !bad && bitOf w 16
  match if point then asyncKind s else none with
  | some k => .stop (enterAsync s k c.epc (some (.custom u.upc u.lc u.z)))
  | none =>
    let u := if point then { u with since := 0 } else u
    let y := embedded c w
    if u.since = c.maxw then microFault c u s 6
    else if bad then microFault c u s 5
    else if illWord w then microFault c u s 2
    else if bitOf w 31 && illSyl y then microFault c u s 3
    else if bitOf w 31 && !bitOf c.block y.cls then microFault c u s 4
    else microExec c w u s

/-- Run microwords until the end, an entry, or the fuel's end, which leaves the instruction to be gone on with (log entry 60). -/
def microRun (c : MicCtx) : Nat → Mic → State → Option Mic × State
  | 0, u, s =>
    let s := progAtEntry s (some (.custom u.upc u.lc u.z))
    (none, xk s fun d => { d with armProg := true, bundle := [] })
  | f + 1, u, s =>
    match microStep c u s with
    | .go u s => microRun c f u s
    | .fin u s => (some u, s)
    | .stop s => (none, s)

/-- Microwords one command runs at most. -/
def microFuel : Nat := 2 ^ 32

/-- Run a custom instruction, from its recorded progress where it is resumed (R136, R142, R144): the registers it wrote. Its
cycles beyond the bundle's one count as they pass (R102, R140). A resume starts the count of R143 afresh, also at a microword
that is no interruption point (DESIGN CHOICE, log entry 62). Where the progress is stale no microword has run, and CORE_UFSTAT
records the one that would have, CORE_PROG.NEXT (R141; DESIGN CHOICE, log entry 58). -/
def customRun (s : State) (y : Sy) (epc : Nat) (resumed : Bool) : List Nat × State :=
  let resum := s.on (CORE_DTE_INTR y.op) && longRes s
  let c : MicCtx := ⟨y.op, y.x, y.pos, epc, s.get (CORE_DTE_BLOCK y.op), resum, 1024 * 4 ^ s.get CORE_UCFG_MAXW, s.dx.ustore, s.dx.uBad⟩
  let fresh : Mic := ⟨s.get (CORE_DTE_ENTRY y.op), 0, false, 0, 0, 0, []⟩
  let u := if resumed then { fresh with upc := s.get CORE_PROG_NEXT, lc := s.get CORE_PROG_LC, z := s.on CORE_PROG_Z } else fresh
  if resumed && s.get CORE_USUSP_SGEN != s.get CORE_UCFG_GEN then
    ([], raiseExc s { excAt 10 y.pos with uf := some (7, u.upc, y.op) } epc none none)
  else match microRun c microFuel u (tick s 1) with
    | (some u, s) => (u.wrote, s)
    | (none, s) => ([], s)

/-- A custom instruction runs, and the writes of the decode table and the microstore that it held back take effect (R145). -/
def runCustom (s : State) (y : Sy) (epc : Nat) (resumed : Bool) : List Nat × State :=
  let (k, s) := customRun (xk s fun d => { d with usHeld := some [] }) y epc resumed
  (k, usRelease s)

end Sys2Proof.Machine
end

