-- ==== Sys2Proof/Machine/Bundle.lean ====
section
/-! DEFINITION. A bundle: its checks, its effect, what follows it; repeats; RETE, TRAP and SLEEP (R92 to R100, R129 to R134, R151 to
R156, R165). -/

namespace Sys2Proof.Machine

open Sys2Proof

/-! ### One issue of a bundle -/

/-- Completion (R96, R98, R100, R106, R168): results in class order, then the loads in flight land, the shadow record and the
progress are used up, and MVTS takes effect last, though a condition that the bundle sets outlives its W1C (R14, R125). `l` is
what this bundle loads. -/
def complete (s : State) (ws : List Wr) (l : List (Nat × Nat)) (armed : Bool) : State :=
  let s := (ws.filter fun w => !isMvts w).foldl apply s
  if gone s then s
  else
    let s := xk (landLoads s) fun d => { d with loads := l }
    let s := if s.dx.armShadow then (xk s fun d => { d with armShadow := false }).put CORE_LSHAD_VALID 0 else s
    let s := if armed then (xk s fun d => { d with armProg := false }).put CORE_PROG_VALID 0 else s
    match ws.filter isMvts with
    | [] => s
    | m => (m ++ ws.filter isSticky).foldl apply s

/-- Run the long instructions of a bundle: the registers they wrote, each with the position before which another syllable's write of
it is lost: its own (R96), or for the microcode's that of every syllable (R136). -/
def runLongs (epc kind : Nat) : List Sy → State → List (Nat × Nat) × State
  | [], s => ([], s)
  | y :: t, s =>
    if longKind y = 0 then runLongs epc kind t s
    else
      let s := xk s fun d => { d with armProg := false }
      let (k, s) := if isCustom y then runCustom s y epc (kind == 3) else (longKeys y, runLong s y epc (kind == longKind y))
      let k := k.map fun r => (r, if isCustom y then 8 else y.pos)
      if gone s then (k, s)
      else
        let (k', s) := runLongs epc kind t s
        (k ++ k', s)

/-- One more cycle where the first and last words lie in different lines (R94). -/
def crossing (pc n : Nat) : Nat := b2n (pc / 32 != (pc + 4 * (n - 1)) / 32)

/-- A long instruction runs in the bundle. -/
def hasLong (act : List Sy) : Bool := act.any fun y => longKind y != 0

/-- An access beside a long instruction, tried before that starts (R97): the access whose target reports an error, with the state
this leaves; else the state with the hold capacitor as the trial's wait leaves it (R301), so that the access itself does not fail
of it. -/
def tryAccess (s : State) (act : List Sy) : Option Axs → Option Axs × State
  | some p =>
    if !hasLong act then (none, s)
    else match doAccess (accWait s p) p with
      | (none, t) => (some p, t)
      | (some _, t) =>
      if holdReady t && !holdReady s then
        let u := { s.put NVS_STAT_HOLDRDY 1 with free := t.free }
        (none, if headWaits s then headGo u else u)
      else (none, s)
  | none => (none, s)

/-- The state in which a bundle's access failed, with none of the bundle's effects (R97): where a long instruction has run beside
it, the state before that, the cycles counted. -/
def failedIn (act : List Sy) (before after : State) : State :=
  if hasLong act then xk { before with free := after.free } fun d => { d with cyc := after.dx.cyc } else after

/-- Issue a legal bundle of `n` words: it completes, or an entry is taken and nothing is left gathered. `rem` is what CORE_REPST
will hold where an iteration faults. A bundle with a long instruction counts its issue as it starts (R94, R102). A load beside
CUSTOM lands at the next bundle's completion, over what the microcode wrote (R98, R136; DESIGN CHOICE, log entry 102). A resumed
CUSTOM whose predicate reads 0 by now is not gone on with, and its progress is used up (R135, R142; DESIGN CHOICE, log entry 107).
A word that the guard lets no fetch of is no fetch fault of R94: for a repeated bundle its exception is the first iteration's, at
that bundle's address with CORE_REPST set, and none where there is no iteration (R130, R134, R181; DESIGN CHOICE, log entry 102).
-/
def issue (s : State) (pc next n : Nat) (ys : List Sy) (rem : Option Nat) : State :=
  match preExc s pc n ys with
  | some e => raiseExc s e pc none rem
  | none =>
    let act := ys.filter (active s)
    let armed := s.dx.armProg
    let kind := if armed then s.get CORE_PROG_KIND else 0
    let ws := act.flatMap fun y => (writes s next y).map fun w => (y.pos, w)
    let ax := act.findSome? (accOf s)
    match tryAccess s act ax with
    | (some p, t) => raiseExc t { excAt 8 p.pos with faddr := some p.addr } pc none rem
    | (none, b) =>
    let (keys, s) := runLongs pc kind act (if hasLong act then tick b (1 + crossing pc n) else b)
    if gone s then s
    else
      let ws := (ws.filter fun w => !keys.any fun k => wrKey w.2 == some k.1 && decide (w.1 < k.2)).map (·.2)
      match ax with
      | none => complete s ws [] armed
      | some p =>
        let stall := accStall s p
        let (r, s) := doAccess s p
        if gone s then s
        else match r with
          | some l => complete s ws l armed
          | none => raiseExc (bundleTick (failedIn act b s) 0 stall) { excAt 8 p.pos with faddr := some p.addr } pc none rem

/-! ### What follows a bundle -/

/-- What the BRU and EXT syllables of a bundle ask for after it: the next address, RETE, TRAP's number and position, SLEEP's target,
and the cycles they add (R116). -/
structure After where
  next : Nat
  rete : Bool
  trap : Option (Nat × Nat)
  sleep : Option Nat
  cost : Nat
  deriving DecidableEq, Repr

/-- One active syllable's part of it, operands read at issue. -/
def afterOne (s : State) (pc : Nat) (f : After) (y : Sy) : After :=
  if y.cls = 5 then
    (if y.op ≤ 4 then { f with next := target s pc y, cost := f.cost + (if y.op = 1 || y.op = 3 then 2 else 1) }
     else if y.op = 5 then { f with rete := true, cost := f.cost + 3 }
     else { f with trap := some (imm19 y.x, y.pos) })
  else if isSleep y then { f with sleep := some (imm19 y.x) }
  else f

/-- RETE (R153): level and status return, the fetch starts at CORE_EPC, and the records that stand are taken up. -/
def doRete (s : State) : State :=
  let epc := s.get CORE_EPC_ADDR * 4
  let s := (s.put CORE_STATUS_PL (min (s.get CORE_STATUS_PPL) 2)).put CORE_STATUS_IE (s.get CORE_STATUS_PIE)
  let s := (s.put CORE_STATUS_THR (s.get CORE_STATUS_PTHR)).put CORE_STATUS_EL 0
  let rep := if s.on CORE_REPST_VALID then some (Rep.mk (min (s.get CORE_REPST_REMAIN) 1024) epc 1) else none
  let sh := s.on CORE_LSHAD_VALID
  let pr := s.on CORE_PROG_VALID
  xk s fun d => { d with pc := epc, rep := rep, armShadow := sh, armProg := pr, deferred := d.deferred && rep.isNone }

/-- SLEEP after its bundle (R51): a late error of the drain is taken before entry starts, and where the store was one of SLEEP's
own bundle the machine check takes SLEEP's place, with no PWR_STAT written (DESIGN CHOICE, log entry 123). A RETE of the bundle
takes effect after it (R153), and where it takes up a repeat the machine check waits for the last iteration (R132, R134;
DEDUCED, log entry 122). -/
def doSleep (s : State) (t : Nat) (rete : Bool) : State :=
  let ret (s : State) : State := if rete then doRete s else s
  match asyncKind s with
  | some (2, th) => let s := ret s; if repHolds s then s else enterAsync s (2, th) s.dx.pc none
  | _ => ret (sleepIssue s t)

/-- A bundle that has completed: cost, the drains of R51 and R165, the next address, and what it asked for. A SLEEP beside a
TRAP takes effect too, and the core wakes in the handler (R155). `put` says that a pending entry was put off at its start (R99),
`el` that EL stood at its issue, which decides whether its TRAP is a double fault (R152). -/
def finish (s : State) (f : After) (cost : Nat) (stall : Option Nat) (put el : Bool) : State :=
  if gone s then s
  else
    let s := boundary (xk (bundleTick s (cost + f.cost) stall) fun d => { d with deferred := put })
    let s := if f.sleep.isSome then drainWait s else s
    if gone s then s
    else
      let s := xk s fun d => { d with pc := f.next % 2 ^ 32, bundle := [] }
      match f.trap, f.sleep with
      | some (n, i), t =>
        if el then doubleFault s (64 + n)
        else
          let s := takeIn s ⟨64 + n, s.dx.pc, i, false, none, none⟩ none none
          (match t with | some t => doSleep s t false | none => s)
      | none, some t => doSleep s t f.rete
      | none, none => if f.rete then doRete s else s

/-! ### Ordinary bundles and repeats -/

/-- REP or REPR (R129): the next bundle is the repeated one. One whose predicate is 0 too holds asynchronous entries back until
that bundle has run, since it makes its checks with it (R130, R132; DESIGN CHOICE, log entry 102). An entry put off at the boundary
before REP may be put off once more after the repeat, as one that came during it may (R99, R132; DESIGN CHOICE, log entry 102). -/
def startRep (s : State) (pc next : Nat) (y : Sy) : State :=
  let n := if y.op = 0x13 then imm19 y.x + 1 else (rd s y.a).toNat % 1024
  let r : Rep := if active s y then ⟨n, pc, 0⟩ else ⟨1, pc, 2⟩
  bundleTick (xk s fun d => { d with pc := next, bundle := [], rep := some r, deferred := false }) 1 (some 0)

/-- A legal bundle that is not repeated. -/
def runOne (s : State) (pc next n : Nat) (ys : List Sy) (put : Bool) : State :=
  let f := (ys.filter (active s)).foldl (afterOne s pc) ⟨next, false, none, none, 0⟩
  match ys.find? isRep with
  | some y =>
    (match preExc s pc n ys with
      | some e => raiseExc s e pc none none
      | none => startRep s pc next y)
  | none =>
    let act := ys.filter (active s)
    finish (issue s pc next n ys none) f (if hasLong act then 0 else 1 + crossing pc n) (stallOf s act) put (s.on CORE_STATUS_EL)

/-- Iterations of a repeat (R131, R134), each a bundle before which what R8 and R165 have land does so. The bundle's `n`
words are fetched once: the first iteration alone asks the guard for them (R131, R181). -/
def iterate (pc next : Nat) (ys : List Sy) : Nat → Nat → State → State
  | 0, _, s => s
  | k + 1, n, s =>
    let s := boundary s
    if gone s then s
    else
      let stall := stallOf s (ys.filter (active s))
      let s := issue s pc next n ys (some (k + 1))
      if gone s then s else iterate pc next ys k 0 (bundleTick s 1 stall)

/-- A repeat has run its iterations, or has none to run. An entry that came meanwhile is due now, subject to R99's deferral, a
drain's machine check like any (R132). -/
def repDone (s : State) (next : Nat) (r : Rep) : State :=
  if gone s then s
  else
    let s := if r.kind = 1 then s.put CORE_REPST_VALID 0 else s
    xk s fun d => { d with pc := next, bundle := [], rep := none, deferred := false, mcDrain := false }

/-- Before SLEEP's bundle, and after a change of STBUF, the buffer drains; a late error of an earlier store is taken before the
bundle (R51, R165), unless that is a repeated one (R132). -/
def preDrain (s : State) (ys : List Sy) : State :=
  if s.dx.drainDue || ys.any fun y => isSleep y && active s y then
    let s := xk (drainWait s) fun d => { d with drainDue := false }
    match if gone s || repHolds s then none else asyncKind s with
    | some (2, t) => enterAsync s (2, t) s.dx.pc none
    | _ => s
  else s

/-- The bundle gathered is whole: run it (R92, R129, R154). An illegal one makes no drain of its SLEEP (R130). A repeated bundle
is fetched once, and pays its line crossing also where REPR's count is 0 (R94, R131; DESIGN CHOICE, log entry 102). Where it is
illegal or cannot be fetched, the exception stands at the REP bundle and CORE_ECAUSE.SYLIX gives the position inside the repeated
bundle (R130, R151; DESIGN CHOICE, log entry 102). -/
def runBundle (s : State) : State :=
  let b := s.dx.bundle
  let ys := place 0 b
  let n := words b
  let stop := match b.getLast? with | some y => y.x.stop | none => false
  let pc := s.dx.pc
  let next := (pc + 4 * n) % 2 ^ 32
  let put := (asyncKind s).isSome && !s.dx.loads.isEmpty
  let epc := match s.dx.rep with | some r => r.epc | none => pc
  let s := preDrain s (if (illegalAt s ys n stop s.dx.rep.isSome).isSome then [] else ys)
  if gone s then s
  else match fetchAll pc (min n 7) s with
    | (some i, s) => raiseExc s ⟨8, i, true, some ((pc + 4 * i) % 2 ^ 32), none, none⟩ epc none none
    | (none, s) =>
      match illegalAt s ys n stop s.dx.rep.isSome with
      | some i => raiseExc s (excAt 3 i) epc none none
      | none =>
        match s.dx.rep with
        | none => runOne s pc next n ys put
        | some r =>
          if r.kind = 2 then runOne (xk s fun d => { d with rep := none }) pc next n ys put
          else repDone (iterate pc next ys r.count n (tick s (crossing pc n))) next r

/-- A syllable issues: it joins the bundle being gathered, and the last one runs it. Nothing issues while the core does not run or
an asynchronous entry is to be taken at this boundary (R159). -/
def syllable (s : State) (cls op : Nat) (x : Syl) : State :=
  let s := if coreRuns s && s.dx.bundle.isEmpty then boundary s else s
  if !coreRuns s || (dueEntry s).isSome then s
  else
    let l := s.dx.bundle ++ [⟨cls, op, x⟩]
    let s := xk s fun d => { d with bundle := l }
    if x.stop || 7 ≤ words l then runBundle s else s

end Sys2Proof.Machine
end

