-- ==== Sys2Proof/Machine/Dx.lean ====
section
/-! DEFINITION. The rows of the DX core's syllables: one for each opcode of R107, R110, R115 to R117. A syllable issues when its row
is commanded; its bundle takes effect with its last syllable (R92, R96). -/

namespace Sys2Proof.Machine

open Sys2Proof

/-- The class of an ALU syllable: ALU0, or ALU1 (R89). -/
def aluCls (unit : Bool) : Nat := b2n unit

/-- The class of a MAC syllable: MAC0, or MAC1 (R89). -/
def macCls (unit : Bool) : Nat := 3 + b2n unit

/-- ADD, ALU opcode 0x00. -/
def execAdd (unit : Bool) (x : Syl) (s : State) : Host.Outcome State Fault Refusal :=
  live s (syllable s (aluCls unit) 0x00 x)

/-- SUB, ALU opcode 0x01. -/
def execSub (unit : Bool) (x : Syl) (s : State) : Host.Outcome State Fault Refusal :=
  live s (syllable s (aluCls unit) 0x01 x)

/-- ADDI, ALU opcode 0x02. -/
def execAddi (unit : Bool) (x : Syl) (s : State) : Host.Outcome State Fault Refusal :=
  live s (syllable s (aluCls unit) 0x02 x)

/-- ADDIS, ALU opcode 0x03. -/
def execAddis (unit : Bool) (x : Syl) (s : State) : Host.Outcome State Fault Refusal :=
  live s (syllable s (aluCls unit) 0x03 x)

/-- RSUBI, ALU opcode 0x04. -/
def execRsubi (unit : Bool) (x : Syl) (s : State) : Host.Outcome State Fault Refusal :=
  live s (syllable s (aluCls unit) 0x04 x)

/-- NEG, ALU opcode 0x05. -/
def execNeg (unit : Bool) (x : Syl) (s : State) : Host.Outcome State Fault Refusal :=
  live s (syllable s (aluCls unit) 0x05 x)

/-- ABS, ALU opcode 0x06. -/
def execAbsG (unit : Bool) (x : Syl) (s : State) : Host.Outcome State Fault Refusal :=
  live s (syllable s (aluCls unit) 0x06 x)

/-- AND, ALU opcode 0x08. -/
def execAndG (unit : Bool) (x : Syl) (s : State) : Host.Outcome State Fault Refusal :=
  live s (syllable s (aluCls unit) 0x08 x)

/-- ANDI, ALU opcode 0x09. -/
def execAndi (unit : Bool) (x : Syl) (s : State) : Host.Outcome State Fault Refusal :=
  live s (syllable s (aluCls unit) 0x09 x)

/-- OR, ALU opcode 0x0A. -/
def execOrG (unit : Bool) (x : Syl) (s : State) : Host.Outcome State Fault Refusal :=
  live s (syllable s (aluCls unit) 0x0A x)

/-- ORI, ALU opcode 0x0B. -/
def execOri (unit : Bool) (x : Syl) (s : State) : Host.Outcome State Fault Refusal :=
  live s (syllable s (aluCls unit) 0x0B x)

/-- XOR, ALU opcode 0x0C. -/
def execXorG (unit : Bool) (x : Syl) (s : State) : Host.Outcome State Fault Refusal :=
  live s (syllable s (aluCls unit) 0x0C x)

/-- XORI, ALU opcode 0x0D. -/
def execXori (unit : Bool) (x : Syl) (s : State) : Host.Outcome State Fault Refusal :=
  live s (syllable s (aluCls unit) 0x0D x)

/-- ANDN, ALU opcode 0x0E. -/
def execAndn (unit : Bool) (x : Syl) (s : State) : Host.Outcome State Fault Refusal :=
  live s (syllable s (aluCls unit) 0x0E x)

/-- NOT, ALU opcode 0x0F. -/
def execNotG (unit : Bool) (x : Syl) (s : State) : Host.Outcome State Fault Refusal :=
  live s (syllable s (aluCls unit) 0x0F x)

/-- SHL, ALU opcode 0x10. -/
def execShl (unit : Bool) (x : Syl) (s : State) : Host.Outcome State Fault Refusal :=
  live s (syllable s (aluCls unit) 0x10 x)

/-- SHLI, ALU opcode 0x11. -/
def execShli (unit : Bool) (x : Syl) (s : State) : Host.Outcome State Fault Refusal :=
  live s (syllable s (aluCls unit) 0x11 x)

/-- SHR, ALU opcode 0x12. -/
def execShr (unit : Bool) (x : Syl) (s : State) : Host.Outcome State Fault Refusal :=
  live s (syllable s (aluCls unit) 0x12 x)

/-- SHRI, ALU opcode 0x13. -/
def execShri (unit : Bool) (x : Syl) (s : State) : Host.Outcome State Fault Refusal :=
  live s (syllable s (aluCls unit) 0x13 x)

/-- SAR, ALU opcode 0x14. -/
def execSar (unit : Bool) (x : Syl) (s : State) : Host.Outcome State Fault Refusal :=
  live s (syllable s (aluCls unit) 0x14 x)

/-- SARI, ALU opcode 0x15. -/
def execSari (unit : Bool) (x : Syl) (s : State) : Host.Outcome State Fault Refusal :=
  live s (syllable s (aluCls unit) 0x15 x)

/-- ROR, ALU opcode 0x16. -/
def execRor (unit : Bool) (x : Syl) (s : State) : Host.Outcome State Fault Refusal :=
  live s (syllable s (aluCls unit) 0x16 x)

/-- RORI, ALU opcode 0x17. -/
def execRori (unit : Bool) (x : Syl) (s : State) : Host.Outcome State Fault Refusal :=
  live s (syllable s (aluCls unit) 0x17 x)

/-- MIN, ALU opcode 0x18. -/
def execMinG (unit : Bool) (x : Syl) (s : State) : Host.Outcome State Fault Refusal :=
  live s (syllable s (aluCls unit) 0x18 x)

/-- MAX, ALU opcode 0x19. -/
def execMaxG (unit : Bool) (x : Syl) (s : State) : Host.Outcome State Fault Refusal :=
  live s (syllable s (aluCls unit) 0x19 x)

/-- MINU, ALU opcode 0x1A. -/
def execMinu (unit : Bool) (x : Syl) (s : State) : Host.Outcome State Fault Refusal :=
  live s (syllable s (aluCls unit) 0x1A x)

/-- MAXU, ALU opcode 0x1B. -/
def execMaxu (unit : Bool) (x : Syl) (s : State) : Host.Outcome State Fault Refusal :=
  live s (syllable s (aluCls unit) 0x1B x)

/-- CLZ, ALU opcode 0x1C. -/
def execClz (unit : Bool) (x : Syl) (s : State) : Host.Outcome State Fault Refusal :=
  live s (syllable s (aluCls unit) 0x1C x)

/-- XTN, ALU opcode 0x1D. -/
def execXtn (unit : Bool) (x : Syl) (s : State) : Host.Outcome State Fault Refusal :=
  live s (syllable s (aluCls unit) 0x1D x)

/-- EXTU, ALU opcode 0x1E. -/
def execExtu (unit : Bool) (x : Syl) (s : State) : Host.Outcome State Fault Refusal :=
  live s (syllable s (aluCls unit) 0x1E x)

/-- EXTS, ALU opcode 0x1F. -/
def execExts (unit : Bool) (x : Syl) (s : State) : Host.Outcome State Fault Refusal :=
  live s (syllable s (aluCls unit) 0x1F x)

/-- MOV, ALU opcode 0x20. -/
def execMov (unit : Bool) (x : Syl) (s : State) : Host.Outcome State Fault Refusal :=
  live s (syllable s (aluCls unit) 0x20 x)

/-- MOVI, ALU opcode 0x21. -/
def execMovi (unit : Bool) (x : Syl) (s : State) : Host.Outcome State Fault Refusal :=
  live s (syllable s (aluCls unit) 0x21 x)

/-- SEL, ALU opcode 0x22. -/
def execSel (unit : Bool) (x : Syl) (s : State) : Host.Outcome State Fault Refusal :=
  live s (syllable s (aluCls unit) 0x22 x)

/-- CMPEQ, ALU opcode 0x28. -/
def execCmpeq (unit : Bool) (x : Syl) (s : State) : Host.Outcome State Fault Refusal :=
  live s (syllable s (aluCls unit) 0x28 x)

/-- CMPNE, ALU opcode 0x29. -/
def execCmpne (unit : Bool) (x : Syl) (s : State) : Host.Outcome State Fault Refusal :=
  live s (syllable s (aluCls unit) 0x29 x)

/-- CMPLT, ALU opcode 0x2A. -/
def execCmplt (unit : Bool) (x : Syl) (s : State) : Host.Outcome State Fault Refusal :=
  live s (syllable s (aluCls unit) 0x2A x)

/-- CMPLE, ALU opcode 0x2B. -/
def execCmple (unit : Bool) (x : Syl) (s : State) : Host.Outcome State Fault Refusal :=
  live s (syllable s (aluCls unit) 0x2B x)

/-- CMPLTU, ALU opcode 0x2C. -/
def execCmpltu (unit : Bool) (x : Syl) (s : State) : Host.Outcome State Fault Refusal :=
  live s (syllable s (aluCls unit) 0x2C x)

/-- CMPLEU, ALU opcode 0x2D. -/
def execCmpleu (unit : Bool) (x : Syl) (s : State) : Host.Outcome State Fault Refusal :=
  live s (syllable s (aluCls unit) 0x2D x)

/-- CMPEQI, ALU opcode 0x30. -/
def execCmpeqi (unit : Bool) (x : Syl) (s : State) : Host.Outcome State Fault Refusal :=
  live s (syllable s (aluCls unit) 0x30 x)

/-- CMPNEI, ALU opcode 0x31. -/
def execCmpnei (unit : Bool) (x : Syl) (s : State) : Host.Outcome State Fault Refusal :=
  live s (syllable s (aluCls unit) 0x31 x)

/-- CMPLTI, ALU opcode 0x32. -/
def execCmplti (unit : Bool) (x : Syl) (s : State) : Host.Outcome State Fault Refusal :=
  live s (syllable s (aluCls unit) 0x32 x)

/-- CMPLEI, ALU opcode 0x33. -/
def execCmplei (unit : Bool) (x : Syl) (s : State) : Host.Outcome State Fault Refusal :=
  live s (syllable s (aluCls unit) 0x33 x)

/-- CMPLTUI, ALU opcode 0x34. -/
def execCmpltui (unit : Bool) (x : Syl) (s : State) : Host.Outcome State Fault Refusal :=
  live s (syllable s (aluCls unit) 0x34 x)

/-- CMPLEUI, ALU opcode 0x35. -/
def execCmpleui (unit : Bool) (x : Syl) (s : State) : Host.Outcome State Fault Refusal :=
  live s (syllable s (aluCls unit) 0x35 x)

/-- PAND, ALU opcode 0x38. -/
def execPand (unit : Bool) (x : Syl) (s : State) : Host.Outcome State Fault Refusal :=
  live s (syllable s (aluCls unit) 0x38 x)

/-- POR, ALU opcode 0x39. -/
def execPor (unit : Bool) (x : Syl) (s : State) : Host.Outcome State Fault Refusal :=
  live s (syllable s (aluCls unit) 0x39 x)

/-- PXOR, ALU opcode 0x3A. -/
def execPxor (unit : Bool) (x : Syl) (s : State) : Host.Outcome State Fault Refusal :=
  live s (syllable s (aluCls unit) 0x3A x)

/-- PANDN, ALU opcode 0x3B. -/
def execPandn (unit : Bool) (x : Syl) (s : State) : Host.Outcome State Fault Refusal :=
  live s (syllable s (aluCls unit) 0x3B x)

/-- PNOT, ALU opcode 0x3C. -/
def execPnot (unit : Bool) (x : Syl) (s : State) : Host.Outcome State Fault Refusal :=
  live s (syllable s (aluCls unit) 0x3C x)

/-- LDB, LSU opcode 0x00. -/
def execLdb (x : Syl) (s : State) : Host.Outcome State Fault Refusal := live s (syllable s 2 0x00 x)

/-- LDBX, LSU opcode 0x08. -/
def execLdbx (x : Syl) (s : State) : Host.Outcome State Fault Refusal := live s (syllable s 2 0x08 x)

/-- LDBP, LSU opcode 0x10. -/
def execLdbp (x : Syl) (s : State) : Host.Outcome State Fault Refusal := live s (syllable s 2 0x10 x)

/-- LDBU, LSU opcode 0x01. -/
def execLdbu (x : Syl) (s : State) : Host.Outcome State Fault Refusal := live s (syllable s 2 0x01 x)

/-- LDBUX, LSU opcode 0x09. -/
def execLdbux (x : Syl) (s : State) : Host.Outcome State Fault Refusal := live s (syllable s 2 0x09 x)

/-- LDBUP, LSU opcode 0x11. -/
def execLdbup (x : Syl) (s : State) : Host.Outcome State Fault Refusal := live s (syllable s 2 0x11 x)

/-- LDH, LSU opcode 0x02. -/
def execLdh (x : Syl) (s : State) : Host.Outcome State Fault Refusal := live s (syllable s 2 0x02 x)

/-- LDHX, LSU opcode 0x0A. -/
def execLdhx (x : Syl) (s : State) : Host.Outcome State Fault Refusal := live s (syllable s 2 0x0A x)

/-- LDHP, LSU opcode 0x12. -/
def execLdhp (x : Syl) (s : State) : Host.Outcome State Fault Refusal := live s (syllable s 2 0x12 x)

/-- LDHU, LSU opcode 0x03. -/
def execLdhu (x : Syl) (s : State) : Host.Outcome State Fault Refusal := live s (syllable s 2 0x03 x)

/-- LDHUX, LSU opcode 0x0B. -/
def execLdhux (x : Syl) (s : State) : Host.Outcome State Fault Refusal := live s (syllable s 2 0x0B x)

/-- LDHUP, LSU opcode 0x13. -/
def execLdhup (x : Syl) (s : State) : Host.Outcome State Fault Refusal := live s (syllable s 2 0x13 x)

/-- LDW, LSU opcode 0x04. -/
def execLdw (x : Syl) (s : State) : Host.Outcome State Fault Refusal := live s (syllable s 2 0x04 x)

/-- LDWX, LSU opcode 0x0C. -/
def execLdwx (x : Syl) (s : State) : Host.Outcome State Fault Refusal := live s (syllable s 2 0x0C x)

/-- LDWP, LSU opcode 0x14. -/
def execLdwp (x : Syl) (s : State) : Host.Outcome State Fault Refusal := live s (syllable s 2 0x14 x)

/-- LDD, LSU opcode 0x05. -/
def execLdd (x : Syl) (s : State) : Host.Outcome State Fault Refusal := live s (syllable s 2 0x05 x)

/-- LDDX, LSU opcode 0x0D. -/
def execLddx (x : Syl) (s : State) : Host.Outcome State Fault Refusal := live s (syllable s 2 0x0D x)

/-- LDDP, LSU opcode 0x15. -/
def execLddp (x : Syl) (s : State) : Host.Outcome State Fault Refusal := live s (syllable s 2 0x15 x)

/-- STB, LSU opcode 0x18. -/
def execStb (x : Syl) (s : State) : Host.Outcome State Fault Refusal := live s (syllable s 2 0x18 x)

/-- STBX, LSU opcode 0x1C. -/
def execStbx (x : Syl) (s : State) : Host.Outcome State Fault Refusal := live s (syllable s 2 0x1C x)

/-- STBP, LSU opcode 0x20. -/
def execStbp (x : Syl) (s : State) : Host.Outcome State Fault Refusal := live s (syllable s 2 0x20 x)

/-- STH, LSU opcode 0x19. -/
def execSth (x : Syl) (s : State) : Host.Outcome State Fault Refusal := live s (syllable s 2 0x19 x)

/-- STHX, LSU opcode 0x1D. -/
def execSthx (x : Syl) (s : State) : Host.Outcome State Fault Refusal := live s (syllable s 2 0x1D x)

/-- STHP, LSU opcode 0x21. -/
def execSthp (x : Syl) (s : State) : Host.Outcome State Fault Refusal := live s (syllable s 2 0x21 x)

/-- STW, LSU opcode 0x1A. -/
def execStw (x : Syl) (s : State) : Host.Outcome State Fault Refusal := live s (syllable s 2 0x1A x)

/-- STWX, LSU opcode 0x1E. -/
def execStwx (x : Syl) (s : State) : Host.Outcome State Fault Refusal := live s (syllable s 2 0x1E x)

/-- STWP, LSU opcode 0x22. -/
def execStwp (x : Syl) (s : State) : Host.Outcome State Fault Refusal := live s (syllable s 2 0x22 x)

/-- STD, LSU opcode 0x1B. -/
def execStd (x : Syl) (s : State) : Host.Outcome State Fault Refusal := live s (syllable s 2 0x1B x)

/-- STDX, LSU opcode 0x1F. -/
def execStdx (x : Syl) (s : State) : Host.Outcome State Fault Refusal := live s (syllable s 2 0x1F x)

/-- STDP, LSU opcode 0x23. -/
def execStdp (x : Syl) (s : State) : Host.Outcome State Fault Refusal := live s (syllable s 2 0x23 x)

/-- SATST, LSU opcode 0x24. -/
def execSatst (x : Syl) (s : State) : Host.Outcome State Fault Refusal := live s (syllable s 2 0x24 x)

/-- SATSTX, LSU opcode 0x25. -/
def execSatstx (x : Syl) (s : State) : Host.Outcome State Fault Refusal := live s (syllable s 2 0x25 x)

/-- SATSTP, LSU opcode 0x26. -/
def execSatstp (x : Syl) (s : State) : Host.Outcome State Fault Refusal := live s (syllable s 2 0x26 x)

/-- SAVEM, LSU opcode 0x30. -/
def execSavem (x : Syl) (s : State) : Host.Outcome State Fault Refusal := live s (syllable s 2 0x30 x)

/-- LOADM, LSU opcode 0x31. -/
def execLoadm (x : Syl) (s : State) : Host.Outcome State Fault Refusal := live s (syllable s 2 0x31 x)

/-- BMOV, LSU opcode 0x32. -/
def execBmov (x : Syl) (s : State) : Host.Outcome State Fault Refusal := live s (syllable s 2 0x32 x)

/-- FENCE, LSU opcode 0x38. -/
def execFence (x : Syl) (s : State) : Host.Outcome State Fault Refusal := live s (syllable s 2 0x38 x)

/-- MUL, MAC opcode 0x00. -/
def execMul (unit : Bool) (x : Syl) (s : State) : Host.Outcome State Fault Refusal :=
  live s (syllable s (macCls unit) 0x00 x)

/-- MULH, MAC opcode 0x01. -/
def execMulh (unit : Bool) (x : Syl) (s : State) : Host.Outcome State Fault Refusal :=
  live s (syllable s (macCls unit) 0x01 x)

/-- MULHU, MAC opcode 0x02. -/
def execMulhu (unit : Bool) (x : Syl) (s : State) : Host.Outcome State Fault Refusal :=
  live s (syllable s (macCls unit) 0x02 x)

/-- MULI, MAC opcode 0x03. -/
def execMuli (unit : Bool) (x : Syl) (s : State) : Host.Outcome State Fault Refusal :=
  live s (syllable s (macCls unit) 0x03 x)

/-- MACD, MAC opcode 0x08. -/
def execMacd (unit : Bool) (x : Syl) (s : State) : Host.Outcome State Fault Refusal :=
  live s (syllable s (macCls unit) 0x08 x)

/-- MSUD, MAC opcode 0x09. -/
def execMsud (unit : Bool) (x : Syl) (s : State) : Host.Outcome State Fault Refusal :=
  live s (syllable s (macCls unit) 0x09 x)

/-- MACX, MAC opcode 0x0A. -/
def execMacx (unit : Bool) (x : Syl) (s : State) : Host.Outcome State Fault Refusal :=
  live s (syllable s (macCls unit) 0x0A x)

/-- MSUX, MAC opcode 0x0B. -/
def execMsux (unit : Bool) (x : Syl) (s : State) : Host.Outcome State Fault Refusal :=
  live s (syllable s (macCls unit) 0x0B x)

/-- MULD, MAC opcode 0x0C. -/
def execMuld (unit : Bool) (x : Syl) (s : State) : Host.Outcome State Fault Refusal :=
  live s (syllable s (macCls unit) 0x0C x)

/-- MACW, MAC opcode 0x0D. -/
def execMacw (unit : Bool) (x : Syl) (s : State) : Host.Outcome State Fault Refusal :=
  live s (syllable s (macCls unit) 0x0D x)

/-- MSUW, MAC opcode 0x0E. -/
def execMsuw (unit : Bool) (x : Syl) (s : State) : Host.Outcome State Fault Refusal :=
  live s (syllable s (macCls unit) 0x0E x)

/-- MULW, MAC opcode 0x0F. -/
def execMulw (unit : Bool) (x : Syl) (s : State) : Host.Outcome State Fault Refusal :=
  live s (syllable s (macCls unit) 0x0F x)

/-- MVA, MAC opcode 0x10. -/
def execMva (unit : Bool) (x : Syl) (s : State) : Host.Outcome State Fault Refusal :=
  live s (syllable s (macCls unit) 0x10 x)

/-- MVAG, MAC opcode 0x11. -/
def execMvag (unit : Bool) (x : Syl) (s : State) : Host.Outcome State Fault Refusal :=
  live s (syllable s (macCls unit) 0x11 x)

/-- MVTA, MAC opcode 0x12. -/
def execMvta (unit : Bool) (x : Syl) (s : State) : Host.Outcome State Fault Refusal :=
  live s (syllable s (macCls unit) 0x12 x)

/-- MVTAG, MAC opcode 0x13. -/
def execMvtag (unit : Bool) (x : Syl) (s : State) : Host.Outcome State Fault Refusal :=
  live s (syllable s (macCls unit) 0x13 x)

/-- ACLR, MAC opcode 0x14. -/
def execAclr (unit : Bool) (x : Syl) (s : State) : Host.Outcome State Fault Refusal :=
  live s (syllable s (macCls unit) 0x14 x)

/-- ASAR, MAC opcode 0x15. -/
def execAsar (unit : Bool) (x : Syl) (s : State) : Host.Outcome State Fault Refusal :=
  live s (syllable s (macCls unit) 0x15 x)

/-- ASHL, MAC opcode 0x16. -/
def execAshl (unit : Bool) (x : Syl) (s : State) : Host.Outcome State Fault Refusal :=
  live s (syllable s (macCls unit) 0x16 x)

/-- AADD, MAC opcode 0x17. -/
def execAadd (unit : Bool) (x : Syl) (s : State) : Host.Outcome State Fault Refusal :=
  live s (syllable s (macCls unit) 0x17 x)

/-- BR, BRU opcode 0x00. -/
def execBr (x : Syl) (s : State) : Host.Outcome State Fault Refusal := live s (syllable s 5 0x00 x)

/-- BRR, BRU opcode 0x01. -/
def execBrr (x : Syl) (s : State) : Host.Outcome State Fault Refusal := live s (syllable s 5 0x01 x)

/-- CALL, BRU opcode 0x02. -/
def execCall (x : Syl) (s : State) : Host.Outcome State Fault Refusal := live s (syllable s 5 0x02 x)

/-- CALLR, BRU opcode 0x03. -/
def execCallr (x : Syl) (s : State) : Host.Outcome State Fault Refusal := live s (syllable s 5 0x03 x)

/-- RET, BRU opcode 0x04. -/
def execRet (x : Syl) (s : State) : Host.Outcome State Fault Refusal := live s (syllable s 5 0x04 x)

/-- RETE, BRU opcode 0x05. -/
def execRete (x : Syl) (s : State) : Host.Outcome State Fault Refusal := live s (syllable s 5 0x05 x)

/-- TRAP, BRU opcode 0x06. -/
def execTrap (x : Syl) (s : State) : Host.Outcome State Fault Refusal := live s (syllable s 5 0x06 x)

/-- CUSTOM0 to CUSTOM15, EXT opcode n. -/
def execCustom (n : Nat) (x : Syl) (s : State) : Host.Outcome State Fault Refusal := live s (syllable s 6 (n % 16) x)

/-- MVFS, EXT opcode 0x10. -/
def execMvfs (x : Syl) (s : State) : Host.Outcome State Fault Refusal := live s (syllable s 6 0x10 x)

/-- MVTS, EXT opcode 0x11. -/
def execMvts (x : Syl) (s : State) : Host.Outcome State Fault Refusal := live s (syllable s 6 0x11 x)

/-- SLEEP, EXT opcode 0x12. -/
def execSleep (x : Syl) (s : State) : Host.Outcome State Fault Refusal := live s (syllable s 6 0x12 x)

/-- REP, EXT opcode 0x13. -/
def execRep (x : Syl) (s : State) : Host.Outcome State Fault Refusal := live s (syllable s 6 0x13 x)

/-- REPR, EXT opcode 0x14. -/
def execRepr (x : Syl) (s : State) : Host.Outcome State Fault Refusal := live s (syllable s 6 0x14 x)

end Sys2Proof.Machine
end

