-- ==== Sys2Proof/Machine/Dispatch.lean ====
section
/-! DEFINITION. One arm for each command: the one call of its meaning. -/

namespace Sys2Proof.Machine

def exec (i : Instr) (s : State) : Host.Outcome State Fault Refusal :=
  match i with
  | .registerWrite m addr v => Sys2Proof.Machine.execRegisterWrite m addr v s
  | .aliasWrite m addr v => Sys2Proof.Machine.execAliasWrite m addr v s
  | .levelRequest m v => Sys2Proof.Machine.execLevelRequest m v s
  | .levelTransitionDone => Sys2Proof.Machine.execLevelTransitionDone s
  | .levelDurationExpiry => Sys2Proof.Machine.execLevelDurationExpiry s
  | .sleepAgentAnswers mid => Sys2Proof.Machine.execSleepAgentAnswers s mid
  | .agentHoldAck k mid => Sys2Proof.Machine.execAgentHoldAck k s mid
  | .agentHoldOverrun k => Sys2Proof.Machine.execAgentHoldOverrun k s
  | .wakeEvent src => Sys2Proof.Machine.execWakeEvent src s
  | .linkActivityRaise => Sys2Proof.Machine.execLinkActivityRaise s
  | .domainDemandStart d => Sys2Proof.Machine.execDomainDemandStart d s
  | .domainDemandTimeout d => Sys2Proof.Machine.execDomainDemandTimeout d s
  | .vstoBrown => Sys2Proof.Machine.execVstoBrown s
  | .forcedWakeGrant => Sys2Proof.Machine.execForcedWakeGrant s
  | .harvestSample n voc iop => Sys2Proof.Machine.execHarvestSample n voc iop s
  | .vstoHi => Sys2Proof.Machine.execVstoHi s
  | .shuntRelease => Sys2Proof.Machine.execShuntRelease s
  | .loadToPrimary => Sys2Proof.Machine.execLoadToPrimary s
  | .loadToStore => Sys2Proof.Machine.execLoadToStore s
  | .primaryLoss vsto => Sys2Proof.Machine.execPrimaryLoss vsto s
  | .supplyLoss => Sys2Proof.Machine.execSupplyLoss s
  | .ledgerTick vsto vbat charge vio => Sys2Proof.Machine.execLedgerTick vsto vbat charge s vio
  | .capMeasureStart m v vsto => Sys2Proof.Machine.execCapMeasureStart m v vsto s
  | .capMeasureDone v0 v1 v2 => Sys2Proof.Machine.execCapMeasureDone v0 v1 v2 s
  | .reservationPrerequest m v => Sys2Proof.Machine.execReservationPrerequest m v s
  | .reservationRelease m v => Sys2Proof.Machine.execReservationRelease m v s
  | .prereservationTimeout ticket => Sys2Proof.Machine.execPrereservationTimeout ticket s
  | .floorTrip => Sys2Proof.Machine.execFloorTrip s
  | .floorClear => Sys2Proof.Machine.execFloorClear s
  | .add unit x => Sys2Proof.Machine.execAdd unit x s
  | .sub unit x => Sys2Proof.Machine.execSub unit x s
  | .addi unit x => Sys2Proof.Machine.execAddi unit x s
  | .addis unit x => Sys2Proof.Machine.execAddis unit x s
  | .rsubi unit x => Sys2Proof.Machine.execRsubi unit x s
  | .neg unit x => Sys2Proof.Machine.execNeg unit x s
  | .absG unit x => Sys2Proof.Machine.execAbsG unit x s
  | .andG unit x => Sys2Proof.Machine.execAndG unit x s
  | .andi unit x => Sys2Proof.Machine.execAndi unit x s
  | .orG unit x => Sys2Proof.Machine.execOrG unit x s
  | .ori unit x => Sys2Proof.Machine.execOri unit x s
  | .xorG unit x => Sys2Proof.Machine.execXorG unit x s
  | .xori unit x => Sys2Proof.Machine.execXori unit x s
  | .andn unit x => Sys2Proof.Machine.execAndn unit x s
  | .notG unit x => Sys2Proof.Machine.execNotG unit x s
  | .shl unit x => Sys2Proof.Machine.execShl unit x s
  | .shli unit x => Sys2Proof.Machine.execShli unit x s
  | .shr unit x => Sys2Proof.Machine.execShr unit x s
  | .shri unit x => Sys2Proof.Machine.execShri unit x s
  | .sar unit x => Sys2Proof.Machine.execSar unit x s
  | .sari unit x => Sys2Proof.Machine.execSari unit x s
  | .ror unit x => Sys2Proof.Machine.execRor unit x s
  | .rori unit x => Sys2Proof.Machine.execRori unit x s
  | .minG unit x => Sys2Proof.Machine.execMinG unit x s
  | .maxG unit x => Sys2Proof.Machine.execMaxG unit x s
  | .minu unit x => Sys2Proof.Machine.execMinu unit x s
  | .maxu unit x => Sys2Proof.Machine.execMaxu unit x s
  | .clz unit x => Sys2Proof.Machine.execClz unit x s
  | .xtn unit x => Sys2Proof.Machine.execXtn unit x s
  | .extu unit x => Sys2Proof.Machine.execExtu unit x s
  | .exts unit x => Sys2Proof.Machine.execExts unit x s
  | .mov unit x => Sys2Proof.Machine.execMov unit x s
  | .movi unit x => Sys2Proof.Machine.execMovi unit x s
  | .sel unit x => Sys2Proof.Machine.execSel unit x s
  | .cmpeq unit x => Sys2Proof.Machine.execCmpeq unit x s
  | .cmpne unit x => Sys2Proof.Machine.execCmpne unit x s
  | .cmplt unit x => Sys2Proof.Machine.execCmplt unit x s
  | .cmple unit x => Sys2Proof.Machine.execCmple unit x s
  | .cmpltu unit x => Sys2Proof.Machine.execCmpltu unit x s
  | .cmpleu unit x => Sys2Proof.Machine.execCmpleu unit x s
  | .cmpeqi unit x => Sys2Proof.Machine.execCmpeqi unit x s
  | .cmpnei unit x => Sys2Proof.Machine.execCmpnei unit x s
  | .cmplti unit x => Sys2Proof.Machine.execCmplti unit x s
  | .cmplei unit x => Sys2Proof.Machine.execCmplei unit x s
  | .cmpltui unit x => Sys2Proof.Machine.execCmpltui unit x s
  | .cmpleui unit x => Sys2Proof.Machine.execCmpleui unit x s
  | .pand unit x => Sys2Proof.Machine.execPand unit x s
  | .por unit x => Sys2Proof.Machine.execPor unit x s
  | .pxor unit x => Sys2Proof.Machine.execPxor unit x s
  | .pandn unit x => Sys2Proof.Machine.execPandn unit x s
  | .pnot unit x => Sys2Proof.Machine.execPnot unit x s
  | .ldb x => Sys2Proof.Machine.execLdb x s
  | .ldbu x => Sys2Proof.Machine.execLdbu x s
  | .ldh x => Sys2Proof.Machine.execLdh x s
  | .ldhu x => Sys2Proof.Machine.execLdhu x s
  | .ldw x => Sys2Proof.Machine.execLdw x s
  | .ldd x => Sys2Proof.Machine.execLdd x s
  | .ldbx x => Sys2Proof.Machine.execLdbx x s
  | .ldbux x => Sys2Proof.Machine.execLdbux x s
  | .ldhx x => Sys2Proof.Machine.execLdhx x s
  | .ldhux x => Sys2Proof.Machine.execLdhux x s
  | .ldwx x => Sys2Proof.Machine.execLdwx x s
  | .lddx x => Sys2Proof.Machine.execLddx x s
  | .ldbp x => Sys2Proof.Machine.execLdbp x s
  | .ldbup x => Sys2Proof.Machine.execLdbup x s
  | .ldhp x => Sys2Proof.Machine.execLdhp x s
  | .ldhup x => Sys2Proof.Machine.execLdhup x s
  | .ldwp x => Sys2Proof.Machine.execLdwp x s
  | .lddp x => Sys2Proof.Machine.execLddp x s
  | .stb x => Sys2Proof.Machine.execStb x s
  | .sth x => Sys2Proof.Machine.execSth x s
  | .stw x => Sys2Proof.Machine.execStw x s
  | .std x => Sys2Proof.Machine.execStd x s
  | .stbx x => Sys2Proof.Machine.execStbx x s
  | .sthx x => Sys2Proof.Machine.execSthx x s
  | .stwx x => Sys2Proof.Machine.execStwx x s
  | .stdx x => Sys2Proof.Machine.execStdx x s
  | .stbp x => Sys2Proof.Machine.execStbp x s
  | .sthp x => Sys2Proof.Machine.execSthp x s
  | .stwp x => Sys2Proof.Machine.execStwp x s
  | .stdp x => Sys2Proof.Machine.execStdp x s
  | .satst x => Sys2Proof.Machine.execSatst x s
  | .satstx x => Sys2Proof.Machine.execSatstx x s
  | .satstp x => Sys2Proof.Machine.execSatstp x s
  | .savem x => Sys2Proof.Machine.execSavem x s
  | .loadm x => Sys2Proof.Machine.execLoadm x s
  | .bmov x => Sys2Proof.Machine.execBmov x s
  | .fence x => Sys2Proof.Machine.execFence x s
  | .mul unit x => Sys2Proof.Machine.execMul unit x s
  | .mulh unit x => Sys2Proof.Machine.execMulh unit x s
  | .mulhu unit x => Sys2Proof.Machine.execMulhu unit x s
  | .muli unit x => Sys2Proof.Machine.execMuli unit x s
  | .macd unit x => Sys2Proof.Machine.execMacd unit x s
  | .msud unit x => Sys2Proof.Machine.execMsud unit x s
  | .macx unit x => Sys2Proof.Machine.execMacx unit x s
  | .msux unit x => Sys2Proof.Machine.execMsux unit x s
  | .muld unit x => Sys2Proof.Machine.execMuld unit x s
  | .macw unit x => Sys2Proof.Machine.execMacw unit x s
  | .msuw unit x => Sys2Proof.Machine.execMsuw unit x s
  | .mulw unit x => Sys2Proof.Machine.execMulw unit x s
  | .mva unit x => Sys2Proof.Machine.execMva unit x s
  | .mvag unit x => Sys2Proof.Machine.execMvag unit x s
  | .mvta unit x => Sys2Proof.Machine.execMvta unit x s
  | .mvtag unit x => Sys2Proof.Machine.execMvtag unit x s
  | .aclr unit x => Sys2Proof.Machine.execAclr unit x s
  | .asar unit x => Sys2Proof.Machine.execAsar unit x s
  | .ashl unit x => Sys2Proof.Machine.execAshl unit x s
  | .aadd unit x => Sys2Proof.Machine.execAadd unit x s
  | .br x => Sys2Proof.Machine.execBr x s
  | .brr x => Sys2Proof.Machine.execBrr x s
  | .call x => Sys2Proof.Machine.execCall x s
  | .callr x => Sys2Proof.Machine.execCallr x s
  | .ret x => Sys2Proof.Machine.execRet x s
  | .rete x => Sys2Proof.Machine.execRete x s
  | .trap x => Sys2Proof.Machine.execTrap x s
  | .custom n x => Sys2Proof.Machine.execCustom n x s
  | .mvfs x => Sys2Proof.Machine.execMvfs x s
  | .mvts x => Sys2Proof.Machine.execMvts x s
  | .sleep x => Sys2Proof.Machine.execSleep x s
  | .rep x => Sys2Proof.Machine.execRep x s
  | .repr x => Sys2Proof.Machine.execRepr x s
  | .microstoreWriteLow m v => Sys2Proof.Machine.execMicrostoreWriteLow m v s
  | .microstoreWriteHigh m v => Sys2Proof.Machine.execMicrostoreWriteHigh m v s
  | .microstoreReadLow m => Sys2Proof.Machine.execMicrostoreReadLow m s
  | .microstoreReadHigh m => Sys2Proof.Machine.execMicrostoreReadHigh m s
  | .cycleCounterRead m => Sys2Proof.Machine.execCycleCounterRead m s
  | .interruptEntry => Sys2Proof.Machine.execInterruptEntry s
  | .nmiEntry => Sys2Proof.Machine.execNmiEntry s
  | .machineCheckEntry => Sys2Proof.Machine.execMachineCheckEntry s
  | .bufferedStoreComplete => Sys2Proof.Machine.execBufferedStoreComplete s
  | .eccWriteback => Sys2Proof.Machine.execEccWriteback s
  | .sramRowMove bank row => Sys2Proof.Machine.execSramRowMove bank row s
  | .sramColumnReplace bank col => Sys2Proof.Machine.execSramColumnReplace bank col s
  | .bankWipe region => Sys2Proof.Machine.execBankWipe region s
  | .dramIdleSelfRefresh => Sys2Proof.Machine.execDramIdleSelfRefresh s
  | .dramSessionOpen m v => Sys2Proof.Machine.execDramSessionOpen m v s
  | .dramSessionClose m v => Sys2Proof.Machine.execDramSessionClose m v s
  | .dramSessionCut => Sys2Proof.Machine.execDramSessionCut s
  | .dramScrubBurst => Sys2Proof.Machine.execDramScrubBurst s
  | .dramRowRemap row => Sys2Proof.Machine.execDramRowRemap row s
  | .dramWipeSegment => Sys2Proof.Machine.execDramWipeSegment s
  | .moverStart m n v => Sys2Proof.Machine.execMoverStart m n v s
  | .moverStop m n v => Sys2Proof.Machine.execMoverStop m n v s
  | .moverDescriptorFetch n => Sys2Proof.Machine.execMoverDescriptorFetch n s
  | .moverTrigger n => Sys2Proof.Machine.execMoverTrigger n s
  | .moverElement n => Sys2Proof.Machine.execMoverElement n s
  | .moverBurstStore n => Sys2Proof.Machine.execMoverBurstStore n s
  | .moverDescriptorEnd n => Sys2Proof.Machine.execMoverDescriptorEnd n s
  | .laneLock p l => Sys2Proof.Machine.execLaneLock p l s
  | .portTrain p => Sys2Proof.Machine.execPortTrain p s
  | .portUp p two => Sys2Proof.Machine.execPortUp p two s
  | .portTrainTimeout p => Sys2Proof.Machine.execPortTrainTimeout p s
  | .laneLoss p l codeErrors => Sys2Proof.Machine.execLaneLoss p l s codeErrors
  | .portJoin p => Sys2Proof.Machine.execPortJoin p s
  | .downPortProbe p => Sys2Proof.Machine.execDownPortProbe p s
  | .frameStart p replicated cycles errs => Sys2Proof.Machine.execFrameStart p replicated cycles s errs
  | .cycleHeader bytes cycles p bad => Sys2Proof.Machine.execCycleHeader bytes cycles s p bad
  | .cycleStartEvent cycles => Sys2Proof.Machine.execCycleStartEvent cycles s
  | .readSlot h genw payload late cycles bad => Sys2Proof.Machine.execReadSlot h genw payload late cycles s bad
  | .writeSlot h genw payload cycles bad => Sys2Proof.Machine.execWriteSlot h genw payload cycles s bad
  | .readWriteSlot h genw payload late cycles bad => Sys2Proof.Machine.execReadWriteSlot h genw payload late cycles s bad
  | .eventSlot h genw payload cycles bad => Sys2Proof.Machine.execEventSlot h genw payload cycles s bad
  | .statusSlot h genw payload cycles bad => Sys2Proof.Machine.execStatusSlot h genw payload cycles s bad
  | .commandCarrySlot h genw payload cycles bad => Sys2Proof.Machine.execCommandCarrySlot h genw payload cycles s bad
  | .frameEndClean cycles p => Sys2Proof.Machine.execFrameEndClean cycles s p
  | .frameEndUnclean how p => Sys2Proof.Machine.execFrameEndUnclean how s p
  | .frameOpenTimeout p => Sys2Proof.Machine.execFrameOpenTimeout s p
  | .frameMissed => Sys2Proof.Machine.execFrameMissed s
  | .landingDone => Sys2Proof.Machine.execLandingDone s
  | .wakeOrderedSet ds dl p => Sys2Proof.Machine.execWakeOrderedSet ds dl s p
  | .listenToTrain => Sys2Proof.Machine.execListenToTrain s
  | .linkTrainCommand m v => Sys2Proof.Machine.execLinkTrainCommand m v s
  | .linkTrainTimeout => Sys2Proof.Machine.execLinkTrainTimeout s
  | .processingPointJoin => Sys2Proof.Machine.execProcessingPointJoin s
  | .backoffExpiry => Sys2Proof.Machine.execBackoffExpiry s
  | .linkIdleTimeout => Sys2Proof.Machine.execLinkIdleTimeout s
  | .allPortsDownTimeout => Sys2Proof.Machine.execAllPortsDownTimeout s
  | .linkLeaveService => Sys2Proof.Machine.execLinkLeaveService s
  | .tableCommitRequest m v => Sys2Proof.Machine.execTableCommitRequest m v s
  | .tableCancel m v => Sys2Proof.Machine.execTableCancel m v s
  | .ping place => Sys2Proof.Machine.execPing place s
  | .getState place => Sys2Proof.Machine.execGetState place s
  | .fireEvent place => Sys2Proof.Machine.execFireEvent place s
  | .setLevel place => Sys2Proof.Machine.execSetLevel place s
  | .sleepHint place => Sys2Proof.Machine.execSleepHint place s
  | .tableCommit place => Sys2Proof.Machine.execTableCommit place s
  | .tableInfo place => Sys2Proof.Machine.execTableInfo place s
  | .tableWrite place => Sys2Proof.Machine.execTableWrite place s
  | .tableRead place => Sys2Proof.Machine.execTableRead place s
  | .firmwareCommand place => Sys2Proof.Machine.execFirmwareCommand place s
  | .firmwareReply m v => Sys2Proof.Machine.execFirmwareReply m v s
  | .commandTimeout place => Sys2Proof.Machine.execCommandTimeout place s
  | .sessionOpen place => Sys2Proof.Machine.execSessionOpen place s
  | .sessionProve place => Sys2Proof.Machine.execSessionProve place s
  | .sessionClose place => Sys2Proof.Machine.execSessionClose place s
  | .sessionTimeout => Sys2Proof.Machine.execSessionTimeout s
  | .lcQuery place => Sys2Proof.Machine.execLcQuery place s
  | .lcAdvance place => Sys2Proof.Machine.execLcAdvance place s
  | .lcBlankToMade m v => Sys2Proof.Machine.execLcBlankToMade m v s
  | .lifecycleTransition => Sys2Proof.Machine.execLifecycleTransition s
  | .nvRead place => Sys2Proof.Machine.execNvRead place s
  | .nvWritePage place during => Sys2Proof.Machine.execNvWritePage place s during
  | .recordRead place => Sys2Proof.Machine.execRecordRead place s
  | .recordWrite place => Sys2Proof.Machine.execRecordWrite place s
  | .tallyRead place => Sys2Proof.Machine.execTallyRead place s
  | .tallyAdd place => Sys2Proof.Machine.execTallyAdd place s
  | .rtcGet place => Sys2Proof.Machine.execRtcGet place s
  | .rtcSet place => Sys2Proof.Machine.execRtcSet place s
  | .energyQuery place => Sys2Proof.Machine.execEnergyQuery place s
  | .burstReserve place => Sys2Proof.Machine.execBurstReserve place s
  | .displayRegionUpdate place => Sys2Proof.Machine.execDisplayRegionUpdate place s
  | .displayStatus place => Sys2Proof.Machine.execDisplayStatus place s
  | .spareReport place => Sys2Proof.Machine.execSpareReport place s
  | .logRead place => Sys2Proof.Machine.execLogRead place s
  | .resetDevice place => Sys2Proof.Machine.execResetDevice place s
  | .resetDeviceStart => Sys2Proof.Machine.execResetDeviceStart s
  | .eventFire m v => Sys2Proof.Machine.execEventFire m v s
  | .eventDelivery k => Sys2Proof.Machine.execEventDelivery k s
  | .captureRead m n => Sys2Proof.Machine.execCaptureRead m n s
  | .channelOwnerWrite m c v => Sys2Proof.Machine.execChannelOwnerWrite m c v s
  | .asyncModeWrite m v => Sys2Proof.Machine.execAsyncModeWrite m v s
  | .pageCommand m v => Sys2Proof.Machine.execPageCommand m v s
  | .nvWordWrite => Sys2Proof.Machine.execNvWordWrite s
  | .holdWaitTimeout => Sys2Proof.Machine.execHoldWaitTimeout s
  | .pageCommandResume => Sys2Proof.Machine.execPageCommandResume s
  | .nvScrubVisit weak => Sys2Proof.Machine.execNvScrubVisit weak s
  | .nvPageMove page => Sys2Proof.Machine.execNvPageMove page s
  | .nvsRecordRead m v => Sys2Proof.Machine.execNvsRecordRead m v s
  | .nvsRecordWrite m v => Sys2Proof.Machine.execNvsRecordWrite m v s
  | .nvsTallyRead m v => Sys2Proof.Machine.execNvsTallyRead m v s
  | .nvsTallyAdd m v => Sys2Proof.Machine.execNvsTallyAdd m v s
  | .subsecondEdge tdie raw soon => Sys2Proof.Machine.execSubsecondEdge tdie raw s soon
  | .periodicWake => Sys2Proof.Machine.execPeriodicWake s
  | .crystalStop => Sys2Proof.Machine.execCrystalStop s
  | .crystalReturn => Sys2Proof.Machine.execCrystalReturn s
  | .rtcSnapshot m => Sys2Proof.Machine.execRtcSnapshot m s
  | .rtcCommit m v => Sys2Proof.Machine.execRtcCommit m v s
  | .rtcCommitEdge soon => Sys2Proof.Machine.execRtcCommitEdge s soon
  | .segCommit m v => Sys2Proof.Machine.execSegCommit m v s
  | .segFrameStart soon => Sys2Proof.Machine.execSegFrameStart s soon
  | .segEnable m v => Sys2Proof.Machine.execSegEnable m v s
  | .epdRequest m set v => Sys2Proof.Machine.execEpdRequest m set v s
  | .epdAdmission tdie raw => Sys2Proof.Machine.execEpdAdmission tdie raw s
  | .hvpgRise => Sys2Proof.Machine.execHvpgRise s
  | .hvTimeout => Sys2Proof.Machine.execHvTimeout s
  | .epdFrameStart late upto => Sys2Proof.Machine.execEpdFrameStart late s upto
  | .epdPowerDown => Sys2Proof.Machine.execEpdPowerDown s
  | .epdInit m v => Sys2Proof.Machine.execEpdInit m v s
  | .epdInitDone => Sys2Proof.Machine.execEpdInitDone s
  | .epdStateOk m v => Sys2Proof.Machine.execEpdStateOk m v s
  | .hvpgFall => Sys2Proof.Machine.execHvpgFall s
  | .regionLock n => Sys2Proof.Machine.execRegionLock n s
  | .touchStart m v sc mc => Sys2Proof.Machine.execTouchStart m v sc mc s
  | .touchPairStart mutPass => Sys2Proof.Machine.execTouchPairStart s mutPass
  | .touchPairEnd sc mc ms => Sys2Proof.Machine.execTouchPairEnd sc mc ms s
  | .wakeScanSample sc => Sys2Proof.Machine.execWakeScanSample sc s
  | .debugOpen m v => Sys2Proof.Machine.execDebugOpen m v s
  | .debugProve m v => Sys2Proof.Machine.execDebugProve m v s
  | .debugEnd m v => Sys2Proof.Machine.execDebugEnd m v s
  | .extest bits levels => Sys2Proof.Machine.execExtest bits s levels
  | .idcode => Sys2Proof.Machine.execIdcode s
  | .samplePreload pins preload => Sys2Proof.Machine.execSamplePreload pins preload s
  | .dapacc w window => Sys2Proof.Machine.execDapacc w s window
  | .bypass code tdi => Sys2Proof.Machine.execBypass code tdi s
  | .tapReset => Sys2Proof.Machine.execTapReset s
  | .seal slot => Sys2Proof.Machine.execSeal slot s
  | .sign slot => Sys2Proof.Machine.execSign slot s
  | .pubkey slot => Sys2Proof.Machine.execPubkey slot s
  | .verify slot => Sys2Proof.Machine.execVerify slot s
  | .randomBytes slot => Sys2Proof.Machine.execRandomBytes slot s
  | .hash slot => Sys2Proof.Machine.execHash slot s
  | .tamperEdge high fall => Sys2Proof.Machine.execTamperEdge high s fall
  | .watchdogWarning => Sys2Proof.Machine.execWatchdogWarning s
  | .watchdogExpiry => Sys2Proof.Machine.execWatchdogExpiry s
  | .watchdogService m v => Sys2Proof.Machine.execWatchdogService m v s
  | .managementMonitorExpiry => Sys2Proof.Machine.execManagementMonitorExpiry s
  | .softwareReset cause => Sys2Proof.Machine.execSoftwareReset cause s
  | .coreSoftwareResetWrite m v => Sys2Proof.Machine.execCoreSoftwareResetWrite m v s
  | .resetnLow => Sys2Proof.Machine.execResetnLow s
  | .powerOnRelease elapsed => Sys2Proof.Machine.execPowerOnRelease elapsed s
  | .spiTransfer m n v => Sys2Proof.Machine.execSpiTransfer m n v s
  | .spiTransferDone n received => Sys2Proof.Machine.execSpiTransferDone n received s
  | .spiTransmitData m n v => Sys2Proof.Machine.execSpiTransmitData m n v s
  | .spiReceiveData m n => Sys2Proof.Machine.execSpiReceiveData m n s
  | .i2cTransaction m v => Sys2Proof.Machine.execI2cTransaction m v s
  | .i2cTransactionDone nackA nackD received => Sys2Proof.Machine.execI2cTransactionDone nackA nackD received s
  | .i2cTimeout => Sys2Proof.Machine.execI2cTimeout s
  | .i2cTransmitData m v => Sys2Proof.Machine.execI2cTransmitData m v s
  | .i2cReceiveData m => Sys2Proof.Machine.execI2cReceiveData m s
  | .uartTransmitData m v => Sys2Proof.Machine.execUartTransmitData m v s
  | .uartReceiveData m => Sys2Proof.Machine.execUartReceiveData m s
  | .uartCharacterReceived b perr ferr start => Sys2Proof.Machine.execUartCharacterReceived b perr ferr s start
  | .uartTransmitDone taken => Sys2Proof.Machine.execUartTransmitDone s taken
  | .gpioEdge n fall => Sys2Proof.Machine.execGpioEdge n s fall
  | .coldStart => Sys2Proof.Machine.execColdStart s
  | .primokChange ok => Sys2Proof.Machine.execPrimokChange ok s
  | .holdCapacitorReady => Sys2Proof.Machine.execHoldCapacitorReady s
  | .readClear m addr => Sys2Proof.Machine.execReadClear m addr s
  | .linkTimeRead m cycles => Sys2Proof.Machine.execLinkTimeRead m cycles s

end Sys2Proof.Machine
end

