-- ==== Sys2Proof/Machine/Balls.lean ====
section
/-! DEFINITION. What stands on the output balls (R342, R351, R352, R442, R444, R463 to R468), read from the block's state. Held in the
sleep states is what the registers hold there. -/

namespace Sys2Proof.Machine

open Sys2Proof

/-- An output ball: high impedance, a level that a pull resistor gives it or that it drives, or `signal` where it drives a
transfer or a row bit by bit, or a level that no rule gives. -/
inductive Ball where
  | hiZ
  | pulled (high : Bool)
  | driven (high : Bool)
  | signal
  deriving DecidableEq, Repr

/-- What the boundary-scan cells give ball `b` (R463). -/
def cellBall (s : State) (b : Nat) : Ball := match Config.scanBall s.jtag.bsr b with | some h => .driven h | none => .hiZ

/-- What output ball `b` of I/O group `g` shows where its block gives `x` (R444, R463): high impedance without its supply; under
EXTEST what its cells give. -/
def shown (s : State) (g b : Nat) (x : Ball) : Ball :=
  if !bitOf s.vio g then .hiZ else if scanDrives s then cellBall s b else x

/-- The link transmitters are silent: until TRAIN (R241, R442). The receivers are terminated in every state. -/
def txSilent (s : State) : Bool := decide (s.get LNK_STAT_STATE < 2)

/-! ### SPI, I2C and UART -/

/-- A chip select or TXD, pulled up until its block works (R442, R466, R468). -/
def selBall (on low : Bool) : Ball := if on then .driven (!low) else .pulled true

/-- S0CS and S1CS. -/
def csBall (s : State) (n : Nat) : Ball := shown s 0 (45 + 5 * n) (selBall (s.on (SPI_CFG_EN n)) (s.on (SPI_STAT_CSLOW n)))

/-- S0CK and S1CK: high impedance until the block works, then at the idle level of its mode, but for a transfer's edges (R442,
R460). -/
def sckBall (s : State) (n : Nat) : Ball :=
  shown s 0 (44 + 5 * n) (
    if !s.on (SPI_CFG_EN n) then .hiZ else if s.on (SPI_STAT_BUSY n) then .signal else .driven (s.on (SPI_CFG_MODE n)))

/-- S0DO, or S1IO0 to S1IO3 as line `i`; a quad transfer that receives drives none (R442, R466). -/
def sdoBall (s : State) (n i : Nat) : Ball :=
  shown s 0 (46 + 5 * n + i) (
    if !s.on (SPI_CFG_EN n) || (s.on (SPI_STAT_BUSY n) && s.on (SPI_CFG_QUAD n) && (port s n).dir == 2) then .hiZ else .signal)

/-- SCL, an open drain: low while the bus is held (R442, R467). -/
def sclBall (s : State) : Ball :=
  shown s 1 56 (if s.on I2C_STAT_HELD then .driven false else if s.on I2C_STAT_BUSY then .signal else .hiZ)

/-- SDA, an open drain (R442, R467). -/
def sdaBall (s : State) : Ball := shown s 1 57 (if s.on I2C_STAT_HELD || s.on I2C_STAT_BUSY then .signal else .hiZ)

/-- TXD: high between characters (R442, R468). -/
def txdBall (s : State) : Ball :=
  shown s 1 58 (if s.on UART_CFG_TXEN && uartSends (port s 3) then .signal else selBall (s.on UART_CFG_TXEN) false)

/-! ### General I/O and JTAG -/

/-- A pull resistor of GPIO_PULL (R464). -/
def pullOf (v : Nat) : Ball := match v with | 1 => .pulled false | 2 => .pulled true | _ => .hiZ

/-- GPIOn: an output, an EVO function in asynchronous mode or between its pulses, else its pull resistor (R286, R464). -/
def gpioBall (s : State) (n : Nat) : Ball :=
  shown s 1 (61 + n) (match s.get (GPIO_FUNC_FUNC n) with
    | 1 => .driven (s.bit GPIO_OUT_OUT n)
    | 2 => if 4 ≤ n then .driven (evoLevel s (n - 4)) else pullOf (s.get (GPIO_PULL_PULL n))
    | _ => pullOf (s.get (GPIO_PULL_PULL n)))

/-- TDO: high impedance outside the Shift states, in which no command leaves the TAP (R442, R463). -/
def tdoBall : Ball := .hiZ

/-! ### The panels -/

/-- EPD_D0 to EPD_D7, EPD_SCL, EPD_SLE, EPD_SSP, EPD_SOE, EPD_GCK, EPD_GSP and EPD_GOE, as ball `i` of them: low but while the
panel is scanned (R350, R351, R442). -/
def epdBall (s : State) (i : Nat) : Ball :=
  shown s 2 (if i < 12 then 71 + i else 72 + i) (if s.disp.scan.isSome then .signal else .driven false)

/-- HVEN (R351). -/
def hvenBall (s : State) : Ball := shown s 2 87 (.driven (s.on EPD_STAT_HVON))

/-- VCOM in 0.1 mV: 0 V between runs (R351, R352, R442). -/
def vcomBall (s : State) : Int := s.disp.vcom

/-- COM0 to COM7 and SEG0 to SEG59, numbered from 0, under EXTEST (R463): what their cells give. -/
def lcdScan (s : State) (n : Nat) : Option Ball := if scanDrives s then some (cellBall s (112 + n)) else none

/-- Common `c` is driven in a half-frame; else it stands at 0 V (R342). -/
def comDriven (s : State) (h c : Nat) : Bool :=
  !scanDrives s &&
  match s.disp.lcd with | some (_, l) => l.any fun x => x.half == h && x.common == c | none => false

/-- Segment `n` is on in the common period of `c` (R343). -/
def segDriven (s : State) (h c n : Nat) : Bool :=
  !scanDrives s &&
  match s.disp.lcd with | some (_, l) => l.any fun x => x.half == h && x.common == c && bitOf x.segs n | none => false

/-- Touch pins are grounded: until EN=1, where dropped since the last pass boundary, in Slate and Granite but for a pair that
R380 runs there, and in Basalt but for the wake scan's (R379, R442). -/
def touchGrounded (s : State) (n : Nat) : Bool :=
  if s.on TCH_STAT_WSCAN then !wakePin s n
  else !s.on TCH_STAT_RUN || dropIn s n || (decide (2 ≤ s.get PWR_DOMSTAT_STATE) && !s.tch.pair)

end Sys2Proof.Machine
end

