-- ==== Sys2Proof/WellFormed.lean ====
section
/-! DEFINITION. Which commands are well formed: operands that number a thing of the spec lie in its range, and slot payloads
have whole words. -/

namespace Sys2Proof

/-- A syllable's fields keep their widths by their types; CUSTOM has sixteen opcodes (R89). -/
def customOk (n : Nat) : Bool := decide (n < 16)

/-- A lane number of a port (R214). -/
def laneOk (p l : Nat) : Bool := decide (p < 3 ∧ l < 2)

/-- A slot's payload is at most 4,095 words (R228), and its code errors lie on the two lanes (R212). -/
def slotOk (l : List Word) (bad : List (Nat × Nat)) : Bool := decide (l.length ≤ 4095) && bad.all fun b => decide (b.1 < 2)

/-- A wake source that occurs in a sleep entry after A1 is looked for at A2 or A3 (R57). -/
def midOk (m : Option (Nat × Nat)) : Bool :=
  m.all fun x => (decide (x.1 < 12) || (decide (19 ≤ x.1) && decide (x.1 ≤ 25)) || decide (32 ≤ x.1)) && (x.2 == 2 || x.2 == 3)

/-- The operands of a command lie in the ranges of its rule. -/
def Instr.wf : Instr → Bool
  | .agentHoldAck k mid => decide (k < 10) && midOk mid
  | .sleepAgentAnswers mid => midOk mid
  | .agentHoldOverrun k => decide (k < 10)
  | .wakeEvent src => decide (src < 12)
  | .domainDemandStart d | .domainDemandTimeout d => decide (d < 3)
  | .harvestSample n _ _ => decide (n < 4)
  | .prereservationTimeout t => decide (t < 8)
  | .custom n _ => customOk n
  | .sramRowMove b r => decide (b < 8 ∧ r < 65536)
  | .sramColumnReplace b c => decide (b < 8 ∧ c < 64)
  | .bankWipe r => decide (r < 12)
  | .moverStart _ n _ | .moverStop _ n _ | .moverDescriptorFetch n | .moverTrigger n | .moverElement n
  | .moverBurstStore n | .moverDescriptorEnd n => decide (n < 4)
  | .laneLock p l | .laneLoss p l _ => laneOk p l
  | .portTrain p | .portUp p _ | .portTrainTimeout p | .portJoin p | .downPortProbe p | .frameStart p _ _
  | .frameEndClean _ p | .frameEndUnclean _ p | .frameOpenTimeout p | .wakeOrderedSet _ _ p => decide (p < 3)
  | .cycleHeader b _ p k => decide (p < 3 ∧ b.length = 16) && k.all fun x => decide (x.1 < 2 ∧ x.2 < 16)
  | .readSlot _ _ p _ _ b | .writeSlot _ _ p _ b | .readWriteSlot _ _ p _ _ b | .eventSlot _ _ p _ b | .statusSlot _ _ p _ b
  | .commandCarrySlot _ _ p _ b => slotOk p b
  | .ping n | .getState n | .fireEvent n | .setLevel n | .sleepHint n | .tableCommit n | .tableInfo n | .tableWrite n
  | .tableRead n | .firmwareCommand n | .commandTimeout n | .sessionOpen n | .sessionProve n | .sessionClose n
  | .lcQuery n | .lcAdvance n | .nvRead n | .nvWritePage n _ | .recordRead n | .recordWrite n | .tallyRead n | .tallyAdd n
  | .rtcGet n | .rtcSet n | .energyQuery n | .burstReserve n | .displayRegionUpdate n | .displayStatus n | .spareReport n
  | .logRead n | .resetDevice n => decide (n < 4)
  | .eventDelivery k => decide (k < 23)
  | .captureRead _ n => decide (n < 4)
  | .channelOwnerWrite _ c _ => decide (c < 32)
  | .nvPageMove p => decide (p < 8192)
  | .epdRequest _ n _ => decide (n < 4)
  | .regionLock n => decide (n < 16)
  | .seal n | .sign n | .pubkey n | .verify n | .randomBytes n | .hash n => decide (n < 8)
  | .softwareReset c => decide (c < 10)
  | .spiTransfer _ n _ | .spiTransferDone n _ | .spiTransmitData _ n _ | .spiReceiveData _ n => decide (n < 2)
  | .gpioEdge n => decide (n < 8)
  | .bypass c _ => !([0, 1, 2, 8].contains c.toNat)
  | _ => true

end Sys2Proof
end

