-- ==== Sys2Proof/Safety.lean ====
section
/-! DEFINITION. What counts as a safe state and a safe run, the conditions the statements are made under, and the
rules in their own terms. -/

namespace Sys2Proof.Machine

open Sys2Proof

/-- The memory keeps its canonical form and every waiting command is well formed. -/
def State.safe (s : State) : Bool := s.memWf && s.pending.all Instr.wf

/-- The part is held in power-on reset (R12, R70, R418): reset is asserted, the core stopped with its own state at reset, the link
engine OFF, and no release waits in the queue. -/
def State.heldInReset (s : State) : Bool :=
  s.por && decide (s.dx = State.reset.dx) && decide (s.get LNK_STAT_STATE = 0) &&
  s.pending.all fun c => match c with | .powerOnRelease _ => false | _ => true

/-- The class, opcode and fields a command gives the DX core; none for a command that is no syllable (R89, R107, R110, R115 to
R117). -/
def coreSyl : Instr → Option (Nat × Nat × Syl)
  | .add u x => some (aluCls u, 0x00, x)
  | .sub u x => some (aluCls u, 0x01, x)
  | .addi u x => some (aluCls u, 0x02, x)
  | .addis u x => some (aluCls u, 0x03, x)
  | .rsubi u x => some (aluCls u, 0x04, x)
  | .neg u x => some (aluCls u, 0x05, x)
  | .absG u x => some (aluCls u, 0x06, x)
  | .andG u x => some (aluCls u, 0x08, x)
  | .andi u x => some (aluCls u, 0x09, x)
  | .orG u x => some (aluCls u, 0x0A, x)
  | .ori u x => some (aluCls u, 0x0B, x)
  | .xorG u x => some (aluCls u, 0x0C, x)
  | .xori u x => some (aluCls u, 0x0D, x)
  | .andn u x => some (aluCls u, 0x0E, x)
  | .notG u x => some (aluCls u, 0x0F, x)
  | .shl u x => some (aluCls u, 0x10, x)
  | .shli u x => some (aluCls u, 0x11, x)
  | .shr u x => some (aluCls u, 0x12, x)
  | .shri u x => some (aluCls u, 0x13, x)
  | .sar u x => some (aluCls u, 0x14, x)
  | .sari u x => some (aluCls u, 0x15, x)
  | .ror u x => some (aluCls u, 0x16, x)
  | .rori u x => some (aluCls u, 0x17, x)
  | .minG u x => some (aluCls u, 0x18, x)
  | .maxG u x => some (aluCls u, 0x19, x)
  | .minu u x => some (aluCls u, 0x1A, x)
  | .maxu u x => some (aluCls u, 0x1B, x)
  | .clz u x => some (aluCls u, 0x1C, x)
  | .xtn u x => some (aluCls u, 0x1D, x)
  | .extu u x => some (aluCls u, 0x1E, x)
  | .exts u x => some (aluCls u, 0x1F, x)
  | .mov u x => some (aluCls u, 0x20, x)
  | .movi u x => some (aluCls u, 0x21, x)
  | .sel u x => some (aluCls u, 0x22, x)
  | .cmpeq u x => some (aluCls u, 0x28, x)
  | .cmpne u x => some (aluCls u, 0x29, x)
  | .cmplt u x => some (aluCls u, 0x2A, x)
  | .cmple u x => some (aluCls u, 0x2B, x)
  | .cmpltu u x => some (aluCls u, 0x2C, x)
  | .cmpleu u x => some (aluCls u, 0x2D, x)
  | .cmpeqi u x => some (aluCls u, 0x30, x)
  | .cmpnei u x => some (aluCls u, 0x31, x)
  | .cmplti u x => some (aluCls u, 0x32, x)
  | .cmplei u x => some (aluCls u, 0x33, x)
  | .cmpltui u x => some (aluCls u, 0x34, x)
  | .cmpleui u x => some (aluCls u, 0x35, x)
  | .pand u x => some (aluCls u, 0x38, x)
  | .por u x => some (aluCls u, 0x39, x)
  | .pxor u x => some (aluCls u, 0x3A, x)
  | .pandn u x => some (aluCls u, 0x3B, x)
  | .pnot u x => some (aluCls u, 0x3C, x)
  | .ldb x => some (2, 0x00, x)
  | .ldbx x => some (2, 0x08, x)
  | .ldbp x => some (2, 0x10, x)
  | .ldbu x => some (2, 0x01, x)
  | .ldbux x => some (2, 0x09, x)
  | .ldbup x => some (2, 0x11, x)
  | .ldh x => some (2, 0x02, x)
  | .ldhx x => some (2, 0x0A, x)
  | .ldhp x => some (2, 0x12, x)
  | .ldhu x => some (2, 0x03, x)
  | .ldhux x => some (2, 0x0B, x)
  | .ldhup x => some (2, 0x13, x)
  | .ldw x => some (2, 0x04, x)
  | .ldwx x => some (2, 0x0C, x)
  | .ldwp x => some (2, 0x14, x)
  | .ldd x => some (2, 0x05, x)
  | .lddx x => some (2, 0x0D, x)
  | .lddp x => some (2, 0x15, x)
  | .stb x => some (2, 0x18, x)
  | .stbx x => some (2, 0x1C, x)
  | .stbp x => some (2, 0x20, x)
  | .sth x => some (2, 0x19, x)
  | .sthx x => some (2, 0x1D, x)
  | .sthp x => some (2, 0x21, x)
  | .stw x => some (2, 0x1A, x)
  | .stwx x => some (2, 0x1E, x)
  | .stwp x => some (2, 0x22, x)
  | .std x => some (2, 0x1B, x)
  | .stdx x => some (2, 0x1F, x)
  | .stdp x => some (2, 0x23, x)
  | .satst x => some (2, 0x24, x)
  | .satstx x => some (2, 0x25, x)
  | .satstp x => some (2, 0x26, x)
  | .savem x => some (2, 0x30, x)
  | .loadm x => some (2, 0x31, x)
  | .bmov x => some (2, 0x32, x)
  | .fence x => some (2, 0x38, x)
  | .mul u x => some (macCls u, 0x00, x)
  | .mulh u x => some (macCls u, 0x01, x)
  | .mulhu u x => some (macCls u, 0x02, x)
  | .muli u x => some (macCls u, 0x03, x)
  | .macd u x => some (macCls u, 0x08, x)
  | .msud u x => some (macCls u, 0x09, x)
  | .macx u x => some (macCls u, 0x0A, x)
  | .msux u x => some (macCls u, 0x0B, x)
  | .muld u x => some (macCls u, 0x0C, x)
  | .macw u x => some (macCls u, 0x0D, x)
  | .msuw u x => some (macCls u, 0x0E, x)
  | .mulw u x => some (macCls u, 0x0F, x)
  | .mva u x => some (macCls u, 0x10, x)
  | .mvag u x => some (macCls u, 0x11, x)
  | .mvta u x => some (macCls u, 0x12, x)
  | .mvtag u x => some (macCls u, 0x13, x)
  | .aclr u x => some (macCls u, 0x14, x)
  | .asar u x => some (macCls u, 0x15, x)
  | .ashl u x => some (macCls u, 0x16, x)
  | .aadd u x => some (macCls u, 0x17, x)
  | .br x => some (5, 0x00, x)
  | .brr x => some (5, 0x01, x)
  | .call x => some (5, 0x02, x)
  | .callr x => some (5, 0x03, x)
  | .ret x => some (5, 0x04, x)
  | .rete x => some (5, 0x05, x)
  | .trap x => some (5, 0x06, x)
  | .custom n x => some (6, n % 16, x)
  | .mvfs x => some (6, 0x10, x)
  | .mvts x => some (6, 0x11, x)
  | .sleep x => some (6, 0x12, x)
  | .rep x => some (6, 0x13, x)
  | .repr x => some (6, 0x14, x)
  | _ => none

/-- The core stands at a bundle boundary with nothing in flight and no entry to take, no custom instruction holds writes back
(none does between commands, R145), and no memory error is stored. -/
def State.quiet (s : State) : Bool :=
  !s.por && coreRuns s && s.dx.bundle.isEmpty && s.dx.loads.isEmpty && s.dx.stores.isEmpty && s.dx.rep.isNone &&
  !s.dx.drainDue && !s.dx.armShadow && !s.dx.armProg && (asyncKind s).isNone && s.ms.sramErr.isEmpty && s.ms.wipeQ.isEmpty &&
  s.dx.usHeld.isNone

/-- Words of a syllable with its LIMM. -/
def wordsOf (x : Syl) : Nat := 1 + b2n x.limm.isSome

/-- The bundle that holds only this syllable can be fetched at CORE's address (R94, R181): it stops the bundle, its words lie in
banks 0 and 1, and the guard lets them be fetched. -/
def State.canFetch (s : State) (x : Syl) : Bool :=
  s.quiet && x.stop && decide (0x10000000 ≤ s.dx.pc) && decide (s.dx.pc + 4 * wordsOf x ≤ 0x10200000) &&
  (fetchRefused s s.dx.pc (wordsOf x)).isNone

/-- And it is legal (R92, R93). -/
def State.canIssue (s : State) (cls op : Nat) (x : Syl) : Bool := s.canFetch x && sylLegal cls op x

/-- Its predicate holds as the bundle issues (R96). -/
def State.guarded (s : State) (x : Syl) : Bool := pd s x.pred.toNat

/-- The address of the bundle that follows. -/
def State.nextPc (s : State) (x : Syl) : Nat := (s.dx.pc + 4 * wordsOf x) % 2 ^ 32

/-- The syllable as the only one of its bundle. -/
def only (cls op : Nat) (x : Syl) : Sy := ⟨cls, op, x, x.d.toNat, x.a.toNat, x.b.toNat, 0⟩

/-! ### What a bundle of one syllable changes -/

/-- `t` is `s` after a bundle of one syllable that wrote register `d` with `v` and nothing else: g0 stays 0 (R95, R96). The cycle
counter moves by the bundle's cost, and the model's own counter of free values moves. -/
def wroteReg (s t : State) (x : Syl) (d : Nat) (v : Word) : Prop :=
  rd t d = (if d = 0 then 0 else v) ∧ (∀ r, r ≠ d → r < 32 → rd t r = rd s r) ∧ t.dx.pc = s.nextPc x ∧
  { t with
    free := s.free
    dx := { t.dx with g := s.dx.g, pc := s.dx.pc, cyc := s.dx.cyc, deferred := s.dx.deferred } } = s

/-- The same for a special register: what the registers hold then is said beside it. -/
def wroteRegs (s t : State) (x : Syl) : Prop :=
  t.dx.pc = s.nextPc x ∧
  { t with
    free := s.free, regs := s.regs
    dx := { t.dx with pc := s.dx.pc, cyc := s.dx.cyc, deferred := s.dx.deferred } } = s

/-- The same for a predicate: p0 stays 1. -/
def wrotePred (s t : State) (x : Syl) (i : Nat) (v : Bool) : Prop :=
  pd t i = (i == 0 || v) ∧ (∀ j, j ≠ i → j < 8 → pd t j = pd s j) ∧ t.dx.pc = s.nextPc x ∧
  (∀ f : Fld, f.key ≠ CORE_PRED_P1_P7.key → t.get f = s.get f) ∧
  { t with
    free := s.free, regs := s.regs
    dx := { t.dx with pc := s.dx.pc, cyc := s.dx.cyc, deferred := s.dx.deferred } } = s

/-- The two sticky conditions of CORE_DSPSTAT after a bundle that met them or not, and every other register field as before
(R125). -/
def sticky (s t : State) (satf ovf : Bool) : Prop :=
  t.on CORE_DSPSTAT_SATF = (s.on CORE_DSPSTAT_SATF || satf) ∧ t.on CORE_DSPSTAT_OVF40 = (s.on CORE_DSPSTAT_OVF40 || ovf) ∧
  ∀ f : Fld, f.key ≠ CORE_DSPSTAT_SATF.key → f.key ≠ CORE_DSPSTAT_OVF40.key → t.get f = s.get f

/-- The same for an accumulator, with the sticky conditions. -/
def wroteAcc (s t : State) (x : Syl) (d : Nat) (v : BitVec 40) (satf ovf : Bool) : Prop :=
  ac t d = v ∧ (∀ i, i ≠ d → ac t i = ac s i) ∧ t.dx.pc = s.nextPc x ∧ sticky s t satf ovf ∧
  { t with
    free := s.free, regs := s.regs
    dx := { t.dx with acc := s.dx.acc, pc := s.dx.pc, cyc := s.dx.cyc, deferred := s.dx.deferred } } = s

/-- The signed 32-bit range's nearest value (R109, R121, R124). -/
def satWord (i : Int) : Word :=
  if 2 ^ 31 - 1 < i then 0x7FFFFFFF else if i < -(2 ^ 31) then 0x80000000 else BitVec.ofInt 32 i

/-- The value lies outside the signed 32-bit range. -/
def out32 (i : Int) : Bool := decide (2 ^ 31 - 1 < i) || decide (i < -(2 ^ 31))

/-- The value lies outside the signed 40-bit range. -/
def out40 (i : Int) : Bool := decide (2 ^ 39 - 1 < i) || decide (i < -(2 ^ 39))

/-- Operands of a syllable, read at issue: g[A], g[B], the immediate, SAT and the shift amount g[B][4:0]. -/
def gA (s : State) (x : Syl) : Word := rd s x.a.toNat
/-- g[B]. -/
def gB (s : State) (x : Syl) : Word := rd s x.b.toNat
/-- The immediate of form I. -/
def immI (x : Syl) : Word := immOf 9 x (imm9 x)
/-- MOD[3]. -/
def satBit (x : Syl) : Bool := bitOf x.mod.toNat 3
/-- g[B][4:0]. -/
def shB (s : State) (x : Syl) : Nat := (gB s x).toNat % 32

/-- Every legal form of the row, alone in its bundle with its predicate 1, completes and writes g[D] with `v`, and nothing else. -/
def regGives (i : Bool → Syl → Instr) (cls : Bool → Nat) (op : Nat) (v : State → Syl → Word) : Prop :=
  ∀ (s : State) (u : Bool) (x : Syl), s.canIssue (cls u) op x = true → s.guarded x = true →
    ∃ t, exec (i u x) s = .next t ∧ wroteReg s t x x.d.toNat (v s x)

/-- The same for a compare: p[D[2:0]] by the combine mode D[4:3] from the result `c` (R108). -/
def cmpGives (i : Bool → Syl → Instr) (op : Nat) (c : State → Syl → Bool) : Prop :=
  ∀ (s : State) (u : Bool) (x : Syl), s.canIssue (aluCls u) op x = true → s.guarded x = true →
    ∃ t, exec (i u x) s = .next t ∧ wrotePred s t x (x.d.toNat % 8)
      (if x.d.toNat / 8 = 0 then c s x
       else if x.d.toNat / 8 = 1 then pd s (x.d.toNat % 8) && c s x else pd s (x.d.toNat % 8) || c s x)

/-- The same for a predicate operation on p[A] and p[B]. -/
def predGives (i : Bool → Syl → Instr) (op : Nat) (v : Bool → Bool → Bool) : Prop :=
  ∀ (s : State) (u : Bool) (x : Syl), s.canIssue (aluCls u) op x = true → s.guarded x = true →
    ∃ t, exec (i u x) s = .next t ∧ wrotePred s t x x.d.toNat (v (pd s x.a.toNat) (pd s x.b.toNat))

/-- The same for a row that writes acc[D] with the exact value `e` in the way the mode decides (R121, R125). -/
def accGives (i : Bool → Syl → Instr) (op : Nat) (e : State → Syl → Int) : Prop :=
  ∀ (s : State) (u : Bool) (x : Syl), s.canIssue (macCls u) op x = true → s.guarded x = true →
    let clamps := satBit x && !s.on CORE_DSPCFG_GUARD
    ∃ t, exec (i u x) s = .next t ∧ wroteAcc s t x x.d.toNat
      (if clamps then (satWord (e s x)).signExtend 40 else BitVec.ofInt 40 (e s x))
      (clamps && out32 (e s x)) (!clamps && out40 (e s x))

/-- The same for a row that sets acc[D] to bits as they are. -/
def accSets (i : Bool → Syl → Instr) (op : Nat) (v : State → Syl → BitVec 40) : Prop :=
  ∀ (s : State) (u : Bool) (x : Syl), s.canIssue (macCls u) op x = true → s.guarded x = true →
    ∃ t, exec (i u x) s = .next t ∧ wroteAcc s t x x.d.toNat (v s x) false false

/-- `t` is `s` after an entry at `slot` (R151) with nothing in flight: the return address `epc`, the deciding position, the level
it is handled at, the faulting address where the slot has one, the threshold it leaves; no shadow record, progress or repeat is
recorded, and the handler's slot is the next address. -/
abbrev entered (s t : State) (slot epc sylix h : Nat) (faddr : Option Nat) (thr : Nat) : Prop :=
  t.get CORE_EPC_ADDR = epc / 4 % 2 ^ 30 ∧ t.get CORE_ECAUSE_SLOT = slot ∧ t.get CORE_ECAUSE_SYLIX = sylix ∧
  t.get CORE_ECAUSE_HLVL = h ∧ t.get CORE_FADDR_ADDR = faddr.getD (s.get CORE_FADDR_ADDR) ∧
  t.get CORE_STATUS_PPL = coreLvl s ∧ t.get CORE_STATUS_PIE = s.get CORE_STATUS_IE % 2 ∧
  t.get CORE_STATUS_PTHR = s.get CORE_STATUS_THR % 16 ∧ t.get CORE_STATUS_PL = h ∧ t.get CORE_STATUS_IE = 0 ∧
  t.get CORE_STATUS_EL = 1 ∧ t.get CORE_STATUS_THR = thr ∧ t.get CORE_LSHAD_VALID = 0 ∧ t.get CORE_PROG_VALID = 0 ∧
  t.get CORE_REPST_VALID = 0 ∧ t.dx.pc = 0x10000000 + 32 * slot ∧ t.dx.bundle = []

/-! ### What a command of the block changes -/

/-- The number of the page a field lies in (R8). -/
def pageOf (f : Fld) : Nat := f.key / 131072 - 0x40000

/-- No register field changes outside the pages of the list. -/
def sameRegs (pages : List Nat) (s t : State) : Prop := ∀ f : Fld, pageOf f ∉ pages → t.get f = s.get f

/-- No frame is open, at the processing point or on any of the three transmitters, and no port is treated as DOWN. -/
def State.linkQuiet (s : State) : Bool :=
  s.lnk.frame.isNone && s.lnk.tx.length == 3 && s.lnk.tx.all (fun x => x.frame.isNone) && s.lnk.narrow.isEmpty

/-- A slot of type `ty` is this device's to serve as it passes (R225, R231, R232): the frame serves slots, the header's check
passes, it names the type and the device's position, nothing in it is a bad parameter, and no cycle-start waits. -/
def State.slotMine (s : State) (ty : Nat) (h : SlotHdr) : Bool :=
  s.lnk.csAt.isEmpty && serves s && crc8 (leBytes 7 h.bits.toNat) == h.scrc.toNat && slotFld h 12 3 == ty &&
  slotFld h 0 12 == devPos s && devPos s != 0xFFF && !slotBad h ty

/-- What the device has sent for a slot: the payload, and the tail word of a status (R229). -/
abbrev sentSlot (s t : State) (payload : List Word) (status latew : Nat) : Prop :=
  t.lnk.out.payload = payload ∧ t.lnk.out.tail = some (BitVec.ofNat 32 (status + devPos s * 256 + latew * 2 ^ 20))

/-- The words of a slot's live entries as memory holds them. -/
def liveAt (s : State) (h : SlotHdr) : List Word :=
  (List.range (slotFld h 36 12)).map fun w => BitVec.ofNat 32 (s.rd (slotAddr s h w) 4)

/-- The live copy of the slot's table can be read with nothing in the way: no wipe, no stored error, no landing and no flip that
waits. -/
def State.tableCalm (s : State) : Bool :=
  s.ms.wipeQ.isEmpty && s.ms.sramErr.isEmpty && s.cmd.landing.isEmpty && s.cmd.waitFlip == 0

/-- Place `p` holds this packet of opcode `op`, which has not run (R274). -/
def State.opReady (s : State) (p op : Nat) (pl : Place) : Bool :=
  decide (p < 4) && decide (s.cmd.places.length = 4) && placeAt s p == some pl && pOp pl.pkt == op && !pl.replied && !pl.waiting

/-- Place `p`'s packet has been answered with this status and data: its reply is queued where it asked for one, else the place is
free (R274, R275). The status is not WRONG_STATE, whose data is the status word. -/
abbrev answered (s t : State) (p : Nat) (pl : Place) (st : Nat) (data : List Byte) : Prop :=
  placeAt t p = (if pReply pl.pkt then some { pl with replied := true, waiting := false } else none) ∧
  t.cmd.replies = s.cmd.replies ++
    (if pReply pl.pkt then [(p, replyBytes pl (BitVec.ofNat 8 st :: 0 :: 0 :: 0 :: data))] else [])

/-- Place `p`'s packet waits for an engine. -/
abbrev handedOver (t : State) (p : Nat) (pl : Place) : Prop := placeAt t p = some { pl with waiting := true }

/-- Address `a` lies in no check line that stands dirty in the cache (R191). -/
abbrev offDirty (s : State) (a : Nat) : Prop :=
  ∀ l ∈ s.ms.ckl, l.dirty = true → a < ckDie l.line ∨ ckDie l.line + l.bytes.length ≤ a

/-- Every dirty check line has been written back and stands clean; no other byte has changed (R191). -/
abbrev linesBack (s t : State) : Prop :=
  t.ms = { s.ms with ckl := s.ms.ckl.map fun l => { l with dirty := false } } ∧ (∀ a, offDirty s a → t.byte a = s.byte a) ∧
  ∀ l, s.ms.ckl = [l] → l.dirty = true → t.rdBytes (ckDie l.line) l.bytes.length = l.bytes

/-- The log's next entry is this one (R433, R434); where other entries follow, they stand behind it. -/
abbrev logged (s t : State) (code arg data : Nat) : Prop :=
  ∀ w ∈ (logWords s code arg data).drop 1, t.rd w.1 4 = w.2 % 2 ^ 32

/-- The register at `a` has no effect of its own: a write changes its fields by their access codes and nothing else (R10). -/
def plainReg (a : Nat) : Bool :=
  let o := a % 4096
  match a / 4096 with
  | 0x40000 => !([0x000, 0x004, 0x040, 0x044].contains o)
  | 0x40001 => !([0x000, 0x038, 0x050, 0x058].contains o)
  | 0x40003 => true
  | 0x40004 => o != 0x004
  | 0x40005 => decide (o < 0x100)
  | 0x40006 => !([0x000, 0x004].contains o)
  | 0x40007 => !([0x000, 0x008].contains o) && decide (o < 0x100 ∨ 0x200 ≤ o)
  | 0x40008 => decide (0x358 ≤ o)
  | 0x40009 => !([0x024, 0x030, 0x040].contains o)
  | 0x4000A => !([0x008, 0x00C, 0x010, 0x028, 0x038, 0x040, 0x044].contains o)
  | 0x4000B => !([0x000, 0x008].contains o)
  | 0x4000C => decide (o < 0x200) && !([0x000, 0x004, 0x008, 0x00C, 0x030, 0x034, 0x090, 0x0B0].contains o)
  | 0x4000D => !([0x000, 0x004].contains o)
  | 0x4000E => decide (o < 0x080)
  | _ => false

/-- What a field holds after an allowed write of `v` to its register, by its access code (R10); `lock` is the lock bit that governs
RWL fields. -/
def fieldAfter (s : State) (lock : Bool) (v : Nat) (f : Fld) : Nat :=
  let x := v / 2 ^ f.lo % 2 ^ f.w
  match f.acc with
  | .rw => x
  | .w1c => (s.get f - (s.get f &&& x)) % 2 ^ f.w
  | .w1s => (s.get f ||| x) % 2 ^ f.w
  | .rwl => if lock then s.get f else x
  | _ => s.get f

/-- The registers with fields that a read clears (R10). -/
def rcRegs : List Nat :=
  [0x40003004, 0x40003020, 0x40003024, 0x40003028, 0x4000302C, 0x4000400C, 0x40006014, 0x40006018, 0x4000601C, 0x40007028,
   0x4000900C, 0x4000C044, 0x4000E050]

/-- Nothing waits for the hold capacitor: no store at the head of the store buffer, no word of an engine, no reset sequence
(R301). -/
def noneWaits (s : State) : Bool := !headWaits s && (holdReady s || !engineRuns s) && s.boot.isNone

/-- A master's access of kind `k` (0 read, 1 write) to the register at `a` reaches it: the master acts, no store of the core is
buffered, and neither the guard nor the rights stop it (R13, R181); a write of the core finds no machine check pending, in whose
record it would count (R163). -/
def State.reaches (s : State) (m : Master) (a k v : Nat) : Bool :=
  !s.por && masterActs s m && s.dx.stores.isEmpty && !(m == .core && k != 0 && s.dx.mcPend) &&
  decide (access s m (masterTag s m) a 4 k v = .ok)

/-- The wake scan samples pin `n` (R380). -/
def scanned (s : State) (n : Nat) : Bool :=
  ((List.range 4).any fun j => s.bit TCH_WAKE_SLOTEN j && s.get (TCH_WAKE_PIN j) == n) && !s.bit TCH_DROP_DROP n &&
  !([0, 1, 6].contains (s.get (TCH_CHST_STATE n)))

/-- Service slot `q` is the one to serve: submitted, the lowest, with code `c`, parameters `par` and data `d` in its words, and
nothing in the way of reading them (R406). -/
def State.svcReady (s : State) (q c : Nat) (par d : List Byte) : Bool :=
  decide (q < 8) && svcNext s q && s.cmd.mgmtUp && s.ms.wipeQ.isEmpty && s.ms.sramErr.isEmpty &&
  s.rd (svcBase q) 1 == c && s.rd (svcBase q + 8) 4 == d.length && decide (d.length ≤ 4064) &&
  s.rdBytes (svcBase q + 16) 16 == par && s.rdBytes (svcBase q + 0x20) d.length == d

/-- Slot `q` holds the outcome, its request is done with and reported (R406). -/
abbrev served (t : State) (q st : Nat) (out : List Byte) : Prop :=
  t.rd (svcBase q + 4) 4 = st ∧ t.rd (svcBase q + 12) 4 = out.length ∧ t.rdBytes (svcBase q + 0x20) out.length = out ∧
  t.bit MBX_FMDB_RQ q = false ∧ t.bit MBX_FMDONE_DONE q = true

/-! ### Rules in their own terms

What the statements ask of the clock, the tables, the mover, the records, the tallies and the label, written from the rules and not
from the operations that carry them out. -/

/-- `k` NV_WORD_WRITEs, one after the other (R304); none where one does not answer a next state. -/
def wordWrites : Nat → State → Option State
  | 0, s => some s
  | k + 1, s => match exec .nvWordWrite s with | .next t => wordWrites k t | _ => none

/-- The days of a month (R326): February has 29 where 2000 + y is divisible by 4 and not by 100, or by 400. -/
def daysOf (m y : Nat) : Nat :=
  if [4, 6, 9, 11].contains m then 30
  else if m != 2 then 31
  else if (2000 + y) % 400 == 0 || ((2000 + y) % 4 == 0 && (2000 + y) % 100 != 0) then 29 else 28

/-- One edge of the 1/256 s count takes `x` to `u` (R327): each field is reset where it stands at its end or beyond and the one
before it has carried, steps where only that one has carried, and stands otherwise. -/
def countsTo (x u : Time) : Bool :=
  let c1 := x.sub == 255
  let c2 := c1 && decide (59 ≤ x.sec)
  let c3 := c2 && decide (59 ≤ x.min)
  let c4 := c3 && decide (23 ≤ x.hour)
  let c5 := c4 && decide (daysOf x.month x.year ≤ x.day)
  let c6 := c5 && decide (12 ≤ x.month)
  u.sub == (if c1 then 0 else x.sub + 1) && u.sec == (if c2 then 0 else x.sec + b2n c1) &&
  u.min == (if c3 then 0 else x.min + b2n c2) && u.hour == (if c4 then 0 else x.hour + b2n c3) &&
  u.wday == (if c4 && decide (6 ≤ x.wday) then 0 else x.wday + b2n c4) &&
  u.day == (if c5 then 1 else x.day + b2n c4) && u.month == (if c6 then 1 else x.month + b2n c5) &&
  u.year == (if c6 && decide (199 ≤ x.year) then 0 else x.year + b2n c6)

/-- Every field of a time lies within its width (R325). -/
def timeFits (t : Time) : Bool :=
  decide (t.sub < 256 ∧ t.sec < 64 ∧ t.min < 64 ∧ t.hour < 32 ∧ t.wday < 8 ∧ t.day < 32 ∧ t.month < 16 ∧ t.year < 256)

/-- Every field that alarm `n` compares, with the weekday or without it, equals its compare value (R334, R335). -/
def alarmMeets (s : State) (n : Nat) (t : Time) (wday : Bool) : Bool :=
  [(s.on (RTC_ALMCFG_MSEC n), s.get (RTC_ALMT0_SEC n), t.sec), (s.on (RTC_ALMCFG_MMIN n), s.get (RTC_ALMT0_MIN n), t.min),
    (s.on (RTC_ALMCFG_MHOUR n), s.get (RTC_ALMT0_HOUR n), t.hour), (s.on (RTC_ALMCFG_MDAY n), s.get (RTC_ALMT1_DAY n), t.day),
    (s.on (RTC_ALMCFG_MMONTH n), s.get (RTC_ALMT1_MONTH n), t.month), (s.on (RTC_ALMCFG_MYEAR n), s.get (RTC_ALMT1_YEAR n), t.year),
    (wday && s.on (RTC_ALMCFG_MWDAY n), s.get (RTC_ALMT1_WDAY n), t.wday)].all fun f => !f.1 || f.2.1 == f.2.2

/-- `a` comes before `b` in the order of R333. -/
abbrev timeBefore (a b : Time) : Prop :=
  [a.year, a.month, a.day, a.hour, a.min, a.sec, a.sub] < [b.year, b.month, b.day, b.hour, b.min, b.sec, b.sub]

/-- A whole second with a valid date lies strictly between the two times and is one that alarm `n` compares equal (R335). -/
def jumpsOver (s : State) (n : Nat) (old new : Time) : Prop :=
  ∃ t : Time, t.sub = 0 ∧ t.sec ≤ 59 ∧ t.min ≤ 59 ∧ t.hour ≤ 23 ∧ 1 ≤ t.month ∧ t.month ≤ 12 ∧ 1 ≤ t.day ∧
    t.day ≤ daysOf t.month t.year ∧ timeBefore old t ∧ timeBefore t new ∧ alarmMeets s n t false = true

/-- Byte offset and length of a table's staged extent, or of its live one (R253). -/
def extentOf (s : State) (staged : Bool) (n : Nat) : Nat × Nat :=
  if staged then (32 * s.get (TBL_SDESC0_BASE n), s.get (TBL_SDESC1_COUNT n) * (4 * 2 ^ s.get (TBL_SDESC0_ESIZE n)))
  else (32 * s.get (TBL_LDESC0_BASE n), s.get (TBL_LDESC1_COUNT n) * (4 * 2 ^ s.get (TBL_LDESC0_ESIZE n)))

/-- Table `n` of the request `mask` fails step 3 of R253: it ends beyond 0x8_0000, or has a byte in common with the extent of
another table, staged where that is named or pending and live otherwise. -/
def tableFails (s : State) (mask n : Nat) : Bool :=
  let (a, k) := extentOf s true n
  decide (0x80000 < a + k) || (List.range 16).any fun m =>
    let (b, j) := extentOf s (bitOf mask m || s.bit TBL_CMTSTAT_PEND m) m
    m != n && decide (max a b < min (a + k) (b + j))

/-- A descriptor of these eight words fails (R203): a field that reads zero does not, both streams want the one buffer, or an
address is not aligned to the element. -/
def descFails (l : List Nat) : Bool :=
  let w (i : Nat) : Nat := l.getD i 0
  let z := 2 ^ (w 0 % 4)
  w 0 / 2 ^ 9 % 128 != 0 || w 6 / 2 ^ 20 % 4096 != 0 || w 7 % 32 != 0 ||
  (decide (2 ≤ w 0 / 4 % 4) && decide (2 ≤ w 0 / 16 % 4)) || w 1 % z != 0 || w 2 % z != 0

/-- The low `j` bits of `v`, the first of them last (R127). -/
def mirrored (j v : Nat) : Nat := maskOf j fun i => bitOf v (j - 1 - i)

/-- The address after `p` of a stream of a descriptor `l` in a mode, with a step (R126, R127, R204). -/
def streamAfter (l : List Nat) (mode step p : Nat) : Nat :=
  let base : Nat := l.getD 5 0
  let len : Nat := l.getD 6 0 % 2 ^ 20
  let k := l.getD 0 0 % 4
  let s := (BitVec.ofNat 32 step).toInt
  if mode = 1 then p
  else if mode = 0 || len = 0 then (p + step) % 2 ^ 32
  else if mode = 2 then ((base : Int) + ((p : Int) - base + s) % (len : Int)).toNat % 2 ^ 32
  else if len.log2 ≤ k then base
  else
    let j := len.log2 - k
    let o := (((p : Int) - base) % 2 ^ 32).toNat / 2 ^ k % 2 ^ j
    let t := step / 2 ^ k % 2 ^ j
    (base + mirrored j ((mirrored j o + mirrored j t) % 2 ^ j) * 2 ^ k) % 2 ^ 32

/-- Where copy `c` of record `r` lies (R311). -/
def copyAt (r c : Nat) : Nat := 0x201A0000 + 2048 * r + 1024 * c

/-- Copy `c` of record `r` is valid, where its words are readable (R312). -/
def copyValid (s : State) (r c : Nat) : Bool :=
  s.rd (copyAt r c + 4) 4 == r + 256 * c && decide (s.rd (copyAt r c + 8) 4 ≤ 1008) &&
  s.rd (copyAt r c + 0x3FC) 4 == s.rd (copyAt r c) 4 ^^^ 0xC3C3C3C3

/-- The copy a record read selects (R312, R313): the valid one; of two, B where its number is newer than A's. -/
def currentCopy (s : State) (r : Nat) : Option Nat :=
  let d := (s.rd (copyAt r 1) 4 + 2 ^ 32 - s.rd (copyAt r 0) 4) % 2 ^ 32
  match copyValid s r 0, copyValid s r 1 with
  | true, true => some (if 1 ≤ d ∧ d ≤ 0x7FFFFFFF then 1 else 0)
  | true, false => some 0
  | false, true => some 1
  | false, false => none

/-- Both copies are valid with one number (R313). -/
def copiesTie (s : State) (r : Nat) : Bool :=
  copyValid s r 0 && copyValid s r 1 && s.rd (copyAt r 0) 4 == s.rd (copyAt r 1) 4

/-- The copy a record write targets, and its sequence number (R314). -/
def writeTarget (s : State) (r : Nat) : Nat × Nat :=
  match currentCopy s r with
  | some c => (1 - c, (s.rd (copyAt r c) 4 + 1) % 2 ^ 32)
  | none => (0, 1)

/-- The words of a record write of `n` bytes whose payload words are `word`, in order (R314). -/
def writtenWords (s : State) (r n : Nat) (word : Nat → Nat) : List (Nat × Nat) :=
  let (c, q) := writeTarget s r
  let b := copyAt r c
  let old := s.rd b 4 ^^^ 0xC3C3C3C3
  let spoilt := if old ^^^ 1 = q ^^^ 0xC3C3C3C3 then old ^^^ 2 else old ^^^ 1
  (b + 0x3FC, spoilt) :: (b, q) :: (b + 4, r + 256 * c) :: (b + 8, n) ::
    ((List.range ((n + 3) / 4)).map fun i => (b + 12 + 4 * i, word i % 2 ^ (8 * min 4 (n - 4 * i)))) ++
    [(b + 0x3FC, q ^^^ 0xC3C3C3C3)]

/-- Where tally `k` lies, its two value words as one number, and whether its journal is pending (R317). -/
def tallyAt (k : Nat) : Nat := 0x201E0000 + 32 * k
/-- HIGH x 2^32 + LOW. -/
def tallyCells (s : State) (k : Nat) : Nat := s.rd (tallyAt k + 4) 4 * 2 ^ 32 + s.rd (tallyAt k) 4
/-- JMARK says that a carry is pending. -/
def carryPends (s : State) (k : Nat) : Bool := s.rd (tallyAt k + 16) 4 == 0xA5C35A3C

/-- R361 allows principal `p` an update of region `n`: a right to the display, and authority over the region's owner, where
OWNER owns it OWNER alone. -/
def mayUpdate (s : State) (n p : Nat) : Bool :=
  let o := s.get (EPD_RGNOWN_PRIN n)
  right s .display p true && (p == 3 || o != 3) && authority p o

/-- Check 3 of R362 passes: the rectangle lies within region `n`, which is enabled; the image of four bits a pixel lies in the
region queue, in the image area, or for set 1 in the management staging area; and every row with its gate output ends within the
frame. -/
def requestFits (s : State) (set n x y w h a : Nat) : Bool :=
  let e := a + h * ((w + 1) / 2)
  let row := epdWidth s / 4
  let line := s.get EPD_TIM0_LINE
  let frame := s.get EPD_TIM1_FRAME
  w != 0 && h != 0 && s.on (EPD_RGNOWN_EN n) &&
  decide (s.get (EPD_RGNLO_X0 n) ≤ x ∧ x + w - 1 ≤ s.get (EPD_RGNHI_X1 n)) &&
  decide (s.get (EPD_RGNLO_Y0 n) ≤ y ∧ y + h - 1 ≤ s.get (EPD_RGNHI_Y1 n)) &&
  decide ((0x10341000 ≤ a ∧ e ≤ 0x1037C000) ∨ (set = 1 ∧ 0x1037C000 ≤ a ∧ e ≤ 0x10380000) ∨
    (epdBase s + 0x180000 ≤ a ∧ e ≤ epdBase s + 0x3C0000)) &&
  decide (epdHeight s * line ≤ frame ∧ row + 16 ≤ line ∧ (epdHeight s - 1) * line + row + 1 + epdGpw s ≤ frame)

/-- The code of a waveform as its table in bank 4 has it, 3 for its end (R355). -/
def tableCode (s : State) (b f t k : Nat) : Nat :=
  (s.byte (0x10300000 + 64 * (256 * b + 16 * f + t) + k / 4)).toNat / 4 ^ (k % 4) % 4

/-- Every word of the SRAM can be read: no wipe, no stored error (R177, R180). -/
def State.bankCalm (s : State) : Bool := s.ms.wipeQ.isEmpty && s.ms.sramErr.isEmpty

/-- The rectangle of an update holds the pixel (R357). -/
def holdsPixel (u : Upd) (x y : Nat) : Bool := decide (u.x ≤ x ∧ x < u.x + u.w ∧ u.y ≤ y ∧ y < u.y + u.h)

/-- The state word of a pixel, where its burst can be read (R189, R356). -/
def pixelWord (s : State) (x y : Nat) : Option Nat :=
  let a := epdBase s + 2 * (y * epdWidth s + x)
  (rsDecode (burstOf s (a - a % 32))).map fun e => leNat ((e.1.drop (a % 32)).take 2)

/-- The pixel is idle: PH 0 and the level shown its target (R356). -/
def pixelIdle (s : State) (x y : Nat) : Bool := (pixelWord s x y).any fun w => w / 256 == 0 && w % 16 == w / 16 % 16

/-- The pixel is in flight or pending (R356). -/
def pixelMoves (s : State) (x y : Nat) : Bool := (pixelWord s x y).any fun w => w / 256 != 0 || w % 16 != w / 16 % 16

/-- Where row `y` of an update's source image lies: two pixels a byte (R357). -/
def sourceAt (u : Upd) (y : Nat) : Nat := u.src + (y - u.y) * ((u.w + 1) / 2)

/-- The running updates that hold row `y`, each with its source row. -/
def rowOf (s : State) (y : Nat) : List (Upd × List Byte) :=
  (s.disp.upd.filter fun u => u.running && decide (u.y ≤ y ∧ y < u.y + u.h)).map fun u =>
    (u, s.rdBytes (sourceAt u y) ((u.w + 1) / 2))

/-- The bytes of a row of codes (R350): four codes to a byte, the first in its lowest bits, or with EPD_CFG.REV in its highest. -/
def packedCodes (rev : Bool) (n : Nat) (code : Nat → Nat) : List Byte :=
  (List.range (n / 4)).map fun k =>
    if rev then BitVec.ofNat 8 (64 * code (4 * k) + 16 * code (4 * k + 1) + 4 * code (4 * k + 2) + code (4 * k + 3))
    else BitVec.ofNat 8 (code (4 * k) + 4 * code (4 * k + 1) + 16 * code (4 * k + 2) + 64 * code (4 * k + 3))

end Sys2Proof.Machine
end

