-- ==== Sys2Proof/Certificates/Slice0/Obligations.lean ====
section
/-! DEFINITION. The statements for the provers. -/

open Sys2Proof Sys2Proof.Machine

/-- For every command c and state s, step of s with c at the front of its queue is exec of c on s with the queue's rest,
whatever it answers; on an empty queue step answers s itself. Idling is the model's choice (log entry 1). -/
def Obligations.QueueFront : Prop :=
  (∀ (s : State) (c : Instr) (rest : List Instr),
    step { s with pending := c :: rest } = exec c { s with pending := rest }) ∧
  (∀ s : State, s.pending = [] → step s = .next s)

/-- In State.reset power-on reset is asserted, the core has not been released, the queue is empty, every register field has
its Reset value, among them these words: HRV_FLOOR 2000, HRV_CAP 470, PWR_WAKEEN 0xD05, MEM_RGCFG.DEFS 7, DRM_STAT 0x1FFFF,
LNK_POS 0xFFF, PWR_WDCFG 0x100100, PWR_RSTCAUSE 0x20001, CORE_STATUS.PL 2, CORE_EXCCFG 3; LNK_STAT.STATE is 0 (OFF), and the
predicates read 1 for p0 and 0 for the rest. With the I/O groups powered (log entry 67) the balls stand as R442 says: link
transmitters silent, chip selects and TXD pulled up, GPIO pulled down, HVEN low, VCOM 0 V, no common driven, touch pins
grounded. -/
def Obligations.ResetState : Prop :=
  (State.reset.por = true ∧ State.reset.dx.running = false ∧ State.reset.pending = [] ∧ (∀ f : Fld, State.reset.get f = f.rst) ∧
  State.reset.word 0x40001034 = 2000 ∧ State.reset.word 0x40001030 = 470 ∧ State.reset.word 0x40000020 = 0xD05 ∧
  State.reset.get MEM_RGCFG_DEFS = 7 ∧ State.reset.word 0x40004008 = 0x1FFFF ∧ State.reset.word 0x40006004 = 0xFFF ∧
  State.reset.word 0x40000040 = 0x100100 ∧ State.reset.word 0x4000004C = 0x20001 ∧ State.reset.get CORE_STATUS_PL = 2 ∧
  State.reset.word 0x4000208C = 3 ∧ State.reset.get LNK_STAT_STATE = 0 ∧
  ∀ i : Fin 8, pd State.reset i.val = (i.val == 0)) ∧
  (txSilent State.reset = true ∧ (∀ n, csBall State.reset n = .pulled true) ∧ txdBall State.reset = .pulled true ∧
  (∀ n, n < 8 → gpioBall State.reset n = .pulled false) ∧ hvenBall State.reset = .driven false ∧ vcomBall State.reset = 0 ∧
  (∀ h c, comDriven State.reset h c = false) ∧ ∀ n, touchGrounded State.reset n = true)

/-- For every state whose memory lists its cells in canonical form (addresses strictly rising, no listed byte zero), if a step
answers a next state, that state's memory has the form too: equal memories stay equal data, whatever commands wait. -/
def Obligations.MemoryFormKept : Prop :=
  ∀ s t : State, s.memWf = true → step s = .next t → t.memWf = true

/-- State.reset lists no memory cell, so its memory has the canonical form. State.reset meets the invariant HeldInReset speaks
of. -/
def Obligations.InvariantsAtReset : Prop :=
  (State.reset.memWf = true ∧ State.reset.mem = []) ∧
  (State.reset.heldInReset = true)

/-- If power-on reset is asserted, the core stopped with its registers at reset, the link engine OFF, and no POWER_ON_RELEASE
waits in the queue, then after any step that answers a next state all of that still holds. A step of any command but
SUPPLY_LOSS has changed no memory byte, no register field but PWR_RSTCAUSE.SEEN, no fuse and no calendar field; SUPPLY_LOSS
keeps the fuses and the NV array, records cause 1 alone and leaves every other register field at reset, but for the ball
levels in GPIO_IN. -/
def Obligations.HeldInReset : Prop :=
  ∀ s t : State, s.heldInReset = true → step s = .next t →
    t.heldInReset = true ∧ t.dx = s.dx ∧
    (s.pending.head? ≠ some .supplyLoss → t.mem = s.mem ∧ t.sec = s.sec ∧ t.clk = s.clk ∧
      ∀ f : Fld, f.key ≠ PWR_RSTCAUSE_SEEN.key → t.get f = s.get f) ∧
    (s.pending.head? = some .supplyLoss → t.sec.fuses = s.sec.fuses ∧ (∀ a, inNv a = true → t.byte a = s.byte a) ∧
      t.word 0x4000004C = 0x20001 ∧ t.get GPIO_IN_IN = s.get GPIO_IN_IN % 256 ∧
      ∀ f : Fld, f.addr ≠ 0x4000004C → f.key ≠ GPIO_IN_IN.key → t.get f = f.rst)

/-- For ADD, SUB, ADDI, ADDIS, RSUBI, NEG and ABS in either ALU class, in every legal form: alone in its bundle with its
predicate 1, exec answers a next state in which g[D] holds the result of R107, wrapping modulo 2^32 or, with SAT=1 (always for
ADDIS), clamped to the signed 32-bit range under R109; a write of g0 is discarded; no other register, no memory and no other
state changes but the pc, the cycle counter and the model's counter of free values. For AND, ANDI, OR, ORI, XOR, XORI, ANDN,
NOT, SHL, SHLI, SHR, SHRI, SAR, SARI, ROR and RORI in either ALU class, in every legal form: alone in its bundle with its
predicate 1, exec answers a next state in which g[D] holds the result of R107 (SHL saturating with SAT=1), and nothing else
changes but the pc and the counters. -/
def Obligations.AluResults : Prop :=
  (regGives .add aluCls 0x00 (fun s x => if satBit x then satWord ((gA s x).toInt + (gB s x).toInt) else gA s x + gB s x) ∧
  regGives .sub aluCls 0x01 (fun s x => if satBit x then satWord ((gA s x).toInt - (gB s x).toInt) else gA s x - gB s x) ∧
  regGives .addi aluCls 0x02 (fun s x => gA s x + immI x) ∧
  regGives .addis aluCls 0x03 (fun s x => satWord ((gA s x).toInt + (immI x).toInt)) ∧
  regGives .rsubi aluCls 0x04 (fun s x => immI x - gA s x) ∧
  regGives .neg aluCls 0x05 (fun s x => if satBit x then satWord (-(gA s x).toInt) else -(gA s x)) ∧
  regGives .absG aluCls 0x06 (fun s x =>
    if satBit x then satWord (if (gA s x).toInt < 0 then -(gA s x).toInt else (gA s x).toInt)
    else if (gA s x).toInt < 0 then -(gA s x) else gA s x)) ∧
  (regGives .andG aluCls 0x08 (fun s x => gA s x &&& gB s x) ∧
  regGives .andi aluCls 0x09 (fun s x => gA s x &&& immI x) ∧
  regGives .orG aluCls 0x0A (fun s x => gA s x ||| gB s x) ∧
  regGives .ori aluCls 0x0B (fun s x => gA s x ||| immI x) ∧
  regGives .xorG aluCls 0x0C (fun s x => gA s x ^^^ gB s x) ∧
  regGives .xori aluCls 0x0D (fun s x => gA s x ^^^ immI x) ∧
  regGives .andn aluCls 0x0E (fun s x => gA s x &&& ~~~(gB s x)) ∧
  regGives .notG aluCls 0x0F (fun s x => ~~~(gA s x)) ∧
  regGives .shl aluCls 0x10 (fun s x =>
    if satBit x then satWord ((gA s x).toInt * 2 ^ shB s x) else gA s x <<< shB s x) ∧
  regGives .shli aluCls 0x11 (fun s x => gA s x <<< imm9 x) ∧
  regGives .shr aluCls 0x12 (fun s x => gA s x >>> shB s x) ∧
  regGives .shri aluCls 0x13 (fun s x => gA s x >>> imm9 x) ∧
  regGives .sar aluCls 0x14 (fun s x => (gA s x).sshiftRight (shB s x)) ∧
  regGives .sari aluCls 0x15 (fun s x => (gA s x).sshiftRight (imm9 x)) ∧
  regGives .ror aluCls 0x16 (fun s x => (gA s x).rotateRight (shB s x)) ∧
  regGives .rori aluCls 0x17 (fun s x => (gA s x).rotateRight (imm9 x)))

/-- For MIN, MAX, MINU, MAXU, CLZ, XTN, EXTU, EXTS, MOV, MOVI and SEL in either ALU class, in every legal form: alone in its
bundle with its predicate 1, exec answers a next state in which g[D] holds the result of R107 (for CLZ the number n with g[A]
below 2^(32-n) and, when n is below 32, not below 2^(31-n)), and nothing else changes but the pc and the counters. -/
def Obligations.AluSelections : Prop :=
  regGives .minG aluCls 0x18 (fun s x => BitVec.ofInt 32 (min (gA s x).toInt (gB s x).toInt)) ∧
  regGives .maxG aluCls 0x19 (fun s x => BitVec.ofInt 32 (max (gA s x).toInt (gB s x).toInt)) ∧
  regGives .minu aluCls 0x1A (fun s x => BitVec.ofNat 32 (min (gA s x).toNat (gB s x).toNat)) ∧
  regGives .maxu aluCls 0x1B (fun s x => BitVec.ofNat 32 (max (gA s x).toNat (gB s x).toNat)) ∧
  (∀ (s : State) (u : Bool) (x : Syl), s.canIssue (aluCls u) 0x1C x = true → s.guarded x = true →
    ∃ t n, exec (.clz u x) s = .next t ∧ n ≤ 32 ∧ (gA s x).toNat < 2 ^ (32 - n) ∧
      (n < 32 → 2 ^ (31 - n) ≤ (gA s x).toNat) ∧ wroteReg s t x x.d.toNat (BitVec.ofNat 32 n)) ∧
  regGives .xtn aluCls 0x1D (fun s x =>
    if x.mod.toNat % 4 = 0 then ((gA s x).setWidth 8).signExtend 32
    else if x.mod.toNat % 4 = 1 then ((gA s x).setWidth 16).signExtend 32
    else if x.mod.toNat % 4 = 2 then gA s x &&& 0xFF else gA s x &&& 0xFFFF) ∧
  regGives .extu aluCls 0x1E (fun s x => ((gA s x >>> (imm9 x / 16)).setWidth (imm9 x % 16 + 1)).setWidth 32) ∧
  regGives .exts aluCls 0x1F (fun s x => ((gA s x >>> (imm9 x / 16)).setWidth (imm9 x % 16 + 1)).signExtend 32) ∧
  regGives .mov aluCls 0x20 (fun s x => gA s x) ∧
  regGives .movi aluCls 0x21 (fun _ x => immI x) ∧
  regGives .sel aluCls 0x22 (fun s x => if pd s x.mod.toNat then gA s x else gB s x)

/-- For the twelve compares and for PAND, POR, PXOR, PANDN and PNOT in either ALU class, in every legal form: alone in its
bundle with its predicate 1, exec answers a next state in which the predicate named reads the compare's result, combined with
its old value by D[4:3] (R108), or the predicate operation's result (R107); p0 still reads 1; no other predicate, register,
memory or state changes but the pc and the counters. The unsigned immediate forms compare against the sign-extended immediate
taken as unsigned. -/
def Obligations.ComparesAndPredicates : Prop :=
  cmpGives .cmpeq 0x28 (fun s x => gA s x == gB s x) ∧
  cmpGives .cmpne 0x29 (fun s x => gA s x != gB s x) ∧
  cmpGives .cmplt 0x2A (fun s x => (gA s x).slt (gB s x)) ∧
  cmpGives .cmple 0x2B (fun s x => (gA s x).sle (gB s x)) ∧
  cmpGives .cmpltu 0x2C (fun s x => (gA s x).ult (gB s x)) ∧
  cmpGives .cmpleu 0x2D (fun s x => (gA s x).ule (gB s x)) ∧
  cmpGives .cmpeqi 0x30 (fun s x => gA s x == immI x) ∧
  cmpGives .cmpnei 0x31 (fun s x => gA s x != immI x) ∧
  cmpGives .cmplti 0x32 (fun s x => (gA s x).slt (immI x)) ∧
  cmpGives .cmplei 0x33 (fun s x => (gA s x).sle (immI x)) ∧
  cmpGives .cmpltui 0x34 (fun s x => (gA s x).ult (immI x)) ∧
  cmpGives .cmpleui 0x35 (fun s x => (gA s x).ule (immI x)) ∧
  predGives .pand 0x38 (fun a b => a && b) ∧
  predGives .por 0x39 (fun a b => a || b) ∧
  predGives .pxor 0x3A (fun a b => a != b) ∧
  predGives .pandn 0x3B (fun a b => a && !b) ∧
  predGives .pnot 0x3C (fun a _ => !a)

/-- For MUL, MULH, MULHU, MULI and MVAG in either MAC class, in every legal form, alone in its bundle with its predicate 1:
exec answers a next state with g[D] the product's half or the sign-extended guard bits; MVTA, MVTAG and ACLR set acc[D] and
leave the others; MVA writes g[D] with the accumulator shifted right and truncated, clamped to 32 bits in native mode with
SAT=1, and sets SATF exactly when that clamp changed the value. Nothing else changes but the pc and the counters. -/
def Obligations.MultiplyAndMoveAccumulators : Prop :=
  regGives .mul macCls 0x00 (fun s x => gA s x * gB s x) ∧
  regGives .mulh macCls 0x01 (fun s x => BitVec.ofInt 32 ((gA s x).toInt * (gB s x).toInt / 2 ^ 32)) ∧
  regGives .mulhu macCls 0x02 (fun s x => BitVec.ofNat 32 ((gA s x).toNat * (gB s x).toNat / 2 ^ 32)) ∧
  regGives .muli macCls 0x03 (fun s x => gA s x * immI x) ∧
  regGives .mvag macCls 0x11 (fun s x => ((ac s x.a.toNat >>> 32).setWidth 8).signExtend 32) ∧
  accSets .mvta 0x12 (fun s x => (gA s x).signExtend 40) ∧
  accSets .mvtag 0x13 (fun s x => (gA s x).setWidth 8 ++ (ac s x.d.toNat).setWidth 32) ∧
  accSets .aclr 0x14 (fun _ _ => 0) ∧
  (∀ (s : State) (u : Bool) (x : Syl), s.canIssue (macCls u) 0x10 x = true → s.guarded x = true →
    let e := (ac s x.a.toNat).toInt / 2 ^ x.b.toNat
    let clamps := satBit x && !s.on CORE_DSPCFG_GUARD
    ∃ t, exec (.mva u x) s = .next t ∧
      wroteReg { s with regs := t.regs } t x x.d.toNat (if clamps then satWord e else BitVec.ofInt 32 e) ∧
      sticky s t (clamps && out32 e) false)

/-- For MACD, MSUD, MACX, MSUX, MULD, MACW, MSUW, MULW, ASAR, ASHL and AADD in either MAC class, in every legal form, alone in
its bundle with its predicate 1: exec answers a next state in which acc[D] holds bits 39:0 of the exact value of R120, or, in
native mode with SAT=1, the value clamped to 32 bits and sign-extended; SATF is set exactly when the clamp changed it and
OVF40 exactly when an unclamped value does not fit 40 bits (that a clamped value sets no OVF40 is the model's reading, log
entry 31); nothing else changes but the pc and the counters. -/
def Obligations.Accumulate : Prop :=
  accGives .macd 0x08 (fun s x => (ac s x.d.toNat).toInt + (lo16 (gA s x) * lo16 (gB s x) + hi16 (gA s x) * hi16 (gB s x))) ∧
  accGives .msud 0x09 (fun s x => (ac s x.d.toNat).toInt - (lo16 (gA s x) * lo16 (gB s x) + hi16 (gA s x) * hi16 (gB s x))) ∧
  accGives .macx 0x0A (fun s x => (ac s x.d.toNat).toInt + (lo16 (gA s x) * hi16 (gB s x) + hi16 (gA s x) * lo16 (gB s x))) ∧
  accGives .msux 0x0B (fun s x => (ac s x.d.toNat).toInt - (lo16 (gA s x) * hi16 (gB s x) + hi16 (gA s x) * lo16 (gB s x))) ∧
  accGives .muld 0x0C (fun s x => lo16 (gA s x) * lo16 (gB s x) + hi16 (gA s x) * hi16 (gB s x)) ∧
  accGives .macw 0x0D (fun s x => (ac s x.d.toNat).toInt + (gA s x).toInt * (gB s x).toInt) ∧
  accGives .msuw 0x0E (fun s x => (ac s x.d.toNat).toInt - (gA s x).toInt * (gB s x).toInt) ∧
  accGives .mulw 0x0F (fun s x => (gA s x).toInt * (gB s x).toInt) ∧
  accGives .asar 0x15 (fun s x => (ac s x.a.toNat).toInt / 2 ^ x.b.toNat) ∧
  accGives .ashl 0x16 (fun s x => (ac s x.a.toNat).toInt * 2 ^ x.b.toNat) ∧
  accGives .aadd 0x17 (fun s x => (ac s x.a.toNat).toInt + (ac s x.b.toNat).toInt)

/-- For every load row (LDB to LDD in forms I, X and P) in every legal form, alone in its bundle with its predicate 1, at an
aligned SRAM address the guard allows: exec answers a next state with the value in flight for g[D] (R98), read little-endian
and extended by its kind, the pair for a double word; the base register updated where the mode says, at the bundle's
completion; no other register; every byte of memory as before; only the conflict counter of the core may move among the
register fields. -/
def Obligations.LoadsDeliver : Prop :=
  ∀ (s : State) (i : Instr) (op : Nat) (x : Syl) (l : Lsu) (p : Axs), coreSyl i = some (2, op, x) → lsuOp op = some l →
    l.load = true → s.canIssue 2 op x = true → s.guarded x = true → accOf s (only 2 op x) = some p → p.addr % l.size = 0 →
    inSram p.addr = true → accGuard s p = .ok →
    ∃ t, exec i s = .next t ∧
      t.dx.loads =
        (if l.size = 8 then [(x.d.toNat, s.rd p.addr 4), (x.d.toNat + 1, s.rd (p.addr + 4) 4)]
         else [(x.d.toNat, if l.sx then ((BitVec.ofNat (8 * l.size) (s.rd p.addr l.size)).signExtend 32).toNat
                           else s.rd p.addr l.size)]) ∧
      (∀ r, r < 32 → rd t r =
        match (lsuAddr s (only 2 op x) l).2 with
        | some b => if r = x.a.toNat ∧ r ≠ 0 then b else rd s r
        | none => rd s r) ∧
      t.dx.pc = s.nextPc x ∧ (∀ a, t.byte a = s.byte a) ∧
      (∀ f : Fld, f.key ≠ (MEM_CONF_COUNT 0).key → t.get f = s.get f) ∧
      { t with
        free := s.free, regs := s.regs
        dx := { t.dx with g := s.dx.g, loads := s.dx.loads, pc := s.dx.pc, cyc := s.dx.cyc, deferred := s.dx.deferred } } = s

/-- For every store row (STB to STD and SATST in forms I, X and P) in every legal form, alone in its bundle with its predicate
1, at an aligned address the guard allows: with STBUF=1 and an address outside the CORE_ page exec answers a next state whose
store buffer holds the store and whose memory is unchanged; a word store to a CORE_CBASE register has left the buffer for that
register when the next bundle issues; with STBUF=0 and an SRAM address, a next state in which the form's bytes at that address
hold the value little-endian and every other address reads as before. The base register is updated where the mode says; no
other register changes. -/
def Obligations.StoresReach : Prop :=
  (∀ (s : State) (i : Instr) (op : Nat) (x : Syl) (l : Lsu) (p : Axs), coreSyl i = some (2, op, x) → lsuOp op = some l →
    l.load = false → s.canIssue 2 op x = true → s.guarded x = true → accOf s (only 2 op x) = some p → p.addr % l.size = 0 →
    accGuard s p = .ok → (s.on CORE_EXCCFG_STBUF = true ∧ mirror p.addr = false ∨ inSram p.addr = true) →
    ∃ t, exec i s = .next t ∧
      (s.on CORE_EXCCFG_STBUF = true → t.dx.stores =
          [⟨p.addr, l.size, p.val, if inSet p.addr then 1 else if inClr p.addr then 2 else 0, coreTag s⟩] ∧
        ∀ a, t.byte a = s.byte a) ∧
      (s.on CORE_EXCCFG_STBUF = false → t.dx.stores = [] ∧
        ∀ a, t.byte a = if p.addr ≤ a ∧ a < p.addr + l.size then BitVec.ofNat 8 (p.val / 2 ^ (8 * (a - p.addr))) else s.byte a) ∧
      (∀ r, r < 32 → rd t r =
        match (lsuAddr s (only 2 op x) l).2 with
        | some b => if r = x.a.toNat ∧ r ≠ 0 then b else rd s r
        | none => rd s r) ∧
      (∀ k, pd t k = pd s k) ∧ (∀ k, ac t k = ac s k) ∧ t.dx.pc = s.nextPc x ∧ t.dx.loads = []) ∧
  (∀ (s : State) (i : Instr) (op : Nat) (x : Syl) (l : Lsu) (p : Axs) (k : Nat), coreSyl i = some (2, op, x) →
    lsuOp op = some l → l.load = false → l.sat = false → l.size = 4 → s.canIssue 2 op x = true → s.guarded x = true →
    accOf s (only 2 op x) = some p → k < 4 → p.addr = 0x40002220 + 4 * k → accGuard s p = .ok → s.on CORE_EXCCFG_STBUF = true →
    ∃ t, exec i s = .next t ∧ t.dx.stores = [] ∧ t.get (CORE_CBASE_BASE k) = p.val % 2 ^ 32 ∧
      (∀ f : Fld, f.key ≠ (CORE_CBASE_BASE k).key → t.get f = s.get f) ∧ (∀ a, t.byte a = s.byte a) ∧ t.dx.pc = s.nextPc x)

/-- For SATST, SATSTX and SATSTP in every legal form, alone in its bundle with its predicate 1 and STBUF=1, at an aligned
address the guard allows outside the CORE_ page, in native and in forerunner mode: the word that enters the store buffer is
0x7FFFFFFF when the 40-bit signed value of acc[D[1:0]] exceeds 2^31 - 1, 0x80000000 when it is below -2^31, else its bits
31:0; the accumulators are unchanged, and SATF is set exactly when the word was clamped. -/
def Obligations.SatstStoresTheClampedWord : Prop :=
  ∀ (s : State) (i : Instr) (op : Nat) (x : Syl) (p : Axs), coreSyl i = some (2, op, x) → op ∈ [0x24, 0x25, 0x26] →
    s.canIssue 2 op x = true → s.guarded x = true → accOf s (only 2 op x) = some p → p.addr % 4 = 0 → accGuard s p = .ok →
    s.on CORE_EXCCFG_STBUF = true → mirror p.addr = false →
    let v := (ac s x.d.toNat).toInt
    ∃ t b, exec i s = .next t ∧ t.dx.stores = [b] ∧ b.addr = p.addr ∧ b.size = 4 ∧
      b.val = (if 2 ^ 31 - 1 < v then 0x7FFFFFFF else if v < -(2 ^ 31) then 0x80000000 else (ac s x.d.toNat).toNat % 2 ^ 32) ∧
      (∀ k, ac t k = ac s k) ∧ sticky s t (out32 v) false

/-- Alone in its bundle with its predicate 1, over areas of banks 0 and 1 that the guard allows: LOADM leaves g[D] to g[B]
with the ascending words from g[A] (g0 apart) and memory unchanged; SAVEM with STBUF=0 leaves those words with the registers
and every other byte as before; both add 4 x (B - D + 1) to g[A] with MOD[0]=1 (SAVEM whatever the list, LOADM when the base
is not in it); BMOV with STBUF=0 and areas that do not overlap copies count bytes and no others, advances g[A] and g[D] by the
count and clears g[B]; FENCE with nothing buffered changes only the pc and the counters. -/
def Obligations.LongInstructionsMoveWords : Prop :=
  (∀ (s : State) (x : Syl), s.canIssue 2 0x31 x = true → s.guarded x = true →
    let a := (gA s x).toNat
    let n := x.b.toNat + 1 - x.d.toNat
    a % 4 = 0 → 0x10000000 ≤ a → a + 4 * n ≤ 0x10200000 → (∀ k, k < n → access s .core (coreTag s) (a + 4 * k) 4 0 0 = .ok) →
    ∃ t, exec (.loadm x) s = .next t ∧
      (∀ k, k < n → x.d.toNat + k ≠ 0 → rd t (x.d.toNat + k) = BitVec.ofNat 32 (s.rd (a + 4 * k) 4)) ∧
      (∀ r, r < 32 → (r < x.d.toNat ∨ x.b.toNat < r) → rd t r =
        if r = x.a.toNat ∧ r ≠ 0 ∧ x.mod = 1 then gA s x + BitVec.ofNat 32 (4 * n) else rd s r) ∧
      t.dx.pc = s.nextPc x ∧ (∀ c, t.byte c = s.byte c) ∧ sameRegs [] s t) ∧
  (∀ (s : State) (x : Syl), s.canIssue 2 0x30 x = true → s.guarded x = true → s.on CORE_EXCCFG_STBUF = false →
    let a := (gA s x).toNat
    let n := x.b.toNat + 1 - x.d.toNat
    a % 4 = 0 → 0x10000000 ≤ a → a + 4 * n ≤ 0x10200000 →
    (∀ k v, k < n → access s .core (coreTag s) (a + 4 * k) 4 1 v = .ok) →
    ∃ t, exec (.savem x) s = .next t ∧ (∀ k, k < n → t.rd (a + 4 * k) 4 = (rd s (x.d.toNat + k)).toNat) ∧
      (∀ c, (c < a ∨ a + 4 * n ≤ c) → t.byte c = s.byte c) ∧
      (∀ r, r < 32 → rd t r = if r = x.a.toNat ∧ r ≠ 0 ∧ x.mod = 1 then gA s x + BitVec.ofNat 32 (4 * n) else rd s r) ∧
      t.dx.pc = s.nextPc x ∧ sameRegs [] s t) ∧
  (∀ (s : State) (x : Syl), s.canIssue 2 0x32 x = true → s.guarded x = true → s.on CORE_EXCCFG_STBUF = false →
    let a := (gA s x).toNat
    let d := (rd s x.d.toNat).toNat
    let c := (gB s x).toNat % 65536
    0x10000000 ≤ a → a + c ≤ 0x10200000 → 0x10000000 ≤ d → d + c ≤ 0x10200000 → (a + c ≤ d ∨ d + c ≤ a) →
    (∀ k, k < c → access s .core (coreTag s) (a + k) 1 0 0 = .ok) →
    (∀ k v, k < c → access s .core (coreTag s) (d + k) 1 1 v = .ok) →
    ∃ t, exec (.bmov x) s = .next t ∧ (∀ k, k < c → t.byte (d + k) = s.byte (a + k)) ∧
      (∀ k, (k < d ∨ d + c ≤ k) → t.byte k = s.byte k) ∧ rd t x.a.toNat = gA s x + BitVec.ofNat 32 c ∧
      rd t x.d.toNat = rd s x.d.toNat + BitVec.ofNat 32 c ∧ rd t x.b.toNat = 0 ∧
      (∀ r, r < 32 → r ≠ x.a.toNat → r ≠ x.b.toNat → r ≠ x.d.toNat → rd t r = rd s r) ∧ t.dx.pc = s.nextPc x ∧ sameRegs [] s t) ∧
  (∀ (s : State) (x : Syl), s.canIssue 2 0x38 x = true → s.guarded x = true →
    ∃ t, exec (.fence x) s = .next t ∧ wroteReg s t x 0 0)

/-- Alone in its bundle with its predicate 1 and EL=0: CALL and CALLR, unless DEPTH is 16 with OVF=0, step TOP, write the
address of the bundle that follows into that entry, raise DEPTH to at most 16 and go to their aligned target; RET, unless
DEPTH is 0 with OVF=0, goes to the entry at TOP, steps TOP back and lowers DEPTH to at least 0; in the two excepted cases the
entry at slot 6 or 7 is taken and TOP, DEPTH and every entry keep their values. DEPTH is read as at most 16. -/
def Obligations.CallAndReturnStack : Prop :=
  (∀ (s : State) (i : Instr) (op : Nat) (x : Syl), coreSyl i = some (5, op, x) → (op = 2 ∨ op = 3) →
    s.canIssue 5 op x = true → s.guarded x = true → target s s.dx.pc (only 5 op x) % 4 = 0 →
    (rsDepth s = 16 → s.on CORE_RSCFG_OVF = true) →
    ∃ t, exec i s = .next t ∧ t.get CORE_RSP_TOP = (s.get CORE_RSP_TOP + 1) % 16 ∧
      t.get (CORE_RSW_ADDR ((s.get CORE_RSP_TOP + 1) % 16)) = s.nextPc x / 4 ∧
      t.get CORE_RSP_DEPTH = min (rsDepth s + 1) 16 ∧ t.dx.pc = target s s.dx.pc (only 5 op x) % 2 ^ 32 ∧
      (∀ k, k < 16 → k ≠ (s.get CORE_RSP_TOP + 1) % 16 → t.get (CORE_RSW_ADDR k) = s.get (CORE_RSW_ADDR k)) ∧
      (∀ r, r < 32 → rd t r = rd s r) ∧ (∀ a, t.byte a = s.byte a)) ∧
  (∀ (s : State) (x : Syl), s.canIssue 5 4 x = true → s.guarded x = true → (rsDepth s = 0 → s.on CORE_RSCFG_OVF = true) →
    ∃ t, exec (.ret x) s = .next t ∧ t.dx.pc = s.get (CORE_RSW_ADDR (s.get CORE_RSP_TOP)) * 4 % 2 ^ 32 ∧
      t.get CORE_RSP_TOP = (s.get CORE_RSP_TOP + 15) % 16 ∧ t.get CORE_RSP_DEPTH = rsDepth s - 1 ∧
      (∀ k, k < 16 → t.get (CORE_RSW_ADDR k) = s.get (CORE_RSW_ADDR k)) ∧ (∀ r, r < 32 → rd t r = rd s r) ∧
      (∀ a, t.byte a = s.byte a)) ∧
  (∀ (s : State) (i : Instr) (op : Nat) (x : Syl), coreSyl i = some (5, op, x) → (op = 2 ∨ op = 3 ∨ op = 4) →
    s.canIssue 5 op x = true → s.guarded x = true → (op ≠ 4 → target s s.dx.pc (only 5 op x) % 4 = 0) →
    rsDepth s = (if op = 4 then 0 else 16) → s.on CORE_RSCFG_OVF = false → s.on CORE_STATUS_EL = false →
    ∃ t, exec i s = .next t ∧
      entered s t (if op = 4 then 7 else 6) s.dx.pc 0 (handleLevel s (if op = 4 then 7 else 6)) none (s.get CORE_STATUS_THR) ∧
      t.get CORE_RSP_TOP = s.get CORE_RSP_TOP ∧ t.get CORE_RSP_DEPTH = s.get CORE_RSP_DEPTH ∧
      (∀ k, k < 16 → t.get (CORE_RSW_ADDR k) = s.get (CORE_RSW_ADDR k)) ∧ (∀ r, r < 32 → rd t r = rd s r))

/-- Alone in its bundle with its predicate 1: BR and BRR with an aligned target make it the next address and change nothing
else; RETE at M, or at S with PPL not M, sets PL to PPL (0b11 acting as M), IE to PIE, THR to PTHR and EL to 0, goes to
CORE_EPC, and takes up the shadow record, the progress and the repeat that stand; TRAP #n with EL=0 enters slot 64 + n with
CORE_EPC at the next bundle, at S when n is below 32 and the level is not M, else at M. General registers and memory keep
their values. -/
def Obligations.BranchesReturnsAndTraps : Prop :=
  (∀ (s : State) (i : Instr) (op : Nat) (x : Syl), coreSyl i = some (5, op, x) → op < 2 →
    s.canIssue 5 op x = true → s.guarded x = true → target s s.dx.pc (only 5 op x) % 4 = 0 →
    ∃ t, exec i s = .next t ∧ t.dx.pc = target s s.dx.pc (only 5 op x) % 2 ^ 32 ∧
      { t with free := s.free, dx := { t.dx with pc := s.dx.pc, cyc := s.dx.cyc, deferred := s.dx.deferred } } = s) ∧
  (∀ (s : State) (x : Syl), s.canIssue 5 5 x = true → s.guarded x = true → 1 ≤ coreLvl s →
    (coreLvl s = 1 → s.get CORE_STATUS_PPL < 2) →
    ∃ t, exec (.rete x) s = .next t ∧ t.get CORE_STATUS_PL = min (s.get CORE_STATUS_PPL) 2 ∧
      t.get CORE_STATUS_IE = s.get CORE_STATUS_PIE % 2 ∧ t.get CORE_STATUS_THR = s.get CORE_STATUS_PTHR % 16 ∧
      t.get CORE_STATUS_EL = 0 ∧ t.dx.pc = s.get CORE_EPC_ADDR * 4 ∧ t.dx.armShadow = s.on CORE_LSHAD_VALID ∧
      t.dx.armProg = s.on CORE_PROG_VALID ∧
      t.dx.rep = (if s.on CORE_REPST_VALID then some ⟨min (s.get CORE_REPST_REMAIN) 1024, s.get CORE_EPC_ADDR * 4, 1⟩ else none) ∧
      t.dx.g = s.dx.g ∧ t.dx.acc = s.dx.acc ∧ (∀ k, pd t k = pd s k) ∧ (∀ a, t.byte a = s.byte a) ∧ sameRegs [2] s t) ∧
  (∀ (s : State) (x : Syl), s.canIssue 5 6 x = true → s.guarded x = true → s.on CORE_STATUS_EL = false →
    ∃ t, exec (.trap x) s = .next t ∧
      entered s t (64 + imm19 x) (s.nextPc x) 0 (if imm19 x < 32 ∧ coreLvl s < 2 then 1 else 2) none (s.get CORE_STATUS_THR) ∧
      t.dx.g = s.dx.g ∧ t.dx.acc = s.dx.acc ∧ (∀ k, pd t k = pd s k) ∧ (∀ a, t.byte a = s.byte a) ∧ sameRegs [2] s t)

/-- Alone in its bundle with its predicate 1, at a level the register allows, and no custom instruction holding writes back:
MVFS of a register without read effects (CYCLO, IRQPEND and the microstore data words have their own statements) writes g[D]
with its present fields and changes nothing else; MVTS to a register of the datapath, the return stack, the shadow record or
the handlers' words (numbers 0x01, 0x04 to 0x07, 0x10 to 0x1F, 0x21, 0x23, 0x24, 0x27 to 0x2B, 0x32, 0x33, 0x80 to 0x82, 0x88
to 0x8F, 0x92, 0x95, 0x98 to 0x9B) leaves exactly the register fields that a write of g[A] by R10 leaves, and no general
register or memory changes. MVTS to a read-only register, and to CORE_SWRST with any value but 0x5A3C, has no effect. To
CORE_STATUS it writes IE, EL, PIE, THR and PTHR, so that a 0 in bit 3 clears EL, and PPL, but from S no value that acts as M
(0b10, or 0b11, which acts as 0b10); PL stays. To CORE_UCFG and CORE_DBLF each field follows its access code. From S, IRQEN
and the IRQPRI words change only for delegated lines. A decode-table entry is written and GEN steps with LOCK=0, and stays
with LOCK=1. No other field changes. -/
def Obligations.SpecialRegisterMoves : Prop :=
  (∀ (s : State) (x : Syl), s.canIssue 6 0x10 x = true → s.guarded x = true →
    (∃ l, coreLevel (imm9 x) false = some l ∧ l ≤ coreLvl s) → imm9 x ∉ [0x02, 0x31, 0x93, 0x94] →
    ∃ t, exec (.mvfs x) s = .next t ∧
      wroteReg s t x x.d.toNat (BitVec.ofNat 32 (readFields s (0x40002000 + 4 * imm9 x)))) ∧
  (∀ (s : State) (x : Syl), s.canIssue 6 0x11 x = true → s.guarded x = true →
    (∃ l, coreLevel (imm9 x) true = some l ∧ l ≤ coreLvl s) →
    imm9 x ∈ [0x01, 0x04, 0x05, 0x06, 0x07, 0x10, 0x11, 0x12, 0x13, 0x14, 0x15, 0x16, 0x17, 0x18, 0x19, 0x1A, 0x1B, 0x1C, 0x1D,
      0x1E, 0x1F, 0x21, 0x23, 0x24, 0x27, 0x28, 0x29, 0x2A, 0x2B, 0x32, 0x33, 0x80, 0x81, 0x82, 0x88, 0x89, 0x8A, 0x8B, 0x8C, 0x8D,
      0x8E, 0x8F, 0x92, 0x95, 0x98, 0x99, 0x9A, 0x9B] →
    ∃ t, exec (.mvts x) s = .next t ∧ t.regs = (writeFields s (0x40002000 + 4 * imm9 x) (gA s x).toNat false).regs ∧
      t.dx.pc = s.nextPc x ∧ t.dx.g = s.dx.g ∧ t.dx.acc = s.dx.acc ∧ (∀ a, t.byte a = s.byte a)) ∧
  (∀ (s : State) (x : Syl), s.canIssue 6 0x11 x = true → s.guarded x = true →
    (coreLevel (imm9 x) true = some 3 ∨ imm9 x = 0x2C ∧ coreLvl s = 2 ∧ (gA s x).toNat % 65536 ≠ 0x5A3C) →
    ∃ t, exec (.mvts x) s = .next t ∧ wroteReg s t x 0 0) ∧
  (∀ (s : State) (x : Syl), s.canIssue 6 0x11 x = true → s.guarded x = true →
    (∃ l, coreLevel (imm9 x) true = some l ∧ l ≤ coreLvl s) →
    imm9 x ∈ [0x20, 0x2D, 0x30, 0x34, 0x35, 0x36, 0x37, 0x90, 0xA0, 0xA1, 0xA2, 0xA3, 0xA4, 0xA5, 0xA6, 0xA7, 0xA8, 0xA9, 0xAA, 0xAB,
      0xAC, 0xAD, 0xAE, 0xAF] →
    let k := imm9 x
    let v := (gA s x).toNat
    let own := fun n => coreLvl s == 2 || s.bit CORE_IRQDLG_LINES n
    ∃ t, exec (.mvts x) s = .next t ∧ wroteRegs s t x ∧
      (∀ f : Fld, f.addr ≠ 0x40002000 + 4 * k → f.key ≠ CORE_UCFG_GEN.key → t.get f = s.get f) ∧
      (k = 0x20 → t.get CORE_STATUS_PL = s.get CORE_STATUS_PL ∧ t.get CORE_STATUS_IE = v / 4 % 2 ∧ t.get CORE_STATUS_EL = v / 8 % 2 ∧
        t.get CORE_STATUS_PIE = v / 64 % 2 ∧ t.get CORE_STATUS_THR = v / 128 % 16 ∧ t.get CORE_STATUS_PTHR = v / 2048 % 16 ∧
        t.get CORE_STATUS_PPL = (if coreLvl s = 1 ∧ 2 ≤ v / 16 % 4 then s.get CORE_STATUS_PPL else v / 16 % 4)) ∧
      (k = 0x2D ∨ k = 0x90 → ∀ f ∈ fieldsAt (0x40002000 + 4 * k), t.get f = fieldAfter s false v f) ∧
      (k = 0x30 → ∀ n, n < 32 → t.bit CORE_IRQEN_LINES n = if own n then bitOf v n else s.bit CORE_IRQEN_LINES n) ∧
      (∀ j, k = 0x34 + j → j < 4 → ∀ n, n < 8 → t.get (CORE_IRQPRI_PRI j n) =
        if own (8 * j + n) then v / 2 ^ (4 * n) % 8 else s.get (CORE_IRQPRI_PRI j n)) ∧
      (∀ n, k = 0xA0 + n → n < 16 → ∀ f ∈ fieldsAt (0x40002000 + 4 * k), t.get f = fieldAfter s (s.on CORE_UCFG_LOCK) v f) ∧
      t.get CORE_UCFG_GEN = (s.get CORE_UCFG_GEN + b2n (decide (0xA0 ≤ k) && !s.on CORE_UCFG_LOCK)) % 256)

/-- Alone in its bundle with its predicate 1: SLEEP at M or S, with no level transition, no waiting request, no reset that
waits and no wake event pending, puts the core in Chalk at once or starts the handshake for Slate, Granite or Basalt, clearing
the agents' codes and changing no other register page, general register or memory; with an enabled source but LNKACT latched
already the entry is aborted at A0, whether or not the source acts in the target state; REP and REPR arm a repeat of the next
bundle, IMM19[9:0] + 1 or g[A][9:0] times; CUSTOM with a valid entry it may run, whose first microword ends it and loads a
temporary with its immediate, writes that temporary and goes on with the next bundle, other core state and memory unchanged. -/
def Obligations.SleepRepeatAndCustom : Prop :=
  (∀ (s : State) (x : Syl), s.canIssue 6 0x12 x = true → s.guarded x = true → 1 ≤ coreLvl s →
    s.on PWR_LVLSTAT_BUSY = false → s.pwr.lvlQueue = none → s.pwr.pendReset = none →
    s.get PWR_WAKESRC_SRC = 0 → s.get CORE_IRQEN_LINES = 0 →
    ∃ t, exec (.sleep x) s = .next t ∧
      (imm19 x = 0 → t.get PWR_DOMSTAT_STATE = 1 ∧ t.get PWR_DOMSTAT_SYS = 3 ∧ t.pwr.entry = none ∧ t.get PWR_STAT_REACHED = 1) ∧
      (imm19 x ≠ 0 → t.pwr.entry = some ⟨imm19 x, false, false, 0, false⟩ ∧
        t.pwr.keepLat = (if imm19 x = 1 then 0xFFFF else s.get PWR_KEEPSEG_KEEP)) ∧
      (∀ k, k < 8 → t.get (PWR_NAKRSN0_AG k) = 0) ∧ t.get PWR_NAKRSN1_AG8 = 0 ∧ t.get PWR_NAKRSN1_AG9 = 0 ∧
      t.dx.pc = s.nextPc x ∧ t.dx.g = s.dx.g ∧ (∀ a, t.byte a = s.byte a) ∧ sameRegs [0] s t) ∧
  (∀ (s : State) (x : Syl), s.canIssue 6 0x12 x = true → s.guarded x = true → 1 ≤ coreLvl s →
    s.on PWR_LVLSTAT_BUSY = false → s.pwr.lvlQueue = none → s.pwr.pendReset = none → s.pwr.withheld = false →
    (∃ k, 1 ≤ k ∧ k ≤ 11 ∧ s.bit PWR_WAKESRC_SRC k = true ∧ bitOf (wakeEn s) k = true) →
    ∃ t, exec (.sleep x) s = .next t ∧ t.pwr.entry = none ∧ t.get PWR_STAT_ABORTED = 1 ∧ t.get PWR_STAT_ABTPT = 0 ∧
      t.get PWR_STAT_REACHED = 0 ∧ t.get PWR_DOMSTAT_STATE = s.get PWR_DOMSTAT_STATE ∧
      t.dx.pc = s.nextPc x ∧ t.dx.g = s.dx.g ∧ (∀ a, t.byte a = s.byte a) ∧ sameRegs [0] s t) ∧
  (∀ (s : State) (i : Instr) (op : Nat) (x : Syl), coreSyl i = some (6, op, x) → (op = 0x13 ∨ op = 0x14) →
    s.canIssue 6 op x = true → s.guarded x = true →
    ∃ t, exec i s = .next t ∧
      t.dx.rep = some ⟨if op = 0x13 then imm19 x + 1 else (gA s x).toNat % 1024, s.dx.pc, 0⟩ ∧ t.dx.pc = s.nextPc x ∧
      { t with
        free := s.free
        dx := { t.dx with rep := s.dx.rep, pc := s.dx.pc, cyc := s.dx.cyc, deferred := s.dx.deferred } } = s) ∧
  (∀ (s : State) (n : Nat) (x : Syl) (k imm : Nat), n < 16 → k < 4 → imm < 512 →
    s.canIssue 6 n x = true → s.guarded x = true → s.on (CORE_DTE_VALID n) = true → s.get (CORE_DTE_PRIV n) ≤ coreLvl s →
    Sparse.look 0 s.dx.ustore (s.get (CORE_DTE_ENTRY n)) = 2 ^ 24 + k * 2 ^ 22 + 5 * 2 ^ 17 + imm * 2 ^ 7 →
    s.dx.uBad = [] →
    ∃ t, exec (.custom n x) s = .next t ∧ t.get (CORE_UT_VALUE k) = imm ∧ t.dx.pc = s.nextPc x ∧ t.dx.g = s.dx.g ∧
      t.dx.acc = s.dx.acc ∧ (∀ f : Fld, f.key ≠ (CORE_UT_VALUE k).key → t.get f = s.get f) ∧ (∀ a, t.byte a = s.byte a))

/-- For every syllable row in every legal form, alone in its bundle with its predicate 0 and not REP or REPR: exec answers a
next state that differs only in the pc, which moves to the next bundle, the cycle counter and the model's counter of free
values: no register is written, no access made, no exception raised. -/
def Obligations.FalsePredicateHasNoEffect : Prop :=
  ∀ (s : State) (i : Instr) (cls op : Nat) (x : Syl), coreSyl i = some (cls, op, x) → s.canIssue cls op x = true →
    s.guarded x = false → ¬(cls = 6 ∧ (op = 0x13 ∨ op = 0x14)) →
    ∃ t, exec i s = .next t ∧ t.dx.pc = s.nextPc x ∧
      { t with free := s.free, dx := { t.dx with pc := s.dx.pc, cyc := s.dx.cyc, deferred := s.dx.deferred } } = s

/-- A MOV of ALU0 that does not stop its bundle only joins it. The MOV of ALU1 that follows and stops it runs both: each
destination holds what its source held before the bundle, so that two MOVs can swap registers; where both name the same
destination, the later syllable's value stands; g0 stays 0; every other register and all memory keep their values, and the pc
moves past both words. -/
def Obligations.BundleReadsBeforeItWrites : Prop :=
  ∀ (s : State) (x y : Syl), s.canIssue 1 0x20 y = true → x.stop = false → x.limm = none → aluLegal 0x20 x = true →
    s.guarded x = true → s.guarded y = true → s.dx.pc + 8 ≤ 0x10200000 → (fetchRefused s s.dx.pc 2).isNone = true →
    ∃ u t, exec (.mov false x) s = .next u ∧ u.dx.bundle = [⟨0, 0x20, x⟩] ∧ u.dx.g = s.dx.g ∧ u.dx.pc = s.dx.pc ∧
      exec (.mov true y) u = .next t ∧
      (∀ r, 0 < r → r < 32 → rd t r = if r = y.d.toNat then gA s y else if r = x.d.toNat then gA s x else rd s r) ∧
      rd t 0 = 0 ∧ t.dx.pc = s.dx.pc + 8 ∧ t.dx.bundle = [] ∧ (∀ a, t.byte a = s.byte a) ∧ sameRegs [] s t

/-- With one load in flight for g[d] and no asynchronous entry to take, a MOV alone in the next bundle reads the old contents
of g[d]; at its completion g[d] holds the loaded value, even where the MOV wrote g[d] itself, and nothing is in flight any
more. No other register and no memory changes. -/
def Obligations.LoadLandsOneBundleLater : Prop :=
  ∀ (s : State) (u : Bool) (x : Syl) (d v : Nat), 0 < d → d < 32 → v < 2 ^ 32 → s.dx.loads = [(d, v)] →
    ({ s with dx := { s.dx with loads := [] } } : State).canIssue (aluCls u) 0x20 x = true → s.guarded x = true →
    ∃ t, exec (.mov u x) s = .next t ∧ rd t d = BitVec.ofNat 32 v ∧
      (∀ r, 0 < r → r < 32 → r ≠ d → rd t r = if r = x.d.toNat then gA s x else rd s r) ∧ t.dx.loads = [] ∧
      t.dx.pc = s.nextPc x ∧ (∀ a, t.byte a = s.byte a) ∧ sameRegs [] s t

/-- For every count: with a repeat armed, an ADDI of a register other than g0 into itself, alone in the repeated bundle with
its predicate 1, leaves that register at its old value plus count times the immediate, ends the repeat, moves to the next
bundle, and changes no other register and no memory; a count of 0 skips it. -/
def Obligations.RepeatedBundleRuns : Prop :=
  ∀ (s : State) (u : Bool) (x : Syl) (n e : Nat), ({ s with dx := { s.dx with rep := none } } : State).canIssue (aluCls u) 0x02 x = true →
    s.dx.rep = some ⟨n, e, 0⟩ → s.guarded x = true → x.a = x.d → x.d ≠ 0 →
    ∃ t, exec (.addi u x) s = .next t ∧ rd t x.d.toNat = gA s x + BitVec.ofNat 32 n * immI x ∧ t.dx.rep = none ∧
      (∀ r, r < 32 → r ≠ x.d.toNat → rd t r = rd s r) ∧ t.dx.pc = s.nextPc x ∧ (∀ a, t.byte a = s.byte a) ∧ sameRegs [] s t

/-- With EL=0 and the syllable alone in its bundle: for every syllable row, a form that is illegal enters slot 3 whatever its
predicate; with its predicate 1, SLEEP at U, RETE at U or at S with PPL=0b10 (or 0b11, which acts as it), MVFS or MVTS of a
register whose level is above the core's, and CUSTOM with a valid entry below its PRIV enter slot 4; a load or store with its
predicate 1 at an address not aligned to its size enters slot 5 with CORE_FADDR at that address. Each entry is as R151 lays
down with CORE_EPC at the bundle, and no general register, predicate, accumulator or memory changes. -/
def Obligations.PreciseExceptionsAreTaken : Prop :=
  (∀ (s : State) (i : Instr) (cls op : Nat) (x : Syl), coreSyl i = some (cls, op, x) → s.canFetch x = true →
    sylLegal cls op x = false → s.on CORE_STATUS_EL = false →
    ∃ t, exec i s = .next t ∧ entered s t 3 s.dx.pc 0 (handleLevel s 3) none (s.get CORE_STATUS_THR) ∧
      t.dx.g = s.dx.g ∧ t.dx.acc = s.dx.acc ∧ (∀ k, pd t k = pd s k) ∧ (∀ a, t.byte a = s.byte a) ∧ sameRegs [2] s t) ∧
  (∀ (s : State) (x : Syl), s.canIssue 6 0x12 x = true → s.guarded x = true → coreLvl s = 0 → s.on CORE_STATUS_EL = false →
    ∃ t, exec (.sleep x) s = .next t ∧ entered s t 4 s.dx.pc 0 (handleLevel s 4) none (s.get CORE_STATUS_THR) ∧
      t.dx.g = s.dx.g ∧ t.dx.acc = s.dx.acc ∧ (∀ k, pd t k = pd s k) ∧ t.pwr = s.pwr ∧ (∀ a, t.byte a = s.byte a) ∧ sameRegs [2] s t) ∧
  (∀ (s : State) (i : Instr) (cls op : Nat) (x : Syl), coreSyl i = some (cls, op, x) → s.canIssue cls op x = true →
    s.guarded x = true → s.on CORE_STATUS_EL = false →
    ((cls = 5 ∧ op = 5 ∧ (coreLvl s = 0 ∨ coreLvl s = 1 ∧ 2 ≤ s.get CORE_STATUS_PPL)) ∨
      (cls = 6 ∧ (op = 0x10 ∨ op = 0x11) ∧
        ∃ k, coreLevel (imm9 x) (op == 0x11) = some k ∧ k ≠ 3 ∧ coreLvl s < k) ∨
      (cls = 6 ∧ op < 16 ∧ s.on (CORE_DTE_VALID op) = true ∧ s.get (CORE_DTE_PRIV op) ≤ 2 ∧ coreLvl s < s.get (CORE_DTE_PRIV op))) →
    ∃ t, exec i s = .next t ∧ entered s t 4 s.dx.pc 0 (handleLevel s 4) none (s.get CORE_STATUS_THR) ∧
      t.dx.g = s.dx.g ∧ t.dx.acc = s.dx.acc ∧ (∀ k, pd t k = pd s k) ∧ t.pwr = s.pwr ∧ (∀ a, t.byte a = s.byte a) ∧ sameRegs [2] s t) ∧
  (∀ (s : State) (i : Instr) (op : Nat) (x : Syl) (p : Axs), coreSyl i = some (2, op, x) → s.canIssue 2 op x = true →
    s.guarded x = true → accOf s (only 2 op x) = some p → p.addr % p.lsu.size ≠ 0 → p.addr < 2 ^ 32 →
    s.on CORE_STATUS_EL = false →
    ∃ t, exec i s = .next t ∧ entered s t 5 s.dx.pc 0 (handleLevel s 5) (some p.addr) (s.get CORE_STATUS_THR) ∧
      t.dx.g = s.dx.g ∧ t.dx.acc = s.dx.acc ∧ (∀ k, pd t k = pd s k) ∧ t.dx.stores = [] ∧ t.dx.loads = [] ∧
      (∀ a, t.byte a = s.byte a) ∧ sameRegs [2] s t)

/-- A precise exception, slot 3 to 10, taken at M is handled at M; taken at S or U it is handled at S when its bit of
CORE_EXCDLG is 1 and at M otherwise; an interrupt line's entry, slot 16 to 47, is handled at S when its bit of CORE_IRQDLG is
1 and at M otherwise; CORE_ECAUSE.HLVL and CORE_STATUS.PL hold that level. It is never below the level the entry was raised
at: for the precise exceptions always, and for every asynchronous entry the core takes. -/
def Obligations.HandlingLevels : Prop :=
  (∀ (s : State) (e : Ent) (p : Option Prog) (r : Option Nat), 3 ≤ e.slot → e.slot ≤ 10 →
    let h := if coreLvl s = 2 then 2 else if bitOf (s.get CORE_EXCDLG_DLG) (e.slot - 3) then 1 else 2
    (takeIn s e p r).get CORE_ECAUSE_HLVL = h ∧ (takeIn s e p r).get CORE_STATUS_PL = h ∧ coreLvl s ≤ h) ∧
  (∀ (s : State) (e : Ent) (p : Option Prog) (r : Option Nat) (n : Nat), n < 32 → e.slot = 16 + n →
    let h := if bitOf (s.get CORE_IRQDLG_LINES) n then 1 else 2
    (takeIn s e p r).get CORE_ECAUSE_HLVL = h ∧ (takeIn s e p r).get CORE_STATUS_PL = h) ∧
  (∀ (s : State) (k : Nat × Option Nat), asyncKind s = some k → coreLvl s ≤ handleLevel s k.1)

/-- A line is a candidate when it is pending, its CORE_IRQEN bit is 1, its priority is at least the threshold (values above 8
acting as 8), and its handling level is above PL, or equal to PL with IE=1. At a bundle boundary with EL=0 and no machine
check or non-maskable interrupt pending, INTERRUPT_ENTRY enters slot 16 + n, as R149 and R151 lay down and with SYLIX=0 (the
model's choice, log entry 102), for the candidate n such that no candidate has a higher priority and none of the same priority
a lower number, with THR at its priority plus 1; where no line is a candidate it changes nothing. -/
def Obligations.InterruptChoice : Prop :=
  ∀ (s : State), s.por = false → coreRuns s = true → s.dx.bundle = [] → s.dx.rep = none → s.dx.loads = [] →
    s.dx.armShadow = false → s.dx.armProg = false →
    s.on CORE_STATUS_EL = false → s.dx.mcPend = false → s.dx.nmiWd = false → s.dx.nmiTamper = false →
    let pri := fun n => s.get (CORE_IRQPRI_PRI (n / 8) (n % 8))
    let lvl := fun n => if bitOf (s.get CORE_IRQDLG_LINES) n then 1 else 2
    let cand := fun n => bitOf (irqLines s) n = true ∧ bitOf (s.get CORE_IRQEN_LINES) n = true ∧
      min (s.get CORE_STATUS_THR) 8 ≤ pri n ∧ (coreLvl s < lvl n ∨ (lvl n = coreLvl s ∧ s.on CORE_STATUS_IE = true))
    (∀ n, n < 32 → cand n → (∀ m, m < 32 → cand m → pri m < pri n ∨ (pri m = pri n ∧ n ≤ m)) →
      ∃ t, exec .interruptEntry s = .next t ∧ entered s t (16 + n) s.dx.pc 0 (lvl n) none ((pri n + 1) % 16) ∧
        t.dx.g = s.dx.g ∧ t.dx.acc = s.dx.acc ∧ (∀ a, t.byte a = s.byte a)) ∧
    ((∀ n, n < 32 → ¬cand n) → exec .interruptEntry s = .next s)

/-- At a bundle boundary with EL=0: a pending machine check, with the store buffer empty, is entered at slot 2 by
MACHINE_CHECK_ENTRY, whatever else is pending; with none pending, a request of the watchdog or of a tamper wipe is entered at
slot 1 by NMI_ENTRY, and both requests are used up; registers and memory keep their values. That CORE_ECAUSE.SYLIX is 0 at an
entry which no syllable raises is the model's choice (log entry 102). While EL is 1, and from REP until its last iteration has
completed, all three entry commands change nothing. -/
def Obligations.UnrefusableEntries : Prop :=
  (∀ (s : State), s.por = false → coreRuns s = true → s.dx.bundle = [] → s.dx.rep = none → s.dx.loads = [] → s.dx.stores = [] →
    s.dx.armShadow = false → s.dx.armProg = false → s.on CORE_STATUS_EL = false → s.dx.mcPend = true →
    ∃ t, exec .machineCheckEntry s = .next t ∧ entered s t 2 s.dx.pc 0 2 none (s.get CORE_STATUS_THR) ∧ t.dx.mcPend = false ∧
      t.dx.g = s.dx.g ∧ (∀ a, t.byte a = s.byte a) ∧ sameRegs [2] s t) ∧
  (∀ (s : State), s.por = false → coreRuns s = true → s.dx.bundle = [] → s.dx.rep = none → s.dx.loads = [] →
    s.dx.armShadow = false → s.dx.armProg = false → s.on CORE_STATUS_EL = false → s.dx.mcPend = false →
    (s.dx.nmiWd = true ∨ s.dx.nmiTamper = true) →
    ∃ t, exec .nmiEntry s = .next t ∧ entered s t 1 s.dx.pc 0 2 none (s.get CORE_STATUS_THR) ∧ t.dx.nmiWd = false ∧
      t.dx.nmiTamper = false ∧ t.dx.g = s.dx.g ∧ (∀ a, t.byte a = s.byte a) ∧ sameRegs [2] s t) ∧
  (∀ (s : State) (i : Instr), i ∈ [.interruptEntry, .nmiEntry, .machineCheckEntry] → s.on CORE_STATUS_EL = true →
    exec i s = .next s) ∧
  (∀ (s : State) (i : Instr), i ∈ [.interruptEntry, .nmiEntry, .machineCheckEntry] → s.dx.rep ≠ none →
    exec i s = .next s)

/-- BUFFERED_STORE_COMPLETE: a word store to SRAM outside a live table copy leaves the buffer, its four bytes hold its value
and no other byte changes; one to a live copy is a late bus error: its address and size stand in CORE_BEADDR and CORE_BEINFO,
a machine check is pending, and memory is unchanged. A buffered word store to the NV store with HOLDRDY=0 waits:
HOLD_CAPACITOR_READY sets HOLDRDY and writes it whole, HOLD_WAIT_TIMEOUT makes it a late bus error. -/
def Obligations.StoreBufferAndHoldCapacitor : Prop :=
  (∀ (s : State) (st : Store) (rest : List Store),
    s.por = false → s.dx.stores = st :: rest → st.size = 4 → st.addr % 4 = 0 → inSram st.addr = true →
    inLiveCopy s st.addr = false → s.ms.wipeQ = [] → s.dx.mcPend = false → ∃ t, exec (.bufferedStoreComplete) s = .next t ∧
      t.dx.stores = rest ∧ t.rd st.addr 4 = st.val % 2 ^ 32 ∧ (∀ a, (a < st.addr ∨ st.addr + 4 ≤ a) → t.byte a = s.byte a) ∧
      t.dx.g = s.dx.g ∧ t.dx.mcPend = false ∧ sameRegs [3] s t) ∧
  (∀ (s : State) (st : Store) (rest : List Store),
    s.por = false → s.dx.stores = st :: rest → st.size = 4 → inSram st.addr = true → inLiveCopy s st.addr = true →
    s.on CORE_BEINFO_VALID = false → ∃ t, exec (.bufferedStoreComplete) s = .next t ∧
      t.dx.stores = rest ∧ t.get CORE_BEADDR_ADDR = st.addr % 2 ^ 32 ∧ t.get CORE_BEINFO_VALID = 1 ∧
      t.get CORE_BEINFO_SIZE = 2 ∧ t.get CORE_BEINFO_LATER = 0 ∧ t.dx.mcPend = true ∧
      { s with regs := t.regs, dx := t.dx } = t ∧ sameRegs [2] s t) ∧
  (∀ (s : State) (st : Store) (rest : List Store),
    s.por = false → s.dx.stores = st :: rest → st.size = 4 → st.addr % 4 = 0 → inNv st.addr = true →
    s.on NVS_STAT_HOLDRDY = false → s.nvs.moving = none → s.dx.mcPend = false → s.boot = none →
    ∃ t, exec (.holdCapacitorReady) s = .next t ∧
      t.get NVS_STAT_HOLDRDY = 1 ∧ t.dx.stores = rest ∧ t.rd st.addr 4 = st.val % 2 ^ 32 ∧
      (∀ a, (a < st.addr ∨ st.addr + 4 ≤ a) → t.byte a = s.byte a) ∧ sameRegs [0, 9] s t) ∧
  (∀ (s : State) (st : Store) (rest : List Store),
    s.por = false → s.dx.stores = st :: rest → st.size = 4 → inNv st.addr = true → s.on NVS_STAT_HOLDRDY = false →
    s.nvs.moving = none → s.on CORE_BEINFO_VALID = false → ∃ t, exec (.holdWaitTimeout) s = .next t ∧
      t.dx.stores = rest ∧ t.get CORE_BEADDR_ADDR = st.addr % 2 ^ 32 ∧ t.get CORE_BEINFO_VALID = 1 ∧ t.dx.mcPend = true ∧
      { s with regs := t.regs, dx := t.dx } = t ∧ sameRegs [2] s t)

/-- A write of PWR_LVLREQ that reaches it: with LEVEL 0 to 2, or 3 to 5 with a DURATION the ledger admits, and no transition
running in Run, TARGET becomes the level, BUSY is set, a lower level is in force at once, and a level of 3 or more holds a
class 2 reservation; with LEVEL 6 or 7, or 3 to 5 and DURATION 0, RESULT is BADPARAM (at once also while BUSY=1: the model's
choice, log entry 51); the ledger decides while the old level's reservation still counts (the model's choice, log entry 50),
and its refusal leaves its status in RESULT and the level as it is; while BUSY=1 an admissible request waits, in place of one
that waited. LEVEL_TRANSITION_DONE with nothing waiting makes CUR the target and sets LVLDONE. -/
def Obligations.LevelRequestsAndTransitions : Prop :=
  (∀ (s : State) (m : Master) (v : Word),
    s.por = false → s.reaches m 0x40000004 1 v.toNat = true → s.on PWR_LVLSTAT_BUSY = false → s.pwr.entry = none →
    s.get PWR_DOMSTAT_STATE = 0 → v.toNat % 8 ≤ 2 → ∃ t, exec (.levelRequest m v) s = .next t ∧
      t.get PWR_LVLSTAT_TARGET = v.toNat % 8 ∧ t.get PWR_LVLSTAT_BUSY = 1 ∧ t.get PWR_LVLREQ_LEVEL = v.toNat % 8 ∧
      t.get PWR_LVLREQ_DURATION = v.toNat / 256 % 65536 ∧
      (v.toNat % 8 < s.get PWR_LVLSTAT_CUR → t.get PWR_LVLSTAT_CUR = v.toNat % 8) ∧ t.pwr.durOn = false ∧ t.bus = .ok 0 ∧
      { s with regs := t.regs, led := t.led, pwr := t.pwr, bus := t.bus } = t ∧ sameRegs [0, 1, 16, 17] s t) ∧
  (∀ (s : State) (m : Master) (v : Word) (a : Nat),
    s.por = false → s.reaches m 0x40000004 1 v.toNat = true → s.on PWR_LVLSTAT_BUSY = false → s.pwr.entry = none →
    s.get PWR_DOMSTAT_STATE = 0 → 3 ≤ v.toNat % 8 → v.toNat % 8 ≤ 5 → v.toNat / 256 % 65536 ≠ 0 →
    decide81 s 2 (levelAmount s (v.toNat % 8) (v.toNat / 256 % 65536)) = (stOk, a) →
    ∃ t, exec (.levelRequest m v) s = .next t ∧
      t.get PWR_LVLSTAT_TARGET = v.toNat % 8 ∧ t.get PWR_LVLSTAT_BUSY = 1 ∧ t.pwr.durOn = true ∧
      ⟨2, a, 0, none, true, 0⟩ ∈ t.led.res ∧ { s with regs := t.regs, led := t.led, pwr := t.pwr, bus := t.bus } = t ∧
      sameRegs [0, 1, 16, 17] s t) ∧
  (∀ (s : State) (m : Master) (v : Word),
    s.por = false → s.reaches m 0x40000004 1 v.toNat = true →
    (5 < v.toNat % 8 ∨ (3 ≤ v.toNat % 8 ∧ v.toNat / 256 % 65536 = 0)) → ∃ t, exec (.levelRequest m v) s = .next t ∧
      t.get PWR_LVLSTAT_RESULT = 5 ∧ t.get PWR_LVLSTAT_CUR = s.get PWR_LVLSTAT_CUR ∧
      t.get PWR_LVLSTAT_TARGET = s.get PWR_LVLSTAT_TARGET ∧ { s with regs := t.regs, bus := t.bus } = t ∧ sameRegs [0] s t) ∧
  (∀ (s : State) (m : Master) (v : Word) (r a : Nat),
    s.por = false → s.reaches m 0x40000004 1 v.toNat = true → s.on PWR_LVLSTAT_BUSY = false → s.pwr.entry = none →
    s.get PWR_DOMSTAT_STATE = 0 → 3 ≤ v.toNat % 8 → v.toNat % 8 ≤ 5 → v.toNat / 256 % 65536 ≠ 0 →
    decide81 s 2 (levelAmount s (v.toNat % 8) (v.toNat / 256 % 65536)) = (r, a) → r ≠ stOk →
    ∃ t, exec (.levelRequest m v) s = .next t ∧
      t.get PWR_LVLSTAT_RESULT = r % 256 ∧ t.get PWR_LVLSTAT_CUR = s.get PWR_LVLSTAT_CUR ∧
      { s with regs := t.regs, bus := t.bus } = t ∧ sameRegs [0] s t) ∧
  (∀ (s : State) (m : Master) (v : Word),
    s.por = false → s.reaches m 0x40000004 1 v.toNat = true → s.on PWR_LVLSTAT_BUSY = true → v.toNat % 8 ≤ 2 →
    ∃ t, exec (.levelRequest m v) s = .next t ∧
      t.pwr.lvlQueue = some (v.toNat % 8, v.toNat / 256 % 65536) ∧ t.get PWR_LVLSTAT_QUEUED = 1 ∧
      t.get PWR_LVLSTAT_TARGET = s.get PWR_LVLSTAT_TARGET ∧ { s with regs := t.regs, pwr := t.pwr, bus := t.bus } = t ∧
      sameRegs [0] s t) ∧
  (∀ (s : State),
    s.por = false → s.on PWR_LVLSTAT_BUSY = true → s.pwr.lvlQueue = none → s.pwr.entry = none →
    ∃ t, exec (.levelTransitionDone) s = .next t ∧
      t.get PWR_LVLSTAT_CUR = s.get PWR_LVLSTAT_TARGET % 8 ∧ t.get PWR_LVLSTAT_BUSY = 0 ∧ t.get PWR_LVLSTAT_RESULT = 0 ∧
      t.get PWR_EVT_LVLDONE = 1 ∧
      { s with regs := t.regs, evHeld := t.evHeld, evCap := t.evCap, evWin := t.evWin, free := t.free } = t ∧
      sameRegs [0, 16, 17] s t)

/-- LEVEL_DURATION_EXPIRY with a DURATION running and no request waiting sets PWR_LVLSTAT.EXPIRED and PWR_EVT.EXPIRED, ends
the DURATION, and, with no transition running, starts the transition to the level in PWR_LVLCFG.BASE (0b11 acting as P2);
while one runs, that level waits behind it (R46). With no DURATION running, or with a new request waiting, it changes nothing
(an event whose condition the state does not meet: the model's convention, log entry 11). -/
def Obligations.LevelDurationExpiry : Prop :=
  (∀ (s : State),
    s.por = false → s.pwr.durOn = true → s.pwr.lvlQueue = none → s.on PWR_LVLSTAT_BUSY = false →
    ∃ t, exec (.levelDurationExpiry) s = .next t ∧
      t.get PWR_LVLSTAT_EXPIRED = 1 ∧ t.get PWR_EVT_EXPIRED = 1 ∧ t.pwr.durOn = false ∧
      t.get PWR_LVLSTAT_TARGET = min (s.get PWR_LVLCFG_BASE) 2 ∧ t.get PWR_LVLSTAT_BUSY = 1 ∧
      (min (s.get PWR_LVLCFG_BASE) 2 < s.get PWR_LVLSTAT_CUR → t.get PWR_LVLSTAT_CUR = min (s.get PWR_LVLCFG_BASE) 2) ∧
      { s with regs := t.regs, led := t.led, pwr := t.pwr } = t ∧ sameRegs [0, 1, 16, 17] s t) ∧
  (∀ (s : State),
    s.por = false → s.pwr.durOn = true → s.pwr.lvlQueue = none → s.on PWR_LVLSTAT_BUSY = true →
    ∃ t, exec (.levelDurationExpiry) s = .next t ∧
      t.get PWR_LVLSTAT_EXPIRED = 1 ∧ t.pwr.lvlQueue = some (min (s.get PWR_LVLCFG_BASE) 2, 0) ∧ t.get PWR_LVLSTAT_QUEUED = 1) ∧
  (∀ (s : State),
    s.por = false → (s.pwr.durOn = false ∨ s.pwr.lvlQueue.isSome = true) → ∃ t, exec (.levelDurationExpiry) s = .next t ∧
      t = s)

/-- SLEEP_AGENT_ANSWERS: where any agent answers NAK the entry ends, REFUSED is set, REFUSERS names every refuser and its code
stands in its field of PWR_NAKRSN0 or PWR_NAKRSN1; where none does and some hold, the entry stands with the holders recorded;
where all answer ACK and no wake event or reset waits, the part is in the target state with REACHED. AGENT_HOLD_ACK of a
holder that is ready (what the mover and the link wait for is log entry 27) turns its HOLD into ACK, and the last one puts the
part into the target state; a wake event found at A1, or given by the command's operand for A2 or A3 (the model's choice, log
entry 90), abandons the entry with ABORTED, its ABTPT and its source latched, and the part stays in Run; AGENT_HOLD_OVERRUN
ends the entry with that agent the sole refuser, code 6. The core's own state stays, but for its cycle count (log entry 116). -/
def Obligations.SleepHandshake : Prop :=
  (∀ (s : State) (e : Entry),
    s.por = false → s.pwr.entry = some e → e.wait = false → e.answered = false → naks s e.target ≠ [] →
    s.pwr.pendReset = none → ∃ t, exec (.sleepAgentAnswers none) s = .next t ∧
      t.pwr.entry = none ∧ t.get PWR_STAT_REFUSED = 1 ∧ t.get PWR_STAT_ABORTED = 0 ∧
      (∀ k c, (k, c) ∈ naks s e.target → t.bit PWR_STAT_REFUSERS k = true) ∧
      (∀ k c, (k, c) ∈ naks s e.target → k < 8 → t.get (PWR_NAKRSN0_AG k) = c) ∧
      (∀ c, (8, c) ∈ naks s e.target → t.get PWR_NAKRSN1_AG8 = c) ∧
      (∀ c, (9, c) ∈ naks s e.target → t.get PWR_NAKRSN1_AG9 = c) ∧ t.get PWR_DOMSTAT_STATE = s.get PWR_DOMSTAT_STATE ∧
      t.dx = { s.dx with cyc := t.dx.cyc }) ∧
  (∀ (s : State) (e : Entry),
    s.por = false → s.pwr.entry = some e → e.wait = false → e.answered = false → naks s e.target = [] → holds s e.target ≠ 0 →
    ∃ t, exec (.sleepAgentAnswers none) s = .next t ∧
      t.pwr.entry = some ⟨e.target, false, true, holds s e.target, s.get PWR_DOMSTAT_MEM == 2⟩ ∧
      t.dx = { s.dx with cyc := t.dx.cyc }) ∧
  (∀ (s : State) (e : Entry),
    s.por = false → s.pwr.entry = some e → e.wait = false → e.answered = false → naks s e.target = [] → holds s e.target = 0 →
    s.pwr.pendReset = none → s.get PWR_WAKESRC_SRC = 0 → s.get CORE_IRQEN_LINES = 0 →
    ∃ t, exec (.sleepAgentAnswers none) s = .next t ∧
      t.pwr.entry = none ∧ t.get PWR_DOMSTAT_STATE = (e.target + 1) % 8 ∧ t.get PWR_STAT_REACHED = (e.target + 1) % 8 ∧
      t.get PWR_STAT_ABORTED = 0 ∧ t.dx = { s.dx with cyc := t.dx.cyc }) ∧
  (∀ (s : State) (src pt : Nat) (e : Entry),
    s.por = false → s.pwr.entry = some e → e.wait = false → e.answered = false → naks s e.target = [] → holds s e.target = 0 →
    s.pwr.pendReset = none → s.pwr.withheld = false → s.get PWR_WAKESRC_SRC = 0 → s.get CORE_IRQEN_LINES = 0 → 0 < src →
    src < 10 → 2 ≤ pt → pt ≤ 3 → bitOf (wakeEn s) src = true → bitOf (wakeActs s (e.target + 1)) src = true →
    ∃ t, exec (.sleepAgentAnswers (some (src, pt))) s = .next t ∧
      t.pwr.entry = none ∧ t.get PWR_STAT_ABORTED = 1 ∧ t.get PWR_STAT_ABTPT = pt ∧ t.get PWR_STAT_REACHED = 0 ∧
      t.get PWR_WAKESRC_SRC = 2 ^ src ∧ t.get PWR_DOMSTAT_STATE = s.get PWR_DOMSTAT_STATE) ∧
  (∀ (s : State) (e : Entry),
    s.por = false → s.pwr.entry = some e → e.wait = false → e.answered = false → naks s e.target = [] → holds s e.target = 0 →
    s.pwr.pendReset = none → s.pwr.withheld = false →
    s.get PWR_WAKESRC_SRC &&& wakeEn s &&& wakeActs s (e.target + 1) &&& 0xFFE ≠ 0 →
    ∃ t, exec (.sleepAgentAnswers none) s = .next t ∧
      t.pwr.entry = none ∧ t.get PWR_STAT_ABORTED = 1 ∧ t.get PWR_STAT_ABTPT = 1 ∧
      t.get PWR_DOMSTAT_STATE = s.get PWR_DOMSTAT_STATE) ∧
  (∀ (s : State) (k : Nat) (e : Entry),
    s.por = false → s.pwr.entry = some e → e.answered = true → bitOf e.hold k = true → e.hold ≠ 2 ^ k → ackReady s k = true →
    ∃ t, exec (.agentHoldAck k none) s = .next t ∧
      t.pwr.entry = some { e with hold := e.hold - 2 ^ k } ∧ t.dx = { s.dx with cyc := t.dx.cyc }) ∧
  (∀ (s : State) (k : Nat) (e : Entry),
    s.por = false → s.pwr.entry = some e → e.answered = true → e.hold = 2 ^ k → ackReady s k = true → s.pwr.pendReset = none →
    s.get PWR_WAKESRC_SRC = 0 → s.get CORE_IRQEN_LINES = 0 → ∃ t, exec (.agentHoldAck k none) s = .next t ∧
      t.pwr.entry = none ∧ t.get PWR_DOMSTAT_STATE = (e.target + 1) % 8 ∧ t.get PWR_STAT_REACHED = (e.target + 1) % 8 ∧
      t.dx = { s.dx with cyc := t.dx.cyc }) ∧
  (∀ (s : State) (k : Nat) (e : Entry),
    s.por = false → s.pwr.entry = some e → e.answered = true → bitOf e.hold k = true → k < 8 → s.pwr.pendReset = none →
    ∃ t, exec (.agentHoldOverrun k) s = .next t ∧
      t.pwr.entry = none ∧ t.get PWR_STAT_REFUSED = 1 ∧ t.get PWR_STAT_REFUSERS = 2 ^ k ∧ t.get (PWR_NAKRSN0_AG k) = 6 ∧
      t.dx = { s.dx with cyc := t.dx.cyc })

/-- WAKE_EVENT of an enabled source other than LNKACT and IRQ: in Run it is latched in PWR_WAKESRC and nothing else changes;
in a sleep state where it acts, with wakes not withheld, the part is in Run with the source latched. FORCED_WAKE_GRANT with no
reset waiting ends the withholding, and a latched enabled source wakes the part then. LINK_ACTIVITY_RAISE in Basalt with
LNKACT enabled trains the engine and latches bit 0; the listener is then heard (log entry 64). DOMAIN_DEMAND_START starts the
domain named, DOMAIN_DEMAND_TIMEOUT returns it to what the sleep state gives it: the die writes its dirty check lines back,
and in Granite or Basalt the segments KEEPSEG does not keep are then to be wiped. -/
def Obligations.WakesAndDomains : Prop :=
  (∀ (s : State) (src : Nat),
    s.por = false → s.get PWR_DOMSTAT_STATE = 0 → s.pwr.entry = none → 0 < src → src < 12 → src ≠ 10 →
    bitOf (wakeEn s) src = true → ∃ t, exec (.wakeEvent src) s = .next t ∧
      t.get PWR_WAKESRC_SRC = (s.get PWR_WAKESRC_SRC ||| 2 ^ src) % 4096 ∧ { s with regs := t.regs } = t ∧ sameRegs [0] s t) ∧
  (∀ (s : State) (src : Nat),
    s.por = false → 1 ≤ s.get PWR_DOMSTAT_STATE → s.pwr.entry = none → 0 < src → src < 12 → src ≠ 10 →
    bitOf (wakeEn s) src = true → bitOf (wakeActs s (s.get PWR_DOMSTAT_STATE)) src = true → s.pwr.withheld = false →
    ∃ t, exec (.wakeEvent src) s = .next t ∧
      t.get PWR_DOMSTAT_STATE = 0 ∧ t.get PWR_DOMSTAT_SYS = 3 ∧ t.bit PWR_WAKESRC_SRC src = true) ∧
  (∀ (s : State),
    s.por = false → s.pwr.withheld = true → s.boot = none → s.pwr.entry = none →
    s.get PWR_WAKESRC_SRC &&& wakeEn s &&& wakeActs s (s.get PWR_DOMSTAT_STATE) &&& 0xFFE = 0 → s.get CORE_IRQEN_LINES = 0 →
    ∃ t, exec (.forcedWakeGrant) s = .next t ∧
      { s with pwr := t.pwr } = t ∧ t.pwr = { s.pwr with withheld := false }) ∧
  (∀ (s : State),
    s.por = false → s.pwr.withheld = true → s.boot = none → s.pwr.entry = none → 1 ≤ s.get PWR_DOMSTAT_STATE →
    s.get PWR_WAKESRC_SRC &&& wakeEn s &&& wakeActs s (s.get PWR_DOMSTAT_STATE) &&& 0xFFE ≠ 0 →
    ∃ t, exec (.forcedWakeGrant) s = .next t ∧
      t.get PWR_DOMSTAT_STATE = 0 ∧ t.pwr.withheld = false) ∧
  (∀ (s : State),
    s.por = false → 2 ≤ s.get PWR_DOMSTAT_STATE → s.get PWR_DOMSTAT_SYS < 2 → ∃ t, exec (.domainDemandStart 0) s = .next t ∧
      t.get PWR_DOMSTAT_SYS = 2 ∧ { s with regs := t.regs } = t ∧ sameRegs [0] s t) ∧
  (∀ (s : State),
    s.por = false → ∃ t, exec (.domainDemandStart 1) s = .next t ∧
      t.get PWR_DOMSTAT_MEM = 2 ∧ { s with regs := t.regs } = t ∧ sameRegs [0] s t) ∧
  (∀ (s : State),
    s.por = false → ∃ t, exec (.domainDemandStart 2) s = .next t ∧
      t.get PWR_DOMSTAT_PIX = 1 ∧ { s with regs := t.regs } = t ∧ sameRegs [0] s t) ∧
  (∀ (s : State),
    s.por = false → s.get PWR_DOMSTAT_SYS = 2 → ∃ t, exec (.domainDemandTimeout 0) s = .next t ∧
      (t.get PWR_DOMSTAT_SYS = if s.get PWR_DOMSTAT_STATE = 2 then 1 else 0) ∧ { s with regs := t.regs } = t ∧ sameRegs [0] s t) ∧
  (∀ (s : State),
    s.por = false → s.get PWR_DOMSTAT_STATE = 2 → s.on DRM_STAT_WIPING = false → s.on DRM_SESS_OPENST = false →
    s.get PWR_DOMSTAT_MEM = 2 → ∃ t, exec (.domainDemandTimeout 1) s = .next t ∧
      t.get PWR_DOMSTAT_MEM = 1 ∧ linesBack s t ∧ { s with regs := t.regs, mem := t.mem, ms := t.ms } = t ∧ sameRegs [0] s t) ∧
  (∀ (s : State) (k : Nat),
    s.por = false → 3 ≤ s.get PWR_DOMSTAT_STATE → s.on DRM_STAT_WIPING = false → s.on DRM_SESS_OPENST = false →
    s.get PWR_DOMSTAT_MEM = 2 → k = s.pwr.keepLat % 65536 → ∃ t, exec (.domainDemandTimeout 1) s = .next t ∧
      (t.get PWR_DOMSTAT_MEM = if k = 0 then 0 else 1) ∧
      t.get DRM_STAT_UNWIPED = (s.get DRM_STAT_UNWIPED ||| (0xFFFF - k)) % 65536 ∧
      (∀ l ∈ t.ms.ckl, l.dirty = false ∧ (l.line / 8192 < 16 → bitOf k (l.line / 8192) = true)) ∧
      (∀ a, offDirty s a → t.byte a = s.byte a) ∧ t.ms = { s.ms with ckl := t.ms.ckl } ∧
      { s with regs := t.regs, mem := t.mem, ms := t.ms } = t ∧ sameRegs [0, 4] s t) ∧
  (∀ (s : State),
    s.por = false → s.on EPD_STAT_HVON = false → s.on EPD_STAT_INITBUSY = false →
    ∃ t, exec (.domainDemandTimeout 2) s = .next t ∧
      t.get PWR_DOMSTAT_PIX = 0 ∧ { s with regs := t.regs } = t ∧ sameRegs [0] s t) ∧
  (∀ (s : State),
    s.por = false → s.get PWR_DOMSTAT_STATE = 4 → s.pwr.entry = none → s.pwr.withheld = false → s.get LNK_STAT_STATE = 1 →
    s.on LNK_STAT_FLOORLOCK = false → s.on LNK_STAT_BACKOFF = false → activityActs s = true →
    (decide81 s 4 (s.get (HRV_CLSAMT_AMOUNT 4))).1 = stOk → ∃ t, exec (.linkActivityRaise) s = .next t ∧
      t.get PWR_DOMSTAT_STATE = 4 ∧ t.get LNK_STAT_STATE = 2 ∧ t.bit PWR_WAKESRC_SRC 0 = true ∧
      t.lnk = { s.lnk with heard := true } ∧
      { s with regs := t.regs, led := t.led, evHeld := t.evHeld, evCap := t.evCap, evWin := t.evWin, free := t.free, lnk := t.lnk } = t ∧
      sameRegs [0, 1, 6] s t)

/-- VSTO_HI shunts every channel and sets SHUNT and its event; SHUNT_RELEASE clears SHUNT and each channel's state follows its
enable, its drop and its operating point. LOAD_TO_PRIMARY with PRIMOK puts the load on VBAT, sets TOPRIM and HOLDRDY, and
abandons a running capacitance measurement with RESULT 3; LOAD_TO_STORE puts it back and sets TOSTORE. PRIMOK_CHANGE sets
PRIMOK, or clears it and moves a load on the cell to the store: HOLDRDY then says whether the last sample of VSTO reached 1.80
V, and with that below 1.78 V and wakes not withheld Basalt is forced (log entry 47). A store that waits at the head of the
store buffer is written as LOAD_TO_STORE makes the hold capacitor ready. COLD_START during power-on reset starts boosting.
Where nothing waits for the capacitor, nothing else changes but held events. -/
def Obligations.SupplyCrossings : Prop :=
  (∀ (s : State),
    s.por = false → s.on HRV_STAT_SHUNT = false → ∃ t, exec (.vstoHi) s = .next t ∧
      t.get HRV_STAT_SHUNT = 1 ∧ t.get HRV_EVT_SHUNTON = 1 ∧ (∀ n, n < 4 → t.get (HRV_CHSTAT_STATE n) = 3) ∧
      { s with regs := t.regs, evHeld := t.evHeld, evCap := t.evCap, evWin := t.evWin, free := t.free } = t ∧ sameRegs [1] s t) ∧
  (∀ (s : State),
    s.por = false → ∃ t, exec (.shuntRelease) s = .next t ∧
      t.get HRV_STAT_SHUNT = 0 ∧
      (∀ n, n < 4 → t.get (HRV_CHSTAT_STATE n) = if !s.bit HRV_CFG_EN n then 0 else if dropped s n then 4 else if 15 ≤ s.get (HRV_CHSTAT_VOP n) then 2 else 1) ∧
      { s with regs := t.regs } = t ∧ sameRegs [1] s t) ∧
  (∀ (s : State),
    s.por = false → s.on HRV_STAT_SRC = false → s.on HRV_STAT_PRIMOK = true → s.on HRV_STAT_CAPBUSY = false →
    ∃ t, exec (.loadToPrimary) s = .next t ∧
      t.get HRV_STAT_SRC = 1 ∧ t.get HRV_EVT_TOPRIM = 1 ∧ t.get NVS_STAT_HOLDRDY = 1 ∧
      t.get HRV_CAPMEAS_RESULT = s.get HRV_CAPMEAS_RESULT ∧
      (noneWaits s = true → { s with regs := t.regs, evHeld := t.evHeld, evCap := t.evCap, evWin := t.evWin, free := t.free } = t) ∧
      (noneWaits s = true → sameRegs [1, 9] s t)) ∧
  (∀ (s : State),
    s.por = false → s.on HRV_STAT_SRC = false → s.on HRV_STAT_PRIMOK = true → s.on HRV_STAT_CAPBUSY = true →
    ∃ t, exec (.loadToPrimary) s = .next t ∧
      t.get HRV_STAT_SRC = 1 ∧ t.get HRV_STAT_CAPBUSY = 0 ∧ t.get HRV_CAPMEAS_RESULT = 3 ∧ t.get HRV_EVT_CAPDONE = 1 ∧
      (noneWaits s = true → { s with regs := t.regs, evHeld := t.evHeld, evCap := t.evCap, evWin := t.evWin, free := t.free } = t) ∧
      (noneWaits s = true → sameRegs [1, 9] s t)) ∧
  (∀ (s : State),
    s.por = false → s.on HRV_STAT_SRC = true → ∃ t, exec (.loadToStore) s = .next t ∧
      t.get HRV_STAT_SRC = 0 ∧ t.get HRV_EVT_TOSTORE = 1 ∧ t.get NVS_STAT_HOLDRDY = 1 ∧
      (noneWaits s = true → { s with regs := t.regs, evHeld := t.evHeld, evCap := t.evCap, evWin := t.evWin, free := t.free } = t) ∧
      (noneWaits s = true → sameRegs [1, 9] s t)) ∧
  (∀ (s : State) (st : Store) (rest : List Store),
    s.por = false → s.on HRV_STAT_SRC = true → s.dx.stores = st :: rest → st.size = 4 → st.addr % 4 = 0 → inNv st.addr = true →
    s.on NVS_STAT_HOLDRDY = false → s.nvs.moving = none → s.dx.mcPend = false → s.boot = none →
    ∃ t, exec (.loadToStore) s = .next t ∧
      t.get HRV_STAT_SRC = 0 ∧ t.get NVS_STAT_HOLDRDY = 1 ∧ t.dx.stores = rest ∧ t.rd st.addr 4 = st.val % 2 ^ 32 ∧
      (∀ a, (a < st.addr ∨ st.addr + 4 ≤ a) → t.byte a = s.byte a)) ∧
  (∀ (s : State),
    s.por = false → ∃ t, exec (.primokChange true) s = .next t ∧
      t.get HRV_STAT_PRIMOK = 1 ∧ t.get HRV_STAT_SRC = s.get HRV_STAT_SRC ∧ { s with regs := t.regs } = t ∧ sameRegs [1] s t) ∧
  (∀ (s : State),
    s.por = false → s.on HRV_STAT_SRC = true → (1780 ≤ s.get HRV_SUPPLY_VSTO ∨ s.pwr.withheld = true) →
    ∃ t, exec (.primokChange false) s = .next t ∧
      t.get HRV_STAT_PRIMOK = 0 ∧ t.get HRV_STAT_SRC = 0 ∧ t.get HRV_EVT_TOSTORE = 1 ∧
      (t.get NVS_STAT_HOLDRDY = if 1800 ≤ s.get HRV_SUPPLY_VSTO then 1 else 0) ∧
      (noneWaits s = true → { s with regs := t.regs, evHeld := t.evHeld, evCap := t.evCap, evWin := t.evWin, free := t.free } = t) ∧
      (noneWaits s = true → sameRegs [1, 9] s t)) ∧
  (∀ (s : State),
    s.por = false → s.on HRV_STAT_SRC = true → s.get HRV_SUPPLY_VSTO < 1780 → s.pwr.withheld = false → s.pwr.pendReset = none →
    ∃ t, exec (.primokChange false) s = .next t ∧
      t.get PWR_DOMSTAT_STATE = 4 ∧ t.get PWR_STAT_FORCED = 1 ∧ t.get HRV_STAT_PRIMOK = 0 ∧ t.get HRV_STAT_SRC = 0 ∧
      t.get HRV_EVT_BROWN = 1 ∧ t.get HRV_EVT_TOSTORE = 1 ∧ t.pwr.withheld = true ∧ t.dx = { s.dx with cyc := t.dx.cyc } ∧
      (s.pwr.entry = none → t.dx = s.dx)) ∧
  (∀ (s : State),
    s.por = false → s.on HRV_STAT_SRC = false → ∃ t, exec (.primokChange false) s = .next t ∧
      t.get HRV_STAT_PRIMOK = 0 ∧ t.get HRV_STAT_SRC = s.get HRV_STAT_SRC ∧ { s with regs := t.regs } = t ∧ sameRegs [1] s t) ∧
  (∀ (s : State),
    s.por = true → ∃ t, exec (.coldStart) s = .next t ∧
      t.led.startUp = true ∧ t.por = true ∧ { s with led := t.led } = t)

/-- VSTO_BROWN with the load on the store, and PRIMARY_LOSS with the store below 1.78 V, put the part in Basalt with FORCED,
BROWN set, wakes withheld, KEEPSEG latched (segments lost before stay lost), SYS and PIX stopped, and leave the core's own
state as it is, but for the cycle count of a sleep entry (log entry 116), unless a reset waited in a sleep entry, which then
takes effect. PRIMARY_LOSS with more in the store moves the load. SUPPLY_LOSS asserts power-on reset with cause 1: the NV
array and the fuses are kept, all other memory and every register field but PWR_RSTCAUSE and the ball levels in GPIO_IN read
their reset values. FLOOR_TRIP sets FLOOR and FLOORTRIP, marks running label updates, drops a held level to P0 and closes a
DRAM session no mover burst holds; FLOOR_CLEAR ends it. -/
def Obligations.SupplyFailures : Prop :=
  (∀ (s : State),
    s.por = false → s.on HRV_STAT_SRC = false → s.pwr.withheld = false → s.pwr.pendReset = none →
    ∃ t, exec (.vstoBrown) s = .next t ∧
      t.get PWR_DOMSTAT_STATE = 4 ∧ t.get PWR_STAT_FORCED = 1 ∧ t.get PWR_STAT_REACHED = 4 ∧ t.get HRV_EVT_BROWN = 1 ∧
      (s.disp.upd = [] → t.get NVS_STAT_HOLDRDY = 0) ∧ t.pwr.withheld = true ∧ t.pwr.entry = none ∧
      t.pwr.keepLat = s.get PWR_KEEPSEG_KEEP &&& (if 3 ≤ s.get PWR_DOMSTAT_STATE then s.pwr.keepLat else 0xFFFF) ∧
      t.get PWR_DOMSTAT_SYS = 0 ∧ t.get PWR_DOMSTAT_PIX = 0 ∧ t.dx = { s.dx with cyc := t.dx.cyc } ∧
      (s.pwr.entry = none → t.dx = s.dx) ∧ t.clk = s.clk) ∧
  (∀ (s : State) (c : Nat),
    s.por = false → s.on HRV_STAT_SRC = false → s.pwr.withheld = false → s.pwr.pendReset = some c → c ∈ [6, 7, 8, 9] →
    ∃ t, exec (.vstoBrown) s = .next t ∧
      t.get PWR_RSTCAUSE_LAST = c ∧ t.dx.g = Vector.replicate 32 0 ∧ t.dx.pc = 0x10000000 ∧ t.dx.running = false ∧
      t.pwr.withheld = true ∧ t.pwr.entry = none ∧ t.pwr.pendReset = none) ∧
  (∀ (s : State) (vsto : Nat),
    s.por = false → s.on HRV_STAT_SRC = true → vsto < 1780 → s.pwr.withheld = false → s.pwr.pendReset = none →
    ∃ t, exec (.primaryLoss vsto) s = .next t ∧
      t.get PWR_DOMSTAT_STATE = 4 ∧ t.get PWR_STAT_FORCED = 1 ∧ t.get HRV_STAT_PRIMOK = 0 ∧ t.get HRV_STAT_SRC = 0 ∧
      t.get HRV_EVT_BROWN = 1 ∧ t.get HRV_EVT_TOSTORE = 1 ∧ t.pwr.withheld = true ∧ t.dx = { s.dx with cyc := t.dx.cyc } ∧
      (s.pwr.entry = none → t.dx = s.dx)) ∧
  (∀ (s : State) (vsto : Nat),
    s.por = false → s.on HRV_STAT_SRC = true → (1780 ≤ vsto ∨ s.pwr.withheld = true) →
    ∃ t, exec (.primaryLoss vsto) s = .next t ∧
      t.get HRV_STAT_PRIMOK = 0 ∧ t.get HRV_STAT_SRC = 0 ∧ t.get HRV_EVT_TOSTORE = 1 ∧
      (t.get NVS_STAT_HOLDRDY = if 1800 ≤ vsto then 1 else 0) ∧
      (noneWaits s = true → { s with regs := t.regs, evHeld := t.evHeld, evCap := t.evCap, evWin := t.evWin, free := t.free } = t) ∧
      (noneWaits s = true → sameRegs [1, 9] s t)) ∧
  (∀ (s : State) (vsto : Nat),
    s.por = false → s.on HRV_STAT_SRC = false → ∃ t, exec (.primaryLoss vsto) s = .next t ∧
      t.get HRV_STAT_PRIMOK = 0 ∧ { s with regs := t.regs } = t ∧ sameRegs [1] s t) ∧
  (∀ (s : State),
    s.por = false → ∃ t, exec (.supplyLoss) s = .next t ∧
      t.por = true ∧ t.get PWR_RSTCAUSE_LAST = 1 ∧ t.get PWR_RSTCAUSE_SEEN = 2 ∧ t.get GPIO_IN_IN = s.get GPIO_IN_IN % 256 ∧
      (∀ f : Fld, f.key ≠ PWR_RSTCAUSE_LAST.key → f.key ≠ PWR_RSTCAUSE_SEEN.key → f.key ≠ GPIO_IN_IN.key → t.get f = f.rst) ∧
      (∀ a, t.byte a = if inNv a then s.byte a else 0) ∧ t.sec.fuses = s.sec.fuses ∧ t.dx = State.reset.dx ∧
      t.led = State.reset.led) ∧
  (∀ (s : State),
    s.por = false → s.on HRV_STAT_FLOOR = false → ∃ t, exec (.floorTrip) s = .next t ∧
      t.get HRV_STAT_FLOOR = 1 ∧ t.get HRV_EVT_FLOORTRIP = 1 ∧
      (t.disp.upd = s.disp.upd.map fun u => if u.running then { u with floored := true } else u) ∧
      (burstHeld s 2 = true → t.get PWR_LVLSTAT_TARGET = 0 ∧ t.get PWR_LVLSTAT_CUR = 0 ∧ t.get PWR_LVLSTAT_DROPPED = 1) ∧
      (s.on DRM_SESS_OPENST = true → moverDram s = false → t.get DRM_SESS_OPENST = 0) ∧
      (burstHeld s 2 = false → t.get PWR_LVLSTAT_CUR = s.get PWR_LVLSTAT_CUR) ∧ t.dx = s.dx) ∧
  (∀ (s : State),
    s.por = false → ∃ t, exec (.floorClear) s = .next t ∧
      t.get HRV_STAT_FLOOR = 0 ∧ t.get LNK_STAT_FLOORLOCK = 0 ∧ { s with regs := t.regs } = t ∧ sameRegs [1, 6] s t)

/-- HARVEST_SAMPLE of a running channel whose fraction of Voc reaches 15 mV: VOP is that fraction, at most 400 mV, and PIN the
power there in µW (both rounded down: the model's choice, log entry 101), within its share of 40 mW; the channel tracks, takes
its first resistance as its reference, and counts the samples in a row more than half away from it. Above 10 mW its point lies
between there and Voc, and PIN is 10 mW. A channel held at 400 mV that would give more than that stays there (log entry 45).
Below 15 mV, VOP and PIN are 0, the channel rests and the run of such samples ends; a sample with no current counts as one
more than half away and sets no reference (log entry 46). A channel that stood 15 samples away and does so again is dropped:
VOP and PIN are 0, its state DROPPED, CHDROP set, and with the hold capacitor ready the log has its entry. Voc above 1.5 V or
a current above 1.2 A is outside the operating conditions (log entry 10). -/
def Obligations.HarvestSamples : Prop :=
  (∀ (s : State) (n voc iop r p : Nat) (b : Bool) (c : Chan),
    s.por = false → n < 4 → s.bit HRV_CFG_EN n = true → dropped s n = false → s.on HRV_STAT_SHUNT = false →
    s.on HRV_STAT_CAPBUSY = false → voc ≤ 1500 → iop ≤ 1200000 → s.chan.length = 4 → chanAt s n = c →
    r = (voc - (min (voc * (if s.get (HRV_CHCFG_FRAC n) = 0 then 8 else s.get (HRV_CHCFG_FRAC n)) / 16) 400)) * 10 ^ 6 / iop →
    (b = (c.ref.any fun q => iop = 0 || 3 * q < 2 * r || 2 * r < q)) → (b = false ∨ c.drift < 15) →
    240 ≤ voc * (if s.get (HRV_CHCFG_FRAC n) = 0 then 8 else s.get (HRV_CHCFG_FRAC n)) →
    p = (min (voc * (if s.get (HRV_CHCFG_FRAC n) = 0 then 8 else s.get (HRV_CHCFG_FRAC n)) / 16) 400) * iop / 1000 →
    p ≤ 10000 → ∃ t, exec (.harvestSample n voc iop) s = .next t ∧
      t.get (HRV_CHSTAT_VOP n) = (min (voc * (if s.get (HRV_CHCFG_FRAC n) = 0 then 8 else s.get (HRV_CHCFG_FRAC n)) / 16) 400) ∧
      (t.get (HRV_CHSTAT_PIN n) = if ((List.range 4).foldl (fun a k => if k = n then a else a + s.get (HRV_CHSTAT_PIN k)) 0) + p ≤ 40000 then p else p * 40000 / (((List.range 4).foldl (fun a k => if k = n then a else a + s.get (HRV_CHSTAT_PIN k)) 0) + p)) ∧
      t.get (HRV_CHSTAT_STATE n) = 2 ∧
      chanAt t n = ⟨if c.ref.isNone ∧ 0 < iop then some r else c.ref, if b then c.drift + 1 else 0⟩ ∧
      (∀ k, k < 4 → k ≠ n → t.get (HRV_CHSTAT_VOP k) = s.get (HRV_CHSTAT_VOP k) ∧ t.get (HRV_CHSTAT_PIN k) = s.get (HRV_CHSTAT_PIN k)) ∧
      { s with regs := t.regs, chan := t.chan, free := t.free } = t ∧ sameRegs [1] s t) ∧
  (∀ (s : State) (n voc iop : Nat),
    s.por = false → n < 4 → s.bit HRV_CFG_EN n = true → dropped s n = false → s.on HRV_STAT_SHUNT = false →
    s.on HRV_STAT_CAPBUSY = false → voc ≤ 1500 → iop ≤ 1200000 → s.chan.length = 4 →
    ((chanAt s n).ref = none ∨ (chanAt s n).drift < 15) →
    240 ≤ voc * (if s.get (HRV_CHCFG_FRAC n) = 0 then 8 else s.get (HRV_CHCFG_FRAC n)) →
    10000 < (min (voc * (if s.get (HRV_CHCFG_FRAC n) = 0 then 8 else s.get (HRV_CHCFG_FRAC n)) / 16) 400) * iop / 1000 →
    ∃ t, exec (.harvestSample n voc iop) s = .next t ∧
      (t.get (HRV_CHSTAT_PIN n) = if ((List.range 4).foldl (fun a k => if k = n then a else a + s.get (HRV_CHSTAT_PIN k)) 0) ≤ 30000 then 10000 else 10000 * 40000 / (((List.range 4).foldl (fun a k => if k = n then a else a + s.get (HRV_CHSTAT_PIN k)) 0) + 10000)) ∧
      (min (voc * (if s.get (HRV_CHCFG_FRAC n) = 0 then 8 else s.get (HRV_CHCFG_FRAC n)) / 16) 400) ≤ t.get (HRV_CHSTAT_VOP n) ∧
      t.get (HRV_CHSTAT_VOP n) ≤ min voc 400 ∧ t.get (HRV_CHSTAT_STATE n) = 2 ∧
      { s with regs := t.regs, chan := t.chan, free := t.free } = t ∧ sameRegs [1] s t) ∧
  (∀ (s : State) (n voc iop : Nat),
    s.por = false → n < 4 → s.bit HRV_CFG_EN n = true → dropped s n = false → s.on HRV_STAT_SHUNT = false →
    s.on HRV_STAT_CAPBUSY = false → voc ≤ 1500 → iop ≤ 1200000 → s.chan.length = 4 →
    voc * (if s.get (HRV_CHCFG_FRAC n) = 0 then 8 else s.get (HRV_CHCFG_FRAC n)) < 240 →
    ∃ t, exec (.harvestSample n voc iop) s = .next t ∧
      t.get (HRV_CHSTAT_VOP n) = 0 ∧ t.get (HRV_CHSTAT_PIN n) = 0 ∧ t.get (HRV_CHSTAT_STATE n) = 1 ∧
      chanAt t n = ⟨(chanAt s n).ref, 0⟩ ∧ { s with regs := t.regs, chan := t.chan } = t ∧ sameRegs [1] s t) ∧
  (∀ (s : State) (n voc iop q r : Nat),
    s.por = false → n < 4 → s.bit HRV_CFG_EN n = true → dropped s n = false → s.on HRV_STAT_SHUNT = false →
    s.on HRV_STAT_CAPBUSY = false → voc ≤ 1500 → iop ≤ 1200000 → s.chan.length = 4 → chanAt s n = ⟨some q, 15⟩ →
    r = (voc - (min (voc * (if s.get (HRV_CHCFG_FRAC n) = 0 then 8 else s.get (HRV_CHCFG_FRAC n)) / 16) 400)) * 10 ^ 6 / iop →
    (iop = 0 ∨ 3 * q < 2 * r ∨ 2 * r < q) →
    240 ≤ voc * (if s.get (HRV_CHCFG_FRAC n) = 0 then 8 else s.get (HRV_CHCFG_FRAC n)) →
    (min (voc * (if s.get (HRV_CHCFG_FRAC n) = 0 then 8 else s.get (HRV_CHCFG_FRAC n)) / 16) 400) * iop / 1000 ≤ 10000 →
    ∃ t, exec (.harvestSample n voc iop) s = .next t ∧
      t.get (HRV_CHSTAT_VOP n) = 0 ∧ t.get (HRV_CHSTAT_PIN n) = 0 ∧ t.get (HRV_CHSTAT_STATE n) = 4 ∧ t.get HRV_EVT_CHDROP = 1 ∧
      dropped t n = true ∧ (s.on NVS_STAT_HOLDRDY = true → logged s t 0xC n 0) ∧
      (headWaits s = false → { s with regs := t.regs, chan := t.chan, evHeld := t.evHeld, evCap := t.evCap, evWin := t.evWin, free := t.free, mem := t.mem, ms := t.ms } = t) ∧
      (headWaits s = false → sameRegs [0, 1, 9] s t)) ∧
  (∀ (s : State) (n voc iop : Nat), 1500 < voc ∨ 1200000 < iop →
    exec (.harvestSample n voc iop) s = .fault .outsideOperatingConditions)

/-- LEDGER_TICK inside the ratings, with less than 1 µAh gathered: HRV_SUPPLY is the two voltages, E is C (VSTO² - VFLOOR²) /
2 with both inputs held to their ranges, HOLDRDY says whether the load's supply reaches 1.8 V (a store that waits at the head
of the store buffer is then written), the charge adds up (its operand is the model's, log entry 79; the I/O groups are set by
it too, log entry 67), and from the second tick on VUP or VDN crossed (what counts as crossed is the model's choice, log entry
49) sets WAKEUP or WAKEDN. CAP_MEASURE_START (a write of HRV_CAPMEAS with START that reaches it) sets CAPBUSY, or, with VSTO
below 2.1 V, the load on the cell or a measurement running, RESULT 2 and CAPDONE. CAP_MEASURE_DONE ends it: the value, by the
TSEL that stands then (log entry 48) and rounded down (log entry 101), goes to HRV_CAP with RESULT 0 where it lies in 470 to
47000 units of 0.1 mF (47 mF to 4.7 F), else RESULT 1 and HRV_CAP stays. Voltages outside the ratings stop the model (log
entry 10). -/
def Obligations.TickAndCapacitance : Prop :=
  (∀ (s : State) (vsto vbat charge vio : Nat),
    s.por = false → tickOk s vsto vbat = true → vioOk s vio = true → bitOf vio 1 = true → vbat < 4096 →
    s.led.chargeRem + charge < 3600 → (s.boot = none ∨ (if s.on HRV_STAT_SRC then vbat else vsto) < 1800) →
    ∃ t, exec (.ledgerTick vsto vbat charge vio) s = .next t ∧
      t.get HRV_SUPPLY_VSTO = vsto ∧ t.get HRV_SUPPLY_VBAT = vbat ∧
      t.get HRV_EAVAIL_EAVAIL = unsgn 32 ((((min (max (s.get HRV_CAP_CAP) 470) 47000) : Nat) : Int) * ((vsto : Int) * vsto - (((min (max (s.get HRV_FLOOR_FLOOR) 1800) 3500) : Nat) : Int) * ((min (max (s.get HRV_FLOOR_FLOOR) 1800) 3500) : Nat)) / 20000) ∧
      t.led.capEff = (min (max (s.get HRV_CAP_CAP) 470) 47000) ∧
      t.led.floorEff = (min (max (s.get HRV_FLOOR_FLOOR) 1800) 3500) ∧ t.led.chargeRem = s.led.chargeRem + charge ∧
      (t.get NVS_STAT_HOLDRDY = if 1800 ≤ (if s.on HRV_STAT_SRC then vbat else vsto) then 1 else 0) ∧
      (s.get HRV_WAKETH_VUP ≠ 0 → s.led.ticked = true → s.get HRV_SUPPLY_VSTO < s.get HRV_WAKETH_VUP → s.get HRV_WAKETH_VUP ≤ vsto → t.get HRV_EVT_WAKEUP = 1) ∧
      (s.get HRV_WAKETH_VDN ≠ 0 → s.led.ticked = true → s.get HRV_WAKETH_VDN ≤ s.get HRV_SUPPLY_VSTO → vsto < s.get HRV_WAKETH_VDN → t.get HRV_EVT_WAKEDN = 1) ∧
      t.vio = vio % 16 ∧
      (noneWaits s = true → { s with regs := t.regs, led := t.led, evHeld := t.evHeld, evCap := t.evCap, evWin := t.evWin, free := t.free, vio := t.vio } = t) ∧
      (noneWaits s = true → sameRegs [0, 1, 9] s t)) ∧
  (∀ (s : State) (vsto vbat charge vio : Nat) (st : Store) (rest : List Store),
    s.por = false → tickOk s vsto vbat = true → vioOk s vio = true → bitOf vio 1 = true →
    1800 ≤ (if s.on HRV_STAT_SRC then vbat else vsto) → s.led.chargeRem + charge < 3600 → s.dx.stores = st :: rest →
    st.size = 4 → st.addr % 4 = 0 → inNv st.addr = true → s.on NVS_STAT_HOLDRDY = false → s.nvs.moving = none →
    s.dx.mcPend = false → s.boot = none → ∃ t, exec (.ledgerTick vsto vbat charge vio) s = .next t ∧
      t.get NVS_STAT_HOLDRDY = 1 ∧ t.dx.stores = rest ∧ t.rd st.addr 4 = st.val % 2 ^ 32 ∧
      (∀ a, (a < st.addr ∨ st.addr + 4 ≤ a) → t.byte a = s.byte a)) ∧
  (∀ (s : State) (vsto vbat charge vio : Nat), (tickOk s vsto vbat && vioOk s vio) = false →
    exec (.ledgerTick vsto vbat charge vio) s = .fault .outsideOperatingConditions) ∧
  (∀ (s : State) (m : Master) (v : Word) (vsto : Nat),
    s.por = false → s.reaches m 0x40001038 1 v.toNat = true → v.toNat % 2 = 1 → 2100 ≤ vsto → vsto ≤ 4000 →
    s.on HRV_STAT_SRC = false → s.on HRV_STAT_CAPBUSY = false → ∃ t, exec (.capMeasureStart m v vsto) s = .next t ∧
      t.get HRV_STAT_CAPBUSY = 1 ∧ t.get HRV_CAPMEAS_TSEL = v.toNat / 2 % 8 ∧
      t.get HRV_CAPMEAS_RESULT = s.get HRV_CAPMEAS_RESULT ∧ t.bus = .ok 0 ∧ { s with regs := t.regs, bus := t.bus } = t ∧
      sameRegs [1] s t) ∧
  (∀ (s : State) (m : Master) (v : Word) (vsto : Nat),
    s.por = false → s.reaches m 0x40001038 1 v.toNat = true → v.toNat % 2 = 1 → vsto ≤ 4000 →
    (vsto < 2100 ∨ s.on HRV_STAT_SRC = true ∨ s.on HRV_STAT_CAPBUSY = true) →
    ∃ t, exec (.capMeasureStart m v vsto) s = .next t ∧
      t.get HRV_CAPMEAS_RESULT = 2 ∧ t.get HRV_EVT_CAPDONE = 1 ∧ t.get HRV_STAT_CAPBUSY = s.get HRV_STAT_CAPBUSY ∧
      t.bus = .ok 0 ∧
      { s with regs := t.regs, evHeld := t.evHeld, evCap := t.evCap, evWin := t.evWin, free := t.free, bus := t.bus } = t ∧
      sameRegs [1] s t) ∧
  (∀ (s : State) (m : Master) (v : Word) (vsto : Nat), s.por = false → 4000 < vsto →
    exec (.capMeasureStart m v vsto) s = .fault .outsideOperatingConditions) ∧
  (∀ (s : State) (v0 v1 v2 : Nat),
    s.por = false → s.on HRV_STAT_CAPBUSY = true → v0 ≤ 4000 → v1 ≤ 4000 → v2 ≤ 4000 → 0 < (v1 - v2 : Int) - (v0 - v1) →
    470 ≤ (100 * (capT s : Int) / ((v1 - v2 : Int) - (v0 - v1))) →
    (100 * (capT s : Int) / ((v1 - v2 : Int) - (v0 - v1))) ≤ 47000 → ∃ t, exec (.capMeasureDone v0 v1 v2) s = .next t ∧
      (t.get HRV_CAP_CAP : Int) = (100 * (capT s : Int) / ((v1 - v2 : Int) - (v0 - v1))) ∧ t.get HRV_CAPMEAS_RESULT = 0 ∧
      t.get HRV_STAT_CAPBUSY = 0 ∧ t.get HRV_EVT_CAPDONE = 1 ∧
      { s with regs := t.regs, evHeld := t.evHeld, evCap := t.evCap, evWin := t.evWin, free := t.free } = t ∧ sameRegs [1] s t) ∧
  (∀ (s : State) (v0 v1 v2 : Nat),
    s.por = false → s.on HRV_STAT_CAPBUSY = true → v0 ≤ 4000 → v1 ≤ 4000 → v2 ≤ 4000 →
    ((v1 - v2 : Int) - (v0 - v1) ≤ 0 ∨ (100 * (capT s : Int) / ((v1 - v2 : Int) - (v0 - v1))) < 470 ∨ 47000 < (100 * (capT s : Int) / ((v1 - v2 : Int) - (v0 - v1)))) →
    ∃ t, exec (.capMeasureDone v0 v1 v2) s = .next t ∧
      t.get HRV_CAP_CAP = s.get HRV_CAP_CAP ∧ t.get HRV_CAPMEAS_RESULT = 1 ∧ t.get HRV_STAT_CAPBUSY = 0 ∧
      t.get HRV_EVT_CAPDONE = 1 ∧
      { s with regs := t.regs, evHeld := t.evHeld, evCap := t.evCap, evWin := t.evWin, free := t.free } = t ∧ sameRegs [1] s t)

/-- RESERVATION_PREREQUEST (a write of HRV_RESREQ that reaches it) of class 0, 1, 3 or 4 and a nonzero amount: where the
ledger admits it, RESULT is OK, TICKET the lowest free ticket (the model's choice, log entry 44), PEND 1, and the ledger holds
it unbound for the writer's tag; where it does not, RESULT is the ledger's status and no reservation, nor TICKET and PEND (the
model's choice, log entry 101), changes. Class 2, a class above 4 or amount 0 is BADPARAM. RESERVATION_RELEASE by the tag that
holds the unbound ticket drops it; by another tag it is ignored. PRERESERVATION_TIMEOUT of an unbound ticket with no tick left
drops it, and one with ticks left changes nothing (log entry 11). The ledger decides every request of this statement and of
every burst so: with eight reservations outstanding BUSY; else OK at its amount where that does not exceed the free energy and
the floor has not tripped; else OK at amount zero where PRIMADMIT has the class and PRIMOK=1; else NO_ENERGY. -/
def Obligations.Reservations : Prop :=
  (∀ (s : State) (cls amount : Nat),
    let free : Int := sgn 32 (s.get HRV_EAVAIL_EAVAIL) - (s.get HRV_ERESV_ERESV : Int)
    let covered := (amount : Int) ≤ free ∧ s.on HRV_STAT_FLOOR = false
    let cell := bitOf (s.get HRV_POLICY_PRIMADMIT) cls = true ∧ s.on HRV_STAT_PRIMOK = true
    (8 ≤ s.led.res.length → (decide81 s cls amount).1 = 1) ∧
    (s.led.res.length < 8 → covered → decide81 s cls amount = (0, amount)) ∧
    (s.led.res.length < 8 → ¬covered → cell → decide81 s cls amount = (0, 0)) ∧
    (s.led.res.length < 8 → ¬covered → ¬cell → (decide81 s cls amount).1 = 9)) ∧
  (∀ (s : State) (m : Master) (v : Word) (cls a : Nat),
    s.por = false → s.reaches m 0x40001050 1 v.toNat = true → bitsOf v.toNat 20 3 = cls → cls ≠ 2 → cls ≤ 4 →
    bitsOf v.toNat 0 20 ≠ 0 → decide81 s cls (bitsOf v.toNat 0 20) = (stOk, a) →
    ∃ t, exec (.reservationPrerequest m v) s = .next t ∧
      t.get HRV_RESSTAT_RESULT = 0 ∧ t.get HRV_RESSTAT_TICKET = freeTicket s.led.res ∧ t.get HRV_RESSTAT_PEND = 1 ∧
      t.led.res = s.led.res ++ [⟨cls, a, masterTag s m, some (freeTicket s.led.res), false, if s.get HRV_POLICY_BINDTO = 0 then 16 else s.get HRV_POLICY_BINDTO⟩] ∧
      t.get HRV_ERESV_ERESV = ((s.led.res.map (·.amount)).sum + a) % 2 ^ 24 ∧ t.bus = .ok 0 ∧
      { s with regs := t.regs, led := t.led, bus := t.bus } = t ∧ sameRegs [1] s t) ∧
  (∀ (s : State) (m : Master) (v : Word) (cls r a : Nat),
    s.por = false → s.reaches m 0x40001050 1 v.toNat = true → bitsOf v.toNat 20 3 = cls → cls ≠ 2 → cls ≤ 4 →
    bitsOf v.toNat 0 20 ≠ 0 → decide81 s cls (bitsOf v.toNat 0 20) = (r, a) → r ≠ stOk →
    ∃ t, exec (.reservationPrerequest m v) s = .next t ∧
      t.get HRV_RESSTAT_RESULT = r % 256 ∧ t.get HRV_RESSTAT_PEND = s.get HRV_RESSTAT_PEND ∧
      t.get HRV_RESSTAT_TICKET = s.get HRV_RESSTAT_TICKET ∧ t.bus = .ok 0 ∧ { s with regs := t.regs, bus := t.bus } = t ∧
      sameRegs [1] s t) ∧
  (∀ (s : State) (m : Master) (v : Word),
    s.por = false → s.reaches m 0x40001050 1 v.toNat = true →
    (bitsOf v.toNat 20 3 = 2 ∨ 4 < bitsOf v.toNat 20 3 ∨ bitsOf v.toNat 0 20 = 0) →
    ∃ t, exec (.reservationPrerequest m v) s = .next t ∧
      t.get HRV_RESSTAT_RESULT = 5 ∧ { s with regs := t.regs, bus := t.bus } = t ∧ sameRegs [1] s t) ∧
  (∀ (s : State) (m : Master) (v : Word) (r : Resv),
    s.por = false → s.reaches m 0x40001058 1 v.toNat = true → ticketOf s (v.toNat % 8) = some r → r.tag = masterTag s m →
    r.bound = false → ∃ t, exec (.reservationRelease m v) s = .next t ∧
      (t.led.res = dropFirst (fun r => r.ticket == some (v.toNat % 8) && !r.bound) s.led.res) ∧
      t.led.res.length + 1 = s.led.res.length ∧ { s with regs := t.regs, led := t.led, bus := t.bus } = t ∧ sameRegs [1] s t) ∧
  (∀ (s : State) (m : Master) (v : Word) (r : Resv),
    s.por = false → s.reaches m 0x40001058 1 v.toNat = true → ticketOf s (v.toNat % 8) = some r →
    (r.tag ≠ masterTag s m ∨ r.bound = true) → ∃ t, exec (.reservationRelease m v) s = .next t ∧
      { s with bus := t.bus } = t) ∧
  (∀ (s : State) (k : Nat) (r : Resv),
    s.por = false → ticketOf s k = some r → r.bound = false → r.left = 0 → ∃ t, exec (.prereservationTimeout k) s = .next t ∧
      (t.led.res = dropFirst (fun r => r.ticket == some k && !r.bound) s.led.res) ∧ t.led.res.length + 1 = s.led.res.length ∧
      { s with regs := t.regs, led := t.led } = t ∧ sameRegs [1] s t) ∧
  (∀ (s : State) (k : Nat) (r : Resv),
    s.por = false → ticketOf s k = some r → (r.bound = true ∨ r.left ≠ 0) → ∃ t, exec (.prereservationTimeout k) s = .next t ∧
      t = s)

/-- REGISTER_WRITE that reaches a register without an effect of its own changes each of its fields by its access code and no
other field of the page; one of an SRAM word outside live copies, with no wipe running, of an NV word with the hold capacitor
ready, and of a DRAM word in a burst without error writes the four bytes and no other (an NV word with the capacitor not ready
is written or answers an error); one the guard refuses changes nothing but the refusal's record (with none held) and the bus
answer; one at a bad address answers a bus error and changes nothing; of the core's, the first enters slot 9 and the second
slot 8, or 5 where it is misaligned, at the bundle the core stands at (where it stands is the model's choice, log entry 63), a
standing repeat keeping its count in REPST; a store of the core while a machine check is pending counts in LATER. ALIAS_WRITE
sets or clears the word's bits, the core's through the store buffer; to the mover, the link engine and the display engine it
is a bus error. READ_CLEAR of a register with counters cleared by reading answers the register and clears them.
WATCHDOG_SERVICE with 0x3C96 reloads REMAIN with 128 times PERIOD, with any other value sets BADSVC. The guard on a word for
the core, the mover and the debug port: a ROM is refused with reason 4, bank 6 with 1, a write of a live table copy with 2;
banks 0 and 1 are open at M and to the port, and to the core and mover at S or U as the first enabled region that holds the
address, else DEFS or DEFU, has the bit, or refused with 3. The NV regions are read with the right of R410's table, given here
for the store, else refused with 1; records and tallies take no bus write. -/
def Obligations.BusAccesses : Prop :=
  (∀ (s : State) (m : Master) (p a v : Nat), m = .core ∨ m = .mover ∨ m = .dap → ¬(m = .dap ∧ p = 0) →
    let hit := fun r => s.on (MEM_RGNATTR_EN r) = true ∧ s.get (MEM_RGNBASE_ADDR r) ≤ a / 32 ∧ a / 32 ≤ s.get (MEM_RGNLIM_ADDR r)
    let low := 0x10000000 ≤ a ∧ a < 0x10200000
    let prog := (m = .core ∨ m = .mover) ∧ (p = 9 ∨ p = 10)
    (a < 0x20000 → ∀ k, access s m p a 4 k v = .refuse 4) ∧
    (0x103C0000 ≤ a ∧ a < 0x103E0000 → ∀ k, access s m p a 4 k v = .refuse 1) ∧
    (0x10200000 ≤ a ∧ a < 0x10300000 → inLiveCopy s a = true → access s m p a 4 1 v = .refuse 2) ∧
    (low → ¬prog → ∀ k, access s m p a 4 k v = .ok) ∧
    (low → prog → ∀ r, r < 16 → hit r → (∀ q, q < r → ¬hit q) →
      access s m p a 4 0 v = (if s.on (if p = 9 then MEM_RGNATTR_SR r else MEM_RGNATTR_UR r) then .ok else .refuse 3) ∧
      access s m p a 4 1 v = (if s.on (if p = 9 then MEM_RGNATTR_SW r else MEM_RGNATTR_UW r) then .ok else .refuse 3)) ∧
    (low → prog → (∀ r, r < 16 → ¬hit r) → ∀ k, k < 2 →
      access s m p a 4 k v = if bitOf (s.get (if p = 9 then MEM_RGCFG_DEFS else MEM_RGCFG_DEFU)) k then .ok else .refuse 3) ∧
    (inNv a = true → p ≠ 9 → p ≠ 10 → access s m p a 4 0 v = if right s (nvAsset a) p false then .ok else .refuse 1) ∧
    (0x201A0000 ≤ a ∧ a < 0x201E4000 → p ≠ 9 → p ≠ 10 → right s (nvAsset a) p true = true → access s m p a 4 1 v = .busErr)) ∧
  (∀ (s : State) (p : Nat) (w : Bool),
    let l := lcState s
    let mfr := 1 ≤ l ∧ l ≤ 3
    let fr := l = 2 ∨ l = 3
    let owner := l = 2 ∧ (p = 3 ∨ (p = 8 ∨ p = 9) ∧ w = false ∧ s.on SEC_FWSTAT_ACCEPT = true)
    (right s .vendor p w = true ↔ p = 1 ∧ (w = true → l = 0)) ∧
    (right s .image p w = true ↔ mfr ∧ (p = 2 ∨ p = 8)) ∧
    (right s .calib p w = true ↔ mfr ∧ (p = 2 ∨ p = 8 ∨ p = 9 ∧ w = false) ∨ fr ∧ p = 4) ∧
    (right s .recipes p w = true ↔ owner) ∧ (right s .ownerRecords p w = true ↔ owner) ∧
    (right s .makerRecords p w = true ↔ mfr ∧ (p = 2 ∨ p = 8 ∨ p = 9) ∨ fr ∧ p = 4 ∧ w = false) ∧
    (right s .tallies p w = true ↔ mfr ∧ (p = 2 ∧ (w = true → l = 1) ∨ p = 8 ∨ p = 9) ∨
      w = false ∧ (p = 1 ∧ 1 ≤ l ∨ p = 3 ∧ l = 2 ∨ p = 4 ∧ fr)) ∧
    (right s .log p w = true ↔ w = false ∧ (p = 1 ∧ 1 ≤ l ∨ mfr ∧ (p = 2 ∨ p = 8 ∨ p = 9) ∨ p = 3 ∧ l = 2 ∨ p = 4 ∧ fr))) ∧
  (∀ (s : State) (m : Master) (addr v : Word),
    s.por = false → s.reaches m addr.toNat 1 v.toNat = true → plainReg addr.toNat = true →
    ∃ t, exec (.registerWrite m addr v) s = .next t ∧
      (∀ f ∈ fieldsAt addr.toNat, t.get f = fieldAfter s (addr.toNat / 4096 == 0x40003 && s.on MEM_RGCFG_LOCK) v.toNat f) ∧
      (∀ f ∈ pageFields (addr.toNat / 4096), f.addr ≠ addr.toNat → t.get f = s.get f) ∧ t.bus = .ok 0 ∧
      { s with regs := t.regs, bus := t.bus } = t ∧ sameRegs [0, addr.toNat / 4096 - 0x40000] s t) ∧
  (∀ (s : State) (m : Master) (addr v : Word),
    s.por = false → s.reaches m addr.toNat 1 v.toNat = true → addr.toNat % 4 = 0 → inSram addr.toNat = true →
    inLiveCopy s addr.toNat = false → s.ms.wipeQ = [] → ∃ t, exec (.registerWrite m addr v) s = .next t ∧
      t.rd addr.toNat 4 = v.toNat ∧ (∀ a, (a < addr.toNat ∨ addr.toNat + 4 ≤ a) → t.byte a = s.byte a) ∧ t.bus = .ok 0 ∧
      { s with mem := t.mem, ms := t.ms, regs := t.regs, free := t.free, bus := t.bus } = t ∧ sameRegs [0, 3] s t) ∧
  (∀ (s : State) (m : Master) (addr v : Word),
    s.por = false → s.reaches m addr.toNat 1 v.toNat = true → addr.toNat % 4 = 0 → inNv addr.toNat = true →
    s.nvs.moving = none → s.nvs.yielded = false → s.on NVS_STAT_HOLDRDY = true →
    ∃ t, exec (.registerWrite m addr v) s = .next t ∧
      t.rd addr.toNat 4 = v.toNat ∧ (∀ a, (a < addr.toNat ∨ addr.toNat + 4 ≤ a) → t.byte a = s.byte a) ∧ t.bus = .ok 0 ∧
      t.nvs = { s.nvs with yielded := t.nvs.yielded } ∧
      { s with mem := t.mem, ms := t.ms, nvs := t.nvs, regs := t.regs, bus := t.bus } = t ∧ sameRegs [0] s t) ∧
  (∀ (s : State) (m : Master) (addr v : Word),
    s.por = false → s.reaches m addr.toNat 1 v.toNat = true → m ≠ .core → addr.toNat % 4 = 0 → inNv addr.toNat = true →
    s.nvs.moving = none → s.nvs.yielded = false → s.on NVS_STAT_HOLDRDY = false →
    ∃ t, exec (.registerWrite m addr v) s = .next t ∧
      (t.bus = .ok 0 ∧ t.get NVS_STAT_HOLDRDY = 1 ∧ t.rd addr.toNat 4 = v.toNat ∨ t.bus = .uncorrectable addr.toNat ∧ t.mem = s.mem) ∧
      (∀ a, (a < addr.toNat ∨ addr.toNat + 4 ≤ a) → t.byte a = s.byte a) ∧ t.nvs = { s.nvs with yielded := t.nvs.yielded } ∧
      { s with mem := t.mem, ms := t.ms, nvs := t.nvs, regs := t.regs, free := t.free, bus := t.bus } = t ∧ sameRegs [0, 9] s t) ∧
  (∀ (s : State) (m : Master) (addr v : Word) (b : Nat) (l : List Byte),
    s.por = false → s.reaches m addr.toNat 1 v.toNat = true → addr.toNat % 4 = 0 → inDram addr.toNat = true →
    s.get DRM_STAT_UNWIPED = 0 → b = addr.toNat - addr.toNat % 32 → rsDecode (burstOf s b) = some (l, false) →
    s.ms.ckl.length < 64 → ∃ t, exec (.registerWrite m addr v) s = .next t ∧
      t.rd addr.toNat 4 = v.toNat ∧ (∀ a, (a < addr.toNat ∨ addr.toNat + 4 ≤ a) → t.byte a = s.byte a) ∧
      t.get PWR_DOMSTAT_MEM = 2 ∧ t.ms = { s.ms with ckl := t.ms.ckl } ∧ t.bus = .ok 0 ∧
      { s with mem := t.mem, ms := t.ms, regs := t.regs, bus := t.bus } = t ∧ sameRegs [0] s t) ∧
  (∀ (s : State) (m : Master) (addr v : Word) (r : Nat),
    s.por = false → masterActs s m = true → m ≠ .core → addr.toNat % 4 = 0 →
    access s m (masterTag s m) addr.toNat 4 1 v.toNat = .refuse r → s.on MEM_RGFSTAT_VALID = false →
    ∃ t, exec (.registerWrite m addr v) s = .next t ∧
      t.bus = .guard addr.toNat ∧ t.get MEM_RGFSTAT_VALID = 1 ∧ t.get MEM_RGFSTAT_REASON = r % 8 ∧
      t.get MEM_RGFSTAT_MASTER = masterCode m ∧ t.get MEM_RGFSTAT_PRIN = masterTag s m % 16 ∧ t.get MEM_RGFSTAT_WRITE = 1 ∧
      t.get MEM_RGFSTAT_FETCH = 0 ∧ t.get MEM_RGFADDR_ADDR = addr.toNat ∧ t.get MEM_EVT_RGF = 1 ∧
      { s with regs := t.regs, bus := t.bus } = t ∧ sameRegs [3] s t) ∧
  (∀ (s : State) (addr v : Word) (r : Nat),
    s.por = false → coreRuns s = true → s.dx.stores = [] → s.dx.loads = [] → s.dx.rep = none → s.dx.armShadow = false →
    addr.toNat % 4 = 0 → dueEntry s = none → access s .core (coreTag s) addr.toNat 4 1 v.toNat = .refuse r →
    s.on CORE_STATUS_EL = false → ∃ t, exec (.registerWrite .core addr v) s = .next t ∧
      entered s t 9 s.dx.pc 0 (handleLevel s 9) (some addr.toNat) (s.get CORE_STATUS_THR) ∧ t.on MEM_RGFSTAT_VALID = true ∧
      (t.get MEM_RGFSTAT_OVR = if s.on MEM_RGFSTAT_VALID then 1 else s.get MEM_RGFSTAT_OVR) ∧ t.bus = .guard addr.toNat ∧
      { s with regs := t.regs, dx := t.dx, bus := t.bus } = t ∧ sameRegs [2, 3] s t) ∧
  (∀ (s : State) (addr v : Word) (k : Nat),
    s.por = false → coreRuns s = true → s.dx.stores = [] → s.dx.loads = [] → s.dx.rep = none → s.dx.armShadow = false →
    dueEntry s = none → (addr.toNat % 4 ≠ 0 ∨ access s .core (coreTag s) addr.toNat 4 1 v.toNat = .busErr) →
    s.on CORE_STATUS_EL = false → (k = if addr.toNat % 4 = 0 then 8 else 5) →
    ∃ t, exec (.registerWrite .core addr v) s = .next t ∧
      entered s t k s.dx.pc 0 (handleLevel s k) (some addr.toNat) (s.get CORE_STATUS_THR) ∧ t.bus = .busError addr.toNat ∧
      { s with regs := t.regs, dx := t.dx, bus := t.bus } = t ∧ sameRegs [2] s t) ∧
  (∀ (s : State) (m : Master) (addr v : Word),
    s.por = false → masterActs s m = true → m ≠ .core →
    (addr.toNat % 4 ≠ 0 ∨ access s m (masterTag s m) addr.toNat 4 1 v.toNat = .busErr) →
    ∃ t, exec (.registerWrite m addr v) s = .next t ∧
      t.bus = .busError addr.toNat ∧ { s with bus := t.bus } = t) ∧
  (∀ (s : State) (addr v : Word),
    s.por = false → masterActs s .core = true → s.dx.stores = [] → s.dx.mcPend = true →
    access s .core (coreTag s) addr.toNat 4 1 v.toNat = .ok → addr.toNat % 4 = 0 → inSram addr.toNat = true →
    inLiveCopy s addr.toNat = false → s.ms.wipeQ = [] → ∃ t, exec (.registerWrite .core addr v) s = .next t ∧
      t.rd addr.toNat 4 = v.toNat ∧ (∀ a, (a < addr.toNat ∨ addr.toNat + 4 ≤ a) → t.byte a = s.byte a) ∧
      t.get CORE_BEINFO_LATER = min 255 (s.get CORE_BEINFO_LATER + 1) ∧ t.bus = .ok 0 ∧
      { s with mem := t.mem, ms := t.ms, regs := t.regs, free := t.free, bus := t.bus } = t ∧ sameRegs [0, 2, 3] s t) ∧
  (∀ (s : State) (addr v : Word) (k : Nat) (r : Rep),
    s.por = false → coreRuns s = true → s.dx.stores = [] → s.dx.loads = [] → s.dx.rep = some r → r.kind ≠ 2 → r.count < 1024 →
    s.dx.armShadow = false → addr.toNat % 4 = 0 → dueEntry s = none →
    access s .core (coreTag s) addr.toNat 4 1 v.toNat = .refuse k → s.on CORE_STATUS_EL = false →
    ∃ t, exec (.registerWrite .core addr v) s = .next t ∧
      t.get CORE_ECAUSE_SLOT = 9 ∧ t.get CORE_EPC_ADDR = s.dx.pc / 4 % 2 ^ 30 ∧ t.get CORE_REPST_VALID = 1 ∧
      t.get CORE_REPST_REMAIN = r.count ∧ t.bus = .guard addr.toNat ∧ { s with regs := t.regs, dx := t.dx, bus := t.bus } = t ∧
      sameRegs [2, 3] s t) ∧
  (∀ (s : State) (addr v : Word),
    s.por = false → s.reaches .core addr.toNat 1 v.toNat = true → addr.toNat % 4 = 0 →
    (inSet addr.toNat || inClr addr.toNat) = true → s.on CORE_EXCCFG_STBUF = true →
    ∃ t, exec (.aliasWrite .core addr v) s = .next t ∧
      t.dx = { s.dx with stores := [⟨addr.toNat, 4, v.toNat, if inSet addr.toNat then 1 else 2, coreTag s⟩], drainDue := false } ∧
      t.bus = .ok 0 ∧ { s with dx := t.dx, bus := t.bus } = t) ∧
  (∀ (s : State) (st : Store) (rest : List Store) (w : Nat),
    s.por = false → s.dx.stores = st :: rest → st.size = 4 → st.addr % 4 = 0 → st.kind = (if inSet st.addr then 1 else 2) →
    (inSet st.addr || inClr st.addr) = true → w = unalias st.addr → inLiveCopy s w = false → s.ms.wipeQ = [] →
    s.ms.sramErr = [] → s.dx.mcPend = false → ∃ t, exec (.bufferedStoreComplete) s = .next t ∧
      t.dx.stores = rest ∧
      (t.rd w 4 = if inSet st.addr then s.rd w 4 ||| st.val % 2 ^ 32 else s.rd w 4 - (s.rd w 4 &&& st.val % 2 ^ 32)) ∧
      (∀ a, (a < w ∨ w + 4 ≤ a) → t.byte a = s.byte a) ∧
      { s with dx := t.dx, mem := t.mem, ms := t.ms, regs := t.regs, free := t.free } = t ∧ sameRegs [0, 3] s t) ∧
  (∀ (s : State) (m : Master) (addr v : Word),
    s.por = false → m ∈ [.mover, .link, .display] → (inSet addr.toNat || inClr addr.toNat) = true →
    ∃ t, exec (.aliasWrite m addr v) s = .next t ∧
      t.bus = .busError addr.toNat ∧ { s with bus := t.bus } = t) ∧
  (∀ (s : State) (m : Master) (addr v : Word) (w : Nat),
    s.por = false → s.reaches m addr.toNat 1 v.toNat = true → (m = .core → s.on CORE_EXCCFG_STBUF = false) →
    addr.toNat % 4 = 0 → (inSet addr.toNat || inClr addr.toNat) = true → w = unalias addr.toNat → inLiveCopy s w = false →
    s.ms.wipeQ = [] → s.ms.sramErr = [] → ∃ t, exec (.aliasWrite m addr v) s = .next t ∧
      (t.rd w 4 = if inSet addr.toNat then s.rd w 4 ||| v.toNat else s.rd w 4 - (s.rd w 4 &&& v.toNat)) ∧
      (∀ a, (a < w ∨ w + 4 ≤ a) → t.byte a = s.byte a) ∧ t.bus = .ok 0 ∧
      { s with mem := t.mem, ms := t.ms, regs := t.regs, free := t.free, bus := t.bus } = t ∧ sameRegs [0, 3] s t) ∧
  (∀ (s : State) (m : Master) (addr : Word),
    s.por = false → s.reaches m addr.toNat 0 0 = true → addr.toNat ∈ rcRegs → ∃ t, exec (.readClear m addr) s = .next t ∧
      t.bus = .ok (readFields (pageWake s addr.toNat) addr.toNat) ∧ (∀ f ∈ fieldsAt addr.toNat, f.acc = .rc → t.get f = 0) ∧
      { s with regs := t.regs, bus := t.bus } = t ∧ sameRegs [0, addr.toNat / 4096 - 0x40000] s t) ∧
  (∀ (s : State) (m : Master) (v : Word),
    s.por = false → s.reaches m 0x40000044 1 v.toNat = true → v.toNat % 65536 = 0x3C96 →
    ∃ t, exec (.watchdogService m v) s = .next t ∧
      t.get PWR_WDSTAT_REMAIN = 128 * max 1 (s.get PWR_WDCFG_PERIOD) % 2 ^ 24 ∧
      t.get PWR_WDSTAT_BADSVC = s.get PWR_WDSTAT_BADSVC ∧ { s with regs := t.regs, bus := t.bus } = t ∧ sameRegs [0] s t) ∧
  (∀ (s : State) (m : Master) (v : Word),
    s.por = false → s.reaches m 0x40000044 1 v.toNat = true → v.toNat % 65536 ≠ 0x3C96 →
    ∃ t, exec (.watchdogService m v) s = .next t ∧
      t.get PWR_WDSTAT_BADSVC = 1 ∧ t.get PWR_WDSTAT_REMAIN = s.get PWR_WDSTAT_REMAIN ∧
      { s with regs := t.regs, bus := t.bus } = t ∧ sameRegs [0] s t)

/-- While no custom instruction holds writes back, which none does between commands, with CORE_UCFG.LOCK=0 a write of
CORE_USDLO stages the low word; one of CORE_USDHI writes the microword at CORE_USADDR with its parity, steps the address and
GEN; with LOCK=1 both change nothing of the core. A read of CORE_USDLO answers the low word and latches the high one; a read
of CORE_USDHI answers that and steps the address. A read of CORE_CYCLO answers the low word of the cycle counter and latches
the high one. A write of CORE_SWRST with 0x5A3C, with no entry and no sequence under way, is a software reset of cause 7 that
clears the core; any other value does nothing. -/
def Obligations.CoreWindows : Prop :=
  (∀ (s : State) (m : Master) (v : Word),
    s.por = false → s.reaches m 0x4000224C 1 v.toNat = true → s.dx.usHeld = none → s.on CORE_UCFG_LOCK = false →
    ∃ t, exec (.microstoreWriteLow m v) s = .next t ∧
      t.dx = { s.dx with usLo := v.toNat } ∧ t.bus = .ok 0 ∧ { s with dx := t.dx, regs := t.regs, bus := t.bus } = t ∧
      sameRegs [0] s t) ∧
  (∀ (s : State) (m : Master) (v : Word),
    s.por = false → s.reaches m 0x4000224C 1 v.toNat = true → s.dx.usHeld = none → s.on CORE_UCFG_LOCK = true →
    ∃ t, exec (.microstoreWriteLow m v) s = .next t ∧
      t.bus = .ok 0 ∧ { s with regs := t.regs, bus := t.bus } = t ∧ sameRegs [0] s t) ∧
  (∀ (s : State) (m : Master) (v : Word) (k : Nat),
    s.por = false → s.reaches m 0x40002250 1 v.toNat = true → s.dx.usHeld = none → s.on CORE_UCFG_LOCK = false →
    s.get CORE_USADDR_ADDR = k → ∃ t, exec (.microstoreWriteHigh m v) s = .next t ∧
      Sparse.look 0 t.dx.ustore k = s.dx.usLo + v.toNat * 2 ^ 32 ∧
      (∀ j, j < 512 → j ≠ k → Sparse.look 0 t.dx.ustore j = Sparse.look 0 s.dx.ustore j) ∧
      (t.dx.uBad = s.dx.uBad.filter fun j => !(j == k)) ∧ t.get CORE_USADDR_ADDR = (k + 1) % 512 ∧
      t.get CORE_UCFG_GEN = (s.get CORE_UCFG_GEN + 1) % 256 ∧ t.dx.g = s.dx.g ∧
      { s with dx := t.dx, regs := t.regs, bus := t.bus } = t ∧ sameRegs [0, 2] s t) ∧
  (∀ (s : State) (m : Master) (v : Word),
    s.por = false → s.reaches m 0x40002250 1 v.toNat = true → s.dx.usHeld = none → s.on CORE_UCFG_LOCK = true →
    ∃ t, exec (.microstoreWriteHigh m v) s = .next t ∧
      t.bus = .ok 0 ∧ { s with regs := t.regs, bus := t.bus } = t ∧ sameRegs [0] s t) ∧
  (∀ (s : State) (m : Master) (w : Nat),
    s.por = false → s.reaches m 0x4000224C 0 0 = true → w = Sparse.look 0 s.dx.ustore (s.get CORE_USADDR_ADDR) →
    ∃ t, exec (.microstoreReadLow m) s = .next t ∧
      t.bus = .ok (w % 2 ^ 32) ∧ t.dx = { s.dx with usHi := w / 2 ^ 32 } ∧
      { s with dx := t.dx, regs := t.regs, bus := t.bus } = t ∧ sameRegs [0] s t) ∧
  (∀ (s : State) (m : Master),
    s.por = false → s.reaches m 0x40002250 0 0 = true → ∃ t, exec (.microstoreReadHigh m) s = .next t ∧
      t.bus = .ok s.dx.usHi ∧ t.get CORE_USADDR_ADDR = (s.get CORE_USADDR_ADDR + 1) % 512 ∧
      { s with regs := t.regs, bus := t.bus } = t ∧ sameRegs [0, 2] s t) ∧
  (∀ (s : State) (m : Master),
    s.por = false → s.reaches m 0x40002008 0 0 = true → ∃ t, exec (.cycleCounterRead m) s = .next t ∧
      t.bus = .ok (s.dx.cyc % 2 ^ 32) ∧ t.get CORE_CYCHI_COUNT = s.dx.cyc / 2 ^ 32 % 2 ^ 32 ∧
      { s with regs := t.regs, bus := t.bus } = t ∧ sameRegs [0, 2] s t) ∧
  (∀ (s : State) (m : Master) (v : Word),
    s.por = false → s.reaches m 0x400020B0 1 v.toNat = true → v.toNat % 65536 = 0x5A3C → s.boot = none → s.pwr.entry = none →
    ∃ t, exec (.coreSoftwareResetWrite m v) s = .next t ∧
      t.get PWR_RSTCAUSE_LAST = 7 ∧ t.bit PWR_RSTCAUSE_SEEN 7 = true ∧ t.dx.g = Vector.replicate 32 0 ∧
      t.dx.acc = Vector.replicate 4 0 ∧ t.dx.stores = [] ∧ t.dx.pc = 0x10000000 ∧
      (s.pwr.withheld = true ∨ bitOf 14 (lcState s) = false → t.dx.running = false) ∧ t.sec.fuses = s.sec.fuses) ∧
  (∀ (s : State) (m : Master) (v : Word),
    s.por = false → s.reaches m 0x400020B0 1 v.toNat = true → v.toNat % 65536 ≠ 0x5A3C →
    ∃ t, exec (.coreSoftwareResetWrite m v) s = .next t ∧
      t.bus = .ok 0 ∧ { s with regs := t.regs, bus := t.bus } = t ∧ sameRegs [0] s t)

/-- ECC_WRITEBACK writes the first waiting corrected word back: its error is gone. SRAM_ROW_MOVE of a row whose move is due,
with a spare left, takes one spare row, sets REPAIR, records the repair and, with the hold capacitor ready, its log entry; the
eighth sets SPAREOUT; with none left nothing happens. SRAM_COLUMN_REPLACE does the same for a bit position corrected in four
rows, of two spare columns, and its rows are then counted afresh (the model's choice, log entry 103). A row not due and a
position with fewer rows change nothing (log entry 11). Outside the log no byte of memory changes, where no store waits for
the hold capacitor. BANK_WIPE ends a running wipe: its range reads zero, every other byte is as before, and its region is no
longer being wiped. -/
def Obligations.SramUpkeep : Prop :=
  (∀ (s : State) (a : Nat) (l : List Nat),
    s.por = false → s.ms.wb = a :: l → ∃ t, exec (.eccWriteback) s = .next t ∧
      t.ms.wb = l ∧ Sparse.look 0 t.ms.sramErr a = 0 ∧
      (∀ b, b ≠ a → Sparse.look 0 t.ms.sramErr b = Sparse.look 0 s.ms.sramErr b) ∧ { s with ms := t.ms } = t) ∧
  (∀ (s : State) (b r : Nat),
    s.por = false → b < 8 → s.ms.moveDue.contains (b, r) = true → s.get (MEM_SPARE_ROWS b) < 8 →
    ∃ t, exec (.sramRowMove b r) s = .next t ∧
      t.get (MEM_SPARE_ROWS b) = s.get (MEM_SPARE_ROWS b) + 1 ∧ t.get MEM_EVT_REPAIR = 1 ∧
      (s.get (MEM_SPARE_ROWS b) = 7 → t.get MEM_EVT_SPAREOUT = 1) ∧
      (s.get (MEM_SPARE_ROWS b) < 7 → t.get MEM_EVT_SPAREOUT = s.get MEM_EVT_SPAREOUT) ∧ t.ms.moveDue.contains (b, r) = false ∧
      t.ms.soft = s.ms.soft + 16 ^ b ∧ (s.on NVS_STAT_HOLDRDY = true → logged s t 2 b r) ∧
      (headWaits s = false → ∀ a, (a < 0x201E4000 ∨ 0x20200000 ≤ a) → t.byte a = s.byte a) ∧
      (headWaits s = false → { s with ms := t.ms, mem := t.mem, regs := t.regs, free := t.free } = t) ∧
      (headWaits s = false → sameRegs [0, 3, 9] s t)) ∧
  (∀ (s : State) (b r : Nat),
    s.por = false → (s.ms.moveDue.contains (b, r) = false ∨ 8 ≤ s.get (MEM_SPARE_ROWS b)) →
    ∃ t, exec (.sramRowMove b r) s = .next t ∧
      t = s) ∧
  (∀ (s : State) (b k : Nat),
    s.por = false → b < 8 → 4 ≤ colRows s b k → s.get (MEM_SPARECOL_COLS b) < 2 →
    ∃ t, exec (.sramColumnReplace b k) s = .next t ∧
      t.get (MEM_SPARECOL_COLS b) = s.get (MEM_SPARECOL_COLS b) + 1 ∧ t.get MEM_EVT_REPAIR = 1 ∧
      (s.get (MEM_SPARECOL_COLS b) = 1 → t.get MEM_EVT_SPAREOUT = 1) ∧ colRows t b k = 0 ∧
      t.ms.soft = s.ms.soft + 16 ^ (8 + b) ∧ (s.on NVS_STAT_HOLDRDY = true → logged s t 2 (0x8000 + b) k) ∧
      (headWaits s = false → ∀ a, (a < 0x201E4000 ∨ 0x20200000 ≤ a) → t.byte a = s.byte a) ∧
      (headWaits s = false → { s with ms := t.ms, mem := t.mem, regs := t.regs, free := t.free } = t) ∧
      (headWaits s = false → sameRegs [0, 3, 9] s t)) ∧
  (∀ (s : State) (b k : Nat),
    s.por = false → (colRows s b k < 4 ∨ 2 ≤ s.get (MEM_SPARECOL_COLS b)) → ∃ t, exec (.sramColumnReplace b k) s = .next t ∧
      t = s) ∧
  (∀ (s : State) (r : Nat),
    s.por = false → s.ms.wipeQ.contains r = true → ∃ t, exec (.bankWipe r) s = .next t ∧
      (∀ a, t.byte a = if (regionRange r).1 ≤ a ∧ a < (regionRange r).1 + (regionRange r).2 then 0 else s.byte a) ∧
      t.ms.wipeQ.contains r = false ∧ { s with ms := t.ms, mem := t.mem, regs := t.regs } = t ∧ sameRegs [3] s t)

/-- A write of DRM_SESS with OPEN that the ledger admits opens the session, holds its reservation and makes the die active;
one it refuses leaves its status; one while a session is open is WRONG_STATE; OPEN and CLOSE together are BADPARAM. CLOSE ends
it and gives the reservation back. A cut that waits takes place when no descriptor addresses DRAM. DRAM_IDLE_SELF_REFRESH puts
an idle active die into self-refresh; there and at a cut the dirty check lines are written back (R191) and nothing else. With
room in the check-line cache DRAM_SCRUB_BURST passes a clean burst, or rewrites one it corrected and counts it for its row,
and DRAM_ROW_REMAP takes a spare row, whose count starts afresh (the model's choice, log entry 103), and with the hold
capacitor ready has its log entry; with nothing to be wiped and no store waiting for the capacitor no byte outside burst, row
and log changes. DRAM_WIPE_SEGMENT clears the lowest segment to be wiped, and the last one ends the wiper. -/
def Obligations.DramUpkeep : Prop :=
  (∀ (s : State) (m : Master) (v : Word) (a : Nat),
    s.por = false → s.reaches m 0x40004004 1 v.toNat = true → v.toNat % 4 = 1 → s.on DRM_SESS_OPENST = false →
    bindTicket 1 (masterTag s m) 0 s.led.res = none → decide81 s 1 (s.get (HRV_CLSAMT_AMOUNT 1)) = (stOk, a) →
    ∃ t, exec (.dramSessionOpen m v) s = .next t ∧
      t.get DRM_SESS_OPENST = 1 ∧ t.get DRM_SESS_RESULT = 0 ∧ t.get PWR_DOMSTAT_MEM = 2 ∧
      t.led.res = s.led.res ++ [⟨1, a, masterTag s m, none, true, 0⟩] ∧ t.bus = .ok 0 ∧
      { s with regs := t.regs, led := t.led, bus := t.bus } = t ∧ sameRegs [0, 1, 4] s t) ∧
  (∀ (s : State) (m : Master) (v : Word) (r a : Nat),
    s.por = false → s.reaches m 0x40004004 1 v.toNat = true → v.toNat % 4 = 1 → s.on DRM_SESS_OPENST = false →
    bindTicket 1 (masterTag s m) 0 s.led.res = none → decide81 s 1 (s.get (HRV_CLSAMT_AMOUNT 1)) = (r, a) → r ≠ stOk →
    ∃ t, exec (.dramSessionOpen m v) s = .next t ∧
      t.get DRM_SESS_OPENST = s.get DRM_SESS_OPENST ∧ t.get DRM_SESS_RESULT = r % 256 ∧
      { s with regs := t.regs, bus := t.bus } = t ∧ sameRegs [0, 4] s t) ∧
  (∀ (s : State) (m : Master) (v : Word),
    s.por = false → s.reaches m 0x40004004 1 v.toNat = true →
    (v.toNat % 4 = 3 ∨ (v.toNat % 4 = 1 ∧ s.on DRM_SESS_OPENST = true)) → ∃ t, exec (.dramSessionOpen m v) s = .next t ∧
      (t.get DRM_SESS_RESULT = if v.toNat % 4 = 3 then 5 else 2) ∧ { s with regs := t.regs, bus := t.bus } = t ∧
      sameRegs [0, 4] s t) ∧
  (∀ (s : State) (m : Master) (v : Word),
    s.por = false → s.reaches m 0x40004004 1 v.toNat = true → v.toNat % 4 = 2 → s.on DRM_SESS_OPENST = true →
    ∃ t, exec (.dramSessionClose m v) s = .next t ∧
      t.get DRM_SESS_OPENST = 0 ∧ (t.led.res = dropFirst (fun r => r.cls == 1 && r.bound && r.left == 0) s.led.res) ∧
      t.ms.cutWait = false ∧ t.bus = .ok 0 ∧ { s with regs := t.regs, led := t.led, ms := t.ms, bus := t.bus } = t ∧
      sameRegs [0, 1, 4] s t) ∧
  (∀ (s : State),
    s.por = false → s.ms.cutWait = true → moverDram s = false → s.on DRM_SESS_OPENST = true →
    ∃ t, exec (.dramSessionCut) s = .next t ∧
      t.get DRM_SESS_OPENST = 0 ∧ t.get DRM_SESS_CUT = 1 ∧ t.get DRM_EVT_SESSCUT = 1 ∧ t.get PWR_DOMSTAT_MEM = 1 ∧
      (t.ms = { s.ms with cutWait := false, ckl := s.ms.ckl.map fun l => { l with dirty := false } }) ∧
      (∀ a, offDirty s a → t.byte a = s.byte a) ∧ { s with regs := t.regs, led := t.led, ms := t.ms, mem := t.mem } = t ∧
      sameRegs [0, 1, 4, 5] s t) ∧
  (∀ (s : State),
    s.por = false → s.on DRM_SESS_OPENST = false → s.on DRM_STAT_WIPING = false → s.get PWR_DOMSTAT_MEM = 2 →
    ∃ t, exec (.dramIdleSelfRefresh) s = .next t ∧
      t.get PWR_DOMSTAT_MEM = 1 ∧ linesBack s t ∧ { s with regs := t.regs, mem := t.mem, ms := t.ms } = t ∧ sameRegs [0] s t) ∧
  (∀ (s : State) (b : Nat) (l : List Byte),
    s.por = false → s.on DRM_CFG_SCRUBEN = true → s.on DRM_SESS_OPENST = true → s.get DRM_STAT_UNWIPED = 0 →
    s.ms.scrubPos < 1966080 → b = 0x80000000 + s.ms.scrubPos / 122880 * 0x400000 + 32 * (s.ms.scrubPos % 122880) →
    rsDecode (burstOf s b) = some (l, false) → s.ms.ckl.length < 64 → ∃ t, exec (.dramScrubBurst) s = .next t ∧
      t.get DRM_STAT_SCRUBSEG = s.ms.scrubPos / 122880 ∧
      t.ms = { s.ms with scrubPos := (s.ms.scrubPos + 1) % 1966080, ckl := t.ms.ckl } ∧
      { s with regs := t.regs, ms := t.ms } = t ∧ sameRegs [4] s t) ∧
  (∀ (s : State) (b r : Nat) (l : List Byte),
    s.por = false → s.on DRM_CFG_SCRUBEN = true → s.on DRM_SESS_OPENST = true → s.get DRM_STAT_UNWIPED = 0 →
    s.ms.scrubPos < 1966080 → b = 0x80000000 + s.ms.scrubPos / 122880 * 0x400000 + 32 * (s.ms.scrubPos % 122880) →
    rsDecode (burstOf s b) = some (l, true) → s.ms.ckl.length < 64 → r = (b - 0x80000000) / 1024 →
    ∃ t, exec (.dramScrubBurst) s = .next t ∧
      t.rdBytes b 32 = l ∧ t.get DRM_EVT_CE = 1 ∧ t.get DRM_ECCCNT_COUNT = min (s.get DRM_ECCCNT_COUNT + 1) (2 ^ 32 - 1) ∧
      t.get DRM_STAT_SCRUBSEG = s.ms.scrubPos / 122880 ∧ (∀ a, (a < b ∨ b + 32 ≤ a) → t.byte a = s.byte a) ∧
      Sparse.look 0 t.ms.dramRow r = Sparse.look 0 s.ms.dramRow r + 1 ∧
      t.ms = { s.ms with scrubPos := (s.ms.scrubPos + 1) % 1966080, ckl := t.ms.ckl, dramRow := t.ms.dramRow } ∧
      { s with regs := t.regs, ms := t.ms, mem := t.mem } = t ∧ sameRegs [4] s t) ∧
  (∀ (s : State) (row a : Nat),
    s.por = false → max 1 (s.get DRM_CFG_RMTH) ≤ Sparse.look 0 s.ms.dramRow row → s.ms.remap.length < 512 →
    s.ms.ckl.length < 63 → a = 0x80000000 + row * 1024 → ∃ t, exec (.dramRowRemap row) s = .next t ∧
      t.ms.remap = s.ms.remap ++ [row] ∧ Sparse.look 0 t.ms.dramRow row = 0 ∧ t.get DRM_EVT_REMAP = 1 ∧
      (s.ms.remap.length = 479 → t.get DRM_EVT_SPARELOW = 1) ∧ (s.on NVS_STAT_HOLDRDY = true → logged s t 4 0 row) ∧
      t.get PWR_DOMSTAT_MEM = 2 ∧
      (headWaits s = false ∧ s.get DRM_STAT_UNWIPED = 0 → ∀ b, (b < a ∨ a + 1024 ≤ b) → (b < 0x201E4000 ∨ 0x20200000 ≤ b) → t.byte b = s.byte b) ∧
      (headWaits s = false ∧ s.get DRM_STAT_UNWIPED = 0 → { s with regs := t.regs, ms := t.ms, mem := t.mem, free := t.free } = t) ∧
      (headWaits s = false ∧ s.get DRM_STAT_UNWIPED = 0 → sameRegs [0, 4, 9] s t)) ∧
  (∀ (s : State) (n : Nat),
    s.por = false → s.on DRM_STAT_WIPING = true → lowBit (s.get DRM_STAT_UNWIPED) = some n → s.get DRM_STAT_UNWIPED < 65536 →
    s.get DRM_STAT_UNWIPED ≠ 2 ^ n → ∃ t, exec (.dramWipeSegment) s = .next t ∧
      t.get DRM_STAT_UNWIPED = s.get DRM_STAT_UNWIPED - 2 ^ n ∧
      (∀ a, t.byte a = if 0x80000000 + n * 0x400000 ≤ a ∧ a < 0x80000000 + n * 0x400000 + 0x400000 then 0 else s.byte a) ∧
      (t.ms = { s.ms with ckl := s.ms.ckl.filter fun l => !(l.line / 8192 == n) }) ∧
      { s with mem := t.mem, ms := t.ms, regs := t.regs } = t ∧ sameRegs [4] s t) ∧
  (∀ (s : State) (n : Nat),
    s.por = false → s.on DRM_STAT_WIPING = true → n < 16 → s.get DRM_STAT_UNWIPED = 2 ^ n →
    ∃ t, exec (.dramWipeSegment) s = .next t ∧
      t.get DRM_STAT_UNWIPED = 0 ∧ t.get DRM_STAT_WIPING = 0 ∧ t.get DRM_EVT_WIPEDONE = 1 ∧
      (∀ a, t.byte a = if 0x80000000 + n * 0x400000 ≤ a ∧ a < 0x80000000 + n * 0x400000 + 0x400000 then 0 else s.byte a) ∧
      (t.ms = { s.ms with ckl := s.ms.ckl.filter fun l => !(l.line / 8192 == n) }) ∧
      { s with mem := t.mem, ms := t.ms, regs := t.regs, evHeld := t.evHeld, evCap := t.evCap, evWin := t.evWin, free := t.free } = t ∧
      sameRegs [4] s t)

/-- START on an idle channel puts it in FETCH with the writer's tag and CUR at its descriptor; STOP on a fetching or waiting
one ends it with RESULT 0x46. A fetch of a sound descriptor loads SRC, DST and REMAIN and runs, or waits where it asks for a
trigger and none is latched; one that names a field that must be zero, both buffers, or a misaligned address ends in ERR with
0x44; a fetch that is unmapped, outside SRAM or refused ends in ERR with 0x40 or 0x41; while held, or where it addresses DRAM
while a session waits for its cut, it goes to HELD. A trigger is latched, overruns, or starts a waiting descriptor. The
channel whose turn it is moves one element of its size between SRAM addresses the guard allows and steps both streams by their
modes; a misaligned one stops it with 0x43. A full gathered burst is stored, and no byte outside it and the check lines
changes. The last element's end counts the descriptor and goes on to the next, or, in the last one, ends DONE. -/
def Obligations.MoverChannels : Prop :=
  (∀ (s : State) (m : Master) (n : Nat) (v : Word),
    s.por = false → s.reaches m (0x40005100 + 32 * n) 1 v.toNat = true → n < 4 → v.toNat % 2 = 1 →
    (s.get (MOV_CHSTAT_STATE n) = 0 ∨ 5 ≤ s.get (MOV_CHSTAT_STATE n)) → s.mov.length = 4 →
    ∃ t, exec (.moverStart m n v) s = .next t ∧
      t.get (MOV_CHSTAT_STATE n) = 1 ∧ t.get (MOV_CHSTAT_TAG n) = masterTag s m % 16 ∧ t.get (MOV_CHSTAT_TRIG n) = 0 ∧
      t.get (MOV_CHCUR_ADDR n) = s.get (MOV_CHDESC_ADDR n) % 2 ^ 27 ∧ t.get (MOV_CHREM_DESCS n) = 0 ∧ t.bus = .ok 0 ∧
      { s with regs := t.regs, mov := t.mov, bus := t.bus } = t ∧ sameRegs [0, 5] s t) ∧
  (∀ (s : State) (m : Master) (n : Nat) (v : Word),
    s.por = false → s.reaches m (0x40005100 + 32 * n) 1 v.toNat = true → n < 4 → v.toNat / 2 % 2 = 1 →
    (s.get (MOV_CHSTAT_STATE n) = 1 ∨ s.get (MOV_CHSTAT_STATE n) = 2 ∨ s.get (MOV_CHSTAT_STATE n) = 4) →
    ∃ t, exec (.moverStop m n v) s = .next t ∧
      t.get (MOV_CHSTAT_STATE n) = 5 ∧ t.get (MOV_CHSTAT_RESULT n) = 0x46 ∧ t.bit MOV_EVT_DONE n = true ∧ t.bus = .ok 0 ∧
      { s with regs := t.regs, bus := t.bus } = t ∧ sameRegs [0, 5] s t) ∧
  (∀ (s : State) (m : Master) (n : Nat) (v : Word),
    s.por = false → s.reaches m (0x40005100 + 32 * n) 1 v.toNat = true → n < 4 → v.toNat / 2 % 2 = 1 →
    s.get (MOV_CHSTAT_STATE n) = 3 → (chAt s n).gather = [] → ∃ t, exec (.moverStop m n v) s = .next t ∧
      t.get (MOV_CHSTAT_STATE n) = 5 ∧ t.get (MOV_CHSTAT_RESULT n) = 0x46 ∧ t.bit MOV_EVT_DONE n = true ∧
      t.get (MOV_CHREM_DESCS n) = min (s.get (MOV_CHREM_DESCS n) + 1) 65535 ∧
      { s with regs := t.regs, evHeld := t.evHeld, evCap := t.evCap, evWin := t.evWin, free := t.free, bus := t.bus } = t ∧
      sameRegs [0, 5] s t) ∧
  (∀ (s : State) (n : Nat),
    s.por = false → n < 4 → s.get (MOV_CHSTAT_STATE n) = 1 → sysRuns s = true → moverHeld s (chAt s n) = true →
    ∃ t, exec (.moverDescriptorFetch n) s = .next t ∧
      t.get (MOV_CHSTAT_STATE n) = 4 ∧ { s with regs := t.regs } = t ∧ sameRegs [5] s t) ∧
  (∀ (s : State) (n a : Nat) (l : List Nat) (c : Mch),
    s.por = false → n < 4 → s.mov.length = 4 → s.get (MOV_CHSTAT_STATE n) = 1 → sysRuns s = true →
    moverHeld s (chAt s n) = false → a = 32 * s.get (MOV_CHCUR_ADDR n) → inSram a = true →
    (((List.range 8).all fun i => decide (access s .mover (s.get (MOV_CHSTAT_TAG n)) (a + 4 * i) 4 0 0 = .ok)) = true) →
    s.ms.wipeQ = [] → s.ms.sramErr = [] → (l = (List.range 8).map fun i => s.rd (a + 4 * i) 4) →
    c = ⟨l, [], none, l.getD 1 0, l.getD 2 0, bitsOf (l.getD 0 0) 16 16⟩ → descFails l = false → moverHeld s c = false →
    ∃ t, exec (.moverDescriptorFetch n) s = .next t ∧
      (t.get (MOV_CHSTAT_STATE n) = if bitOf (l.getD 0 0) 6 && !s.on (MOV_CHSTAT_TRIG n) then 2 else 3) ∧
      t.get (MOV_CHSRC_ADDR n) = l.getD 1 0 % 2 ^ 32 ∧ t.get (MOV_CHDST_ADDR n) = l.getD 2 0 % 2 ^ 32 ∧
      t.get (MOV_CHREM_REMAIN n) = bitsOf (l.getD 0 0) 16 16 ∧ (chAt t n).desc = l ∧
      { s with regs := t.regs, mov := t.mov } = t ∧ sameRegs [5] s t) ∧
  (∀ (s : State) (n a : Nat) (l : List Nat) (c : Mch),
    s.por = false → n < 4 → s.mov.length = 4 → s.get (MOV_CHSTAT_STATE n) = 1 → sysRuns s = true →
    moverHeld s (chAt s n) = false → a = 32 * s.get (MOV_CHCUR_ADDR n) → inSram a = true →
    (((List.range 8).all fun i => decide (access s .mover (s.get (MOV_CHSTAT_TAG n)) (a + 4 * i) 4 0 0 = .ok)) = true) →
    s.ms.wipeQ = [] → s.ms.sramErr = [] → (l = (List.range 8).map fun i => s.rd (a + 4 * i) 4) →
    c = ⟨l, [], none, l.getD 1 0, l.getD 2 0, bitsOf (l.getD 0 0) 16 16⟩ → descFails l = false → moverHeld s c = true →
    ∃ t, exec (.moverDescriptorFetch n) s = .next t ∧
      t.get (MOV_CHSTAT_STATE n) = 4 ∧ { s with regs := t.regs, mov := t.mov } = t ∧ sameRegs [5] s t) ∧
  (∀ (s : State) (n a : Nat) (l : List Nat),
    s.por = false → n < 4 → s.mov.length = 4 → s.get (MOV_CHSTAT_STATE n) = 1 → sysRuns s = true →
    moverHeld s (chAt s n) = false → a = 32 * s.get (MOV_CHCUR_ADDR n) → inSram a = true →
    (((List.range 8).all fun i => decide (access s .mover (s.get (MOV_CHSTAT_TAG n)) (a + 4 * i) 4 0 0 = .ok)) = true) →
    s.ms.wipeQ = [] → s.ms.sramErr = [] → (l = (List.range 8).map fun i => s.rd (a + 4 * i) 4) → descFails l = true →
    ∃ t, exec (.moverDescriptorFetch n) s = .next t ∧
      t.get (MOV_CHSTAT_STATE n) = 6 ∧ t.get (MOV_CHSTAT_RESULT n) = 0x44 ∧ t.bit MOV_EVT_ERR n = true ∧
      { s with regs := t.regs, mov := t.mov } = t ∧ sameRegs [5] s t) ∧
  (∀ (s : State) (n : Nat),
    s.por = false → n < 4 → s.mov.length = 4 → s.get (MOV_CHSTAT_STATE n) = 1 → sysRuns s = true →
    moverHeld s (chAt s n) = false →
    access s .mover (s.get (MOV_CHSTAT_TAG n)) (32 * s.get (MOV_CHCUR_ADDR n)) 4 0 0 = .busErr →
    ∃ t, exec (.moverDescriptorFetch n) s = .next t ∧
      t.get (MOV_CHSTAT_STATE n) = 6 ∧ t.get (MOV_CHSTAT_RESULT n) = 0x40 ∧ t.bit MOV_EVT_ERR n = true ∧
      { s with regs := t.regs } = t ∧ sameRegs [5] s t) ∧
  (∀ (s : State) (n : Nat),
    s.por = false → n < 4 → s.mov.length = 4 → s.get (MOV_CHSTAT_STATE n) = 1 → sysRuns s = true →
    moverHeld s (chAt s n) = false → access s .mover (s.get (MOV_CHSTAT_TAG n)) (32 * s.get (MOV_CHCUR_ADDR n)) 4 0 0 = .ok →
    inSram (32 * s.get (MOV_CHCUR_ADDR n)) = false → ∃ t, exec (.moverDescriptorFetch n) s = .next t ∧
      t.get (MOV_CHSTAT_STATE n) = 6 ∧ t.get (MOV_CHSTAT_RESULT n) = 0x40 ∧ t.bit MOV_EVT_ERR n = true ∧
      { s with regs := t.regs } = t ∧ sameRegs [5] s t) ∧
  (∀ (s : State) (n r : Nat),
    s.por = false → n < 4 → s.mov.length = 4 → s.get (MOV_CHSTAT_STATE n) = 1 → sysRuns s = true →
    moverHeld s (chAt s n) = false →
    access s .mover (s.get (MOV_CHSTAT_TAG n)) (32 * s.get (MOV_CHCUR_ADDR n)) 4 0 0 = .refuse r →
    ∃ t, exec (.moverDescriptorFetch n) s = .next t ∧
      t.get (MOV_CHSTAT_STATE n) = 6 ∧ t.get (MOV_CHSTAT_RESULT n) = 0x41 ∧ t.bit MOV_EVT_ERR n = true ∧
      { s with regs := t.regs } = t ∧ sameRegs [3, 5] s t) ∧
  (∀ (s : State) (n : Nat),
    s.por = false → n < 4 → bitOf s.evHeld (12 + n) = true → sysClocked s = true → ∃ t, exec (.moverTrigger n) s = .next t ∧
      bitOf t.evHeld (12 + n) = false ∧
      (s.on (MOV_CHSTAT_TRIG n) = true → t.get (MOV_CHSTAT_TOVR n) = 1 ∧ t.get (MOV_CHSTAT_STATE n) = s.get (MOV_CHSTAT_STATE n)) ∧
      (s.on (MOV_CHSTAT_TRIG n) = false → s.get (MOV_CHSTAT_STATE n) = 2 → moverHeld s (chAt s n) = false → t.get (MOV_CHSTAT_STATE n) = 3) ∧
      (s.on (MOV_CHSTAT_TRIG n) = false → s.get (MOV_CHSTAT_STATE n) ≠ 2 → t.get (MOV_CHSTAT_TRIG n) = 1) ∧
      { s with regs := t.regs, evHeld := t.evHeld } = t ∧ sameRegs [5] s t) ∧
  (∀ (s : State) (n z : Nat) (c : Mch),
    s.por = false → nextRun s = some n → n < 4 → s.mov.length = 4 → sysRuns s = true → chAt s n = c → c.gather = [] →
    z = 2 ^ (c.desc.getD 0 0 % 4) → c.src % z = 0 → c.dst % z = 0 → inSram c.src = true → inSram c.dst = true →
    moverReach c.dst = true → access s .mover (s.get (MOV_CHSTAT_TAG n)) c.src z 0 0 = .ok →
    access s .mover (s.get (MOV_CHSTAT_TAG n)) c.dst z 1 (s.rd c.src z) = .ok → inLiveCopy s c.dst = false → s.ms.wipeQ = [] →
    s.ms.sramErr = [] → ∃ t, exec (.moverElement n) s = .next t ∧
      t.rd c.dst z = s.rd c.src z ∧ (∀ a, (a < c.dst ∨ c.dst + z ≤ a) → t.byte a = s.byte a) ∧
      (chAt t n).src = streamAfter c.desc (c.desc.getD 0 0 / 4 % 4) (c.desc.getD 3 0) c.src ∧
      (chAt t n).dst = streamAfter c.desc (c.desc.getD 0 0 / 16 % 4) (c.desc.getD 4 0) c.dst ∧ (chAt t n).rem = c.rem - 1 ∧
      t.get (MOV_CHSRC_ADDR n) = (chAt t n).src % 2 ^ 32 ∧ t.get (MOV_CHDST_ADDR n) = (chAt t n).dst % 2 ^ 32 ∧
      t.get (MOV_CHREM_REMAIN n) = (c.rem - 1) % 65536 ∧ t.movRr = n ∧
      { s with mem := t.mem, ms := t.ms, regs := t.regs, free := t.free, mov := t.mov, movRr := t.movRr } = t ∧
      sameRegs [3, 5] s t) ∧
  (∀ (s : State) (n z : Nat) (c : Mch),
    s.por = false → nextRun s = some n → n < 4 → s.mov.length = 4 → sysRuns s = true → chAt s n = c → c.gather = [] →
    z = 2 ^ (c.desc.getD 0 0 % 4) → (c.src % z ≠ 0 ∨ c.dst % z ≠ 0) → ∃ t, exec (.moverElement n) s = .next t ∧
      t.get (MOV_CHSTAT_STATE n) = 6 ∧ t.get (MOV_CHSTAT_RESULT n) = 0x43 ∧ t.bit MOV_EVT_ERR n = true ∧
      t.get (MOV_CHREM_DESCS n) = min (s.get (MOV_CHREM_DESCS n) + 1) 65535 ∧ t.movRr = n ∧
      { s with regs := t.regs, mov := t.mov, movRr := t.movRr, evHeld := t.evHeld, evCap := t.evCap, evWin := t.evWin, free := t.free } = t ∧
      sameRegs [0, 5] s t) ∧
  (∀ (s : State) (n b a : Nat) (l : List (Nat × Byte)),
    s.por = false → n < 4 → s.mov.length = 4 → s.get (MOV_CHSTAT_STATE n) = 3 → (chAt s n).gather = [⟨b, a, l⟩] →
    l.length = 32 → inDram b = true → b % 32 = 0 → (b - 0x80000000) % 0x400000 < 0x3C0000 → s.get DRM_STAT_UNWIPED = 0 →
    ∃ t, exec (.moverBurstStore n) s = .next t ∧
      (t.rdBytes b 32 = l.foldl (fun a x => a.set x.1 x.2) (List.replicate 32 0)) ∧ (chAt t n).gather = [] ∧
      (∀ x, (x < b ∨ b + 32 ≤ x) → offDirty s x → t.byte x = s.byte x) ∧ t.get PWR_DOMSTAT_MEM = 2 ∧
      t.get (MOV_CHSTAT_STATE n) = 3 ∧ { s with mem := t.mem, regs := t.regs, mov := t.mov, ms := t.ms, free := t.free } = t ∧
      sameRegs [0, 5] s t) ∧
  (∀ (s : State) (n : Nat),
    s.por = false → n < 4 → s.get (MOV_CHSTAT_STATE n) = 3 → (chAt s n).rem = 0 → (chAt s n).gather = [] →
    bitOf (dw (chAt s n) 0) 8 = true → ∃ t, exec (.moverDescriptorEnd n) s = .next t ∧
      t.get (MOV_CHSTAT_STATE n) = 5 ∧ t.get (MOV_CHSTAT_RESULT n) = 0 ∧ t.bit MOV_EVT_DONE n = true ∧
      (bitOf (dw (chAt s n) 0) 7 = true → t.bit MOV_EVT_DESC n = true) ∧
      t.get (MOV_CHREM_DESCS n) = min (s.get (MOV_CHREM_DESCS n) + 1) 65535 ∧
      { s with regs := t.regs, evHeld := t.evHeld, evCap := t.evCap, evWin := t.evWin, free := t.free } = t ∧ sameRegs [5] s t) ∧
  (∀ (s : State) (n : Nat),
    s.por = false → n < 4 → s.get (MOV_CHSTAT_STATE n) = 3 → (chAt s n).rem = 0 → (chAt s n).gather = [] →
    bitOf (dw (chAt s n) 0) 8 = false → ∃ t, exec (.moverDescriptorEnd n) s = .next t ∧
      (t.get (MOV_CHSTAT_STATE n) = if moverHeld s (chAt s n) then 4 else 1) ∧
      t.get (MOV_CHCUR_ADDR n) = dw (chAt s n) 7 / 32 % 2 ^ 27 ∧
      t.get (MOV_CHREM_DESCS n) = min (s.get (MOV_CHREM_DESCS n) + 1) 65535 ∧
      { s with regs := t.regs, evHeld := t.evHeld, evCap := t.evCap, evWin := t.evWin, free := t.free } = t ∧ sameRegs [5] s t)

/-- With the engine in TRAIN or UP: LANE_LOCK sets the lane's lock bit; PORT_TRAIN takes a DOWN port to TRAIN,
PORT_TRAIN_TIMEOUT back; PORT_UP of a port in TRAIN with its lanes locked makes it UP one lane or two, sets PORTUP, and the
first takes the engine from TRAIN to UP. LANE_LOSS clears the bit and sets LANEDN; a port with no lane left goes DOWN, leaves
the route and sets PORTDN; one of two lanes left leaves it UP one lane, and out of the route where striped frames are open on
it, whose transmitter then ends its frame and counts it as cut. The four code errors that lose a lane count (others count
where a frame or slot brings them: log entry 54). PORT_JOIN joins an UP port while no open frame's source changes;
DOWN_PORT_PROBE probes a DOWN port of an UP engine that is not silent. No other field of any page changes. -/
def Obligations.LinkPorts : Prop :=
  (∀ (s : State) (p l : Nat),
    s.por = false → p < 3 → l < 2 → 2 ≤ s.get LNK_STAT_STATE → ∃ t, exec (.laneLock p l) s = .next t ∧
      t.get (laneFld p) = (s.get (laneFld p) ||| 2 ^ l) % 4 ∧ { s with regs := t.regs } = t ∧ sameRegs [6] s t) ∧
  (∀ (s : State) (p : Nat),
    s.por = false → p < 3 → 2 ≤ s.get LNK_STAT_STATE → s.get (portFld p) = 0 → ∃ t, exec (.portTrain p) s = .next t ∧
      t.get (portFld p) = 1 ∧ { s with regs := t.regs } = t ∧ sameRegs [6] s t) ∧
  (∀ (s : State) (p : Nat),
    s.por = false → p < 3 → s.get (portFld p) = 1 → ∃ t, exec (.portTrainTimeout p) s = .next t ∧
      t.get (portFld p) = 0 ∧ { s with regs := t.regs } = t ∧ sameRegs [6] s t) ∧
  (∀ (s : State) (p : Nat) (two : Bool),
    s.por = false → p < 3 → 2 ≤ s.get LNK_STAT_STATE → s.get (portFld p) = 1 →
    (if two then s.get (laneFld p) = 3 else s.get (laneFld p) ≠ 0) → ∃ t, exec (.portUp p two) s = .next t ∧
      (t.get (portFld p) = if two then 3 else 2) ∧ t.get LNK_EVT_PORTUP = 1 ∧
      (t.get LNK_STAT_STATE = if s.get LNK_STAT_STATE = 2 then 3 else s.get LNK_STAT_STATE) ∧
      (t.get PWR_DOMSTAT_STATE = if s.get LNK_STAT_STATE = 2 ∧ s.get PWR_DOMSTAT_STATE = 4 then 3 else s.get PWR_DOMSTAT_STATE) ∧
      t.lnk.everUp.contains p = true ∧ { s with regs := t.regs, lnk := t.lnk, pwr := t.pwr } = t ∧ sameRegs [0, 6] s t) ∧
  (∀ (s : State) (p l : Nat) (e : Bool),
    s.por = false → p < 3 → bitOf (s.get (laneFld p)) l = true → l < 2 → s.get (laneFld p) ≠ 2 ^ l → s.get (laneFld p) < 4 →
    stripedOn s p = [] → ∃ t, exec (.laneLoss p l e) s = .next t ∧
      t.get (laneFld p) = s.get (laneFld p) - 2 ^ l ∧ t.get LNK_EVT_LANEDN = 1 ∧
      (t.get (portFld p) = if s.get (portFld p) = 3 then 2 else s.get (portFld p)) ∧
      (t.get LNK_ERRCNT1_CODE = if e then min (s.get LNK_ERRCNT1_CODE + 4) 65535 else s.get LNK_ERRCNT1_CODE) ∧
      { s with regs := t.regs } = t ∧ sameRegs [6] s t) ∧
  (∀ (s : State) (p l q : Nat) (l2 : List Nat) (e : Bool),
    s.por = false → p < 3 → s.get (laneFld p) = 3 → l < 2 → s.get (portFld p) = 3 → stripedOn s p = q :: l2 →
    ∃ t, exec (.laneLoss p l e) s = .next t ∧
      t.get (portFld p) = 2 ∧ t.get LNK_EVT_LANEDN = 1 ∧
      (t.lnk.narrow = (⟨p, q, false⟩ :: l2.map fun r => ⟨p, r, false⟩) ++ s.lnk.narrow) ∧ inRoute t p = false ∧
      ((txAt s p).frame.isSome = true → s.lnk.tx.length = 3 → (txAt t p).frame = none ∧ (txAt t p).ends = (txAt s p).ends + 1 ∧ t.get LNK_EVT_CUT = 1) ∧
      { s with regs := t.regs, lnk := t.lnk, cmd := t.cmd } = t ∧ sameRegs [6] s t) ∧
  (∀ (s : State) (p l : Nat) (e : Bool),
    s.por = false → p < 3 → s.get (laneFld p) = 2 ^ l → l < 2 → s.get (portFld p) ≠ 0 →
    ∃ t, exec (.laneLoss p l e) s = .next t ∧
      t.get (laneFld p) = 0 ∧ t.get (portFld p) = 0 ∧ t.get LNK_EVT_LANEDN = 1 ∧ t.get LNK_EVT_PORTDN = 1 ∧
      t.lnk.joined.contains p = false ∧
      { s with regs := t.regs, lnk := t.lnk, cmd := t.cmd, evHeld := t.evHeld, evCap := t.evCap, evWin := t.evWin, free := t.free } = t ∧
      sameRegs [6] s t) ∧
  (∀ (s : State) (p : Nat),
    s.por = false → p < 3 → portUp s p = true → s.lnk.joined.contains p = false → s.linkQuiet = true →
    ∃ t, exec (.portJoin p) s = .next t ∧
      t.lnk.joined = s.lnk.joined ++ [p] ∧ { s with regs := t.regs, lnk := t.lnk } = t ∧ sameRegs [6] s t) ∧
  (∀ (s : State) (p : Nat),
    s.por = false → routeKeeps { s with lnk := { s.lnk with joined := s.lnk.joined ++ [p] } } = false →
    ∃ t, exec (.portJoin p) s = .next t ∧
      t = s) ∧
  (∀ (s : State) (p : Nat),
    s.por = false → p < 3 → s.get LNK_STAT_STATE = 3 → s.get (portFld p) = 0 → silent s = false →
    ∃ t, exec (.downPortProbe p) s = .next t ∧
      t.lnk = { s.lnk with tx := s.lnk.tx.set p { txAt s p with probes := (txAt s p).probes + 1 } } ∧
      { s with lnk := t.lnk } = t) ∧
  (∀ (s : State) (p : Nat),
    s.por = false → silent s = true → ∃ t, exec (.downPortProbe p) s = .next t ∧
      t = s)

/-- LISTEN_TO_TRAIN on a listener that may act, and a write of LNK_CFG with TRAIN, take the engine to TRAIN where the ledger
admits the burst, the listener being heard (log entry 64); else NOENERGY and BACKOFF. LINK_TRAIN_TIMEOUT returns it to LISTEN
with BACKOFF; BACKOFF_EXPIRY ends that. PROCESSING_POINT_JOIN joins it. LINK_IDLE_TIMEOUT, ALL_PORTS_DOWN_TIMEOUT and
LINK_LEAVE_SERVICE with no frame open return it to LISTEN with every port DOWN, a part raised from Basalt to Basalt; with a
frame open the leave waits, and one open beyond its limit is cut with END D2.0; a leave for the floor sets FLOORLOCK. A WAKE
between frames is forwarded and latches WAKESET where enabled; inside one it ends the frame. LNK_LTIMELO answers link time,
which moves by the operands of link commands (log entry 70), and latches its high word. -/
def Obligations.LinkService : Prop :=
  (∀ (s : State),
    s.por = false → listenerActs s = true → activityActs s = true → (decide81 s 4 (s.get (HRV_CLSAMT_AMOUNT 4))).1 = stOk →
    ∃ t, exec (.listenToTrain) s = .next t ∧
      t.get LNK_STAT_STATE = 2 ∧ burstHeld t 4 = true ∧ t.lnk = { s.lnk with heard := true } ∧
      { s with regs := t.regs, led := t.led, evHeld := t.evHeld, evCap := t.evCap, evWin := t.evWin, free := t.free, lnk := t.lnk } = t ∧
      sameRegs [0, 1, 6] s t) ∧
  (∀ (s : State),
    s.por = false → listenerActs s = true → activityActs s = true → bindTicket 4 5 0 s.led.res = none →
    (decide81 s 4 (s.get (HRV_CLSAMT_AMOUNT 4))).1 ≠ stOk → ∃ t, exec (.listenToTrain) s = .next t ∧
      t.get LNK_STAT_STATE = 1 ∧ t.get LNK_EVT_NOENERGY = 1 ∧ t.get LNK_STAT_BACKOFF = 1 ∧
      t.lnk = { s.lnk with heard := false } ∧
      { s with regs := t.regs, evHeld := t.evHeld, evCap := t.evCap, evWin := t.evWin, free := t.free, lnk := t.lnk } = t ∧
      sameRegs [0, 6] s t) ∧
  (∀ (s : State) (m : Master) (v : Word),
    s.por = false → s.reaches m 0x40006000 1 v.toNat = true → bitOf v.toNat 1 = true → listenerActs s = true →
    (decide81 s 4 (s.get (HRV_CLSAMT_AMOUNT 4))).1 = stOk → ∃ t, exec (.linkTrainCommand m v) s = .next t ∧
      t.get LNK_STAT_STATE = 2 ∧ t.get LNK_CFG_POSMODE = v.toNat % 2 ∧ t.get LNK_CFG_IDLETO = v.toNat / 16 % 16 ∧
      t.get LNK_CFG_BACKOFF = v.toNat / 256 % 16 ∧ t.get LNK_CFG_WAKEDUR = v.toNat / 65536 % 65536 ∧ t.bus = .ok 0 ∧
      { s with regs := t.regs, led := t.led, bus := t.bus } = t ∧ sameRegs [1, 6] s t) ∧
  (∀ (s : State),
    s.por = false → s.get LNK_STAT_STATE = 2 → s.linkQuiet = true → s.pwr.raised = false → s.get PWR_DOMSTAT_STATE ≠ 4 →
    ∃ t, exec (.linkTrainTimeout) s = .next t ∧
      t.get LNK_STAT_STATE = 1 ∧ t.get LNK_STAT_PU = 0 ∧ t.get LNK_STAT_PD1 = 0 ∧ t.get LNK_STAT_PD2 = 0 ∧ t.lnk.joined = [] ∧
      t.get LNK_STAT_BACKOFF = 1 ∧ { s with regs := t.regs, lnk := t.lnk, led := t.led } = t ∧ sameRegs [1, 6] s t) ∧
  (∀ (s : State),
    s.por = false → ∃ t, exec (.backoffExpiry) s = .next t ∧
      t.get LNK_STAT_BACKOFF = 0 ∧ { s with regs := t.regs } = t ∧ sameRegs [6] s t) ∧
  (∀ (s : State),
    s.por = false → s.get LNK_STAT_STATE = 3 → ∃ t, exec (.processingPointJoin) s = .next t ∧
      t.lnk = { s.lnk with procJoined := true } ∧ { s with lnk := t.lnk } = t) ∧
  (∀ (s : State),
    s.por = false → s.get LNK_STAT_STATE = 3 → s.linkQuiet = true → s.pwr.raised = false → s.get PWR_DOMSTAT_STATE ≠ 4 →
    ∃ t, exec (.linkIdleTimeout) s = .next t ∧
      t.get LNK_STAT_STATE = 1 ∧ t.get LNK_STAT_PU = 0 ∧ t.get LNK_STAT_PD1 = 0 ∧ t.get LNK_STAT_PD2 = 0 ∧ t.lnk.joined = [] ∧
      { s with regs := t.regs, lnk := t.lnk, led := t.led } = t ∧ sameRegs [1, 6] s t) ∧
  (∀ (s : State),
    s.por = false → s.get LNK_STAT_STATE = 3 → s.linkQuiet = true → s.pwr.raised = true → s.get PWR_DOMSTAT_STATE = 3 →
    ∃ t, exec (.linkIdleTimeout) s = .next t ∧
      t.get PWR_DOMSTAT_STATE = 4 ∧ (t.get LNK_STAT_STATE = if s.on PWR_CFG_LISTEN then 1 else 0) ∧
      { s with regs := t.regs, lnk := t.lnk, led := t.led, pwr := t.pwr } = t ∧ sameRegs [0, 1, 6] s t) ∧
  (∀ (s : State),
    s.por = false → s.get LNK_STAT_STATE = 3 → betweenFrames s = false → ∃ t, exec (.linkIdleTimeout) s = .next t ∧
      t.lnk = { s.lnk with leave := s.lnk.leave ||| 1 } ∧ { s with lnk := t.lnk } = t) ∧
  (∀ (s : State) (q : Nat),
    s.por = false → s.get LNK_STAT_STATE = 3 → betweenFrames s = true → s.lnk.tx.length = 3 → q < 3 →
    (txAt s q).frame.isSome = true → s.pwr.raised = false → s.get PWR_DOMSTAT_STATE ≠ 4 →
    ∃ t, exec (.linkIdleTimeout) s = .next t ∧
      t.get LNK_STAT_STATE = 1 ∧ t.get LNK_STAT_PU = 0 ∧ t.get LNK_STAT_PD1 = 0 ∧ t.get LNK_STAT_PD2 = 0 ∧ t.lnk.joined = [] ∧
      (txAt t q).frame = none ∧ (txAt t q).ends = (txAt s q).ends + 1 ∧ t.get LNK_EVT_CUT = 1 ∧
      { s with regs := t.regs, lnk := t.lnk, led := t.led } = t ∧ sameRegs [1, 6] s t) ∧
  (∀ (s : State),
    s.por = false → s.get LNK_STAT_STATE = 3 → s.get LNK_STAT_PU = 0 → s.get LNK_STAT_PD1 = 0 → s.get LNK_STAT_PD2 = 0 →
    s.linkQuiet = true → s.pwr.raised = false → s.get PWR_DOMSTAT_STATE ≠ 4 → ∃ t, exec (.allPortsDownTimeout) s = .next t ∧
      t.get LNK_STAT_STATE = 1 ∧ t.get LNK_STAT_PU = 0 ∧ t.get LNK_STAT_PD1 = 0 ∧ t.get LNK_STAT_PD2 = 0 ∧ t.lnk.joined = [] ∧
      { s with regs := t.regs, lnk := t.lnk, led := t.led } = t ∧ sameRegs [1, 6] s t) ∧
  (∀ (s : State),
    s.por = false → s.lnk.leave ≠ 0 → s.linkQuiet = true → s.pwr.raised = false → s.get PWR_DOMSTAT_STATE ≠ 4 →
    ∃ t, exec (.linkLeaveService) s = .next t ∧
      t.get LNK_STAT_STATE = 1 ∧ t.get LNK_STAT_PU = 0 ∧ t.get LNK_STAT_PD1 = 0 ∧ t.get LNK_STAT_PD2 = 0 ∧ t.lnk.joined = [] ∧
      t.lnk.leave = 0 ∧ (bitOf s.lnk.leave 2 = true → s.on HRV_STAT_FLOOR = true → t.get LNK_STAT_FLOORLOCK = 1) ∧
      { s with regs := t.regs, lnk := t.lnk, led := t.led } = t ∧ sameRegs [1, 6] s t) ∧
  (∀ (s : State) (p q : Nat) (ds dl : Byte),
    s.por = false → s.get LNK_STAT_STATE = 3 → portUp s p = true → s.lnk.joined.contains p = true → s.get (laneFld p) ≠ 0 →
    p < 3 → s.lnk.procJoined = true → s.linkQuiet = true → feedPort s = some p → destOf s p = some q → ds = 1 → 7 < dl.toNat →
    ∃ t, exec (.wakeOrderedSet ds dl p) s = .next t ∧
      t.lnk = { s.lnk with tx := s.lnk.tx.set q { txAt s q with wake := some (ds, dl) } } ∧
      (bitOf (wakeEn s) 2 = true → bitOf (wakeActs s (wakeState s)) 2 = true → t.bit PWR_WAKESRC_SRC 2 = true) ∧
      { s with regs := t.regs, lnk := t.lnk } = t ∧ sameRegs [0] s t) ∧
  (∀ (s : State) (p : Nat) (ds dl : Byte) (f : Frame),
    s.por = false → s.get LNK_STAT_STATE = 3 → portUp s p = true → s.lnk.joined.contains p = true → s.get (laneFld p) ≠ 0 →
    p < 3 → s.lnk.frame = some f → f.port = p → s.lnk.tx.length = 3 → ∃ t, exec (.wakeOrderedSet ds dl p) s = .next t ∧
      t.lnk.frame = none ∧ t.get LNK_EVT_NOEND = 1 ∧ t.cmd.capture = [] ∧
      t.get LNK_ERRCNT1_NOEND = min (s.get LNK_ERRCNT1_NOEND + 1) 65535 ∧
      (∀ q, q < 3 → destOf (endsUnclean s p) p = some q → (txAt t q).wake = some (ds, dl)) ∧
      { s with regs := t.regs, lnk := t.lnk, cmd := t.cmd } = t ∧ sameRegs [6] s t) ∧
  (∀ (s : State) (m : Master) (n : Nat),
    s.por = false → s.reaches m 0x40006028 0 0 = true → s.lnk.csAt = [] → ∃ t, exec (.linkTimeRead m n) s = .next t ∧
      t.bus = .ok ((s.lnk.time + 20 * n) % 2 ^ 32) ∧ t.get LNK_LTIMEHI_TIME = (s.lnk.time + 20 * n) % 2 ^ 64 / 2 ^ 32 ∧
      t.lnk.time = (s.lnk.time + 20 * n) % 2 ^ 64 ∧ { s with regs := t.regs, lnk := t.lnk, bus := t.bus } = t ∧
      sameRegs [6] s t)

/-- FRAME_START from the port that feeds the joined processing point opens a frame there and on the transmitter the port
feeds, takes POS into effect and counts a waiting RESET_DEVICE down; pending tables flip then with nothing landing. START on
an open frame ends it uncleanly; a striped one on a one-lane port is not taken and leaves the port out of the route; a DOWN
port takes none; code errors since the last command count (log entry 54). Link time moves by the cycles a command brings (log
entry 70). A header whose HCRC holds sets CYCNO, CYC and HOP, link time from TSTAMP, PDELAY and the cycles since START, leaves
with HOP + 1 and the flags, and latches POS with POSMODE=0 where asked; one that fails, by its HCRC or a code error, counts. A
waiting cycle-start comes when link time reaches it. A clean end closes the frame and its captures start to land; every
unclean end closes it, discards them, counts NOEND; the loss of the feeding port also cuts its frame on other transmitters. A
missed start sets MISSED once. -/
def Obligations.Frames : Prop :=
  (∀ (s : State) (p : Nat) (r : Bool) (n : Nat),
    s.por = false → s.lnk.csAt = [] → s.get LNK_STAT_STATE = 3 → portUp s p = true → s.lnk.joined.contains p = true →
    s.get (laneFld p) ≠ 0 → p < 3 → s.lnk.procJoined = true → feedPort s = some p → s.linkQuiet = true →
    (r = true ∨ oneLane s = false) → s.get TBL_CMTSTAT_PEND = 0 → ∃ t, exec (.frameStart p r n) s = .next t ∧
      t.lnk.frame = some ⟨p, r, none, 128, 0, false⟩ ∧
      (∀ q, q < 3 → srcOf s q = some p → (txAt t q).frame = some ⟨p, r, false, false⟩) ∧
      (t.get LNK_STAT_MODE = if r then 1 else 0) ∧ t.lnk.posEff = s.get LNK_POS_POS ∧ t.lnk.missed = false ∧
      t.lnk.anyFrame = true ∧ t.lnk.time = (s.lnk.time + 20 * n) % 2 ^ 64 ∧
      (t.cmd.resetDev = s.cmd.resetDev.map fun x => (x.1, x.2.1 - 1, x.2.2)) ∧
      { s with regs := t.regs, lnk := t.lnk, cmd := t.cmd, sec := t.sec } = t ∧ sameRegs [6] s t) ∧
  (∀ (s : State) (p : Nat) (r : Bool) (n : Nat),
    s.por = false → s.lnk.csAt = [] → s.get LNK_STAT_STATE = 3 → portUp s p = true → s.lnk.joined.contains p = true →
    s.get (laneFld p) ≠ 0 → p < 3 → s.lnk.procJoined = true → feedPort s = some p → s.linkQuiet = true →
    (r = true ∨ oneLane s = false) → s.cmd.landing = [] → s.get TBL_CMTSTAT_PEND ≠ 0 → s.get TBL_CMTSTAT_PEND < 65536 →
    ∃ t, exec (.frameStart p r n) s = .next t ∧
      t.lnk.frame = some ⟨p, r, none, 128, 0, false⟩ ∧
      (∀ q, q < 3 → srcOf s q = some p → (txAt t q).frame = some ⟨p, r, false, false⟩) ∧
      (t.get LNK_STAT_MODE = if r then 1 else 0) ∧ t.lnk.posEff = s.get LNK_POS_POS ∧ t.lnk.missed = false ∧
      t.lnk.anyFrame = true ∧ t.lnk.time = (s.lnk.time + 20 * n) % 2 ^ 64 ∧
      (t.cmd.resetDev = s.cmd.resetDev.map fun x => (x.1, x.2.1 - 1, x.2.2)) ∧ t.get TBL_CMTSTAT_PEND = 0 ∧
      t.get TBL_EVT_FLIP = 1 ∧ (∀ k, k < 16 → t.bit TBL_LIVE_LIVE k = (s.bit TBL_LIVE_LIVE k ^^ s.bit TBL_CMTSTAT_PEND k)) ∧
      (∀ k, k < 16 → s.bit TBL_CMTSTAT_PEND k = true → t.bit TBL_READY_READY k = true ∧ t.get (TBL_LDESC0_BASE k) = s.get (TBL_SDESC0_BASE k) % 2 ^ 14 ∧ t.get (TBL_LDESC0_ESIZE k) = s.get (TBL_SDESC0_ESIZE k) % 4 ∧ t.get (TBL_LDESC0_MR k) = s.get (TBL_SDESC0_MR k) % 2 ∧ t.get (TBL_LDESC0_MW k) = s.get (TBL_SDESC0_MW k) % 2 ∧ t.get (TBL_LDESC1_COUNT k) = s.get (TBL_SDESC1_COUNT k) % 65536 ∧ t.get (TBL_LDESC1_GEN k) = if s.get (TBL_LDESC1_GEN k) = 0xFFFF then 1 else (s.get (TBL_LDESC1_GEN k) + 1) % 65536) ∧
      { s with regs := t.regs, lnk := t.lnk, cmd := t.cmd, sec := t.sec, evHeld := t.evHeld, evCap := t.evCap, evWin := t.evWin, free := t.free } = t ∧
      sameRegs [6, 7] s t) ∧
  (∀ (s : State) (p : Nat) (r : Bool) (n : Nat),
    s.por = false → s.lnk.csAt = [] → s.get LNK_STAT_STATE = 3 → portUp s p = true → s.lnk.joined.contains p = true →
    s.get (laneFld p) ≠ 0 → p < 3 → s.lnk.procJoined = true → feedPort s = some p → s.linkQuiet = true →
    (r = true ∨ oneLane s = false) → s.cmd.landing ≠ [] → ∃ t, exec (.frameStart p r n) s = .next t ∧
      t.lnk.frame = some ⟨p, r, none, 128, 0, false⟩ ∧
      (∀ q, q < 3 → srcOf s q = some p → (txAt t q).frame = some ⟨p, r, false, false⟩) ∧
      (t.get LNK_STAT_MODE = if r then 1 else 0) ∧ t.lnk.posEff = s.get LNK_POS_POS ∧ t.lnk.missed = false ∧
      t.lnk.anyFrame = true ∧ t.lnk.time = (s.lnk.time + 20 * n) % 2 ^ 64 ∧
      (t.cmd.resetDev = s.cmd.resetDev.map fun x => (x.1, x.2.1 - 1, x.2.2)) ∧
      t.cmd.waitFlip = s.cmd.waitFlip ||| s.get TBL_CMTSTAT_PEND ∧
      { s with regs := t.regs, lnk := t.lnk, cmd := t.cmd, sec := t.sec } = t ∧ sameRegs [6] s t) ∧
  (∀ (s : State) (p n : Nat) (f : Frame),
    s.por = false → s.lnk.csAt = [] → s.get LNK_STAT_STATE = 3 → portUp s p = true → s.lnk.joined.contains p = true →
    s.get (laneFld p) ≠ 0 → p < 3 → s.lnk.procJoined = true → feedPort s = some p → s.lnk.narrow = [] → s.lnk.frame = some f →
    f.port = p → s.get TBL_CMTSTAT_PEND = 0 → ∃ t, exec (.frameStart p true n) s = .next t ∧
      t.lnk.frame = some ⟨p, true, none, 128, 0, false⟩ ∧ t.cmd.capture = [] ∧ t.get LNK_EVT_NOEND = 1 ∧
      t.get LNK_ERRCNT1_NOEND = min (s.get LNK_ERRCNT1_NOEND + 1) 65535 ∧
      { s with regs := t.regs, lnk := t.lnk, cmd := t.cmd, sec := t.sec } = t ∧ sameRegs [6] s t) ∧
  (∀ (s : State) (p n : Nat),
    s.por = false → s.lnk.csAt = [] → s.get LNK_STAT_STATE = 3 → portUp s p = true → s.lnk.joined.contains p = true →
    s.get (laneFld p) ≠ 0 → p < 3 → s.get (portFld p) = 2 → s.linkQuiet = true →
    ∃ t, exec (.frameStart p false n) s = .next t ∧
      t.lnk.frame = none ∧ t.lnk.narrow = [⟨p, p, false⟩] ∧ inRoute t p = false ∧ t.get LNK_STAT_MODE = 0 ∧
      { s with regs := t.regs, lnk := t.lnk } = t ∧ sameRegs [6] s t) ∧
  (∀ (s : State) (p : Nat) (r : Bool) (n e : Nat),
    s.por = false → s.get LNK_STAT_STATE = 3 → portUp s p = false → s.lnk.csAt = [] →
    ∃ t, exec (.frameStart p r n e) s = .next t ∧
      t.get LNK_ERRCNT1_CODE = min (s.get LNK_ERRCNT1_CODE + e) 65535 ∧ t.lnk.tx = s.lnk.tx ∧
      { s with regs := t.regs, lnk := t.lnk } = t ∧ sameRegs [6] s t) ∧
  (∀ (s : State) (p : Nat) (r : Bool) (n : Nat),
    s.por = false → s.lnk.csAt = [] → portUp s p = false → ∃ t, exec (.frameStart p r n) s = .next t ∧
      t.lnk.tx = s.lnk.tx ∧ (∀ f : Fld, f.key ≠ LNK_ERRCNT1_CODE.key → t.get f = s.get f) ∧
      { s with regs := t.regs, lnk := t.lnk } = t ∧ sameRegs [6] s t) ∧
  (∀ (s : State) (p : Nat) (bytes : List Byte) (n : Nat) (f : Frame),
    s.por = false → s.lnk.csAt = [] → s.lnk.frame = some f → f.port = p → f.hdr = none → bytes.length = 16 →
    s.lnk.tx.length = 3 → crc8 (bytes.take 15) = (bytes.getD 15 0).toNat → ∃ t, exec (.cycleHeader bytes n p []) s = .next t ∧
      (t.lnk.frame.map (fun f => f.hdr) = some (some true)) ∧ t.get LNK_CYCNO_CYCNO = leNat (bytes.take 4) ∧
      t.get LNK_CYCINFO_CYC = (bytes.getD 14 0).toNat ∧ t.get LNK_CYCINFO_HOP = leNat ((bytes.drop 12).take 2) % 4096 ∧
      t.lnk.timeSet = true ∧ t.lnk.time = (leNat ((bytes.drop 4).take 8) + s.get LNK_PDELAY_DELAY + 20 * (f.n + n)) % 2 ^ 64 ∧
      (∀ q, q < 3 → (txAt s q).frame = some ⟨p, f.replicated, false, false⟩ → (txAt t q).hdr = sentHeader s bytes true true) ∧
      (s.on LNK_CFG_POSMODE = false → bitOf (leNat ((bytes.drop 12).take 2)) 12 = true → t.get LNK_POS_POS = leNat ((bytes.drop 12).take 2) % 4096 ∧ t.get LNK_EVT_LATCH = 1) ∧
      { s with regs := t.regs, lnk := t.lnk, evHeld := t.evHeld, evCap := t.evCap, evWin := t.evWin, free := t.free } = t ∧
      sameRegs [6] s t) ∧
  (∀ (s : State) (p : Nat) (bytes : List Byte) (n : Nat) (f : Frame),
    s.por = false → s.lnk.csAt = [] → s.lnk.frame = some f → f.port = p → f.hdr = none → bytes.length = 16 →
    crc8 (bytes.take 15) ≠ (bytes.getD 15 0).toNat → ∃ t, exec (.cycleHeader bytes n p []) s = .next t ∧
      (t.lnk.frame.map (fun f => f.hdr) = some (some false)) ∧ t.get LNK_EVT_CHDRERR = 1 ∧
      t.get LNK_ERRCNT0_CHDR = min (s.get LNK_ERRCNT0_CHDR + 1) 65535 ∧ t.get LNK_CYCNO_CYCNO = s.get LNK_CYCNO_CYCNO ∧
      { s with regs := t.regs, lnk := t.lnk } = t ∧ sameRegs [6] s t) ∧
  (∀ (s : State) (p : Nat) (bytes : List Byte) (errs : List (Nat × Nat)) (n : Nat) (f : Frame),
    s.por = false → s.lnk.csAt = [] → s.lnk.frame = some f → f.port = p → f.hdr = none → badPlaces s p f.replicated errs ≠ [] →
    ∃ t, exec (.cycleHeader bytes n p errs) s = .next t ∧
      (t.lnk.frame.map (fun f => f.hdr) = some (some false)) ∧ t.get LNK_EVT_CHDRERR = 1 ∧
      t.get LNK_ERRCNT1_CODE = min (s.get LNK_ERRCNT1_CODE + errs.length) 65535 ∧
      t.get LNK_CYCNO_CYCNO = s.get LNK_CYCNO_CYCNO ∧ { s with regs := t.regs, lnk := t.lnk } = t ∧ sameRegs [6] s t) ∧
  (∀ (s : State) (n a : Nat),
    s.por = false → s.lnk.csAt = [a] → a ≤ s.lnk.time + 20 * n → ∃ t, exec (.cycleStartEvent n) s = .next t ∧
      t.lnk.csAt = [] ∧ t.lnk.time = (s.lnk.time + 20 * n) % 2 ^ 64 ∧
      { s with lnk := t.lnk, evHeld := t.evHeld, evCap := t.evCap, evWin := t.evWin, free := t.free } = t) ∧
  (∀ (s : State) (p n : Nat) (f : Frame),
    s.por = false → s.lnk.csAt = [] → s.lnk.frame = some f → f.port = p → s.cmd.capture = [] → s.cmd.landing = [] →
    s.lnk.tx.length = 3 → ∃ t, exec (.frameEndClean n p) s = .next t ∧
      t.lnk.frame = none ∧ (∀ q, q < 3 → (txAt s q).frame.any (fun g => g.src == p) = true → (txAt t q).frame = none) ∧
      { s with lnk := t.lnk, evHeld := t.evHeld, evCap := t.evCap, evWin := t.evWin, free := t.free } = t) ∧
  (∀ (s : State) (p n : Nat) (f : Frame),
    s.por = false → s.lnk.csAt = [] → s.lnk.frame = some f → f.port = p → s.cmd.capture ≠ [] → s.cmd.landing = [] →
    ∃ t, exec (.frameEndClean n p) s = .next t ∧
      t.lnk.frame = none ∧ t.cmd.landing = s.cmd.capture ∧ t.cmd.capture = [] ∧
      t.get TBL_LANDSEQ_SEQ = (s.get TBL_LANDSEQ_SEQ + 1) % 2 ^ 32 ∧
      { s with regs := t.regs, lnk := t.lnk, cmd := t.cmd, evHeld := t.evHeld, evCap := t.evCap, evWin := t.evWin, free := t.free } = t ∧
      sameRegs [7] s t) ∧
  (∀ (s : State) (p : Nat) (how : FrameEnd) (f : Frame),
    s.por = false → s.lnk.frame = some f → f.port = p → how ≠ .portDown → s.lnk.tx.length = 3 →
    ∃ t, exec (.frameEndUnclean how p) s = .next t ∧
      t.lnk.frame = none ∧ (∀ q, q < 3 → (txAt s q).frame.any (fun g => g.src == p) = true → (txAt t q).frame = none) ∧
      t.cmd = { s.cmd with capture := [] } ∧ t.get LNK_EVT_NOEND = 1 ∧
      t.get LNK_ERRCNT1_NOEND = min (s.get LNK_ERRCNT1_NOEND + 1) 65535 ∧
      { s with regs := t.regs, lnk := t.lnk, cmd := t.cmd } = t ∧ sameRegs [6] s t) ∧
  (∀ (s : State) (p : Nat) (f : Frame),
    s.por = false → s.lnk.frame = some f → f.port = p → feedPort s = some p → p < 3 → s.get (laneFld p) ≠ 0 →
    s.get (laneFld p) < 4 → s.lnk.tx.length = 3 → s.lnk.narrow = [] → ∃ t, exec (.frameEndUnclean .portDown p) s = .next t ∧
      t.lnk.frame = none ∧ t.cmd.capture = [] ∧ t.get (portFld p) = 0 ∧ t.get LNK_EVT_LANEDN = 1 ∧ t.get LNK_EVT_PORTDN = 1 ∧
      t.get LNK_EVT_NOEND = 1 ∧ t.lnk.joined.contains p = false ∧
      (∀ q, q < 3 → q ≠ p → inRoute s q = true → (txAt s q).frame.any (fun g => g.src == p) = true → (txAt t q).frame = none ∧ t.get LNK_EVT_CUT = 1) ∧
      { s with regs := t.regs, lnk := t.lnk, cmd := t.cmd, evHeld := t.evHeld, evCap := t.evCap, evWin := t.evWin, free := t.free } = t ∧
      sameRegs [6] s t) ∧
  (∀ (s : State) (p : Nat) (f : Frame),
    s.por = false → s.lnk.frame = some f → f.port = p → s.lnk.tx.length = 3 → ∃ t, exec (.frameOpenTimeout p) s = .next t ∧
      t.lnk.frame = none ∧
      (∀ q, q < 3 → (txAt s q).frame.any (fun g => g.src == p) = true → (txAt t q).frame = (txAt s q).frame.map fun g => { g with past := true }) ∧
      t.cmd = { s.cmd with capture := [] } ∧ t.get LNK_EVT_NOEND = 1 ∧
      t.get LNK_ERRCNT1_NOEND = min (s.get LNK_ERRCNT1_NOEND + 1) 65535 ∧
      { s with regs := t.regs, lnk := t.lnk, cmd := t.cmd } = t ∧ sameRegs [6] s t) ∧
  (∀ (s : State),
    s.por = false → s.get LNK_STAT_STATE = 3 → s.lnk.anyFrame = true → s.lnk.missed = false →
    ∃ t, exec (.frameMissed) s = .next t ∧
      t.get LNK_EVT_MISSED = 1 ∧ t.lnk = { s.lnk with missed := true } ∧ { s with regs := t.regs, lnk := t.lnk } = t ∧
      sameRegs [6] s t)

/-- In a frame whose header passed, a sound slot at the device's position with no parameter bad: READ of ready, readable, live
entries answers the words of the live copy, A or B, with OK, or zeros from the first word the array cannot give on, with LATE
and that word's number; words out of range are zero, with OOR; a generation that does not match answers the words with
STALE_GEN and sets STALE. A table that is not ready answers zeros with NOT_READY, an empty one zeros with OOR, one without the
right zeros with status 3. WRITE captures its words in range and passes all, with OK or OOR; it captures none with status 8,
3, or 1 and CAPFULL where the captures do not fit. READ-WRITE does both, a stale one only reads; neither changes memory before
the clean end. EVENT takes its word into LNK_EVIN and sends it ORed with LNK_EVOUT, which clears. STATUS answers the status
word and takes a path delay. COMMAND-CARRY accepts a whole command into the lowest free place; the management controller's is
written to its area after the arrival word (its place there is the model's choice, log entry 56). A slot for another position
passes, code errors in it as K30.7, counted (they come by operand, log entry 54); one whose header fails its check counts and
no further slot of the frame is served. -/
def Obligations.Slots : Prop :=
  (∀ (s : State) (h : SlotHdr) (g : Word) (pl : List Word) (n : Nat),
    s.por = false → s.slotMine 0 h = true → pl.length = slotFld h 36 12 → tableReady s (slotFld h 16 4) = true →
    s.get (TBL_LDESC1_COUNT (slotFld h 16 4)) ≠ 0 → s.on (TBL_LDESC0_MR (slotFld h 16 4)) = true → stale s h g = false →
    allIn s h = true → s.tableCalm = true →
    (∀ w, w < slotFld h 36 12 → (bankOf (slotAddr s h w) = 2 ∨ bankOf (slotAddr s h w) = 3) ∧ inSram (slotAddr s h w) = true) →
    ∃ t, exec (.readSlot h g pl none n []) s = .next t ∧
      sentSlot s t (liveAt s h) 0 0 ∧ (t.lnk.frame.map (fun f => f.slotErr) = some false) ∧
      { s with lnk := t.lnk, led := t.led, evHeld := t.evHeld, evCap := t.evCap, evWin := t.evWin, free := t.free, regs := t.regs } = t ∧
      sameRegs [1] s t) ∧
  (∀ (s : State) (h : SlotHdr) (g : Word) (pl : List Word) (n : Nat),
    s.por = false → s.slotMine 0 h = true → pl.length = slotFld h 36 12 → tableReady s (slotFld h 16 4) = true →
    s.get (TBL_LDESC1_COUNT (slotFld h 16 4)) ≠ 0 → s.on (TBL_LDESC0_MR (slotFld h 16 4)) = true →
    (stale s h g = true ∨ allIn s h = false) → s.tableCalm = true →
    (∀ w, w < slotFld h 36 12 → inRange s h w = true → (bankOf (slotAddr s h w) = 2 ∨ bankOf (slotAddr s h w) = 3) ∧ inSram (slotAddr s h w) = true) →
    ∃ t, exec (.readSlot h g pl none n []) s = .next t ∧
      (sentSlot s t ((List.range (slotFld h 36 12)).map fun w => if inRange s h w then BitVec.ofNat 32 (s.rd (slotAddr s h w) 4) else 0) (if stale s h g then 0xA else 0xB) 0) ∧
      (stale s h g = true → t.get TBL_EVT_STALE = 1) ∧ t.cmd = s.cmd ∧
      { s with lnk := t.lnk, led := t.led, evHeld := t.evHeld, evCap := t.evCap, evWin := t.evWin, free := t.free, regs := t.regs } = t ∧
      sameRegs [1, 7] s t) ∧
  (∀ (s : State) (h : SlotHdr) (g : Word) (pl : List Word) (n : Nat) (k : Nat),
    s.por = false → s.slotMine 0 h = true → pl.length = slotFld h 36 12 → tableReady s (slotFld h 16 4) = true →
    s.get (TBL_LDESC1_COUNT (slotFld h 16 4)) ≠ 0 → s.on (TBL_LDESC0_MR (slotFld h 16 4)) = true → stale s h g = false →
    allIn s h = true → s.tableCalm = true → k < slotFld h 36 12 →
    (∀ w, w < slotFld h 36 12 → (bankOf (slotAddr s h w) = 2 ∨ bankOf (slotAddr s h w) = 3) ∧ inSram (slotAddr s h w) = true) →
    ∃ t, exec (.readSlot h g pl (some k) n []) s = .next t ∧
      (sentSlot s t ((List.range (slotFld h 36 12)).map fun w => if w < k then BitVec.ofNat 32 (s.rd (slotAddr s h w) 4) else 0) 0xC k) ∧
      t.get LNK_LATECNT_COUNT = min (s.get LNK_LATECNT_COUNT + 1) (2 ^ 32 - 1) ∧
      { s with lnk := t.lnk, led := t.led, evHeld := t.evHeld, evCap := t.evCap, evWin := t.evWin, free := t.free, regs := t.regs } = t ∧
      sameRegs [1, 6] s t) ∧
  (∀ (s : State) (h : SlotHdr) (g : Word) (pl : List Word) (n : Nat) (r : Option Nat),
    s.por = false → s.slotMine 0 h = true → pl.length = slotFld h 36 12 →
    (tableReady s (slotFld h 16 4) = false ∨ (tableReady s (slotFld h 16 4) = true ∧ s.on (TBL_LDESC0_MR (slotFld h 16 4)) = true ∧ s.get (TBL_LDESC1_COUNT (slotFld h 16 4)) = 0)) →
    ∃ t, exec (.readSlot h g pl r n []) s = .next t ∧
      sentSlot s t (zeros pl) (if tableReady s (slotFld h 16 4) = true then 0xB else 8) 0 ∧
      { s with lnk := t.lnk, led := t.led, evHeld := t.evHeld, evCap := t.evCap, evWin := t.evWin, free := t.free, regs := t.regs } = t ∧
      sameRegs [1] s t) ∧
  (∀ (s : State) (h : SlotHdr) (g : Word) (pl : List Word) (n : Nat),
    s.por = false → s.slotMine 0 h = true → pl.length = slotFld h 36 12 → tableReady s (slotFld h 16 4) = true →
    s.get (TBL_LDESC1_COUNT (slotFld h 16 4)) ≠ 0 → s.on (TBL_LDESC0_MR (slotFld h 16 4)) = true → stale s h g = false →
    allIn s h = true → pl ≠ [] → ∃ t, exec (.readSlot h g pl (some 0) n []) s = .next t ∧
      sentSlot s t (zeros pl) 0xC 0 ∧ t.get LNK_LATECNT_COUNT = min (s.get LNK_LATECNT_COUNT + 1) (2 ^ 32 - 1) ∧
      { s with lnk := t.lnk, led := t.led, evHeld := t.evHeld, evCap := t.evCap, evWin := t.evWin, free := t.free, regs := t.regs } = t ∧
      sameRegs [1, 6] s t) ∧
  (∀ (s : State) (h : SlotHdr) (g : Word) (pl : List Word) (n : Nat),
    s.por = false → s.slotMine 0 h = true → pl.length = slotFld h 36 12 → tableReady s (slotFld h 16 4) = true →
    s.on (TBL_LDESC0_MR (slotFld h 16 4)) = false → ∃ t, exec (.readSlot h g pl none n []) s = .next t ∧
      sentSlot s t (zeros pl) 3 0 ∧
      { s with lnk := t.lnk, led := t.led, evHeld := t.evHeld, evCap := t.evCap, evWin := t.evWin, free := t.free, regs := t.regs } = t ∧
      sameRegs [1] s t) ∧
  (∀ (s : State) (h : SlotHdr) (g : Word) (pl : List Word) (n : Nat),
    s.por = false → s.slotMine 1 h = true → pl.length = slotFld h 36 12 → tableReady s (slotFld h 16 4) = true →
    s.get (TBL_LDESC1_COUNT (slotFld h 16 4)) ≠ 0 → s.on (TBL_LDESC0_MW (slotFld h 16 4)) = true → allIn s h = true →
    s.cmd.capture.length + pl.length ≤ 1024 → ∃ t, exec (.writeSlot h g pl n []) s = .next t ∧
      sentSlot s t pl 0 0 ∧
      (t.cmd = { s.cmd with capture := s.cmd.capture ++ (List.range pl.length).map fun w => (slotAddr s h w, pl.getD w 0) }) ∧
      { s with lnk := t.lnk, led := t.led, evHeld := t.evHeld, evCap := t.evCap, evWin := t.evWin, free := t.free, regs := t.regs, cmd := t.cmd } = t ∧
      sameRegs [1] s t) ∧
  (∀ (s : State) (h : SlotHdr) (g : Word) (pl : List Word) (n : Nat),
    s.por = false → s.slotMine 1 h = true → pl.length = slotFld h 36 12 → tableReady s (slotFld h 16 4) = true →
    s.on (TBL_LDESC0_MW (slotFld h 16 4)) = true → (s.get (TBL_LDESC1_COUNT (slotFld h 16 4)) = 0 ∨ allIn s h = false) →
    (s.cmd.capture.length + (((List.range pl.length).filter fun w => inRange s h w).map fun w => (slotAddr s h w, pl.getD w 0)).length ≤ 1024) →
    ∃ t, exec (.writeSlot h g pl n []) s = .next t ∧
      sentSlot s t pl 0xB 0 ∧
      (t.cmd = { s.cmd with capture := s.cmd.capture ++ ((List.range pl.length).filter fun w => inRange s h w).map fun w => (slotAddr s h w, pl.getD w 0) }) ∧
      { s with lnk := t.lnk, led := t.led, evHeld := t.evHeld, evCap := t.evCap, evWin := t.evWin, free := t.free, regs := t.regs, cmd := t.cmd } = t ∧
      sameRegs [1] s t) ∧
  (∀ (s : State) (h : SlotHdr) (g : Word) (pl : List Word) (n : Nat),
    s.por = false → s.slotMine 1 h = true → pl.length = slotFld h 36 12 →
    (tableReady s (slotFld h 16 4) = false ∨ s.on (TBL_LDESC0_MW (slotFld h 16 4)) = false) →
    ∃ t, exec (.writeSlot h g pl n []) s = .next t ∧
      sentSlot s t pl (if tableReady s (slotFld h 16 4) = true then 3 else 8) 0 ∧
      { s with lnk := t.lnk, led := t.led, evHeld := t.evHeld, evCap := t.evCap, evWin := t.evWin, free := t.free, regs := t.regs } = t ∧
      sameRegs [1] s t) ∧
  (∀ (s : State) (h : SlotHdr) (g : Word) (pl : List Word) (n : Nat),
    s.por = false → s.slotMine 1 h = true → pl.length = slotFld h 36 12 → tableReady s (slotFld h 16 4) = true →
    s.on (TBL_LDESC0_MW (slotFld h 16 4)) = true →
    (1024 < s.cmd.capture.length + (((List.range pl.length).filter fun w => inRange s h w).map fun w => (slotAddr s h w, pl.getD w 0)).length) →
    ∃ t, exec (.writeSlot h g pl n []) s = .next t ∧
      sentSlot s t pl 1 0 ∧ t.get TBL_EVT_CAPFULL = 1 ∧
      { s with lnk := t.lnk, led := t.led, evHeld := t.evHeld, evCap := t.evCap, evWin := t.evWin, free := t.free, regs := t.regs } = t ∧
      sameRegs [1, 7] s t) ∧
  (∀ (s : State) (h : SlotHdr) (g : Word) (pl : List Word) (n : Nat),
    s.por = false → s.slotMine 2 h = true → pl.length = slotFld h 36 12 → tableReady s (slotFld h 16 4) = true →
    s.get (TBL_LDESC1_COUNT (slotFld h 16 4)) ≠ 0 → s.on (TBL_LDESC0_MR (slotFld h 16 4)) = true →
    s.on (TBL_LDESC0_MW (slotFld h 16 4)) = true → stale s h g = false → allIn s h = true →
    s.cmd.capture.length + pl.length ≤ 1024 → s.tableCalm = true →
    (∀ w, w < slotFld h 36 12 → (bankOf (slotAddr s h w) = 2 ∨ bankOf (slotAddr s h w) = 3) ∧ inSram (slotAddr s h w) = true) →
    ∃ t, exec (.readWriteSlot h g pl none n []) s = .next t ∧
      sentSlot s t (liveAt s h) 0 0 ∧
      (t.cmd = { s.cmd with capture := s.cmd.capture ++ (List.range pl.length).map fun w => (slotAddr s h w, pl.getD w 0) }) ∧
      { s with lnk := t.lnk, led := t.led, evHeld := t.evHeld, evCap := t.evCap, evWin := t.evWin, free := t.free, regs := t.regs, cmd := t.cmd } = t ∧
      sameRegs [1] s t) ∧
  (∀ (s : State) (h : SlotHdr) (g : Word) (pl : List Word) (n : Nat),
    s.por = false → s.slotMine 2 h = true → pl.length = slotFld h 36 12 → tableReady s (slotFld h 16 4) = true →
    s.get (TBL_LDESC1_COUNT (slotFld h 16 4)) ≠ 0 → s.on (TBL_LDESC0_MR (slotFld h 16 4)) = true →
    s.on (TBL_LDESC0_MW (slotFld h 16 4)) = true → (stale s h g = true ∨ allIn s h = false) →
    (s.cmd.capture.length + (((List.range pl.length).filter fun w => inRange s h w).map fun w => (slotAddr s h w, pl.getD w 0)).length ≤ 1024) →
    s.tableCalm = true →
    (∀ w, w < slotFld h 36 12 → inRange s h w = true → (bankOf (slotAddr s h w) = 2 ∨ bankOf (slotAddr s h w) = 3) ∧ inSram (slotAddr s h w) = true) →
    ∃ t, exec (.readWriteSlot h g pl none n []) s = .next t ∧
      (sentSlot s t ((List.range (slotFld h 36 12)).map fun w => if inRange s h w then BitVec.ofNat 32 (s.rd (slotAddr s h w) 4) else 0) (if stale s h g then 0xA else 0xB) 0) ∧
      (t.cmd = { s.cmd with capture := s.cmd.capture ++ if stale s h g then [] else ((List.range pl.length).filter fun w => inRange s h w).map fun w => (slotAddr s h w, pl.getD w 0) }) ∧
      (stale s h g = true → t.get TBL_EVT_STALE = 1) ∧
      { s with lnk := t.lnk, led := t.led, evHeld := t.evHeld, evCap := t.evCap, evWin := t.evWin, free := t.free, regs := t.regs, cmd := t.cmd } = t ∧
      sameRegs [1, 7] s t) ∧
  (∀ (s : State) (h : SlotHdr) (g : Word) (pl : List Word) (n : Nat) (r : Option Nat),
    s.por = false → s.slotMine 2 h = true → pl.length = slotFld h 36 12 →
    (tableReady s (slotFld h 16 4) = false ∨ s.on (TBL_LDESC0_MR (slotFld h 16 4)) = false ∨ s.on (TBL_LDESC0_MW (slotFld h 16 4)) = false) →
    ∃ t, exec (.readWriteSlot h g pl r n []) s = .next t ∧
      sentSlot s t (zeros pl) (if tableReady s (slotFld h 16 4) = true then 3 else 8) 0 ∧
      { s with lnk := t.lnk, led := t.led, evHeld := t.evHeld, evCap := t.evCap, evWin := t.evWin, free := t.free, regs := t.regs } = t ∧
      sameRegs [1] s t) ∧
  (∀ (s : State) (h : SlotHdr) (g : Word) (pl : List Word) (n : Nat) (w : Word) (rest : List Word),
    s.por = false → s.slotMine 3 h = true → pl.length = slotFld h 36 12 → pl = w :: rest →
    ∃ t, exec (.eventSlot h g pl n []) s = .next t ∧
      sentSlot s t (BitVec.ofNat 32 (w.toNat ||| s.get LNK_EVOUT_BITS) :: rest) 0 0 ∧ t.get LNK_EVIN_WORD = w.toNat ∧
      t.get LNK_EVOUT_BITS = 0 ∧ (w ≠ 0 → t.get LNK_EVT_EVIN = 1) ∧
      { s with lnk := t.lnk, led := t.led, evHeld := t.evHeld, evCap := t.evCap, evWin := t.evWin, free := t.free, regs := t.regs } = t ∧
      sameRegs [1, 6] s t) ∧
  (∀ (s : State) (h : SlotHdr) (g : Word) (pl : List Word) (n : Nat) (w : Word) (rest : List Word),
    s.por = false → s.slotMine 5 h = true → pl.length = slotFld h 36 12 → pl = w :: rest →
    ∃ t, exec (.statusSlot h g pl n []) s = .next t ∧
      sentSlot s t (BitVec.ofNat 32 (statusWord s) :: zeros rest) 0 0 ∧
      (t.get LNK_PDELAY_DELAY = if w.toNat / 2 ^ 31 = 1 then w.toNat % 2 ^ 24 else s.get LNK_PDELAY_DELAY) ∧
      { s with lnk := t.lnk, led := t.led, evHeld := t.evHeld, evCap := t.evCap, evWin := t.evWin, free := t.free, regs := t.regs } = t ∧
      sameRegs [1, 6] s t) ∧
  (∀ (s : State) (h : SlotHdr) (g : Word) (pl : List Word) (n : Nat) (w : Word) (rest : List Word) (d : List Byte) (q : Nat),
    s.por = false → s.slotMine 4 h = true → pl.length = slotFld h 36 12 → pl = w :: rest → cmdServing s = true →
    bitsOf w.toNat 0 12 ≤ 4 * rest.length → bitOf w.toNat 12 = true →
    (d = (rest.flatMap fun x => leBytes 4 x.toNat).take (bitsOf w.toNat 0 12)) → 8 ≤ d.length → pHdrOk d = true →
    pLen d ≤ 1024 → pTotal d ≤ d.length → pAuth d = false → check4 s (d.take (pTotal d)) = none → freePlace s = some q →
    s.cmd.partialPkt = none → s.cmd.upFrag = none → s.cmd.rest = [] → s.cmd.replies = [] → s.cmd.places.length = 4 →
    pOp d < 0x40 → ∃ t, exec (.commandCarrySlot h g pl n []) s = .next t ∧
      placeAt t q = some ⟨d.take (pTotal d), 5, none, false, false, s.get LNK_CYCNO_CYCNO % 65536, false⟩ ∧
      t.cmd.lastSeq = some (bitsOf w.toNat 16 8) ∧ t.lnk.out.tail = some (BitVec.ofNat 32 (devPos s * 256)) ∧
      { s with lnk := t.lnk, led := t.led, evHeld := t.evHeld, evCap := t.evCap, evWin := t.evWin, free := t.free, regs := t.regs, cmd := t.cmd } = t ∧
      sameRegs [1] s t) ∧
  (∀ (s : State) (h : SlotHdr) (g : Word) (pl : List Word) (n : Nat) (w : Word) (rest : List Word) (d : List Byte) (q : Nat),
    s.por = false → s.slotMine 4 h = true → pl.length = slotFld h 36 12 → pl = w :: rest → cmdServing s = true →
    bitsOf w.toNat 0 12 ≤ 4 * rest.length → bitOf w.toNat 12 = true →
    (d = (rest.flatMap fun x => leBytes 4 x.toNat).take (bitsOf w.toNat 0 12)) → 8 ≤ d.length → pHdrOk d = true →
    pLen d ≤ 1024 → pTotal d ≤ d.length → pAuth d = false → check4 s (d.take (pTotal d)) = none → s.cmd.partialPkt = none →
    s.cmd.upFrag = none → s.cmd.rest = [] → s.cmd.replies = [] → s.cmd.places.length = 4 → freePlace s = some q →
    0x40 ≤ pOp d → s.ms.wipeQ = [] → ∃ t, exec (.commandCarrySlot h g pl n []) s = .next t ∧
      placeAt t q = some ⟨d.take (pTotal d), 5, none, false, false, s.get LNK_CYCNO_CYCNO % 65536, false⟩ ∧
      t.rdBytes (0x103F0000 + 0x800 * q) (pTotal d + 4) = arrivalWord 5 (s.get LNK_CYCNO_CYCNO) ++ d.take (pTotal d) ∧
      (∀ a, (a < 0x103F0000 ∨ 0x103F2000 ≤ a) → t.byte a = s.byte a) ∧
      { s with lnk := t.lnk, led := t.led, evHeld := t.evHeld, evCap := t.evCap, evWin := t.evWin, free := t.free, regs := t.regs, cmd := t.cmd, mem := t.mem, ms := t.ms } = t ∧
      sameRegs [1, 3] s t) ∧
  (∀ (s : State) (h : SlotHdr) (g : Word) (pl : List Word) (errs : List (Nat × Nat)) (r : Option Nat) (n : Nat) (f : Frame) (k : List Nat),
    s.por = false → s.lnk.csAt = [] → serves s = true → s.lnk.frame = some f → k = badPlaces s f.port f.replicated errs →
    (∀ i ∈ k, 8 ≤ i) → crc8 (leBytes 7 h.bits.toNat) = h.scrc.toNat → pl.length = slotFld h 36 12 → slotFld h 12 3 = 0 →
    slotFld h 0 12 ≠ devPos s → ∃ t, exec (.readSlot h g pl r n errs) s = .next t ∧
      t.lnk.out.payload = takenWords pl (badPayload h k) ∧ t.lnk.out.bad = badPayload h k ∧ t.lnk.out.tail = none ∧
      (errs = [] → t.lnk.out.payload = pl) ∧ t.get LNK_ERRCNT1_CODE = min (s.get LNK_ERRCNT1_CODE + errs.length) 65535 ∧
      { s with regs := t.regs, lnk := t.lnk } = t ∧ sameRegs [6] s t) ∧
  (∀ (s : State) (h : SlotHdr) (g : Word) (pl : List Word) (errs : List (Nat × Nat)) (n : Nat) (f : Frame),
    s.por = false → s.lnk.csAt = [] → serves s = true → s.lnk.frame = some f →
    (crc8 (leBytes 7 h.bits.toNat) ≠ h.scrc.toNat ∨ ((badPlaces s f.port f.replicated errs).any fun i => decide (i < 8)) = true) →
    ∃ t, exec (.writeSlot h g pl n errs) s = .next t ∧
      t.lnk.out.tail = none ∧ serves t = false ∧ t.get LNK_EVT_SHDRERR = 1 ∧
      t.get LNK_ERRCNT0_SHDR = min (s.get LNK_ERRCNT0_SHDR + 1) 65535 ∧ { s with regs := t.regs, lnk := t.lnk } = t ∧
      sameRegs [6] s t)

/-- A write of TBL_COMMIT that reaches it with a mask that is not 0, none of whose tables is pending and whose staged extents
fit and do not overlap, adds the mask to PEND with RESULT OK; mask 0 is BADPARAM, a pending table WRONG_STATE, a bad extent
BADPARAM with the lowest bad table in BADTBL. A write of TBL_CANCEL clears the named bits, but for tables whose flip waits on
a landing. LANDING_DONE writes every captured word, of two for one address the later, LANDSEQ steps and LAND is set; no other
byte changes; tables whose flip waited flip then. -/
def Obligations.TableCommits : Prop :=
  (∀ (s : State) (m : Master) (v : Word),
    s.por = false → s.reaches m 0x40007000 1 v.toNat = true → v.toNat % 65536 ≠ 0 →
    v.toNat % 65536 &&& s.get TBL_CMTSTAT_PEND = 0 →
    (((List.range 16).all fun n => !bitOf v.toNat n || !tableFails s v.toNat n) = true) →
    ∃ t, exec (.tableCommitRequest m v) s = .next t ∧
      t.get TBL_CMTSTAT_PEND = (s.get TBL_CMTSTAT_PEND ||| v.toNat % 65536) % 65536 ∧ t.get TBL_CMTSTAT_RESULT = 0 ∧
      t.get TBL_CMTSTAT_BADTBL = 0 ∧ t.bus = .ok 0 ∧
      { s with regs := t.regs, evHeld := t.evHeld, evCap := t.evCap, evWin := t.evWin, free := t.free, bus := t.bus } = t ∧
      sameRegs [7, 8] s t) ∧
  (∀ (s : State) (m : Master) (v : Word),
    s.por = false → s.reaches m 0x40007000 1 v.toNat = true → v.toNat % 65536 = 0 →
    ∃ t, exec (.tableCommitRequest m v) s = .next t ∧
      t.get TBL_CMTSTAT_RESULT = 5 ∧ t.get TBL_CMTSTAT_BADTBL = 0 ∧ t.get TBL_CMTSTAT_PEND = s.get TBL_CMTSTAT_PEND ∧
      { s with regs := t.regs, evHeld := t.evHeld, evCap := t.evCap, evWin := t.evWin, free := t.free, bus := t.bus } = t ∧
      sameRegs [7, 8] s t) ∧
  (∀ (s : State) (m : Master) (v : Word),
    s.por = false → s.reaches m 0x40007000 1 v.toNat = true → v.toNat % 65536 ≠ 0 →
    v.toNat % 65536 &&& s.get TBL_CMTSTAT_PEND ≠ 0 → ∃ t, exec (.tableCommitRequest m v) s = .next t ∧
      t.get TBL_CMTSTAT_RESULT = 2 ∧ t.get TBL_CMTSTAT_BADTBL = 0 ∧ t.get TBL_CMTSTAT_PEND = s.get TBL_CMTSTAT_PEND ∧
      { s with regs := t.regs, evHeld := t.evHeld, evCap := t.evCap, evWin := t.evWin, free := t.free, bus := t.bus } = t ∧
      sameRegs [7, 8] s t) ∧
  (∀ (s : State) (m : Master) (v : Word) (b : Nat),
    s.por = false → s.reaches m 0x40007000 1 v.toNat = true → v.toNat % 65536 ≠ 0 →
    v.toNat % 65536 &&& s.get TBL_CMTSTAT_PEND = 0 → b < 16 → bitOf v.toNat b = true → tableFails s v.toNat b = true →
    (((List.range b).all fun n => !bitOf v.toNat n || !tableFails s v.toNat n) = true) →
    ∃ t, exec (.tableCommitRequest m v) s = .next t ∧
      t.get TBL_CMTSTAT_RESULT = 5 ∧ t.get TBL_CMTSTAT_BADTBL = b ∧ t.get TBL_CMTSTAT_PEND = s.get TBL_CMTSTAT_PEND ∧
      { s with regs := t.regs, evHeld := t.evHeld, evCap := t.evCap, evWin := t.evWin, free := t.free, bus := t.bus } = t ∧
      sameRegs [7, 8] s t) ∧
  (∀ (s : State) (m : Master) (v : Word),
    s.por = false → s.reaches m 0x40007008 1 v.toNat = true → s.get TBL_CMTSTAT_PEND < 65536 →
    ∃ t, exec (.tableCancel m v) s = .next t ∧
      (∀ k, k < 16 → t.bit TBL_CMTSTAT_PEND k = (s.bit TBL_CMTSTAT_PEND k && !(bitOf v.toNat k && !bitOf s.cmd.waitFlip k))) ∧
      t.bus = .ok 0 ∧
      { s with regs := t.regs, evHeld := t.evHeld, evCap := t.evCap, evWin := t.evWin, free := t.free, bus := t.bus } = t ∧
      sameRegs [7, 8] s t) ∧
  (∀ (s : State) (a : Nat) (w : Word),
    s.por = false → s.cmd.landing = [(a, w)] → s.cmd.waitFlip = 0 → s.ms.wipeQ = [] → (bankOf a = 2 ∨ bankOf a = 3) →
    ∃ t, exec (.landingDone) s = .next t ∧
      t.rd a 4 = w.toNat ∧ (∀ b, (b < a ∨ a + 4 ≤ b) → t.byte b = s.byte b) ∧ t.cmd.landing = [] ∧
      t.get TBL_LANDSEQ_SEQ = (s.get TBL_LANDSEQ_SEQ + 1) % 2 ^ 32 ∧ t.get TBL_EVT_LAND = 1 ∧
      { s with mem := t.mem, ms := t.ms, cmd := t.cmd, regs := t.regs, evHeld := t.evHeld, evCap := t.evCap, evWin := t.evWin, free := t.free } = t ∧
      sameRegs [7] s t) ∧
  (∀ (s : State) (l : List (Nat × Word)),
    s.por = false → s.cmd.landing = l → l ≠ [] → s.cmd.waitFlip < 65536 → s.ms.wipeQ = [] →
    ((l.all fun x => x.1 % 4 == 0 && (bankOf x.1 == 2 || bankOf x.1 == 3)) = true) → ∃ t, exec (.landingDone) s = .next t ∧
      (∀ i, i < l.length → (∀ j, j < l.length → i < j → (l.getD j (0, 0)).1 ≠ (l.getD i (0, 0)).1) → t.rd (l.getD i (0, 0)).1 4 = (l.getD i (0, 0)).2.toNat) ∧
      (∀ b, (∀ x ∈ l, b < x.1 ∨ x.1 + 4 ≤ b) → t.byte b = s.byte b) ∧ t.cmd.landing = [] ∧ t.cmd.waitFlip = 0 ∧
      t.get TBL_LANDSEQ_SEQ = (s.get TBL_LANDSEQ_SEQ + 1) % 2 ^ 32 ∧ t.get TBL_EVT_LAND = 1 ∧
      (∀ k, k < 16 → t.bit TBL_LIVE_LIVE k = (s.bit TBL_LIVE_LIVE k ^^ bitOf s.cmd.waitFlip k)) ∧
      (∀ k, k < 16 → t.bit TBL_CMTSTAT_PEND k = (s.bit TBL_CMTSTAT_PEND k && !bitOf s.cmd.waitFlip k)) ∧
      { s with mem := t.mem, ms := t.ms, cmd := t.cmd, regs := t.regs, evHeld := t.evHeld, evCap := t.evCap, evWin := t.evWin, free := t.free } = t ∧
      sameRegs [7] s t)

/-- For a packet that stands in a place and has not run: PING echoes up to 1020 bytes, and answers BADLEN above; GET_STATE
answers its five words and clears MEM_CONF2; FIRE_EVENT fires a channel that LINE owns, and is DENIED for another; SET_LEVEL
of P0 to P2, with nothing in the way, starts the transition and sets EXTLVL; SLEEP_HINT stores state and milliseconds and sets
HINT; a payload of another length is BADLEN. Each answer is queued where one was asked for, else the place is free, and
nothing outside the command interpreter changes but what is named. TABLE_COMMIT of tables that all allow it, which the checks
of R253 pass, makes them pending. TABLE_INFO answers the five words of the table named. TABLE_WRITE of a table that allows it,
not pending, with the data inside the staged extent, writes the data into the copy that is not live and changes no other byte;
without the right it is DENIED. TABLE_READ of the live copy of a readable table, inside its extent, answers GEN, a late index
of 0 and the words memory holds. -/
def Obligations.ControlAndTableCommands : Prop :=
  (∀ (s : State) (p : Nat) (pl : Place),
    s.por = false → s.opReady p 1 pl = true → (pPay pl.pkt).length ≤ 1020 → ∃ t, exec (.ping p) s = .next t ∧
      answered s t p pl 0 (pPay pl.pkt) ∧ { s with cmd := t.cmd } = t) ∧
  (∀ (s : State) (p : Nat) (pl : Place),
    s.por = false → s.opReady p 1 pl = true → 1020 < (pPay pl.pkt).length → ∃ t, exec (.ping p) s = .next t ∧
      answered s t p pl 4 [] ∧ { s with cmd := t.cmd } = t) ∧
  (∀ (s : State) (p : Nat) (pl : Place),
    s.por = false → s.opReady p 2 pl = true → (pPay pl.pkt) = [] → ∃ t, exec (.getState p) s = .next t ∧
      answered s t p pl 0 ([statusWord s, s.get LNK_LATECNT_COUNT, s.get (MEM_CONF_COUNT 2), s.get TBL_READY_READY + s.get TBL_LIVE_LIVE * 65536, s.get LNK_CYCNO_CYCNO].flatMap (leBytes 4)) ∧
      t.get (MEM_CONF_COUNT 2) = 0 ∧ { s with cmd := t.cmd, regs := t.regs } = t ∧ sameRegs [3] s t) ∧
  (∀ (s : State) (p : Nat) (pl : Place) (c : Byte),
    s.por = false → s.opReady p 3 pl = true → (pPay pl.pkt) = [c, 0, 0, 0] → c.toNat < 32 →
    s.get (EVF_CHOWN_PRIN c.toNat) = 5 → s.evWin = [] → ∃ t, exec (.fireEvent p) s = .next t ∧
      answered s t p pl 0 [] ∧
      (∀ k, k < 22 → s.on (EVF_CSEL_EN k) = true → s.get (EVF_CSEL_CH k) = c.toNat → asyncHigh s c.toNat 64 = false → bitOf t.evHeld k = true) ∧
      { s with cmd := t.cmd, evHeld := t.evHeld, evCap := t.evCap, evWin := t.evWin, free := t.free } = t) ∧
  (∀ (s : State) (p : Nat) (pl : Place) (c : Byte),
    s.por = false → s.opReady p 3 pl = true → (pPay pl.pkt) = [c, 0, 0, 0] → c.toNat < 32 →
    s.get (EVF_CHOWN_PRIN c.toNat) ≠ 5 → ∃ t, exec (.fireEvent p) s = .next t ∧
      answered s t p pl 3 [] ∧ { s with cmd := t.cmd } = t) ∧
  (∀ (s : State) (p : Nat) (pl : Place) (v d0 d1 : Byte),
    s.por = false → s.opReady p 4 pl = true → (pPay pl.pkt) = [v, 0, d0, d1] → v.toNat ≤ 2 → s.on PWR_LVLSTAT_BUSY = false →
    s.pwr.entry = none → s.get PWR_DOMSTAT_STATE = 0 → s.pwr.lvlQueue = none → ∃ t, exec (.setLevel p) s = .next t ∧
      answered s t p pl 0 [0] ∧ t.get PWR_LVLSTAT_TARGET = v.toNat ∧ t.get PWR_LVLSTAT_BUSY = 1 ∧ t.get PWR_EVT_EXTLVL = 1 ∧
      (v.toNat < s.get PWR_LVLSTAT_CUR → t.get PWR_LVLSTAT_CUR = v.toNat) ∧
      { s with cmd := t.cmd, regs := t.regs, led := t.led, pwr := t.pwr } = t ∧ sameRegs [0, 1, 16, 17] s t) ∧
  (∀ (s : State) (p : Nat) (pl : Place),
    s.por = false → s.opReady p 4 pl = true → (pPay pl.pkt).length ≠ 4 → ∃ t, exec (.setLevel p) s = .next t ∧
      answered s t p pl 4 [] ∧ { s with cmd := t.cmd } = t) ∧
  (∀ (s : State) (p : Nat) (pl : Place) (v d0 d1 : Byte),
    s.por = false → s.opReady p 5 pl = true → (pPay pl.pkt) = [v, 0, d0, d1] → 1 ≤ v.toNat → v.toNat ≤ 3 →
    ∃ t, exec (.sleepHint p) s = .next t ∧
      answered s t p pl 0 [] ∧ t.get TBL_HINT_STATE = v.toNat ∧ t.get TBL_HINT_MS = d0.toNat + 256 * d1.toNat ∧
      t.get TBL_EVT_HINT = 1 ∧ { s with cmd := t.cmd, regs := t.regs } = t ∧ sameRegs [7] s t) ∧
  (∀ (s : State) (p : Nat) (pl : Place) (m0 m1 : Byte) (k : Nat),
    s.por = false → s.opReady p 6 pl = true → (pPay pl.pkt) = [m0, m1, 0, 0] → k = m0.toNat + 256 * m1.toNat → k ≠ 0 →
    k &&& s.get TBL_CMTSTAT_PEND = 0 → (((List.range 16).all fun i => !bitOf k i || s.on (TBL_SDESC0_CMDW i)) = true) →
    (((List.range 16).all fun n => !bitOf k n || !tableFails s k n) = true) → ∃ t, exec (.tableCommit p) s = .next t ∧
      answered s t p pl 0 [] ∧ t.get TBL_CMTSTAT_PEND = (s.get TBL_CMTSTAT_PEND ||| k) % 65536 ∧
      { s with cmd := t.cmd, regs := t.regs } = t ∧ sameRegs [7] s t) ∧
  (∀ (s : State) (p : Nat) (pl : Place) (k : Byte),
    s.por = false → s.opReady p 7 pl = true → (pPay pl.pkt) = [k, 0, 0, 0] → k.toNat < 16 →
    ∃ t, exec (.tableInfo p) s = .next t ∧
      answered s t p pl 0 ((tableInfo s k.toNat).flatMap (leBytes 4)) ∧ { s with cmd := t.cmd } = t) ∧
  (∀ (s : State) (p : Nat) (pl : Place),
    s.por = false → s.opReady p 8 pl = true → 8 ≤ (pPay pl.pkt).length → (pPay pl.pkt).length ≤ 1020 →
    (pPay pl.pkt).length % 4 = 0 → (pf (pPay pl.pkt) 0 1) < 16 → pf (pPay pl.pkt) 1 1 = 0 →
    s.on (TBL_SDESC0_CMDW (pf (pPay pl.pkt) 0 1)) = true → s.bit TBL_CMTSTAT_PEND (pf (pPay pl.pkt) 0 1) = false →
    pf (pPay pl.pkt) 2 2 * esz (s.get (TBL_SDESC0_ESIZE (pf (pPay pl.pkt) 0 1))) + (pPay pl.pkt).length ≤ (stagedExt s (pf (pPay pl.pkt) 0 1)).2 + 4 →
    (copyBase (1 - liveCopy s (pf (pPay pl.pkt) 0 1)) + (stagedExt s (pf (pPay pl.pkt) 0 1)).1 + pf (pPay pl.pkt) 2 2 * esz (s.get (TBL_SDESC0_ESIZE (pf (pPay pl.pkt) 0 1)))) + (pPay pl.pkt).length ≤ 0x10300004 →
    s.ms.wipeQ = [] → ∃ t, exec (.tableWrite p) s = .next t ∧
      answered s t p pl 0 [] ∧
      t.rdBytes (copyBase (1 - liveCopy s (pf (pPay pl.pkt) 0 1)) + (stagedExt s (pf (pPay pl.pkt) 0 1)).1 + pf (pPay pl.pkt) 2 2 * esz (s.get (TBL_SDESC0_ESIZE (pf (pPay pl.pkt) 0 1)))) ((pPay pl.pkt).length - 4) = (pPay pl.pkt).drop 4 ∧
      (∀ a, (a < (copyBase (1 - liveCopy s (pf (pPay pl.pkt) 0 1)) + (stagedExt s (pf (pPay pl.pkt) 0 1)).1 + pf (pPay pl.pkt) 2 2 * esz (s.get (TBL_SDESC0_ESIZE (pf (pPay pl.pkt) 0 1)))) ∨ (copyBase (1 - liveCopy s (pf (pPay pl.pkt) 0 1)) + (stagedExt s (pf (pPay pl.pkt) 0 1)).1 + pf (pPay pl.pkt) 2 2 * esz (s.get (TBL_SDESC0_ESIZE (pf (pPay pl.pkt) 0 1)))) + (pPay pl.pkt).length ≤ a + 4) → t.byte a = s.byte a) ∧
      { s with cmd := t.cmd, mem := t.mem, ms := t.ms } = t) ∧
  (∀ (s : State) (p : Nat) (pl : Place),
    s.por = false → s.opReady p 8 pl = true → 1 ≤ (pPay pl.pkt).length → (pf (pPay pl.pkt) 0 1) < 16 →
    s.on (TBL_SDESC0_CMDW (pf (pPay pl.pkt) 0 1)) = false → ∃ t, exec (.tableWrite p) s = .next t ∧
      answered s t p pl 3 [] ∧ { s with cmd := t.cmd } = t) ∧
  (∀ (s : State) (p : Nat) (pl : Place),
    s.por = false → s.opReady p 9 pl = true → (pPay pl.pkt).length = 8 → (pf (pPay pl.pkt) 0 1) < 16 →
    pf (pPay pl.pkt) 1 1 = 0 → pf (pPay pl.pkt) 6 2 = 0 → 4 ≤ pf (pPay pl.pkt) 4 2 → pf (pPay pl.pkt) 4 2 ≤ 1016 →
    pf (pPay pl.pkt) 4 2 % 4 = 0 → s.on (TBL_LDESC0_MR (pf (pPay pl.pkt) 0 1)) = true →
    pf (pPay pl.pkt) 2 2 * esz (s.get (TBL_LDESC0_ESIZE (pf (pPay pl.pkt) 0 1))) + pf (pPay pl.pkt) 4 2 ≤ (liveExt s (pf (pPay pl.pkt) 0 1)).2 →
    (copyBase (liveCopy s (pf (pPay pl.pkt) 0 1)) + (liveExt s (pf (pPay pl.pkt) 0 1)).1 + pf (pPay pl.pkt) 2 2 * esz (s.get (TBL_LDESC0_ESIZE (pf (pPay pl.pkt) 0 1)))) + pf (pPay pl.pkt) 4 2 ≤ 0x10300000 →
    s.ms.wipeQ = [] → s.ms.sramErr = [] → ∃ t, exec (.tableRead p) s = .next t ∧
      (answered s t p pl 0 (leBytes 2 (s.get (TBL_LDESC1_GEN (pf (pPay pl.pkt) 0 1))) ++ leBytes 2 0 ++ ((List.range (pf (pPay pl.pkt) 4 2 / 4)).map fun i => s.rd ((copyBase (liveCopy s (pf (pPay pl.pkt) 0 1)) + (liveExt s (pf (pPay pl.pkt) 0 1)).1 + pf (pPay pl.pkt) 2 2 * esz (s.get (TBL_LDESC0_ESIZE (pf (pPay pl.pkt) 0 1)))) + 4 * i) 4).flatMap (leBytes 4))) ∧
      { s with cmd := t.cmd } = t)

/-- SESSION_OPEN for a principal whose slot is claimed, with the tamper input low and no session, answers a fresh 16-byte
challenge, which stays open; for a slot that may be claimed it answers the new key and keeps its salt; with the tamper input
high it is DENIED. SESSION_PROVE with the CMAC of the proof message opens the session with nonce 1 and the command key of both
nonces, ends the challenge and sets its event; that of a claim, with the hold capacitor ready, writes the slot too; any other
proof ends the challenge, counts and answers AUTH_FAIL. SESSION_CLOSE in an authenticated packet and SESSION_TIMEOUT end the
session and set its event. -/
def Obligations.SessionCommands : Prop :=
  (∀ (s : State) (p : Nat) (pl : Place) (salt : List Byte),
    s.por = false → s.opReady p 0x40 pl = true → (pPay pl.pkt).length = 20 → slotted (pf (pPay pl.pkt) 0 1) = true →
    pf (pPay pl.pkt) 1 3 = 0 → s.sec.tampin = false → s.sec.sess = none → saltOf s (pf (pPay pl.pkt) 0 1) = some salt →
    ∃ t, exec (.sessionOpen p) s = .next t ∧
      answered s t p pl 0 (s.random 16).1 ∧
      t.sec.chal = some ⟨pf (pPay pl.pkt) 0 1, prinKey s (pf (pPay pl.pkt) 0 1) salt, ((pPay pl.pkt).drop 4).take 16, (s.random 16).1, 0⟩ ∧
      t.sec.claim = none ∧ t.sec.sess = none ∧ { s with cmd := t.cmd, sec := t.sec, free := t.free } = t) ∧
  (∀ (s : State) (p : Nat) (pl : Place),
    s.por = false → s.opReady p 0x40 pl = true → (pPay pl.pkt).length = 20 → slotted (pf (pPay pl.pkt) 0 1) = true →
    pf (pPay pl.pkt) 1 3 = 0 → s.sec.tampin = false → s.sec.sess = none → saltOf s (pf (pPay pl.pkt) 0 1) = none →
    claimable s (pf (pPay pl.pkt) 0 1) = true → ∃ t, exec (.sessionOpen p) s = .next t ∧
      answered s t p pl 0 (prinKey s (pf (pPay pl.pkt) 0 1) (s.random 16).1) ∧ t.sec.claim = some (s.random 16).1 ∧
      t.sec.sess = none ∧ { s with cmd := t.cmd, sec := t.sec, free := t.free } = t) ∧
  (∀ (s : State) (p : Nat) (pl : Place),
    s.por = false → s.opReady p 0x40 pl = true → s.sec.tampin = true → ∃ t, exec (.sessionOpen p) s = .next t ∧
      answered s t p pl 3 [] ∧ { s with cmd := t.cmd } = t) ∧
  (∀ (s : State) (p : Nat) (pl : Place) (x : Sess),
    s.por = false → s.opReady p 0x41 pl = true → s.sec.chal = some x → (pPay pl.pkt).length = 16 →
    (pPay pl.pkt) = cmac x.key (proofMsg x.prin 0 x.nh x.cd) → s.sec.claim = none → ∃ t, exec (.sessionProve p) s = .next t ∧
      answered s t p pl 0 [] ∧
      t.sec = { s.sec with chal := none, sess := some { x with key := cmdKey x.key x.nh x.cd, nonce := 1 } } ∧
      t.get SEC_SESS_FAILS = 0 ∧ t.get SEC_EVT_SESSOPEN = 1 ∧ { s with cmd := t.cmd, sec := t.sec, regs := t.regs } = t ∧
      sameRegs [14] s t) ∧
  (∀ (s : State) (p : Nat) (pl : Place) (x : Sess),
    s.por = false → s.opReady p 0x41 pl = true → s.sec.chal = some x → (pPay pl.pkt).length = 16 →
    (pPay pl.pkt) ≠ cmac x.key (proofMsg x.prin 0 x.nh x.cd) → ∃ t, exec (.sessionProve p) s = .next t ∧
      answered s t p pl 7 [] ∧ t.sec = { s.sec with chal := none, claim := none } ∧
      t.get SEC_AUTHCNT_COUNT = min (s.get SEC_AUTHCNT_COUNT + 1) 65535 ∧ t.get SEC_EVT_AUTHFAIL = 1 ∧
      { s with cmd := t.cmd, sec := t.sec, regs := t.regs } = t ∧ sameRegs [14] s t) ∧
  (∀ (s : State) (p : Nat) (pl : Place),
    s.por = false → s.opReady p 0x42 pl = true → (pPay pl.pkt) = [] → pl.nonce.isSome = true → s.sec.sess.isSome = true →
    ∃ t, exec (.sessionClose p) s = .next t ∧
      answered s t p pl 0 [] ∧ t.sec = { s.sec with sess := none } ∧ t.get SEC_EVT_SESSEND = 1 ∧ t.get SEC_SESS_FAILS = 0 ∧
      { s with cmd := t.cmd, sec := t.sec, regs := t.regs } = t ∧ sameRegs [14] s t) ∧
  (∀ (s : State),
    s.por = false → s.sec.sess.isSome = true → ∃ t, exec (.sessionTimeout) s = .next t ∧
      t.sec = { s.sec with sess := none } ∧ t.get SEC_EVT_SESSEND = 1 ∧ t.get SEC_SESS_FAILS = 0 ∧
      { s with sec := t.sec, regs := t.regs } = t ∧ sameRegs [14] s t) ∧
  (∀ (s : State) (p : Nat) (pl : Place) (x : Sess) (salt : List Byte),
    s.por = false → s.opReady p 0x41 pl = true → s.sec.chal = some x → (pPay pl.pkt).length = 16 →
    (pPay pl.pkt) = cmac x.key (proofMsg x.prin 0 x.nh x.cd) → s.sec.claim = some salt → s.on NVS_STAT_HOLDRDY = true →
    ∃ t, exec (.sessionProve p) s = .next t ∧
      answered s t p pl 0 [] ∧
      t.sec = { s.sec with chal := none, claim := none, slots := s.sec.slots.set (x.prin - 1) (some salt), sess := some { x with key := cmdKey x.key x.nh x.cd, nonce := 1 } } ∧
      t.get SEC_SESS_FAILS = 0 ∧ t.get SEC_EVT_SESSOPEN = 1 ∧ t.get SEC_EVT_CLAIM = 1 ∧
      { s with cmd := t.cmd, sec := t.sec, regs := t.regs } = t ∧ sameRegs [0, 14] s t)

/-- LC_QUERY by a principal with the right answers the state. LC_ADVANCE whose checks pass answers OK and arms the transition,
due eight frame starts later with a reply and one without; else it answers the refusal's status, of the checks in R387's
order: SERVICE and LINE are DENIED, another length than 4 is BADLEN, bad parameters BADPARAM, a transition the principal may
not ask for DENIED, one that does not exist or whose condition fails, or that comes while another waits (log entry 37),
WRONG_STATE. SEC_LCCMD with its key in BLANK, by the debug port, writes the mark of BLANK to MADE and makes that transition
due. A due FIELDED to RETURNED transition burns a fuse, burns none back, ends session and challenge, wipes the owner recipes,
rec0 to rec63, the OWNER slot and the region locks and no other recipe or record, and restarts with cause 4. A restart that
finds the mark wipes and clears it before firmware starts, or waits for the hold capacitor with the core stopped, and goes on
when it is ready (log entry 111). RESET_DEVICE by a principal that may arms its reset. FIRMWARE_COMMAND writes arrival word,
header and payload to the entry slot and rings; a write of MBX_LFRPL queues the slot's payload as the reply. COMMAND_TIMEOUT
answers BUSY and frees the place. -/
def Obligations.LifeCycleAndFirmwareCommands : Prop :=
  (∀ (s : State) (p : Nat) (a b c d : Byte), 1 ≤ p → p ≤ 5 →
    let l := lcState s
    let no := p = 4 ∨ p = 5
    let bad := 4 < a.toNat ∨ 1 < b.toNat ∨ c ≠ 0 ∨ d ≠ 0 ∨ b ≠ 0 ∧ ¬(l = 2 ∧ a = 3)
    let asks := fun x y => l = x ∧ a.toNat = y
    let denied := asks 2 3 ∧ p ≠ (if b = 0 then 3 else 2) ∨ (asks 1 2 ∨ asks 3 2) ∧ p ≠ 2 ∨
      (asks 1 4 ∨ asks 2 4 ∨ asks 3 4) ∧ p ≠ 2 ∧ p ≠ 1
    let none' := ¬asks 1 2 ∧ ¬asks 2 3 ∧ ¬asks 3 2 ∧ ¬asks 1 4 ∧ ¬asks 2 4 ∧ ¬asks 3 4
    (no → ∀ k, (lcRefusal s p k).1 = some (3, 0)) ∧
    (¬no → ∀ k : List Byte, k.length ≠ 4 → (lcRefusal s p k).1 = some (4, 0)) ∧
    (¬no → bad → (lcRefusal s p [a, b, c, d]).1 = some (5, 0)) ∧
    (¬no → ¬bad → denied → (lcRefusal s p [a, b, c, d]).1 = some (3, 0)) ∧
    (¬no → ¬bad → ¬denied → none' ∨ s.sec.trans.isSome = true ∨ asks 3 2 ∧ 62 ≤ tenure s ∨
      asks 1 2 ∧ ((saltOf s 2).isNone = true ∨ (imageCheck s false).1.auth ≠ 1) → (lcRefusal s p [a, b, c, d]).1 = some (2, 6)) ∧
    (¬no → ¬bad → ¬denied → ¬none' → s.sec.trans = none → ¬(asks 3 2 ∧ 62 ≤ tenure s) →
      ¬(asks 1 2 ∧ ((saltOf s 2).isNone = true ∨ (imageCheck s false).1.auth ≠ 1)) → (lcRefusal s p [a, b, c, d]).1 = none)) ∧
  (∀ (s : State) (p : Nat) (pl : Place),
    s.por = false → s.opReady p 0x43 pl = true → right s .lifecycle pl.prin false = true → (pPay pl.pkt) = [] →
    ∃ t, exec (.lcQuery p) s = .next t ∧
      answered s t p pl 0 [BitVec.ofNat 8 (lcState s)] ∧ { s with cmd := t.cmd } = t) ∧
  (∀ (s : State) (p : Nat) (pl : Place),
    s.por = false → s.opReady p 0x44 pl = true → lcRefusal s pl.prin (pPay pl.pkt) = (none, s) →
    ∃ t, exec (.lcAdvance p) s = .next t ∧
      answered s t p pl 0 [] ∧
      t.sec.trans = some ⟨lcState s, pf (pPay pl.pkt) 0 1, (if pReply pl.pkt then 8 else 1), (if pReply pl.pkt then p else 5)⟩ ∧
      { s with cmd := t.cmd, sec := t.sec } = t) ∧
  (∀ (s : State) (p : Nat) (pl : Place) (st why : Nat),
    s.por = false → s.opReady p 0x44 pl = true → lcRefusal s pl.prin (pPay pl.pkt) = (some (st, why), s) → st ≠ 2 →
    ∃ t, exec (.lcAdvance p) s = .next t ∧
      answered s t p pl st [] ∧ { s with cmd := t.cmd } = t) ∧
  (∀ (s : State) (m : Master) (v : Word),
    s.por = false → s.reaches m 0x4000E0C0 1 v.toNat = true → v.toNat % 65536 = 0x4D31 → lcState s = 0 → s.sec.trans = none →
    s.on NVS_STAT_HOLDRDY = true → ∃ t, exec (.lcBlankToMade m v) s = .next t ∧
      t.sec = { s.sec with trans := some ⟨0, 1, 0, 5⟩ } ∧ t.rd 0x2000FFFC 4 = 0x57504D01 ∧
      (∀ a, (a < 0x2000FFFC ∨ 0x20010000 ≤ a) → t.byte a = s.byte a) ∧ t.bus = .ok 0 ∧
      { s with sec := t.sec, mem := t.mem, ms := t.ms, bus := t.bus, regs := t.regs } = t ∧ sameRegs [0] s t) ∧
  (∀ (s : State) (q : Nat),
    s.por = false → s.sec.trans = some ⟨2, 3, 0, q⟩ → lcState s = 2 → s.boot = none → s.pwr.entry = none →
    s.sec.slots.length = 4 → s.on NVS_STAT_HOLDRDY = true → ∃ t, exec (.lifecycleTransition) s = .next t ∧
      lcState t = 3 ∧ (∀ i, i < 64 → bitOf s.sec.fuses i = true → bitOf t.sec.fuses i = true) ∧ t.sec.trans = none ∧
      t.sec.sess = none ∧ t.sec.chal = none ∧ t.sec.slots.getD 2 none = none ∧
      (∀ a, (0x200E0000 ≤ a ∧ a < 0x201C0000) → t.byte a = 0) ∧
      (∀ a, (0x20010000 ≤ a ∧ a < 0x200E0000 ∨ 0x201C0000 ≤ a ∧ a < 0x201E0000) → t.byte a = s.byte a) ∧
      (∀ k, k < 16 → t.get (EPD_RGNOWN_LOCKED k) = 0) ∧ t.get PWR_RSTCAUSE_LAST = 4 ∧ t.bit PWR_RSTCAUSE_SEEN 4 = true) ∧
  (∀ (s : State),
    s.por = false → s.boot = some (4, 0) → s.pwr.withheld = false → s.dx.stores = [] → s.nvs.ops = [] → s.nvs.own = [] →
    s.ms.nvErr = [] → s.nvs.moving = none → s.rd 0x2000FFFC 4 = 0x57504D23 → lcState s = 3 → s.sec.slots.length = 4 →
    ∃ t, exec (.holdCapacitorReady) s = .next t ∧
      t.boot = none ∧ t.rd 0x2000FFFC 4 = 0 ∧ (∀ a, (0x200E0000 ≤ a ∧ a < 0x201C0000) → t.byte a = 0) ∧
      t.sec.slots.getD 2 none = none ∧ t.get PWR_RSTCAUSE_LAST = 4 ∧ t.cmd.mgmtUp = true) ∧
  (∀ (s : State),
    s.por = false → s.boot = none → s.pwr.entry = none → s.pwr.withheld = false → s.ms.nvErr = [] → s.nvs.moving = none →
    s.rd 0x2000FFFC 4 = 0x57504D23 → lcState s = 3 → s.on NVS_STAT_HOLDRDY = false →
    ∃ t, exec (.managementMonitorExpiry) s = .next t ∧
      (t.boot = some (5, 0) ∧ t.dx.running = false ∧ t.cmd.mgmtUp = false ∧ t.rd 0x2000FFFC 4 = 0x57504D23 ∨ t.boot = none ∧ t.rd 0x2000FFFC 4 = 0)) ∧
  (∀ (s : State) (p : Nat) (pl : Place) (k : Byte),
    s.por = false → s.opReady p 0x53 pl = true → (pPay pl.pkt) = [k, 0, 0, 0] →
    (k = 1 ∧ (pl.prin = 4 ∨ pl.prin = 2 ∨ pl.prin = 1) ∨ k = 2 ∧ (pl.prin = 2 ∨ pl.prin = 1)) →
    ∃ t, exec (.resetDevice p) s = .next t ∧
      answered s t p pl 0 [] ∧
      t.cmd.resetDev = s.cmd.resetDev ++ [(k.toNat, (if pReply pl.pkt then 8 else 1), (if pReply pl.pkt then p else 5))] ∧
      { s with cmd := t.cmd } = t) ∧
  (∀ (s : State) (p : Nat) (pl : Place),
    s.por = false → s.opReady p (pOp pl.pkt) pl = true → pl.sent = false → 0x20 ≤ pOp pl.pkt → pOp pl.pkt < 0x40 →
    (leBytes 4 (pl.prin + pl.cycno * 65536) ++ pl.pkt.take 8 ++ pPay pl.pkt).length ≤ 0x800 → s.ms.wipeQ = [] →
    s.ms.sramErr = [] → ∃ t, exec (.firmwareCommand p) s = .next t ∧
      placeAt t p = some { pl with sent := true } ∧ t.bit MBX_LFDB_ENTRY p = true ∧
      t.rdBytes (0x103E8000 + 0x800 * p) (leBytes 4 (pl.prin + pl.cycno * 65536) ++ pl.pkt.take 8 ++ pPay pl.pkt).length = (leBytes 4 (pl.prin + pl.cycno * 65536) ++ pl.pkt.take 8 ++ pPay pl.pkt) ∧
      (∀ a, (a < (0x103E8000 + 0x800 * p) ∨ (0x103E8000 + 0x800 * p) + (leBytes 4 (pl.prin + pl.cycno * 65536) ++ pl.pkt.take 8 ++ pPay pl.pkt).length ≤ a) → t.byte a = s.byte a) ∧
      t.cmd.replies = s.cmd.replies ∧
      { s with cmd := t.cmd, mem := t.mem, ms := t.ms, regs := t.regs, evHeld := t.evHeld, evCap := t.evCap, evWin := t.evWin, free := t.free } = t ∧
      sameRegs [0, 3, 15] s t) ∧
  (∀ (s : State) (m : Master) (v : Word) (p : Nat) (pl : Place) (h : List Byte),
    s.por = false → s.reaches m 0x4000F018 1 v.toNat = true → v.toNat = 2 ^ p → p < 4 → s.cmd.places.length = 4 →
    placeAt s p = some pl → pl.sent = true → pl.replied = false → pReply pl.pkt = true → s.ms.wipeQ = [] → s.ms.sramErr = [] →
    h = s.rdBytes (0x103EA000 + 0x800 * p) 8 → pLen h ≤ 1024 → (h.drop 2).take 2 = (pl.pkt.drop 2).take 2 →
    pOp h = pOp pl.pkt + 128 → ∃ t, exec (.firmwareReply m v) s = .next t ∧
      placeAt t p = some { pl with replied := true, waiting := false } ∧
      t.cmd.replies = s.cmd.replies ++ [(p, replyBytes pl (s.rdBytes ((0x103EA000 + 0x800 * p) + 8) (pLen h)))] ∧
      t.bus = .ok 0 ∧ { s with cmd := t.cmd, regs := t.regs, free := t.free, bus := t.bus } = t ∧ sameRegs [3] s t) ∧
  (∀ (s : State) (p : Nat) (pl : Place),
    s.por = false → p < 4 → s.cmd.places.length = 4 → placeAt s p = some pl → pl.replied = false → 0x20 ≤ pOp pl.pkt →
    ∃ t, exec (.commandTimeout p) s = .next t ∧
      placeAt t p = none ∧ t.get TBL_EVT_FWTO = 1 ∧
      t.cmd.replies = s.cmd.replies ++ (if pReply pl.pkt then [(4, replyBytes pl [1, 0, 0, 0])] else []) ∧
      { s with cmd := t.cmd, regs := t.regs, nvs := t.nvs, clk := t.clk } = t ∧ sameRegs [7] s t)

/-- With the right, the length and the parameters R278 asks for: NV_READ and LOG_READ answer the bytes of the store.
NV_WRITE_PAGE that R305 admits hands its words to the engine and waits; to the maker firmware region while an image is checked
or copied it is BUSY. With the record engine idle, RECORD_READ answers the newer valid copy, with none NOREC and zeros (the
zeros are the model's choice, log entry 125), RECORD_WRITE hands over the writes of R314, TALLY_READ answers the value,
TALLY_ADD hands over the one write or with a carry the six of R318, and past 2^64 - 1 answers BADPARAM. RTC_GET answers the
time, RTC_SET stages it and waits. ENERGY_QUERY answers level and, with the ledger right, figures. BURST_RESERVE takes a
ticket (its number is the model's choice, log entry 44), and releases its own. SPARE_REPORT answers the spares and the lanes
lost (log entry 97), SYS being started. A principal without the right to the asset a command names is DENIED, and nothing else
changes; each principal has ENERGY_QUERY's level. -/
def Obligations.ManagementCommands : Prop :=
  (∀ (s : State) (p : Nat) (pl : Place),
    s.por = false → s.opReady p 0x45 pl = true → (pPay pl.pkt).length = 8 → 1 ≤ (pf (pPay pl.pkt) 4 2) →
    (pf (pPay pl.pkt) 4 2) ≤ 1020 → (pf (pPay pl.pkt) 6 2) = 0 → inNv (pf (pPay pl.pkt) 0 4) = true →
    inNv ((pf (pPay pl.pkt) 0 4) + (pf (pPay pl.pkt) 4 2) - 1) = true →
    nvRegion (pf (pPay pl.pkt) 0 4) = nvRegion ((pf (pPay pl.pkt) 0 4) + (pf (pPay pl.pkt) 4 2) - 1) →
    right s (nvAsset (pf (pPay pl.pkt) 0 4)) pl.prin false = true →
    right s (nvAsset ((pf (pPay pl.pkt) 0 4) + (pf (pPay pl.pkt) 4 2) - 1)) pl.prin false = true → s.nvs.moving = none →
    s.ms.nvErr = [] → (s.dx.stores = [] ∨ s.on NVS_STAT_HOLDRDY = true) → s.nvs.yielded = false →
    ∃ t, exec (.nvRead p) s = .next t ∧
      answered s t p pl 0 (s.rdBytes (pf (pPay pl.pkt) 0 4) (pf (pPay pl.pkt) 4 2)) ∧
      t.nvs = { s.nvs with rblk := t.nvs.rblk, yielded := t.nvs.yielded } ∧
      { s with cmd := t.cmd, nvs := t.nvs, regs := t.regs } = t ∧ sameRegs [0] s t) ∧
  (∀ (s : State) (p : Nat) (pl : Place),
    s.por = false → s.opReady p 0x46 pl = true → 4 ≤ (pPay pl.pkt).length → inNv (pf (pPay pl.pkt) 0 4) = true →
    right s (nvAsset (pf (pPay pl.pkt) 0 4)) pl.prin true = false → ∃ t, exec (.nvWritePage p) s = .next t ∧
      answered s t p pl 3 [] ∧ { s with cmd := t.cmd } = t) ∧
  (∀ (s : State) (p : Nat) (pl : Place),
    s.por = false → s.opReady p 0x46 pl = true → 12 ≤ (pPay pl.pkt).length → (pPay pl.pkt).length ≤ 264 →
    (pPay pl.pkt).length % 4 = 0 → (pf (pPay pl.pkt) 0 4) % 4 = 0 → pf (pPay pl.pkt) 4 4 = 0 →
    inNv (pf (pPay pl.pkt) 0 4) = true → nvAsset (pf (pPay pl.pkt) 0 4) = .image → right s .image pl.prin true = true →
    ∃ t, exec (.nvWritePage p true) s = .next t ∧
      answered s t p pl 1 [] ∧ { s with cmd := t.cmd } = t) ∧
  (∀ (s : State) (p : Nat) (pl : Place),
    s.por = false → s.opReady p 0x47 pl = true → 1 ≤ (pPay pl.pkt).length → (pf (pPay pl.pkt) 0 1) < 128 →
    right s (recAsset (pf (pPay pl.pkt) 0 1)) pl.prin false = false → ∃ t, exec (.recordRead p) s = .next t ∧
      answered s t p pl 3 [] ∧ { s with cmd := t.cmd } = t) ∧
  (∀ (s : State) (p : Nat) (pl : Place),
    s.por = false → s.opReady p 0x48 pl = true → 1 ≤ (pPay pl.pkt).length → (pf (pPay pl.pkt) 0 1) < 128 →
    right s (recAsset (pf (pPay pl.pkt) 0 1)) pl.prin true = false → ∃ t, exec (.recordWrite p) s = .next t ∧
      answered s t p pl 3 [] ∧ { s with cmd := t.cmd } = t) ∧
  (∀ (s : State) (p : Nat) (pl : Place),
    s.por = false → s.opReady p 0x49 pl = true → tlyRight s pl.prin (pf (pPay pl.pkt) 0 1) false = false →
    ∃ t, exec (.tallyRead p) s = .next t ∧
      answered s t p pl 3 [] ∧ { s with cmd := t.cmd } = t) ∧
  (∀ (s : State) (p : Nat) (pl : Place),
    s.por = false → s.opReady p 0x4A pl = true → 1 ≤ (pPay pl.pkt).length →
    tlyRight s pl.prin (pf (pPay pl.pkt) 0 1) true = false → ∃ t, exec (.tallyAdd p) s = .next t ∧
      answered s t p pl 3 [] ∧ { s with cmd := t.cmd } = t) ∧
  (∀ (s : State) (p : Nat) (pl : Place),
    s.por = false → s.opReady p 0x4C pl = true → right s .clock pl.prin true = false → ∃ t, exec (.rtcSet p) s = .next t ∧
      answered s t p pl 3 [] ∧ { s with cmd := t.cmd } = t) ∧
  (∀ (s : State) (p : Nat) (pl : Place),
    s.por = false → s.opReady p 0x4E pl = true → right s .ledger pl.prin true = false →
    ∃ t, exec (.burstReserve p) s = .next t ∧
      answered s t p pl 3 [] ∧ { s with cmd := t.cmd } = t) ∧
  (∀ (s : State) (p : Nat) (pl : Place),
    s.por = false → s.opReady p 0x51 pl = true → right s .log pl.prin false = false → ∃ t, exec (.spareReport p) s = .next t ∧
      answered s t p pl 3 [] ∧ { s with cmd := t.cmd } = t) ∧
  (∀ (s : State) (p : Nat) (pl : Place),
    s.por = false → s.opReady p 0x52 pl = true → right s .log pl.prin false = false → ∃ t, exec (.logRead p) s = .next t ∧
      answered s t p pl 3 [] ∧ { s with cmd := t.cmd } = t) ∧
  (∀ (s : State) (p : Nat) (pl : Place),
    s.por = false → s.opReady p 0x45 pl = true → inNv (pf (pPay pl.pkt) 0 4) = true →
    right s (nvAsset (pf (pPay pl.pkt) 0 4)) pl.prin false = false → ∃ t, exec (.nvRead p) s = .next t ∧
      answered s t p pl 3 [] ∧ { s with cmd := t.cmd } = t) ∧
  (∀ (s : State) (p : Nat) (pl : Place) (e : Nat),
    s.por = false → s.opReady p 0x46 pl = true → 12 ≤ (pPay pl.pkt).length → (pPay pl.pkt).length ≤ 264 →
    (pPay pl.pkt).length % 4 = 0 → (pf (pPay pl.pkt) 0 4) % 4 = 0 → pf (pPay pl.pkt) 4 4 = 0 →
    inNv (pf (pPay pl.pkt) 0 4) = true → nvRegion (pf (pPay pl.pkt) 0 4) ≠ 4 → nvRegion (pf (pPay pl.pkt) 0 4) ≠ 5 →
    pageCheck s false pl.prin (pf (pPay pl.pkt) 0 4) (((pPay pl.pkt).length - 8) / 4) = none →
    bindTicket 3 pl.prin 1 s.led.res = none → decide81 s 3 (s.get (HRV_CLSAMT_AMOUNT 3)) = (stOk, e) →
    ∃ t, exec (.nvWritePage p) s = .next t ∧
      handedOver t p pl ∧
      (t.nvs.ops.getLast?.map (fun o => (o.kind, o.fw, o.place, o.words)) = some (0, false, some p, ((List.range (((pPay pl.pkt).length - 8) / 4)).map fun j => ((pf (pPay pl.pkt) 0 4) + 4 * j, pf (pPay pl.pkt) (8 + 4 * j) 4)).take ((256 - (pf (pPay pl.pkt) 0 4) % 256) / 4))) ∧
      t.led.res = s.led.res ++ [⟨3, e, pl.prin, none, true, 1⟩] ∧ t.cmd.replies = s.cmd.replies ∧
      { s with cmd := t.cmd, nvs := t.nvs, regs := t.regs, led := t.led } = t ∧ sameRegs [1, 9] s t) ∧
  (∀ (s : State) (p : Nat) (pl : Place) (k : Byte) (c a : Nat),
    s.por = false → s.opReady p 0x47 pl = true → (pPay pl.pkt) = [k, 0, 0, 0] → k.toNat < 128 →
    right s (recAsset k.toNat) pl.prin false = true → s.nvs.ops = [] → s.nvs.own = [] → s.nvs.moving = none → s.ms.nvErr = [] →
    currentCopy s k.toNat = some c → a = copyAt k.toNat c → ∃ t, exec (.recordRead p) s = .next t ∧
      answered s t p pl 0 (BitVec.ofNat 8 (2 * b2n (copiesTie s k.toNat)) :: 0 :: leBytes 2 (s.rd (a + 8) 4) ++ leBytes 4 (s.rd a 4) ++ s.rdBytes (a + 12) (s.rd (a + 8) 4)) ∧
      { s with cmd := t.cmd, regs := t.regs } = t ∧ sameRegs [0, 9] s t) ∧
  (∀ (s : State) (p : Nat) (pl : Place) (k : Byte),
    s.por = false → s.opReady p 0x47 pl = true → (pPay pl.pkt) = [k, 0, 0, 0] → k.toNat < 128 →
    right s (recAsset k.toNat) pl.prin false = true → s.nvs.ops = [] → s.nvs.own = [] → s.nvs.moving = none → s.ms.nvErr = [] →
    currentCopy s k.toNat = none → ∃ t, exec (.recordRead p) s = .next t ∧
      answered s t p pl 0 (1 :: List.replicate 7 0) ∧ { s with cmd := t.cmd, regs := t.regs } = t ∧ sameRegs [0, 9] s t) ∧
  (∀ (s : State) (p : Nat) (pl : Place) (c q e : Nat),
    s.por = false → s.opReady p 0x48 pl = true → 4 ≤ (pPay pl.pkt).length → (pPay pl.pkt).length ≤ 1012 →
    (pf (pPay pl.pkt) 0 1) < 128 → pf (pPay pl.pkt) 1 3 = 0 → right s (recAsset (pf (pPay pl.pkt) 0 1)) pl.prin true = true →
    s.nvs.ops = [] → s.nvs.own = [] → s.nvs.moving = none → s.ms.nvErr = [] → writeTarget s (pf (pPay pl.pkt) 0 1) = (c, q) →
    bindTicket 3 pl.prin 2 s.led.res = none → decide81 s 3 (s.get (HRV_CLSAMT_AMOUNT 3)) = (stOk, e) →
    ∃ t, exec (.recordWrite p) s = .next t ∧
      handedOver t p pl ∧
      (t.nvs.ops.map (fun o => (o.kind, o.idx, o.place, o.begun)) = [(1, (pf (pPay pl.pkt) 0 1), some p, true)]) ∧
      (t.nvs.ops.map (fun o => (o.copy, o.val, o.words)) = [(c, q, writtenWords s (pf (pPay pl.pkt) 0 1) ((pPay pl.pkt).length - 4) fun i => pf (pPay pl.pkt) (4 + 4 * i) 4)]) ∧
      t.cmd.replies = s.cmd.replies ∧ { s with cmd := t.cmd, nvs := t.nvs, regs := t.regs, led := t.led } = t ∧
      sameRegs [0, 1, 9] s t) ∧
  (∀ (s : State) (p : Nat) (pl : Place) (k : Byte),
    s.por = false → s.opReady p 0x49 pl = true → (pPay pl.pkt) = [k, 0, 0, 0] → k.toNat < 32 →
    right s .tallies pl.prin false = true → s.nvs.ops = [] → s.nvs.own = [] → s.nvs.moving = none → s.ms.nvErr = [] →
    carryPends s k.toNat = false → ∃ t, exec (.tallyRead p) s = .next t ∧
      answered s t p pl 0 (leBytes 8 (tallyCells s k.toNat)) ∧ { s with cmd := t.cmd, regs := t.regs } = t ∧
      sameRegs [0, 9] s t) ∧
  (∀ (s : State) (p : Nat) (pl : Place) (k a lo hi : Nat),
    s.por = false → s.opReady p 0x4A pl = true → (pPay pl.pkt).length = 8 → k = (pf (pPay pl.pkt) 0 1) → k < 29 →
    pf (pPay pl.pkt) 1 3 = 0 → a = pf (pPay pl.pkt) 4 4 → a ≠ 0 → right s .tallies pl.prin true = true → s.nvs.ops = [] →
    s.nvs.own = [] → s.nvs.moving = none → s.ms.nvErr = [] → lo = s.rd (tallyAt k) 4 → hi = s.rd (tallyAt k + 4) 4 →
    carryPends s k = false → lo + a < 2 ^ 32 → ∃ t, exec (.tallyAdd p) s = .next t ∧
      handedOver t p pl ∧ (t.nvs.ops.map (fun o => (o.kind, o.idx, o.place, o.begun)) = [(2, k, some p, true)]) ∧
      (t.nvs.ops.map (fun o => (o.val, o.words)) = [(hi * 2 ^ 32 + (lo + a), [(tallyAt k, lo + a)])]) ∧
      { s with cmd := t.cmd, nvs := t.nvs, regs := t.regs } = t ∧ sameRegs [0, 9] s t) ∧
  (∀ (s : State) (p : Nat) (pl : Place) (k a lo hi : Nat),
    s.por = false → s.opReady p 0x4A pl = true → (pPay pl.pkt).length = 8 → k = (pf (pPay pl.pkt) 0 1) → k < 29 →
    pf (pPay pl.pkt) 1 3 = 0 → a = pf (pPay pl.pkt) 4 4 → a ≠ 0 → right s .tallies pl.prin true = true → s.nvs.ops = [] →
    s.nvs.own = [] → s.nvs.moving = none → s.ms.nvErr = [] → lo = s.rd (tallyAt k) 4 → hi = s.rd (tallyAt k + 4) 4 →
    carryPends s k = false → 2 ^ 32 ≤ lo + a → hi + 1 < 2 ^ 32 → ∃ t, exec (.tallyAdd p) s = .next t ∧
      handedOver t p pl ∧ (t.nvs.ops.map (fun o => (o.kind, o.idx, o.place, o.begun)) = [(2, k, some p, true)]) ∧
      (t.nvs.ops.map (fun o => (o.val, o.words)) = [(hi * 2 ^ 32 + (lo + a), [(tallyAt k + 8, lo + a - 2 ^ 32), (tallyAt k + 12, hi + 1), (tallyAt k + 16, 0xA5C35A3C), (tallyAt k + 4, hi + 1), (tallyAt k, lo + a - 2 ^ 32), (tallyAt k + 16, 0)])]) ∧
      { s with cmd := t.cmd, nvs := t.nvs, regs := t.regs } = t ∧ sameRegs [0, 9] s t) ∧
  (∀ (s : State) (p : Nat) (pl : Place) (k a lo hi : Nat),
    s.por = false → s.opReady p 0x4A pl = true → (pPay pl.pkt).length = 8 → k = (pf (pPay pl.pkt) 0 1) → k < 29 →
    pf (pPay pl.pkt) 1 3 = 0 → a = pf (pPay pl.pkt) 4 4 → a ≠ 0 → right s .tallies pl.prin true = true → s.nvs.ops = [] →
    s.nvs.own = [] → s.nvs.moving = none → s.ms.nvErr = [] → lo = s.rd (tallyAt k) 4 → hi = s.rd (tallyAt k + 4) 4 →
    carryPends s k = false → 2 ^ 32 ≤ lo + a → hi = 2 ^ 32 - 1 → ∃ t, exec (.tallyAdd p) s = .next t ∧
      answered s t p pl 5 [] ∧ { s with cmd := t.cmd, regs := t.regs } = t ∧ sameRegs [0, 9] s t) ∧
  (∀ (s : State) (p : Nat) (pl : Place),
    s.por = false → s.opReady p 0x4B pl = true → (pPay pl.pkt) = [] → right s .clock pl.prin false = true →
    ∃ t, exec (.rtcGet p) s = .next t ∧
      answered s t p pl 0 ([s.clk.t.sub, s.clk.t.sec, s.clk.t.min, s.clk.t.hour, s.clk.t.wday, s.clk.t.day, s.clk.t.month, s.clk.t.year, s.get RTC_STAT_OSF + 2 * b2n (s.on RTC_EVT_ALMSKIP0 || s.on RTC_EVT_ALMSKIP1)].map (BitVec.ofNat 8 ·)) ∧
      { s with cmd := t.cmd } = t) ∧
  (∀ (s : State) (p : Nat) (pl : Place) (sec min hour wday day month year : Byte),
    s.por = false → s.opReady p 0x4C pl = true → (pPay pl.pkt) = [sec, min, hour, wday, day, month, year, 0] → sec.toNat < 64 →
    min.toNat < 64 → hour.toNat < 32 → wday.toNat < 8 → day.toNat < 32 → month.toNat < 16 →
    right s .clock pl.prin true = true → s.on RTC_STAT_CPEND = false → ∃ t, exec (.rtcSet p) s = .next t ∧
      handedOver t p pl ∧
      t.clk = { s.clk with staged := some (⟨0, sec.toNat, min.toNat, hour.toNat, wday.toNat, day.toNat, month.toNat, year.toNat⟩, some p) } ∧
      t.get RTC_STAT_CPEND = 1 ∧ t.cmd.replies = s.cmd.replies ∧ { s with cmd := t.cmd, clk := t.clk, regs := t.regs } = t ∧
      sameRegs [10] s t) ∧
  (∀ (s : State) (p : Nat) (pl : Place),
    s.por = false → s.opReady p 0x4D pl = true → (pPay pl.pkt) = [] → ∃ t, exec (.energyQuery p) s = .next t ∧
      answered s t p pl 0 (leBytes 4 (s.get HRV_ELEVEL_LEVEL) ++ (if right s .ledger pl.prin false then leBytes 4 (s.get HRV_EAVAIL_EAVAIL) ++ leBytes 4 (s.get HRV_ERESV_ERESV) ++ leBytes 2 (s.get HRV_SUPPLY_VSTO) ++ leBytes 2 (s.get HRV_SUPPLY_VBAT) else List.replicate 12 0)) ∧
      { s with cmd := t.cmd } = t) ∧
  (∀ (s : State) (p : Nat) (pl : Place) (k a0 a1 a2 : Byte) (e : Nat),
    s.por = false → s.opReady p 0x4E pl = true → (pPay pl.pkt) = [0, k, 0, 0, a0, a1, a2, 0] → a2.toNat < 16 →
    right s .ledger pl.prin true = true → k ≠ 2 → k.toNat ≤ 4 → pf [a0, a1, a2, 0] 0 4 ≠ 0 →
    decide81 s k.toNat (pf [a0, a1, a2, 0] 0 4) = (stOk, e) → ∃ t, exec (.burstReserve p) s = .next t ∧
      answered s t p pl 0 [BitVec.ofNat 8 (freeTicket s.led.res)] ∧
      t.led.res = s.led.res ++ [⟨k.toNat, e, pl.prin, some (freeTicket s.led.res), false, if s.get HRV_POLICY_BINDTO = 0 then 16 else s.get HRV_POLICY_BINDTO⟩] ∧
      { s with cmd := t.cmd, led := t.led, regs := t.regs } = t ∧ sameRegs [1] s t) ∧
  (∀ (s : State) (p : Nat) (pl : Place) (k : Byte) (r : Resv),
    s.por = false → s.opReady p 0x4E pl = true → (pPay pl.pkt) = [1, 0, k, 0, 0, 0, 0, 0] → k.toNat < 8 →
    right s .ledger pl.prin true = true → ticketOf s k.toNat = some r → r.tag = pl.prin → r.bound = false →
    ∃ t, exec (.burstReserve p) s = .next t ∧
      answered s t p pl 0 [] ∧ (t.led.res = dropFirst (fun r => r.ticket == some k.toNat && !r.bound) s.led.res) ∧
      { s with cmd := t.cmd, led := t.led, regs := t.regs } = t ∧ sameRegs [1] s t) ∧
  (∀ (s : State) (p : Nat) (pl : Place),
    s.por = false → s.opReady p 0x51 pl = true → (pPay pl.pkt) = [] → right s .log pl.prin false = true →
    ∃ t, exec (.spareReport p) s = .next t ∧
      (answered s t p pl 0 (leBytes 4 (s.word 0x40003018) ++ leBytes 4 (s.word 0x4000301C) ++ leBytes 2 s.ms.remap.length ++ leBytes 1 s.nvs.tags.length ++ leBytes 1 (maskOf 4 fun n => dropped s n) ++ leBytes 1 (lanesLost s))) ∧
      { s with cmd := t.cmd, regs := t.regs } = t ∧ sameRegs [0] s t) ∧
  (∀ (s : State) (p : Nat) (pl : Place),
    s.por = false → s.opReady p 0x52 pl = true → (pPay pl.pkt).length = 8 → 1 ≤ (pf (pPay pl.pkt) 4 2) →
    (pf (pPay pl.pkt) 4 2) ≤ 1020 → (pf (pPay pl.pkt) 6 2) = 0 → (pf (pPay pl.pkt) 0 4) + (pf (pPay pl.pkt) 4 2) ≤ 0x1C000 →
    right s .log pl.prin false = true → s.nvs.moving = none → s.ms.nvErr = [] →
    (s.dx.stores = [] ∨ s.on NVS_STAT_HOLDRDY = true) → s.nvs.yielded = false → ∃ t, exec (.logRead p) s = .next t ∧
      answered s t p pl 0 (s.rdBytes (0x201E4000 + (pf (pPay pl.pkt) 0 4)) (pf (pPay pl.pkt) 4 2)) ∧
      t.nvs = { s.nvs with rblk := t.nvs.rblk, yielded := t.nvs.yielded } ∧
      { s with cmd := t.cmd, nvs := t.nvs, regs := t.regs } = t ∧ sameRegs [0] s t)

/-- With no asynchronous channel a write of EVF_FIRE holds an event for each enabled consumer that selects a fired channel;
one that fires a channel beyond the master's authority is refused. EVENT_DELIVERY of a held event in Run takes it from its
consumer and sets the line's PEND, records link time (whether it stood is judged at the yield: log entry 24), releases waiting
label updates, pulses EVO and its ball's GPIO_EDGE where GPIO_FUNC and VIO1 let it, or latches the wake source; with none held
nothing happens (the model's convention, log entry 11). A capture record that is valid is kept with MODE=0 and OVR set.
Reading EVF_CAPLO latches the record's high word. A write of EVF_CHOWN sets owner and PRIV; with PRIV a new owner cuts
consumers whose writer has no authority over it, and no other. A write of EVF_ASYNC sets the modes and opens a window in which
the channels it changed may lose events (how long it stands open is free: log entry 68). -/
def Obligations.Events : Prop :=
  (∀ (s : State) (m : Master) (v : Word),
    s.por = false → s.reaches m 0x40008000 1 v.toNat = true → s.get EVF_ASYNC_ASYNC = 0 → s.evWin = [] →
    ∃ t, exec (.eventFire m v) s = .next t ∧
      (∀ k, k < 22 → bitOf t.evHeld k = (bitOf s.evHeld k || s.on (EVF_CSEL_EN k) && bitOf v.toNat (s.get (EVF_CSEL_CH k)))) ∧
      t.bus = .ok 0 ∧ { s with evHeld := t.evHeld, evCap := t.evCap, evWin := t.evWin, free := t.free, bus := t.bus } = t) ∧
  (∀ (s : State) (v : Word) (c : Nat),
    s.por = false → c < 32 → bitOf v.toNat c = true → authority (masterTag s .dap) (s.get (EVF_CHOWN_PRIN c)) = false →
    ∃ t, exec (.eventFire .dap v) s = .next t ∧
      t.bus = .guard 0x40008000 ∧ t.on MEM_RGFSTAT_VALID = true ∧ { s with regs := t.regs, bus := t.bus } = t ∧
      sameRegs [3] s t) ∧
  (∀ (s : State) (v : Word) (c : Nat),
    s.por = false → coreRuns s = true → dueEntry s = none → s.dx.stores = [] → c < 32 → bitOf v.toNat c = true →
    authority (coreTag s) (s.get (EVF_CHOWN_PRIN c)) = false → ∃ t, exec (.eventFire .core v) s = .next t ∧
      t.evHeld = s.evHeld ∧ t.bus = .guard 0x40008000 ∧ (t.get CORE_STATUS_EL = 1 ∨ t.dx.running = false)) ∧
  (∀ (s : State) (k : Nat),
    s.por = false → s.get PWR_DOMSTAT_STATE = 0 → s.pwr.entry = none → bitOf s.evHeld k = true → k < 8 → sysClocked s = true →
    ∃ t, exec (.eventDelivery k) s = .next t ∧
      t.get (EVF_CSEL_PEND k) = 1 ∧ t.evHeld = s.evHeld - 2 ^ k ∧ { s with evHeld := t.evHeld, regs := t.regs } = t ∧
      sameRegs [8] s t) ∧
  (∀ (s : State) (k n x : Nat),
    s.por = false → s.get PWR_DOMSTAT_STATE = 0 → s.pwr.entry = none → k = 8 + n → n < 4 → bitOf s.evHeld k = true →
    2 ≤ s.get LNK_STAT_STATE → Sparse.look 0 s.evCap k = x →
    (s.on (EVF_CAPSTAT_VALID n) = false ∨ s.on (EVF_CSEL_MODE k) = true) → ∃ t, exec (.eventDelivery k) s = .next t ∧
      t.get (EVF_CAPLO_TIME n) = (x - 1) % 2 ^ 32 ∧ Sparse.look 0 t.evCap n = (x - 1) / 2 ^ 32 ∧
      t.get (EVF_CAPSTAT_VALID n) = 1 ∧ t.get (EVF_CAPSTAT_NOLT n) = b2n (x == 0) ∧
      (t.get (EVF_CAPSTAT_OVR n) = if s.on (EVF_CAPSTAT_VALID n) then 1 else s.get (EVF_CAPSTAT_OVR n)) ∧
      t.evHeld = s.evHeld - 2 ^ k ∧ { s with evHeld := t.evHeld, evCap := t.evCap, regs := t.regs } = t ∧ sameRegs [8] s t) ∧
  (∀ (s : State) (k n : Nat),
    s.por = false → s.get PWR_DOMSTAT_STATE = 0 → s.pwr.entry = none → k = 8 + n → n < 4 → bitOf s.evHeld k = true →
    2 ≤ s.get LNK_STAT_STATE → s.on (EVF_CAPSTAT_VALID n) = true → s.on (EVF_CSEL_MODE k) = false →
    ∃ t, exec (.eventDelivery k) s = .next t ∧
      t.get (EVF_CAPSTAT_OVR n) = 1 ∧ t.get (EVF_CAPLO_TIME n) = s.get (EVF_CAPLO_TIME n) ∧
      Sparse.look 0 t.evCap n = Sparse.look 0 s.evCap n ∧ { s with evHeld := t.evHeld, evCap := t.evCap, regs := t.regs } = t ∧
      sameRegs [8] s t) ∧
  (∀ (s : State) (k : Nat),
    s.por = false → s.get PWR_DOMSTAT_STATE = 0 → s.pwr.entry = none → bitOf s.evHeld k = true → k = 16 →
    s.get PWR_DOMSTAT_PIX ≠ 0 → ∃ t, exec (.eventDelivery k) s = .next t ∧
      (t.disp = { s.disp with upd := s.disp.upd.map fun u => { u with evwait := false } }) ∧ t.evHeld = s.evHeld - 2 ^ k ∧
      { s with evHeld := t.evHeld, disp := t.disp } = t) ∧
  (∀ (s : State) (k n : Nat),
    s.por = false → s.get PWR_DOMSTAT_STATE = 0 → s.pwr.entry = none → bitOf s.evHeld k = true → k = 18 + n → n < 4 →
    s.get (GPIO_FUNC_FUNC (4 + n)) = 2 → bitOf s.vio 1 = true → ∃ t, exec (.eventDelivery k) s = .next t ∧
      t.evo = s.evo.set n (s.evo.getD n 0 + 1) ∧ t.evHeld = s.evHeld - 2 ^ k ∧
      (∀ j, j < 8 → t.bit GPIO_EDGE_EDGE j = (s.bit GPIO_EDGE_EDGE j || j == 4 + n)) ∧
      { s with evHeld := t.evHeld, evo := t.evo, regs := t.regs } = t ∧ sameRegs [20] s t) ∧
  (∀ (s : State) (k n : Nat),
    s.por = false → s.get PWR_DOMSTAT_STATE = 0 → s.pwr.entry = none → bitOf s.evHeld k = true → k = 18 + n → n < 4 →
    (s.get (GPIO_FUNC_FUNC (4 + n)) ≠ 2 ∨ bitOf s.vio 1 = false) → ∃ t, exec (.eventDelivery k) s = .next t ∧
      t.evHeld = s.evHeld - 2 ^ k ∧ { s with evHeld := t.evHeld } = t) ∧
  (∀ (s : State) (k : Nat),
    s.por = false → s.get PWR_DOMSTAT_STATE = 0 → s.pwr.entry = none → bitOf s.evHeld k = true → k = 22 →
    ∃ t, exec (.eventDelivery k) s = .next t ∧
      t.bit PWR_WAKESRC_SRC 6 = (s.bit PWR_WAKESRC_SRC 6 || bitOf (wakeEn s) 6) ∧ t.evHeld = s.evHeld - 2 ^ k ∧
      { s with evHeld := t.evHeld, regs := t.regs } = t ∧ sameRegs [0] s t) ∧
  (∀ (s : State) (k : Nat),
    s.por = false → bitOf s.evHeld k = false → ∃ t, exec (.eventDelivery k) s = .next t ∧
      t = s) ∧
  (∀ (s : State) (m : Master) (n : Nat),
    s.por = false → n < 4 → s.reaches m (0x40008404 + 16 * n) 0 0 = true → ∃ t, exec (.captureRead m n) s = .next t ∧
      t.bus = .ok (s.get (EVF_CAPLO_TIME n)) ∧ t.get (EVF_CAPHI_TIME n) = Sparse.look 0 s.evCap n % 2 ^ 32 ∧
      { s with regs := t.regs, bus := t.bus } = t ∧ sameRegs [8] s t) ∧
  (∀ (s : State) (m : Master) (c : Nat) (v : Word),
    s.por = false → c < 32 → s.reaches m (0x40008100 + 16 * c) 1 v.toNat = true → s.get EVF_ASYNC_ASYNC = 0 → s.evWin = [] →
    bitOf v.toNat 4 = false → ∃ t, exec (.channelOwnerWrite m c v) s = .next t ∧
      t.get (EVF_CHOWN_PRIN c) = v.toNat % 16 ∧ t.get (EVF_CHOWN_PRIV c) = 0 ∧
      (∀ d, d < 32 → d ≠ c → t.get (EVF_CHOWN_PRIN d) = s.get (EVF_CHOWN_PRIN d)) ∧
      (∀ k, k < 22 → t.get (EVF_CSEL_EN k) = s.get (EVF_CSEL_EN k)) ∧ { s with regs := t.regs, bus := t.bus } = t ∧
      sameRegs [8] s t) ∧
  (∀ (s : State) (m : Master) (c : Nat) (v : Word),
    s.por = false → c < 32 → s.reaches m (0x40008100 + 16 * c) 1 v.toNat = true → s.get EVF_ASYNC_ASYNC = 0 → s.evWin = [] →
    bitOf v.toNat 4 = true → s.get (EVF_CHOWN_PRIN c) ≠ v.toNat % 16 → ∃ t, exec (.channelOwnerWrite m c v) s = .next t ∧
      t.get (EVF_CHOWN_PRIN c) = v.toNat % 16 ∧ t.get (EVF_CHOWN_PRIV c) = 1 ∧
      (∀ k, k < 22 → t.on (EVF_CSEL_EN k) = if s.get (EVF_CSEL_CH k) = c ∧ authority (s.get (EVF_CSEL_WPRIN k)) (v.toNat % 16) = false then false else s.on (EVF_CSEL_EN k)) ∧
      { s with regs := t.regs, evHeld := t.evHeld, bus := t.bus } = t ∧ sameRegs [8] s t) ∧
  (∀ (s : State) (m : Master) (v : Word),
    s.por = false → s.reaches m 0x40008004 1 v.toNat = true → ∃ t, exec (.asyncModeWrite m v) s = .next t ∧
      t.get EVF_ASYNC_ASYNC = v.toNat % 256 ∧ t.bus = .ok 0 ∧
      (∀ c, c < 8 → bitOf (s.get EVF_ASYNC_ASYNC) c ≠ bitOf v.toNat c → masked t c = true) ∧ t.evHeld = s.evHeld ∧
      { s with regs := t.regs, evWin := t.evWin, bus := t.bus } = t ∧ sameRegs [8] s t) ∧
  (∀ (s : State) (m : Master) (v : Word) (c : Nat),
    s.por = false → s.reaches m 0x40008000 1 v.toNat = true → v.toNat = 2 ^ c → ∃ t, exec (.eventFire m v) s = .next t ∧
      (masked (windows s) c = true → t.evHeld = s.evHeld) ∧ t.bus = .ok 0 ∧
      { s with evHeld := t.evHeld, evCap := t.evCap, evWin := t.evWin, free := t.free, bus := t.bus } = t)

/-- A page command that passes R305 and is admitted hands its words, as NVS_WBUF holds them at its acceptance (log entry 72),
up to its page's end to the engine and holds its reservation; one that fails a check leaves the status with no word written:
in this order DENIED without the write right (outside the store: to any region), BUSY with a command of its starter
outstanding, BADPARAM, and WRONG_STATE where the page is being moved. With the hold capacitor ready NV_WORD_WRITE writes the
next word whole and no other byte; the last ends the command with status 0, its count and PGDONE. Without it nothing is
written. PAGE_COMMAND_RESUME ends every suspension. A scrub visit moves to the next page after the last one visited (where the
sweep starts is the model's choice, log entry 36); a word weak at a reduced margin is written back as it is and noted.
NV_PAGE_MOVE ends the move under way, and outside the log no byte changes; with none under way the next that is due begins,
whichever page the row names (log entry 112); a page other than the one moving, or with none due, changes nothing (log entry
11). -/
def Obligations.PageEngine : Prop :=
  (∀ (s : State) (fw : Bool) (tag a n : Nat),
    let inside := 0x20000000 ≤ a ∧ a < 0x20200000
    let denied := inside ∧ right s (nvAsset a) tag true = false ∨ ¬inside ∧ ∀ x ∈ nvAssets, right s x tag true = false
    let busy := ∃ o ∈ s.nvs.ops, o.kind = 0 ∧ o.fw = fw ∧ o.src ≠ 2
    let bad := n = 0 ∨ 64 < n ∨ ¬inside ∨ 0x201A0000 ≤ a ∧ a < 0x201E4000 ∨ a % 4 ≠ 0
    let moved := s.nvs.moving = some ((a - 0x20000000) / 256)
    (denied → pageCheck s fw tag a n = some (3, 0)) ∧
    (¬denied → busy → pageCheck s fw tag a n = some (1, 0)) ∧
    (¬denied → ¬busy → bad → pageCheck s fw tag a n = some (5, 0)) ∧
    (¬denied → ¬busy → ¬bad → moved → pageCheck s fw tag a n = some (2, 5)) ∧
    (¬denied → ¬busy → ¬bad → ¬moved → pageCheck s fw tag a n = none)) ∧
  (∀ (s : State) (m : Master) (v : Word) (n a e : Nat),
    s.por = false → s.reaches m 0x40009024 1 v.toNat = true → n = v.toNat % 128 → a = 4 * s.get NVS_PGADDR_ADDR →
    pageCheck s true (masterTag s m) a n = none → bindTicket 3 (masterTag s m) 0 s.led.res = none →
    decide81 s 3 (s.get (HRV_CLSAMT_AMOUNT 3)) = (stOk, e) → ∃ t, exec (.pageCommand m v) s = .next t ∧
      (t.nvs.ops.getLast?.map (fun o => (o.kind, o.fw, o.begun, o.words)) = some (0, true, true, ((List.range n).map fun j => (a + 4 * j, s.get (NVS_WBUF_DATA j))).take ((256 - a % 256) / 4))) ∧
      t.nvs.ops.dropLast = s.nvs.ops ∧ t.led.res = s.led.res ++ [⟨3, e, masterTag s m, none, true, 0⟩] ∧
      t.get NVS_STAT_PGBUSY = 1 ∧ { s with regs := t.regs, nvs := t.nvs, led := t.led, bus := t.bus } = t ∧
      sameRegs [0, 1, 9] s t) ∧
  (∀ (s : State) (m : Master) (v : Word) (n a st why : Nat),
    s.por = false → s.reaches m 0x40009024 1 v.toNat = true → n = v.toNat % 128 → a = 4 * s.get NVS_PGADDR_ADDR →
    pageCheck s true (masterTag s m) a n = some (st, why) → ∃ t, exec (.pageCommand m v) s = .next t ∧
      t.get NVS_PGSTAT_RESULT = st % 256 ∧ t.get NVS_PGSTAT_WORDS = 0 ∧ { s with regs := t.regs, bus := t.bus } = t ∧
      sameRegs [0, 9] s t) ∧
  (∀ (s : State) (o : NvOp) (a x b y : Nat) (l : List (Nat × Nat)),
    s.por = false → s.nvs.ops = [o] → o.kind = 0 → o.begun = true → o.susp = false →
    (o.fw = false ∨ 2 ≤ s.get PWR_DOMSTAT_SYS) → o.words = (a, x) :: (b, y) :: l → o.page = some (nvPage b) → s.nvs.own = [] →
    s.nvs.moving = none → s.on NVS_STAT_HOLDRDY = true → ∃ t, exec (.nvWordWrite) s = .next t ∧
      t.rd a 4 = x % 2 ^ 32 ∧ (∀ b, (b < a ∨ a + 4 ≤ b) → t.byte b = s.byte b) ∧
      t.nvs.ops = [{ o with words := (b, y) :: l, done := o.done + 1 }] ∧
      { s with mem := t.mem, ms := t.ms, nvs := t.nvs, regs := t.regs } = t ∧ sameRegs [0, 9] s t) ∧
  (∀ (s : State) (o : NvOp) (a x : Nat),
    s.por = false → s.nvs.ops = [o] → s.nvs.own = [] → o.kind = 0 → o.fw = true → 2 ≤ s.get PWR_DOMSTAT_SYS → o.begun = true →
    o.susp = false → o.words = [(a, x)] → s.nvs.moving = none → s.on NVS_STAT_HOLDRDY = true →
    ∃ t, exec (.nvWordWrite) s = .next t ∧
      t.rd a 4 = x % 2 ^ 32 ∧ (∀ b, (b < a ∨ a + 4 ≤ b) → t.byte b = s.byte b) ∧ t.nvs.ops = [] ∧ t.get NVS_PGSTAT_RESULT = 0 ∧
      t.get NVS_PGSTAT_WORDS = (o.done + 1) % 128 ∧ t.get NVS_EVT_PGDONE = 1 ∧ t.get NVS_STAT_PGBUSY = 0 ∧
      { s with mem := t.mem, ms := t.ms, nvs := t.nvs, regs := t.regs, led := t.led, evHeld := t.evHeld, evCap := t.evCap, evWin := t.evWin, free := t.free } = t ∧
      sameRegs [1, 9] s t) ∧
  (∀ (s : State),
    s.por = false → s.on NVS_STAT_HOLDRDY = false → ∃ t, exec (.nvWordWrite) s = .next t ∧
      t = s) ∧
  (∀ (s : State),
    s.por = false → 2 ≤ s.get PWR_DOMSTAT_SYS → s.pwr.entry = none → ∃ t, exec (.pageCommandResume) s = .next t ∧
      (t.nvs = { s.nvs with ops := s.nvs.ops.map fun o => { o with susp := false } }) ∧ t.get NVS_STAT_PGSUSP = 0 ∧
      { s with nvs := t.nvs, regs := t.regs } = t ∧ sameRegs [9] s t) ∧
  (∀ (s : State),
    s.por = false → s.ms.nvErr = [] → s.nvs.ops = [] → s.nvs.own = [] → ∃ t, exec (.nvScrubVisit []) s = .next t ∧
      t.get NVS_SCRUBPOS_PAGE = (s.nvs.sweep + 1) % 8192 ∧ t.nvs = { s.nvs with sweep := (s.nvs.sweep + 1) % 8192 } ∧
      { s with regs := t.regs, nvs := t.nvs } = t ∧ sameRegs [0, 9] s t) ∧
  (∀ (s : State) (i : Nat),
    s.por = false → s.nvs.ops = [] → s.nvs.own = [] → s.ms.nvErr = [] → i < 64 → s.on NVS_STAT_HOLDRDY = true →
    s.memWf = true → ∃ t, exec (.nvScrubVisit [i]) s = .next t ∧
      t.get NVS_EVT_REFRESH = 1 ∧ t.mem = s.mem ∧ t.nvs.refresh = ((s.nvs.sweep + 1) % 8192, s.clk.lf) :: s.nvs.refresh ∧
      { s with regs := t.regs, nvs := t.nvs, ms := t.ms } = t ∧ sameRegs [0, 9] s t) ∧
  (∀ (s : State) (p : Nat),
    s.por = false → s.nvs.moving = some p → s.nvs.moveDue = [] → s.on NVS_STAT_HOLDRDY = true →
    ∃ t, exec (.nvPageMove p) s = .next t ∧
      t.nvs.moving = none ∧ t.get NVS_STAT_MOVING = 0 ∧ t.get NVS_EVT_MOVED = 1 ∧
      (∀ a, (a < 0x201E4000 ∨ 0x20200000 ≤ a) → t.byte a = s.byte a) ∧
      { s with nvs := t.nvs, ms := t.ms, mem := t.mem, regs := t.regs } = t ∧ sameRegs [0, 9] s t) ∧
  (∀ (s : State) (p q : Nat),
    s.por = false → (s.nvs.moving = some q ∧ q ≠ p ∨ s.nvs.moving = none ∧ s.nvs.moveDue = []) →
    ∃ t, exec (.nvPageMove p) s = .next t ∧
      t = s) ∧
  (∀ (s : State) (p q : Nat) (l : List Nat),
    s.por = false → s.nvs.moving = none → s.nvs.moveDue = q :: l → l.contains q = false → s.nvs.tags.length < 64 →
    ∃ t, exec (.nvPageMove p) s = .next t ∧
      t.nvs = { s.nvs with moving := some q, moveDue := l } ∧ t.get NVS_STAT_MOVING = 1 ∧
      { s with nvs := t.nvs, regs := t.regs } = t ∧ sameRegs [9] s t)

/-- With the engine idle and no stored error: a record read by a principal with the right reports the newer valid copy (A on a
tie, with TIE), its length and sequence number, or NOREC with neither valid, and sets RECDONE; a record write of at most 1008
bytes begins the writes of R314 to the other copy with the next sequence number, holds a class 3 reservation and shows
RECBUSY, and once all its words are written with RESULT 0 a record read reports that copy, its length, its number and the
words of NVS_WBUF; a tally read reports the value, after the repair of a pending carry, which sets REPAIRED and JREPAIR; a
tally add writes one word, or with a carry the six of R318, after which the tally holds and reports the value raised by just
the amount; one of zero, or past 2^64 - 1, ends BADPARAM with the value unchanged. Without the right each answers DENIED and
begins nothing. -/
def Obligations.RecordAndTallyEngine : Prop :=
  (∀ (s : State) (m : Master) (v : Word) (r c a : Nat),
    s.por = false → s.reaches m 0x40009030 1 v.toNat = true → bitOf v.toNat 8 = false → r = v.toNat % 128 →
    right s (recAsset r) (masterTag s m) false = true → s.nvs.ops = [] → s.nvs.own = [] → s.nvs.moving = none →
    s.ms.nvErr = [] → currentCopy s r = some c → a = copyAt r c → ∃ t, exec (.nvsRecordRead m v) s = .next t ∧
      t.get NVS_RECSTAT_RESULT = 0 ∧ t.get NVS_RECSTAT_OLDER = 0 ∧ t.get NVS_RECSTAT_UE = 0 ∧ t.get NVS_EVT_RECDONE = 1 ∧
      t.get NVS_RECSTAT_NOREC = 0 ∧ t.get NVS_RECSTAT_TIE = b2n (copiesTie s r) ∧ t.get NVS_RECSTAT_COPY = c ∧
      t.get NVS_RECSTAT_LEN = s.rd (a + 8) 4 ∧ t.get NVS_RECSEQ_SEQ = s.rd a 4 ∧ { s with regs := t.regs, bus := t.bus } = t ∧
      sameRegs [0, 9] s t) ∧
  (∀ (s : State) (m : Master) (v : Word) (r : Nat),
    s.por = false → s.reaches m 0x40009030 1 v.toNat = true → bitOf v.toNat 8 = false → r = v.toNat % 128 →
    right s (recAsset r) (masterTag s m) false = true → s.nvs.ops = [] → s.nvs.own = [] → s.nvs.moving = none →
    s.ms.nvErr = [] → currentCopy s r = none → ∃ t, exec (.nvsRecordRead m v) s = .next t ∧
      t.get NVS_RECSTAT_RESULT = 0 ∧ t.get NVS_RECSTAT_OLDER = 0 ∧ t.get NVS_RECSTAT_UE = 0 ∧ t.get NVS_EVT_RECDONE = 1 ∧
      t.get NVS_RECSTAT_NOREC = 1 ∧ t.get NVS_RECSTAT_TIE = 0 ∧ { s with regs := t.regs, bus := t.bus } = t ∧
      sameRegs [0, 9] s t) ∧
  (∀ (s : State) (m : Master) (v : Word) (r n c q e : Nat),
    s.por = false → s.reaches m 0x40009030 1 v.toNat = true → bitOf v.toNat 8 = true → r = v.toNat % 128 →
    right s (recAsset r) (masterTag s m) true = true → n = bitsOf v.toNat 16 10 → n ≤ 1008 → s.nvs.ops = [] → s.nvs.own = [] →
    s.nvs.moving = none → s.ms.nvErr = [] → writeTarget s r = (c, q) → bindTicket 3 (masterTag s m) 2 s.led.res = none →
    decide81 s 3 (s.get (HRV_CLSAMT_AMOUNT 3)) = (stOk, e) → ∃ t, exec (.nvsRecordWrite m v) s = .next t ∧
      (t.nvs.ops.map (fun o => (o.kind, o.fw, o.begun, o.copy, o.val)) = [(1, true, true, c, q)]) ∧
      (t.nvs.ops.map (fun o => o.words) = [writtenWords s r n fun i => s.get (NVS_WBUF_DATA i)]) ∧
      t.led.res = s.led.res ++ [⟨3, e, masterTag s m, none, true, 2⟩] ∧ t.get NVS_STAT_RECBUSY = 1 ∧
      (∀ u, wordWrites (5 + (n + 3) / 4) t = some u → u.nvs.ops = [] → u.get NVS_RECSTAT_RESULT = 0 → (currentCopy u r = some c ∧ u.get NVS_RECSEQ_SEQ = q ∧ u.rd (copyAt r c) 4 = q ∧ u.rd (copyAt r c + 8) 4 = n ∧ (∀ i, i < (n + 3) / 4 → u.rd (copyAt r c + 12 + 4 * i) 4 = s.get (NVS_WBUF_DATA i) % 2 ^ (8 * min 4 (n - 4 * i))))) ∧
      (∀ u, wordWrites (5 + (n + 3) / 4) t = some u → u.nvs.ops = [] → u.get NVS_RECSTAT_RESULT = 0 → (∀ m', u.reaches m' 0x40009030 1 r = true → right u (recAsset r) (masterTag u m') false = true → ∃ x, exec (.nvsRecordRead m' (BitVec.ofNat 32 r)) u = .next x ∧ x.get NVS_RECSTAT_NOREC = 0 ∧ x.get NVS_RECSTAT_COPY = c ∧ x.get NVS_RECSTAT_LEN = n ∧ x.get NVS_RECSEQ_SEQ = q)) ∧
      { s with regs := t.regs, nvs := t.nvs, led := t.led, bus := t.bus } = t ∧ sameRegs [0, 1, 9] s t) ∧
  (∀ (s : State) (m : Master) (v : Word) (k : Nat),
    s.por = false → s.reaches m 0x40009040 1 v.toNat = true → bitOf v.toNat 8 = false → k = v.toNat % 32 →
    tlyRight s (masterTag s m) k false = true → s.nvs.ops = [] → s.nvs.own = [] → s.nvs.moving = none → s.ms.nvErr = [] →
    carryPends s k = false → ∃ t, exec (.nvsTallyRead m v) s = .next t ∧
      t.get NVS_TLYLO_VALUE = s.rd (tallyAt k) 4 ∧ t.get NVS_TLYHI_VALUE = s.rd (tallyAt k + 4) 4 ∧
      t.get NVS_TLYSTAT_RESULT = 0 ∧ t.get NVS_TLYSTAT_REPAIRED = 0 ∧ t.get NVS_EVT_TLYDONE = 1 ∧
      { s with regs := t.regs, bus := t.bus } = t ∧ sameRegs [0, 9] s t) ∧
  (∀ (s : State) (m : Master) (v : Word) (k lo hi : Nat),
    s.por = false → s.reaches m 0x40009040 1 v.toNat = true → bitOf v.toNat 8 = false → k = v.toNat % 32 →
    tlyRight s (masterTag s m) k false = true → s.nvs.ops = [] → s.nvs.own = [] → s.nvs.moving = none → s.ms.nvErr = [] →
    carryPends s k = true → lo = s.rd (tallyAt k + 8) 4 → hi = s.rd (tallyAt k + 12) 4 →
    ∃ t, exec (.nvsTallyRead m v) s = .next t ∧
      (t.nvs.ops.map (fun o => (o.kind, o.fw, o.begun)) = [(3, true, true)]) ∧
      (t.nvs.ops.map (fun o => (o.val, o.words)) = [(hi * 2 ^ 32 + lo, [(tallyAt k + 4, hi), (tallyAt k, lo), (tallyAt k + 16, 0)])]) ∧
      (∀ u, wordWrites 3 t = some u → u.nvs.ops = [] → (tallyCells u k = hi * 2 ^ 32 + lo ∧ carryPends u k = false ∧ u.get NVS_TLYLO_VALUE = lo ∧ u.get NVS_TLYHI_VALUE = hi ∧ u.get NVS_TLYSTAT_RESULT = 0 ∧ u.get NVS_TLYSTAT_REPAIRED = 1 ∧ u.get NVS_EVT_JREPAIR = 1 ∧ u.get NVS_EVT_TLYDONE = 1)) ∧
      { s with regs := t.regs, nvs := t.nvs, bus := t.bus } = t ∧ sameRegs [0, 9] s t) ∧
  (∀ (s : State) (m : Master) (v : Word) (k a lo hi : Nat),
    s.por = false → s.reaches m 0x40009040 1 v.toNat = true → bitOf v.toNat 8 = true → k = v.toNat % 32 →
    a = s.get NVS_TLYAMT_AMOUNT → tlyRight s (masterTag s m) k true = true → s.nvs.ops = [] → s.nvs.own = [] →
    s.nvs.moving = none → s.ms.nvErr = [] → lo = s.rd (tallyAt k) 4 → hi = s.rd (tallyAt k + 4) 4 → carryPends s k = false →
    a ≠ 0 → lo + a < 2 ^ 32 → ∃ t, exec (.nvsTallyAdd m v) s = .next t ∧
      (t.nvs.ops.map (fun o => (o.kind, o.fw, o.begun)) = [(2, true, true)]) ∧ t.get NVS_STAT_TLYBUSY = 1 ∧
      (t.nvs.ops.map (fun o => (o.val, o.words)) = [(hi * 2 ^ 32 + (lo + a), [(tallyAt k, lo + a)])]) ∧
      (∀ u, wordWrites 1 t = some u → u.nvs.ops = [] → (tallyCells u k = tallyCells s k + a ∧ carryPends u k = false ∧ u.get NVS_TLYLO_VALUE = (lo + a) % 2 ^ 32 ∧ u.get NVS_TLYHI_VALUE = hi + (lo + a) / 2 ^ 32 ∧ u.get NVS_TLYSTAT_RESULT = 0 ∧ u.get NVS_EVT_TLYDONE = 1)) ∧
      { s with regs := t.regs, nvs := t.nvs, bus := t.bus } = t ∧ sameRegs [0, 9] s t) ∧
  (∀ (s : State) (m : Master) (v : Word) (k a lo hi : Nat),
    s.por = false → s.reaches m 0x40009040 1 v.toNat = true → bitOf v.toNat 8 = true → k = v.toNat % 32 →
    a = s.get NVS_TLYAMT_AMOUNT → tlyRight s (masterTag s m) k true = true → s.nvs.ops = [] → s.nvs.own = [] →
    s.nvs.moving = none → s.ms.nvErr = [] → lo = s.rd (tallyAt k) 4 → hi = s.rd (tallyAt k + 4) 4 → carryPends s k = false →
    a < 2 ^ 32 → 2 ^ 32 ≤ lo + a → hi + 1 < 2 ^ 32 → ∃ t, exec (.nvsTallyAdd m v) s = .next t ∧
      (t.nvs.ops.map (fun o => (o.kind, o.fw, o.begun)) = [(2, true, true)]) ∧ t.get NVS_STAT_TLYBUSY = 1 ∧
      (t.nvs.ops.map (fun o => (o.val, o.words)) = [(hi * 2 ^ 32 + (lo + a), [(tallyAt k + 8, lo + a - 2 ^ 32), (tallyAt k + 12, hi + 1), (tallyAt k + 16, 0xA5C35A3C), (tallyAt k + 4, hi + 1), (tallyAt k, lo + a - 2 ^ 32), (tallyAt k + 16, 0)])]) ∧
      (∀ u, wordWrites 6 t = some u → u.nvs.ops = [] → (tallyCells u k = tallyCells s k + a ∧ carryPends u k = false ∧ u.get NVS_TLYLO_VALUE = (lo + a) % 2 ^ 32 ∧ u.get NVS_TLYHI_VALUE = hi + (lo + a) / 2 ^ 32 ∧ u.get NVS_TLYSTAT_RESULT = 0 ∧ u.get NVS_EVT_TLYDONE = 1)) ∧
      { s with regs := t.regs, nvs := t.nvs, bus := t.bus } = t ∧ sameRegs [0, 9] s t) ∧
  (∀ (s : State) (m : Master) (v : Word) (k a lo hi : Nat),
    s.por = false → s.reaches m 0x40009040 1 v.toNat = true → bitOf v.toNat 8 = true → k = v.toNat % 32 →
    a = s.get NVS_TLYAMT_AMOUNT → tlyRight s (masterTag s m) k true = true → s.nvs.ops = [] → s.nvs.own = [] →
    s.nvs.moving = none → s.ms.nvErr = [] → lo = s.rd (tallyAt k) 4 → hi = s.rd (tallyAt k + 4) 4 → carryPends s k = false →
    (a = 0 ∨ 2 ^ 64 - 1 < hi * 2 ^ 32 + lo + a) → ∃ t, exec (.nvsTallyAdd m v) s = .next t ∧
      t.get NVS_TLYSTAT_RESULT = 5 ∧ t.get NVS_TLYLO_VALUE = lo ∧ t.get NVS_TLYHI_VALUE = hi ∧ t.get NVS_EVT_TLYDONE = 1 ∧
      { s with regs := t.regs, bus := t.bus } = t ∧ sameRegs [0, 9] s t) ∧
  (∀ (s : State) (m : Master) (v : Word),
    s.por = false → s.reaches m 0x40009040 1 v.toNat = true → bitOf v.toNat 8 = true →
    tlyRight s (masterTag s m) (v.toNat % 32) true = false → ∃ t, exec (.nvsTallyAdd m v) s = .next t ∧
      t.get NVS_TLYSTAT_RESULT = 3 ∧ t.nvs = s.nvs ∧ { s with regs := t.regs, bus := t.bus } = t ∧ sameRegs [0, 9] s t) ∧
  (∀ (s : State) (m : Master) (v : Word),
    s.por = false → s.reaches m 0x40009030 1 v.toNat = true → bitOf v.toNat 8 = true →
    right s (recAsset (v.toNat % 128)) (masterTag s m) true = false → ∃ t, exec (.nvsRecordWrite m v) s = .next t ∧
      t.get NVS_RECSTAT_RESULT = 3 ∧ t.get NVS_EVT_RECDONE = 1 ∧ { s with regs := t.regs, bus := t.bus } = t ∧
      sameRegs [0, 9] s t)

/-- SUBSECOND_EDGE within the operating conditions counts by R327, carries, month lengths and leap years as R326 has them, and
moves the calibration by R328; a second edge fires just the armed alarms whose compared fields are equal, and sets V_LCD.
Where the edge comes less than two LF cycles after the newest write of an alarm's register or of the period landed, as its
operand says (log entry 74), the alarms are judged with the word before it and the count runs on from the one before it, and
the write stands afterwards; so at a commit edge. A read of RTC_TIME0 latches the whole time. RTC_COMMIT stages the time, and
while one is pending sets CREJ and stages nothing; its edge makes it the time with SUBSEC 0, clears OSF and answers a staged
RTC_SET; an armed alarm that it jumps over fires with CATCH=1, else sets ALMSKIP and stays armed. PERIODIC_WAKE sets PER when
due. CRYSTAL_STOP and CRYSTAL_RETURN change the source and set OSF or not. SEG_COMMIT asks for a copy; a frame start copies
the 64 bytes when one is pending, writes the checksum of the copy, and with CHKEN compares it. A write of SEG_CFG sets the
register, and EN=1 starts the pump; with EN=0 the boundary that SEG_FRAME_START then stands for (log entry 65) ends frame and
pump. -/
def Obligations.ClockAndSegments : Prop :=
  (∀ (s : State) (tdie : Int) (raw : Nat),
    s.por = false → tdieOk tdie = true → s.clk.t.sub ≠ 255 → let q : Int := s.clk.acc + s.clk.calInt * 32;
    ∃ t, exec (.subsecondEdge tdie raw) s = .next t ∧
      t.clk.t = { s.clk.t with sub := s.clk.t.sub + 1 } ∧
      (t.clk.acc = if 1000000 ≤ q then q - 1000000 else if q ≤ -1000000 then q + 1000000 else q) ∧
      (t.clk.period = if 1000000 ≤ q then 127 else if q ≤ -1000000 then 129 else 128) ∧ { s with clk := t.clk } = t) ∧
  (∀ (s : State) (tdie : Int) (raw : Nat),
    s.por = false → tdieOk tdie = true → s.clk.t.sub = 255 →
    let q : Int := if s.clk.calNew then (BitVec.ofNat 12 (s.get RTC_CAL_CAL)).toInt * 32 else s.clk.acc + s.clk.calInt * 32;
    ∃ t, exec (.subsecondEdge tdie raw) s = .next t ∧
      countsTo s.clk.t t.clk.t = true ∧
      (∀ n, n < 2 → t.get (RTC_ALMCFG_ARM n) = if s.on (RTC_ALMCFG_ARM n) && alarmMeets s n t.clk.t true then 0 else s.get (RTC_ALMCFG_ARM n)) ∧
      (t.get RTC_EVT_ALM0 = if s.on (RTC_ALMCFG_ARM 0) && alarmMeets s 0 t.clk.t true then 1 else s.get RTC_EVT_ALM0) ∧
      (t.get RTC_EVT_ALM1 = if s.on (RTC_ALMCFG_ARM 1) && alarmMeets s 1 t.clk.t true then 1 else s.get RTC_EVT_ALM1) ∧
      t.get SEG_STAT_VLCD = vlcdFor s tdie ∧
      (t.clk.calInt = if s.clk.calNew then (BitVec.ofNat 12 (s.get RTC_CAL_CAL)).toInt else s.clk.calInt) ∧
      t.clk.calNew = false ∧ (t.clk.acc = if 1000000 ≤ q then q - 1000000 else if q ≤ -1000000 then q + 1000000 else q) ∧
      (t.clk.period = if 1000000 ≤ q then 127 else if q ≤ -1000000 then 129 else 128) ∧
      { s with clk := t.clk, regs := t.regs, evHeld := t.evHeld, evCap := t.evCap, evWin := t.evWin, free := t.free, disp := t.disp } = t ∧
      sameRegs [0, 10, 11, 12] s t) ∧
  (∀ (s : State) (tdie : Int) (raw a w : Nat) (r : List (Nat × Nat)) (u : State),
    s.por = false → tdieOk tdie = true → s.clk.t.sub = 255 → s.clk.lfOld = (a, w) :: r →
    a ∈ [0x4000A020, 0x4000A024, 0x4000A028, 0x4000A030, 0x4000A034, 0x4000A038] → (∀ f, f ∈ fieldsAt a → s.get f < 2 ^ f.w) →
    u = lfLoad s a w → ∃ t, exec (.subsecondEdge tdie raw 1) s = .next t ∧
      countsTo s.clk.t t.clk.t = true ∧
      (t.get RTC_EVT_ALM0 = if u.on (RTC_ALMCFG_ARM 0) && alarmMeets u 0 t.clk.t true then 1 else s.get RTC_EVT_ALM0) ∧
      (t.get RTC_EVT_ALM1 = if u.on (RTC_ALMCFG_ARM 1) && alarmMeets u 1 t.clk.t true then 1 else s.get RTC_EVT_ALM1) ∧
      (∀ f, f ∈ fieldsAt a → t.get f = s.get f) ∧ t.clk.lfOld = [] ∧
      { s with clk := t.clk, regs := t.regs, evHeld := t.evHeld, evCap := t.evCap, evWin := t.evWin, free := t.free, disp := t.disp } = t ∧
      sameRegs [0, 10, 11, 12] s t) ∧
  (∀ (s : State) (tdie : Int) (raw w : Nat) (r : List (Nat × Nat)),
    s.por = false → tdieOk tdie = true → s.clk.t.sub ≠ 255 → s.clk.lfOld = (periodAddr, w) :: r →
    ∃ t, exec (.subsecondEdge tdie raw 1) s = .next t ∧
      t.clk.t = { s.clk.t with sub := s.clk.t.sub + 1 } ∧ t.clk.perCnt = s.clk.perCnt ∧
      t.clk.perDue = (s.clk.perDue || w == 1) ∧ t.clk.lfOld = [] ∧ { s with clk := t.clk } = t) ∧
  (∀ (s : State) (m : Master),
    s.por = false → s.reaches m 0x4000A000 0 0 = true → ∃ t, exec (.rtcSnapshot m) s = .next t ∧
      t.bus = .ok (s.clk.t.sub % 256 + s.clk.t.sec % 64 * 2 ^ 8 + s.clk.t.min % 64 * 2 ^ 16 + s.clk.t.hour % 32 * 2 ^ 24) ∧
      t.get RTC_TIME1_WDAY = s.clk.t.wday % 8 ∧ t.get RTC_TIME1_DAY = s.clk.t.day % 32 ∧
      t.get RTC_TIME1_MONTH = s.clk.t.month % 16 ∧ t.get RTC_TIME1_YEAR = s.clk.t.year % 256 ∧
      { s with regs := t.regs, bus := t.bus } = t ∧ sameRegs [0, 10] s t) ∧
  (∀ (s : State) (m : Master) (v : Word),
    s.por = false → s.reaches m 0x4000A010 1 v.toNat = true → bitOf v.toNat 0 = true → s.on RTC_STAT_CPEND = false →
    ∃ t, exec (.rtcCommit m v) s = .next t ∧
      t.clk = { s.clk with staged := some (⟨0, s.get RTC_STAGE0_SEC, s.get RTC_STAGE0_MIN, s.get RTC_STAGE0_HOUR, s.get RTC_STAGE1_WDAY, s.get RTC_STAGE1_DAY, s.get RTC_STAGE1_MONTH, s.get RTC_STAGE1_YEAR⟩, none) } ∧
      t.get RTC_STAT_CPEND = 1 ∧ { s with clk := t.clk, regs := t.regs, bus := t.bus } = t ∧ sameRegs [0, 10] s t) ∧
  (∀ (s : State) (m : Master) (v : Word),
    s.por = false → s.reaches m 0x4000A010 1 v.toNat = true → bitOf v.toNat 0 = true → s.on RTC_STAT_CPEND = true →
    ∃ t, exec (.rtcCommit m v) s = .next t ∧
      t.get RTC_EVT_CREJ = 1 ∧ { s with regs := t.regs, bus := t.bus } = t ∧ sameRegs [0, 10] s t) ∧
  (∀ (s : State) (x : Time),
    s.por = false → s.on RTC_STAT_CPEND = true → s.clk.staged = some (x, none) → ∃ t, exec (.rtcCommitEdge) s = .next t ∧
      t.clk.t = { x with sub := 0 } ∧ t.clk.staged = none ∧ t.get RTC_STAT_CPEND = 0 ∧ t.get RTC_STAT_OSF = 0 ∧
      (∀ n, n < 2 → s.on (RTC_ALMCFG_ARM n) = true → alarmMeets s n { x with sub := 0 } true = true → t.get (RTC_ALMCFG_ARM n) = 0 ∧ t.get (if n = 0 then RTC_EVT_ALM0 else RTC_EVT_ALM1) = 1) ∧
      { s with clk := t.clk, regs := t.regs, evHeld := t.evHeld, evCap := t.evCap, evWin := t.evWin, free := t.free } = t ∧
      sameRegs [0, 10] s t) ∧
  (∀ (s : State) (x : Time) (p : Nat) (pl : Place),
    s.por = false → s.on RTC_STAT_CPEND = true → s.clk.staged = some (x, some p) → placeAt s p = some pl →
    ∃ t, exec (.rtcCommitEdge) s = .next t ∧
      answered s t p pl 0 [] ∧ t.clk.t = { x with sub := 0 } ∧ t.clk.staged = none ∧ t.get RTC_STAT_CPEND = 0 ∧
      t.get RTC_STAT_OSF = 0 ∧
      { s with clk := t.clk, cmd := t.cmd, regs := t.regs, evHeld := t.evHeld, evCap := t.evCap, evWin := t.evWin, free := t.free } = t ∧
      sameRegs [0, 10] s t) ∧
  (∀ (s : State) (x o : Time) (n : Nat), s.por = false → s.on RTC_STAT_CPEND = true → s.clk.staged = some (x, none) →
      countsTo s.clk.t o = true → timeFits s.clk.t = true → timeFits x = true → n < 2 → s.on (RTC_ALMCFG_ARM n) = true →
      alarmMeets s n { x with sub := 0 } true = false →
      let alm := if n = 0 then RTC_EVT_ALM0 else RTC_EVT_ALM1
      let skip := if n = 0 then RTC_EVT_ALMSKIP0 else RTC_EVT_ALMSKIP1
      ∃ t, exec .rtcCommitEdge s = .next t ∧ t.clk.t = { x with sub := 0 } ∧
        (jumpsOver s n o { x with sub := 0 } → s.on (RTC_ALMCFG_CATCH n) = true →
          t.get (RTC_ALMCFG_ARM n) = 0 ∧ t.get alm = 1 ∧ t.get skip = s.get skip) ∧
        (jumpsOver s n o { x with sub := 0 } → s.on (RTC_ALMCFG_CATCH n) = false →
          t.on (RTC_ALMCFG_ARM n) = true ∧ t.get skip = 1 ∧ t.get alm = s.get alm) ∧
        (¬ jumpsOver s n o { x with sub := 0 } →
          t.on (RTC_ALMCFG_ARM n) = true ∧ t.get alm = s.get alm ∧ t.get skip = s.get skip)) ∧
  (∀ (s : State) (x : Time) (w : Nat) (r : List (Nat × Nat)),
    s.por = false → s.on RTC_STAT_CPEND = true → s.clk.staged = some (x, none) → s.clk.lfOld = (periodAddr, w) :: r →
    ∃ t, exec (.rtcCommitEdge 1) s = .next t ∧
      t.clk.t = { x with sub := 0 } ∧ t.clk.perCnt = s.clk.perCnt ∧ t.clk.perDue = (s.clk.perDue || w == 1) ∧
      t.clk.lfOld = [] ∧
      { s with clk := t.clk, regs := t.regs, evHeld := t.evHeld, evCap := t.evCap, evWin := t.evWin, free := t.free } = t ∧
      sameRegs [0, 10] s t) ∧
  (∀ (s : State),
    s.por = false → s.clk.perDue = true → ∃ t, exec (.periodicWake) s = .next t ∧
      t.get RTC_EVT_PER = 1 ∧ t.clk = { s.clk with perDue := false } ∧
      { s with clk := t.clk, regs := t.regs, evHeld := t.evHeld, evCap := t.evCap, evWin := t.evWin, free := t.free } = t ∧
      sameRegs [0, 10] s t) ∧
  (∀ (s : State),
    s.por = false → s.on RTC_STAT_SRC = false → ∃ t, exec (.crystalStop) s = .next t ∧
      t.get RTC_STAT_SRC = 1 ∧ t.get RTC_STAT_OSF = 1 ∧ t.get RTC_EVT_XSTOP = 1 ∧ t.clk.t = s.clk.t ∧
      (headWaits s = false → ∀ a, (a < 0x201E4000 ∨ 0x20200000 ≤ a) → t.byte a = s.byte a) ∧
      (headWaits s = false → { s with mem := t.mem, regs := t.regs, ms := t.ms, free := t.free } = t) ∧
      (headWaits s = false → sameRegs [0, 9, 10] s t)) ∧
  (∀ (s : State),
    s.por = false → s.on RTC_STAT_SRC = true → ∃ t, exec (.crystalReturn) s = .next t ∧
      t.get RTC_STAT_SRC = 0 ∧ t.get RTC_STAT_OSF = s.get RTC_STAT_OSF ∧ t.get RTC_EVT_XRUN = 1 ∧
      { s with regs := t.regs } = t ∧ sameRegs [10] s t) ∧
  (∀ (s : State) (m : Master) (v : Word),
    s.por = false → s.reaches m 0x4000B008 1 v.toNat = true → bitOf v.toNat 0 = true → ∃ t, exec (.segCommit m v) s = .next t ∧
      t.on SEG_STAT_CPEND = true ∧ t.disp.segSeen = (s.on SEG_STAT_CPEND && s.disp.segSeen) ∧
      { s with regs := t.regs, bus := t.bus, disp := t.disp } = t ∧ sameRegs [0, 11] s t) ∧
  (∀ (s : State) (m : Master) (v : Word),
    s.por = false → s.reaches m 0x4000B000 1 v.toNat = true → ∃ t, exec (.segEnable m v) s = .next t ∧
      t.get SEG_CFG_EN = v.toNat % 2 ∧ t.get SEG_CFG_CHKEN = v.toNat / 32 % 2 ∧ t.get SEG_CFG_NCOM = v.toNat / 4 % 8 ∧
      t.disp = { s.disp with pump := s.disp.pump || bitOf v.toNat 0 } ∧
      { s with regs := t.regs, bus := t.bus, disp := t.disp } = t ∧ sameRegs [0, 11] s t) ∧
  (∀ (s : State) (soon : Bool),
    s.por = false → s.on SEG_CFG_EN = false → ∃ t, exec (.segFrameStart soon) s = .next t ∧
      t.disp = { s.disp with lcd := none, pump := false } ∧ { s with disp := t.disp } = t) ∧
  (∀ (s : State) (soon : Bool) (c : Nat),
    s.por = false → s.on SEG_CFG_EN = true → (s.on SEG_STAT_CPEND = false ∨ (soon = true ∧ s.disp.segSeen = false)) →
    c = crc32 s.disp.segCopy → ∃ t, exec (.segFrameStart soon) s = .next t ∧
      t.get SEG_EVT_FRAME = 1 ∧ t.disp = { s.disp with segSeen := true, lcd := some (lcdFrame s) } ∧
      t.get SEG_CRC_CRC = c % 2 ^ 32 ∧
      (t.get SEG_STAT_MIS = if s.on SEG_CFG_CHKEN then b2n (c != s.disp.segExp) else s.get SEG_STAT_MIS) ∧
      { s with disp := t.disp, regs := t.regs, evHeld := t.evHeld, evCap := t.evCap, evWin := t.evWin, free := t.free } = t ∧
      sameRegs [11] s t) ∧
  (∀ (s : State) (soon : Bool),
    s.por = false → s.on SEG_CFG_EN = true → s.on SEG_STAT_CPEND = true → (soon = false ∨ s.disp.segSeen = true) →
    s.ms.wipeQ = [] → s.ms.sramErr = [] → ∃ t, exec (.segFrameStart soon) s = .next t ∧
      t.disp = { s.disp with segCopy := s.rdBytes 0x10340000 64, segExp := s.get SEG_CRCEXP_EXP, segSeen := true, lcd := t.disp.lcd } ∧
      t.disp.lcd = some (lcdFrame t) ∧ t.get SEG_STAT_CPEND = 0 ∧ t.get SEG_EVT_COPIED = 1 ∧
      t.get SEG_CRC_CRC = crc32 (s.rdBytes 0x10340000 64) % 2 ^ 32 ∧
      { s with disp := t.disp, regs := t.regs, evHeld := t.evHeld, evCap := t.evCap, evWin := t.evWin, free := t.free } = t ∧
      sameRegs [11] s t)

/-- A request is checked in R362's order: one that R361 does not allow answers 3; then STATELOST, INITBUSY or EN=0 answers 8,
a rectangle, source or timing of check 3 that does not fit 5, and 16 updates 1; else it is the newest update, its set answers
0 with WAIT as R363 has it, and its region is WAITING. EPD_ADMISSION first ends a frame in progress; of the one update that is
ready and its region's newest, with nothing to wait for and no closing frame, it starts it against its class 0 reservation
with HVON, or drops it with the ledger's status; one that waits for an event, behind an overlapping update with QUEUE, or for
a band, behind a running one, is not offered. EPD_INIT with no update sets INITBUSY; INIT_DONE writes the level as every state
word of the array's whole bursts and clears STATELOST. STATEOK clears STATELOST when no INIT runs. REGION_LOCK locks a region
that waits for it, SYS and PIX being started. DISPLAY_STATUS answers the region's state, PIX being started. A
DISPLAY_REGION_UPDATE that passes its checks, with no update standing, stages its image, from the payload, from the recipes
region or from a record, and waits. That one admission offers all that do not wait is log entry 76, the staging address
0x1037C000 log entry 77, and that INIT writes whole bursts whole log entry 106. -/
def Obligations.LabelRequestsAndRegions : Prop :=
  (∀ (s : State) (m : Master) (v : Word) (n p : Nat),
    s.por = false → s.reaches m 0x4000C090 1 v.toNat = true → n = v.toNat % 16 → p = masterTag s m → mayUpdate s n p = true →
    s.on EPD_STAT_STATELOST = false → s.on EPD_STAT_INITBUSY = false → s.on EPD_CFG_EN = true →
    requestFits s 0 n (s.get (EPD_RQPOS_X 0)) (s.get (EPD_RQPOS_Y 0)) (s.get (EPD_RQSIZE_W 0)) (s.get (EPD_RQSIZE_H 0)) (s.get (EPD_RQSRC_ADDR 0)) = true →
    s.disp.upd.length < 16 → ∃ t, exec (.epdRequest m 0 v) s = .next t ∧
      t.disp.upd.dropLast = s.disp.upd ∧
      (t.disp.upd.getLast?.map (fun u => (u.region, u.x, u.y, u.w, u.h)) = some (n, s.get (EPD_RQPOS_X 0), s.get (EPD_RQPOS_Y 0), s.get (EPD_RQSIZE_W 0), s.get (EPD_RQSIZE_H 0))) ∧
      (t.disp.upd.getLast?.map (fun u => (u.src, u.queue, u.force, u.chk, u.evwait)) = some (s.get (EPD_RQSRC_ADDR 0), bitOf v.toNat 4, bitOf v.toNat 5, bitOf v.toNat 6, bitOf v.toNat 7)) ∧
      (t.disp.upd.getLast?.map (fun u => (u.tag, u.running)) = some (masterTag s m, false)) ∧ t.get (EPD_RQSTAT_RESULT 0) = 0 ∧
      (t.get (EPD_RQSTAT_WAIT 0) = b2n (t.disp.upd.getLast?.any fun u => waits t u)) ∧ t.get (EPD_RGNST_STATE n) = 2 ∧
      { s with regs := t.regs, disp := t.disp, bus := t.bus } = t ∧ sameRegs [0, 12] s t) ∧
  (∀ (s : State) (m : Master) (v : Word) (n p : Nat),
    s.por = false → s.reaches m 0x4000C090 1 v.toNat = true → n = v.toNat % 16 → p = masterTag s m → mayUpdate s n p = false →
    ∃ t, exec (.epdRequest m 0 v) s = .next t ∧
      t.get (EPD_RQSTAT_RESULT 0) = 3 ∧ { s with regs := t.regs, bus := t.bus } = t ∧ sameRegs [0, 12] s t) ∧
  (∀ (s : State) (m : Master) (v : Word) (n p : Nat),
    s.por = false → s.reaches m 0x4000C090 1 v.toNat = true → n = v.toNat % 16 → p = masterTag s m → mayUpdate s n p = true →
    (s.on EPD_STAT_STATELOST = true ∨ s.on EPD_STAT_INITBUSY = true ∨ s.on EPD_CFG_EN = false) →
    ∃ t, exec (.epdRequest m 0 v) s = .next t ∧
      t.get (EPD_RQSTAT_RESULT 0) = 8 ∧ { s with regs := t.regs, bus := t.bus } = t ∧ sameRegs [0, 12] s t) ∧
  (∀ (s : State) (m : Master) (v : Word) (n p : Nat),
    s.por = false → s.reaches m 0x4000C090 1 v.toNat = true → n = v.toNat % 16 → p = masterTag s m → mayUpdate s n p = true →
    s.on EPD_STAT_STATELOST = false → s.on EPD_STAT_INITBUSY = false → s.on EPD_CFG_EN = true →
    requestFits s 0 n (s.get (EPD_RQPOS_X 0)) (s.get (EPD_RQPOS_Y 0)) (s.get (EPD_RQSIZE_W 0)) (s.get (EPD_RQSIZE_H 0)) (s.get (EPD_RQSRC_ADDR 0)) = false →
    ∃ t, exec (.epdRequest m 0 v) s = .next t ∧
      t.get (EPD_RQSTAT_RESULT 0) = 5 ∧ { s with regs := t.regs, bus := t.bus } = t ∧ sameRegs [0, 12] s t) ∧
  (∀ (s : State) (m : Master) (v : Word) (n p : Nat),
    s.por = false → s.reaches m 0x4000C090 1 v.toNat = true → n = v.toNat % 16 → p = masterTag s m → mayUpdate s n p = true →
    s.on EPD_STAT_STATELOST = false → s.on EPD_STAT_INITBUSY = false → s.on EPD_CFG_EN = true →
    requestFits s 0 n (s.get (EPD_RQPOS_X 0)) (s.get (EPD_RQPOS_Y 0)) (s.get (EPD_RQSIZE_W 0)) (s.get (EPD_RQSIZE_H 0)) (s.get (EPD_RQSRC_ADDR 0)) = true →
    16 ≤ s.disp.upd.length → ∃ t, exec (.epdRequest m 0 v) s = .next t ∧
      t.get (EPD_RQSTAT_RESULT 0) = 1 ∧ { s with regs := t.regs, bus := t.bus } = t ∧ sameRegs [0, 12] s t) ∧
  (∀ (s : State) (tdie : Int) (raw : Nat) (u : Upd) (e : Nat),
    s.por = false → tdieOk tdie = true → s.disp.upd = [u] → u.place = none → u.staged = 0 → u.running = false →
    u.evwait = false → s.disp.part = none → s.disp.blank = false → Sparse.look 0 s.disp.newest u.region = u.id + 1 →
    bindTicket 0 u.tag u.id s.led.res = none → decide81 s 0 (s.get (HRV_CLSAMT_AMOUNT 0)) = (stOk, e) →
    s.on EPD_CFG_THSEL = false → ∃ t, exec (.epdAdmission tdie raw) s = .next t ∧
      t.disp.upd = [{ u with running := true, band := bandOf s tdie }] ∧ t.disp.temp = tdie ∧
      t.led.res = s.led.res ++ [⟨0, e, u.tag, none, true, u.id⟩] ∧ t.get EPD_STAT_HVON = 1 ∧
      t.get (EPD_RGNST_STATE u.region) = 1 ∧ t.get PWR_DOMSTAT_PIX = 1 ∧ t.disp.quiet = false ∧
      { s with regs := t.regs, disp := t.disp, led := t.led, free := t.free } = t ∧ sameRegs [0, 1, 12] s t) ∧
  (∀ (s : State) (tdie : Int) (raw : Nat) (u : Upd) (r e : Nat),
    s.por = false → tdieOk tdie = true → s.disp.upd = [u] → u.place = none → u.staged = 0 → u.running = false →
    u.evwait = false → s.disp.part = none → s.disp.blank = false → Sparse.look 0 s.disp.newest u.region = u.id + 1 →
    bindTicket 0 u.tag u.id s.led.res = none → decide81 s 0 (s.get (HRV_CLSAMT_AMOUNT 0)) = (r, e) → r ≠ stOk →
    ∃ t, exec (.epdAdmission tdie raw) s = .next t ∧
      t.disp.upd = [] ∧ t.get EPD_EVT_DROP = 1 ∧ t.get (EPD_RGNST_RESULT u.region) = r % 256 ∧
      t.get (EPD_RGNST_STATE u.region) = 0 ∧ t.led = s.led ∧ { s with regs := t.regs, disp := t.disp, free := t.free } = t ∧
      sameRegs [12] s t) ∧
  (∀ (s : State) (tdie : Int) (raw : Nat) (x u : Upd),
    s.por = false → tdieOk tdie = true → s.disp.upd = [x, u] → s.disp.part = none → x.running = true → u.running = false →
    (u.evwait = true ∨ (u.queue = true ∧ x.id < u.id ∧ updMeet u x = true) ∨ (u.queue = false ∧ x.id ≠ u.id ∧ updMeet u x = true ∧ x.band ≠ s.get EPD_STAT_BAND)) →
    ∃ t, exec (.epdAdmission tdie raw) s = .next t ∧
      t = s) ∧
  (∀ (s : State) (tdie : Int) (raw k : Nat) (l : List Nat),
    s.por = false → tdieOk tdie = true → s.disp.part = some (k, l) → s.get DRM_STAT_UNWIPED = 0 →
    ∃ t, exec (.epdAdmission tdie raw) s = .next t ∧
      t.disp.part = none) ∧
  (∀ (s : State) (m : Master) (v : Word),
    s.por = false → s.reaches m 0x4000C030 1 v.toNat = true → bitOf v.toNat 8 = true → s.disp.upd = [] →
    ∃ t, exec (.epdInit m v) s = .next t ∧
      t.get EPD_INIT_LEVEL = v.toNat % 16 ∧ t.get EPD_STAT_INITBUSY = 1 ∧ { s with regs := t.regs, bus := t.bus } = t ∧
      sameRegs [0, 12] s t) ∧
  (∀ (s : State),
    s.por = false → s.on EPD_STAT_INITBUSY = true → ∃ t, exec (.epdInitDone) s = .next t ∧
      t.get EPD_STAT_INITBUSY = 0 ∧ t.get EPD_STAT_STATELOST = 0 ∧ t.get EPD_EVT_INITDONE = 1 ∧
      (∀ (i : Nat), i < epdWidth s * epdHeight s / 16 * 16 → t.rd (epdBase s + 2 * i) 2 = 17 * s.get EPD_INIT_LEVEL) ∧
      (∀ a, a < 0x80000000 → t.byte a = s.byte a) ∧
      { s with mem := t.mem, ms := t.ms, regs := t.regs, evHeld := t.evHeld, evCap := t.evCap, evWin := t.evWin, free := t.free } = t ∧
      sameRegs [0, 3, 4, 12] s t) ∧
  (∀ (s : State) (m : Master) (v : Word),
    s.por = false → s.reaches m 0x4000C034 1 v.toNat = true → bitOf v.toNat 0 = true → s.on EPD_STAT_INITBUSY = false →
    ∃ t, exec (.epdStateOk m v) s = .next t ∧
      t.get EPD_STAT_STATELOST = 0 ∧ { s with regs := t.regs, bus := t.bus } = t ∧ sameRegs [0, 12] s t) ∧
  (∀ (s : State) (n : Nat),
    s.por = false → n < 16 → bitOf s.disp.lockDue n = true → ∃ t, exec (.regionLock n) s = .next t ∧
      t.get (EPD_RGNOWN_LOCKED n) = 1 ∧ bitOf t.disp.lockDue n = false ∧
      (n, s.word (0x4000C200 + 32 * n), s.word (0x4000C204 + 32 * n), s.get (EPD_RGNOWN_PRIN n)) ∈ t.disp.locks ∧
      t.get PWR_DOMSTAT_PIX = 1 ∧ { s with regs := t.regs, disp := t.disp } = t ∧ sameRegs [0, 12] s t) ∧
  (∀ (s : State) (p : Nat) (pl : Place) (n : Byte),
    s.por = false → s.opReady p 0x50 pl = true → (pPay pl.pkt) = [n, 0, 0, 0] → n.toNat < 16 →
    right s .display pl.prin false = true → ∃ t, exec (.displayStatus p) s = .next t ∧
      answered s t p pl 0 ([s.get (EPD_RGNST_STATE n.toNat), s.get (EPD_RGNST_MATCH n.toNat) + 2 * s.get (EPD_RGNST_TDRIFT n.toNat), s.get (EPD_RGNST_RESULT n.toNat), 0].map (BitVec.ofNat 8 ·) ++ leBytes 4 (s.get (EPD_RGNCRC_CRC n.toNat))) ∧
      t.get PWR_DOMSTAT_PIX ≠ 0 ∧ { s with cmd := t.cmd, regs := t.regs } = t ∧ sameRegs [0] s t) ∧
  (∀ (s : State) (p : Nat) (pl : Place) (n : Nat),
    s.por = false → s.opReady p 0x4F pl = true → n = imgBytes (pf (pPay pl.pkt) 8 2) (pf (pPay pl.pkt) 10 2) → n ≤ 1000 →
    (pPay pl.pkt).length = 20 + n → pf (pPay pl.pkt) 1 3 = 0 → pf (pPay pl.pkt) 0 1 < 16 → pf (pPay pl.pkt) 4 2 < 2048 →
    pf (pPay pl.pkt) 6 2 < 1024 → pf (pPay pl.pkt) 8 2 < 2048 → pf (pPay pl.pkt) 10 2 < 1024 → s.disp.upd = [] →
    mayUpdate s (pf (pPay pl.pkt) 0 1) pl.prin = true → s.on EPD_STAT_STATELOST = false → s.on EPD_STAT_INITBUSY = false →
    s.on EPD_CFG_EN = true →
    requestFits s 1 (pf (pPay pl.pkt) 0 1) (pf (pPay pl.pkt) 4 2) (pf (pPay pl.pkt) 6 2) (pf (pPay pl.pkt) 8 2) (pf (pPay pl.pkt) 10 2) 0x1037C000 = true →
    s.ms.wipeQ = [] → s.ms.sramErr = [] → ∃ t, exec (.displayRegionUpdate p) s = .next t ∧
      handedOver t p pl ∧
      (t.disp.upd.map (fun u => (u.region, u.x, u.y, u.w, u.h)) = [(pf (pPay pl.pkt) 0 1, pf (pPay pl.pkt) 4 2, pf (pPay pl.pkt) 6 2, pf (pPay pl.pkt) 8 2, pf (pPay pl.pkt) 10 2)]) ∧
      (t.disp.upd.map (fun u => (u.src, u.staged, u.chk, u.exp)) = [(0x1037C000, n, true, pf (pPay pl.pkt) 12 4)]) ∧
      t.rdBytes 0x1037C000 n = (pPay pl.pkt).drop 20 ∧ (∀ b, (b < 0x1037C000 ∨ 0x1037C000 + n ≤ b) → t.byte b = s.byte b) ∧
      { s with cmd := t.cmd, disp := t.disp, regs := t.regs, mem := t.mem, ms := t.ms, free := t.free } = t ∧
      sameRegs [0, 3, 12] s t) ∧
  (∀ (s : State) (p : Nat) (pl : Place) (n : Nat),
    s.por = false → s.opReady p 0x4F pl = true → n = imgBytes (pf (pPay pl.pkt) 8 2) (pf (pPay pl.pkt) 10 2) → n ≤ 1000 →
    (pPay pl.pkt).length = 20 → pf (pPay pl.pkt) 1 1 / 2 = 1 → pf (pPay pl.pkt) 2 2 = 0 → pf (pPay pl.pkt) 0 1 < 16 →
    pf (pPay pl.pkt) 4 2 < 2048 → pf (pPay pl.pkt) 6 2 < 1024 → pf (pPay pl.pkt) 8 2 < 2048 → pf (pPay pl.pkt) 10 2 < 1024 →
    s.disp.upd = [] → mayUpdate s (pf (pPay pl.pkt) 0 1) pl.prin = true → s.on EPD_STAT_STATELOST = false →
    s.on EPD_STAT_INITBUSY = false → s.on EPD_CFG_EN = true →
    requestFits s 1 (pf (pPay pl.pkt) 0 1) (pf (pPay pl.pkt) 4 2) (pf (pPay pl.pkt) 6 2) (pf (pPay pl.pkt) 8 2) (pf (pPay pl.pkt) 10 2) 0x1037C000 = true →
    s.ms.wipeQ = [] → s.ms.sramErr = [] → nvAsset (pf (pPay pl.pkt) 16 4) = .recipes →
    nvAsset (pf (pPay pl.pkt) 16 4 + n - 1) = .recipes → right s .recipes pl.prin false = true → s.nvs.moving = none →
    s.ms.nvErr = [] → (s.dx.stores = [] ∨ s.on NVS_STAT_HOLDRDY = true) → s.nvs.yielded = false →
    ∃ t, exec (.displayRegionUpdate p) s = .next t ∧
      handedOver t p pl ∧
      (t.disp.upd.map (fun u => (u.region, u.x, u.y, u.w, u.h)) = [(pf (pPay pl.pkt) 0 1, pf (pPay pl.pkt) 4 2, pf (pPay pl.pkt) 6 2, pf (pPay pl.pkt) 8 2, pf (pPay pl.pkt) 10 2)]) ∧
      (t.disp.upd.map (fun u => (u.src, u.staged, u.chk, u.exp)) = [(0x1037C000, n, true, pf (pPay pl.pkt) 12 4)]) ∧
      t.rdBytes 0x1037C000 n = s.rdBytes (pf (pPay pl.pkt) 16 4) n ∧
      (∀ b, (b < 0x1037C000 ∨ 0x1037C000 + n ≤ b) → t.byte b = s.byte b) ∧
      t.nvs = { s.nvs with rblk := t.nvs.rblk, yielded := t.nvs.yielded } ∧
      { s with cmd := t.cmd, disp := t.disp, nvs := t.nvs, regs := t.regs, mem := t.mem, ms := t.ms, free := t.free } = t ∧
      sameRegs [0, 3, 12] s t) ∧
  (∀ (s : State) (p : Nat) (pl : Place) (n c a : Nat),
    s.por = false → s.opReady p 0x4F pl = true → n = imgBytes (pf (pPay pl.pkt) 8 2) (pf (pPay pl.pkt) 10 2) → n ≤ 1000 →
    (pPay pl.pkt).length = 20 → pf (pPay pl.pkt) 1 1 / 2 = 2 → pf (pPay pl.pkt) 2 2 = 0 → pf (pPay pl.pkt) 0 1 < 16 →
    pf (pPay pl.pkt) 4 2 < 2048 → pf (pPay pl.pkt) 6 2 < 1024 → pf (pPay pl.pkt) 8 2 < 2048 → pf (pPay pl.pkt) 10 2 < 1024 →
    s.disp.upd = [] → mayUpdate s (pf (pPay pl.pkt) 0 1) pl.prin = true → s.on EPD_STAT_STATELOST = false →
    s.on EPD_STAT_INITBUSY = false → s.on EPD_CFG_EN = true →
    requestFits s 1 (pf (pPay pl.pkt) 0 1) (pf (pPay pl.pkt) 4 2) (pf (pPay pl.pkt) 6 2) (pf (pPay pl.pkt) 8 2) (pf (pPay pl.pkt) 10 2) 0x1037C000 = true →
    s.ms.wipeQ = [] → s.ms.sramErr = [] → pf (pPay pl.pkt) 16 4 < 128 →
    right s (recAsset (pf (pPay pl.pkt) 16 4)) pl.prin false = true → currentCopy s (pf (pPay pl.pkt) 16 4) = some c →
    a = copyAt (pf (pPay pl.pkt) 16 4) c → n ≤ s.rd (a + 8) 4 → s.ms.nvErr = [] →
    ∃ t, exec (.displayRegionUpdate p) s = .next t ∧
      handedOver t p pl ∧
      (t.disp.upd.map (fun u => (u.region, u.x, u.y, u.w, u.h)) = [(pf (pPay pl.pkt) 0 1, pf (pPay pl.pkt) 4 2, pf (pPay pl.pkt) 6 2, pf (pPay pl.pkt) 8 2, pf (pPay pl.pkt) 10 2)]) ∧
      (t.disp.upd.map (fun u => (u.src, u.staged, u.chk, u.exp)) = [(0x1037C000, n, true, pf (pPay pl.pkt) 12 4)]) ∧
      t.rdBytes 0x1037C000 n = s.rdBytes (a + 12) n ∧ (∀ b, (b < 0x1037C000 ∨ 0x1037C000 + n ≤ b) → t.byte b = s.byte b) ∧
      { s with cmd := t.cmd, disp := t.disp, regs := t.regs, mem := t.mem, ms := t.ms, free := t.free } = t ∧
      sameRegs [0, 3, 12] s t)

/-- HVPG_RISE with HVON and VIO2 up sets the rails good and VCOM by R352. HV_TIMEOUT ends the running update with HVFAIL. A
frame sends every row: after the run's end 0b00 alone; else a row is 0b00 where it is late, has met an uncorrectable source
word, or no running update holds it, and a late row changes nothing but EPD_LATECNT. A row that is not late sends its pixels'
codes packed as R350 has them; an update whose pointer stands on it moves the pointer and feeds the row to its checksum. A
pixel goes to the youngest update that holds it: idle it sends 0b00; else the code of the waveform table, or 0b00 for END, and
its state word takes the next phase or, at the waveform's end, the target as shown and its image's level as the next target;
an uncorrectable burst sends 0b00 and stays. A frame given up to a row has processed just the rows to there. At the end of a
frame an update ends once every row is initialised and every pixel is idle or under a younger running update: its checksum is
reported and with CHK compared (MATCH, or CRCMIS), RESULT is 0, its reservation is released and UPDEND set, and with every
pixel of the panel idle the run ends; else it stays. EPD_POWER_DOWN turns the rails off after the run's end and its frame of
0b00, and does nothing before (log entry 11). HVPG_FALL while frames run ends every update with CUT, logs it, sets STATELOST
and HVFAIL, and turns the rails off. That a row once met by an uncorrectable source word raises no second EPD_EVT.UE is log
entry 124. -/
def Obligations.LabelRuns : Prop :=
  (∀ (s : State),
    s.por = false → s.on EPD_STAT_HVON = true → s.disp.hvpg = false → bitOf s.vio 2 = true →
    ∃ t, exec (.hvpgRise) s = .next t ∧
      t.disp = { s.disp with hvpg := true, vcom := vcomFor s s.disp.temp } ∧ { s with disp := t.disp } = t) ∧
  (∀ (s : State) (u : Upd),
    s.por = false → s.disp.upd = [u] → u.place = none → u.staged = 0 → s.on EPD_STAT_HVON = true → s.disp.hvpg = false →
    u.running = true → ∃ t, exec (.hvTimeout) s = .next t ∧
      t.disp.upd = [] ∧ t.get (EPD_RGNST_RESULT u.region) = 0x40 ∧ t.get EPD_EVT_HVFAIL = 1 ∧ t.get EPD_STAT_HVON = 0 ∧
      t.get PWR_DOMSTAT_PIX = 0 ∧ (t.led.res = dropFirst (fun r => r.cls == 0 && r.bound && r.left == u.id) s.led.res) ∧
      { s with disp := t.disp, regs := t.regs, led := t.led, evHeld := t.evHeld, evCap := t.evCap, evWin := t.evWin, free := t.free } = t ∧
      sameRegs [0, 1, 12] s t) ∧
  (∀ (s : State) (late : List Nat),
    s.por = false → s.on EPD_STAT_HVON = true → s.disp.hvpg = true → s.disp.quiet = true → s.disp.part = none →
    ∃ t, exec (.epdFrameStart late) s = .next t ∧
      (t.disp = { s.disp with sent := (List.range (epdHeight s)).map fun y => (y, zeroRow s), scan := some (epdScan s), blank := true }) ∧
      t.get EPD_STAT_SCAN = 1 ∧ { s with disp := t.disp, regs := t.regs } = t ∧ sameRegs [12] s t) ∧
  (∀ (s : State) (late : List Nat) (u : Upd),
    s.por = false → s.disp.upd = [u] → u.place = none → u.staged = 0 → s.on EPD_STAT_HVON = true → s.disp.hvpg = true →
    s.disp.quiet = false → s.disp.part = none → u.running = true → u.ptr = 0 → 0 < u.h → u.y < epdHeight s →
    s.get DRM_STAT_UNWIPED = 0 → (∀ j, j < u.h → u.y + j ∈ late) → ∃ t, exec (.epdFrameStart late) s = .next t ∧
      (t.disp = { s.disp with sent := (List.range (epdHeight s)).map fun y => (y, zeroRow s), scan := some (epdScan s) }) ∧
      t.get EPD_STAT_SCAN = 1 ∧ t.get EPD_EVT_LATE = 1 ∧
      t.get EPD_LATECNT_COUNT = min (2 ^ 32 - 1) (s.get EPD_LATECNT_COUNT + (min (u.y + u.h) (epdHeight s) - u.y)) ∧
      { s with disp := t.disp, regs := t.regs } = t ∧ sameRegs [0, 12] s t) ∧
  (∀ (s : State) (late : List Nat),
    s.por = false → s.on EPD_STAT_HVON = true → s.disp.hvpg = true → s.disp.quiet = false → s.disp.part = none →
    s.get DRM_STAT_UNWIPED = 0 → s.ms.wipeQ = [] → s.ms.sramErr = [] →
    (∀ u ∈ s.disp.upd, u.place = none ∧ u.staged = 0 ∧ u.floored = false) → ∃ t, exec (.epdFrameStart late) s = .next t ∧
      t.disp.sent.map (·.1) = List.range (epdHeight s) ∧ (∀ e ∈ t.disp.sent, e.2.length = epdWidth s / 4) ∧
      (∀ e ∈ t.disp.sent, (late.contains e.1 || (rowUpds s e.1).isEmpty) = true → e.2 = zeroRow s) ∧
      t.disp.scan = some (epdScan s) ∧ t.disp.part = none ∧ t.get EPD_STAT_SCAN = 1 ∧
      (∀ a, a < 0x80000000 → t.byte a = s.byte a) ∧
      { s with disp := t.disp, regs := t.regs, mem := t.mem, ms := t.ms, led := t.led, evHeld := t.evHeld, evCap := t.evCap, evWin := t.evWin, free := t.free } = t ∧
      sameRegs [0, 1, 3, 4, 12] s t) ∧
  (∀ (s : State) (late : List Nat) (k : Nat),
    s.por = false → s.on EPD_STAT_HVON = true → s.disp.hvpg = true → s.disp.quiet = false → s.disp.part = none →
    s.get DRM_STAT_UNWIPED = 0 → s.ms.wipeQ = [] → s.ms.sramErr = [] → ∃ t, exec (.epdFrameStart late (some k)) s = .next t ∧
      t.disp.sent.map (·.1) = List.range (min (k + 1) (epdHeight s)) ∧ t.disp.part = some (min (k + 1) (epdHeight s), late) ∧
      t.get EPD_STAT_SCAN = 1 ∧ t.disp.upd.map (·.id) = s.disp.upd.map (·.id) ∧ (∀ a, a < 0x80000000 → t.byte a = s.byte a) ∧
      { s with disp := t.disp, regs := t.regs, mem := t.mem, ms := t.ms, evHeld := t.evHeld, evCap := t.evCap, evWin := t.evWin, free := t.free } = t ∧
      sameRegs [0, 3, 4, 12] s t) ∧
  (∀ (s : State) (tdie : Int) (raw : Nat) (u : Upd) (l : List Nat),
    s.por = false → tdieOk tdie = true → s.disp.upd = [u] → u.place = none → u.staged = 0 → u.running = true →
    u.floored = false → s.disp.part = some (epdHeight s, l) → s.disp.dead = [] → u.x + u.w ≤ epdWidth s →
    u.y + u.h ≤ epdHeight s → u.region < 16 → u.h ≤ u.ptr →
    (((List.range u.w).all fun i => (List.range u.h).all fun j => pixelIdle s (u.x + i) (u.y + j)) = true) →
    ∃ t, exec (.epdAdmission tdie raw) s = .next t ∧
      t.disp.upd = [] ∧ t.disp.part = none ∧ t.get (EPD_RGNCRC_CRC u.region) = (u.crc ^^^ 0xFFFFFFFF) % 2 ^ 32 ∧
      (u.chk = true → t.get (EPD_RGNST_MATCH u.region) = b2n (u.crc ^^^ 0xFFFFFFFF == u.exp)) ∧
      t.get EPD_EVT_CRCMIS = (if u.chk && u.crc ^^^ 0xFFFFFFFF != u.exp then 1 else s.get EPD_EVT_CRCMIS) ∧
      t.get (EPD_RGNST_RESULT u.region) = 0 ∧ t.get (EPD_RGNST_TDRIFT u.region) = b2n u.drift ∧
      (Sparse.look 0 s.disp.newest u.region = u.id + 1 → t.get (EPD_RGNST_STATE u.region) = 0) ∧ t.get EPD_EVT_UPDEND = 1 ∧
      (t.led.res = dropFirst (fun r => r.cls == 0 && r.bound && r.left == u.id) s.led.res) ∧
      ((((List.range (epdWidth s)).all fun x => (List.range (epdHeight s)).all fun y => pixelIdle s x y) = true → t.disp.quiet = true)) ∧
      { s with regs := t.regs, disp := t.disp, led := t.led, evHeld := t.evHeld, evCap := t.evCap, evWin := t.evWin, free := t.free } = t ∧
      sameRegs [0, 1, 12] s t) ∧
  (∀ (s : State) (tdie : Int) (raw : Nat) (u v : Upd) (l : List Nat),
    s.por = false → tdieOk tdie = true → s.disp.upd = [u, v] → u.place = none → u.staged = 0 → u.running = true →
    v.running = true → u.floored = false → u.id ≠ v.id → s.disp.part = some (epdHeight s, l) → s.disp.dead = [] → u.h ≤ u.ptr →
    v.ptr < v.h → v.y + v.h ≤ epdHeight s → u.young < v.young → v.x ≤ u.x → u.x + u.w ≤ v.x + v.w → v.y ≤ u.y →
    u.y + u.h ≤ v.y + v.h → ∃ t, exec (.epdAdmission tdie raw) s = .next t ∧
      t.disp.upd = [v] ∧ t.disp.part = none ∧ t.get (EPD_RGNCRC_CRC u.region) = (u.crc ^^^ 0xFFFFFFFF) % 2 ^ 32 ∧
      t.get (EPD_RGNST_RESULT u.region) = 0 ∧ t.get EPD_EVT_UPDEND = 1 ∧ t.disp.quiet = s.disp.quiet ∧
      { s with regs := t.regs, disp := t.disp, led := t.led, evHeld := t.evHeld, evCap := t.evCap, evWin := t.evWin, free := t.free } = t ∧
      sameRegs [0, 1, 12] s t) ∧
  (∀ (s : State) (tdie : Int) (raw : Nat) (u : Upd) (l : List Nat),
    s.por = false → tdieOk tdie = true → s.disp.upd = [u] → u.place = none → u.staged = 0 → u.running = true →
    u.floored = false → s.disp.part = some (epdHeight s, l) → s.disp.dead = [] → u.x + u.w ≤ epdWidth s →
    u.y + u.h ≤ epdHeight s → u.region < 16 →
    (u.ptr < u.h ∨ ((List.range u.w).any fun i => (List.range u.h).any fun j => pixelMoves s (u.x + i) (u.y + j)) = true) →
    ∃ t, exec (.epdAdmission tdie raw) s = .next t ∧
      t.disp.upd = [u] ∧ t.disp.part = none ∧ t.disp.quiet = s.disp.quiet ∧ t.led = s.led ∧ { s with disp := t.disp } = t) ∧
  (∀ (s : State),
    s.por = false → s.disp.quiet = true → s.disp.blank = true → ∃ t, exec (.epdPowerDown) s = .next t ∧
      t.disp = { s.disp with hvpg := false, quiet := false, vcom := 0, dead := [], sent := [], blank := false, part := none, scan := none } ∧
      t.get EPD_STAT_HVON = 0 ∧ t.get EPD_STAT_SCAN = 0 ∧ t.get PWR_DOMSTAT_PIX = 0 ∧
      { s with disp := t.disp, regs := t.regs } = t ∧ sameRegs [0, 12] s t) ∧
  (∀ (s : State),
    s.por = false → (s.disp.quiet = false ∨ s.disp.blank = false) → ∃ t, exec (.epdPowerDown) s = .next t ∧
      t = s) ∧
  (∀ (s : State),
    s.por = false → s.disp.upd ≠ [] → (∀ u ∈ s.disp.upd, u.place = none ∧ u.staged = 0) → s.on EPD_STAT_SCAN = true →
    ∃ t, exec (.hvpgFall) s = .next t ∧
      (∀ u ∈ s.disp.upd, t.get (EPD_RGNST_RESULT u.region) = 0x41) ∧
      (s.on NVS_STAT_HOLDRDY = true → logged s t 0xB s.disp.upd.length 0) ∧ t.disp.upd = [] ∧ t.disp.sent = [] ∧
      t.disp.scan = none ∧ t.disp.part = none ∧ t.disp.vcom = 0 ∧ t.get EPD_STAT_STATELOST = 1 ∧ t.get EPD_EVT_HVFAIL = 1 ∧
      t.get EPD_STAT_HVON = 0 ∧ t.get PWR_DOMSTAT_PIX = 0 ∧
      (headWaits s = false → ∀ a, (a < 0x201E4000 ∨ 0x20200000 ≤ a) → t.byte a = s.byte a) ∧
      (headWaits s = false → { s with regs := t.regs, disp := t.disp, led := t.led, evHeld := t.evHeld, evCap := t.evCap, evWin := t.evWin, free := t.free, mem := t.mem, ms := t.ms } = t) ∧
      (headWaits s = false → sameRegs [0, 1, 9, 12] s t)) ∧
  (∀ (s : State) (late : List Nat) (k : Nat), s.por = false → s.on EPD_STAT_HVON = true → s.disp.hvpg = true →
    s.disp.quiet = false → s.disp.part = none → s.get DRM_STAT_UNWIPED = 0 →
    ∃ t, exec (.epdFrameStart late (some k)) s = .next t ∧ ∃ st : Nat → State,
      (∀ i, i < min (k + 1) (epdHeight s) → st (i + 1) = doRow (st i) (late.contains i) i) ∧
      (st 0).disp.upd = s.disp.upd ∧ (st 0).disp.sent = [] ∧ (st 0).disp.dead = s.disp.dead ∧ (∀ a, (st 0).byte a = s.byte a) ∧
      (st 0).ms = s.ms ∧ sameRegs [0, 12] s (st 0) ∧
      t = { st (min (k + 1) (epdHeight s)) with
        disp := { (st (min (k + 1) (epdHeight s))).disp with part := some (min (k + 1) (epdHeight s), late) } }) ∧
  (∀ (s : State) (y : Nat) (l : List (Upd × List Byte)), s.bankCalm = true → l = rowOf s y → l ≠ [] →
    (∀ e ∈ l, e.1.bad.contains y = false ∧ 0x10341000 ≤ sourceAt e.1 y ∧ sourceAt e.1 y + (e.1.w + 1) / 2 ≤ 0x10380000) →
    (s.disp.upd.map (·.id)).Nodup →
    ∃ (st : Nat → State) (code : Nat → Nat), st 0 = s ∧
      (∀ x, x < epdWidth s → pixelSlot (st x) l y x = (code x, st (x + 1))) ∧
      let t := doRow s false y
      t.disp.sent = s.disp.sent ++ [(y, packedCodes (s.on EPD_CFG_REV) (epdWidth s) code)] ∧
      t.disp.upd = (s.disp.upd.map fun v =>
        if v.running = true ∧ v.y ≤ y ∧ y < v.y + v.h ∧ y - v.y = v.ptr then
          { v with ptr := v.ptr + 1, crc := (s.rdBytes (sourceAt v y) ((v.w + 1) / 2)).foldl crc32Step v.crc } else v) ∧
      ∀ k, t.byte k = (st (epdWidth s)).byte k) ∧
  (∀ (s : State) (y : Nat) (b : Bool) (u : Upd), u ∈ s.disp.upd → u.running = true → u.y ≤ y → y < u.y + u.h →
    b = true ∨ u.bad.contains y = true →
    let t := doRow s b y
    t.disp = { s.disp with sent := s.disp.sent ++ [(y, zeroRow s)] } ∧ t.get EPD_EVT_LATE = 1 ∧
      t.get EPD_LATECNT_COUNT = min (s.get EPD_LATECNT_COUNT + 1) (2 ^ 32 - 1) ∧ (∀ k, t.byte k = s.byte k) ∧ sameRegs [12] s t) ∧
  (∀ (s : State) (l : List (Upd × List Byte)) (x y a b w : Nat) (u : Upd) (row m : List Byte), s.bankCalm = true →
    s.get DRM_STAT_UNWIPED = 0 → s.ms.ckl.length < 64 → a = epdBase s + 2 * (y * epdWidth s + x) → b = a - a % 32 →
    inDram a = true → (a - 0x80000000) % 0x400000 < 0x3C0000 → s.disp.dead.contains b = false →
    (u, row) ∈ l → holdsPixel u x y = true →
    (∀ e ∈ l, e ≠ (u, row) → e.1.x ≤ x → x < e.1.x + e.1.w → e.1.young < u.young) →
    rsDecode (burstOf s b) = some (m, false) → pixelWord s x y = some w →
    let lv := (row.getD ((x - u.x) / 2) 0).toNat / 16 ^ ((x - u.x) % 2) % 16
    let now := decide (y - u.y = u.ptr)
    let cur := w % 16
    let ph := w / 256
    let tgt := if ph = 0 ∧ now = true then lv else w / 16 % 16
    let code := tableCode s u.band cur tgt
    let after := (pixelSlot s l y x).2.rd a 2
    let t := (pixelSlot s l y x).2
    (ph = 0 → tgt = cur → ¬(now = true ∧ u.force = true) → (pixelSlot s l y x).1 = 0 ∧ after = cur + 16 * tgt) ∧
    (¬(ph = 0 ∧ tgt = cur ∧ ¬(now = true ∧ u.force = true)) →
      (pixelSlot s l y x).1 = (if code ph = 3 then 0 else code ph) ∧
      (code ph = 3 ∨ ph = 255 ∨ code (ph + 1) = 3 → after = tgt + 16 * lv) ∧
      (code ph ≠ 3 → ph ≠ 255 → code (ph + 1) ≠ 3 → after = cur + 16 * tgt + 256 * (ph + 1))) ∧
    (∀ k, (k < a ∨ a + 2 ≤ k) → t.byte k = s.byte k) ∧ t.disp = s.disp ∧ sameRegs [0] s t) ∧
  (∀ (s : State) (l : List (Upd × List Byte)) (x y : Nat), (∀ e ∈ l, x < e.1.x ∨ e.1.x + e.1.w ≤ x) →
    pixelSlot s l y x = (0, s)) ∧
  (∀ (s : State) (l : List (Upd × List Byte)) (x y a b : Nat) (e : Upd × List Byte), s.get DRM_STAT_UNWIPED = 0 →
    s.ms.ckl.length < 64 → a = epdBase s + 2 * (y * epdWidth s + x) → b = a - a % 32 → inDram a = true → e ∈ l →
    e.1.x ≤ x → x < e.1.x + e.1.w → rsDecode (burstOf s b) = none →
    (pixelSlot s l y x).1 = 0 ∧ (pixelSlot s l y x).2.disp.dead.contains b = true ∧
      ∀ k, (pixelSlot s l y x).2.byte k = s.byte k)

/-- TOUCH_START that sets EN with no factory table and no halt takes the measured counts, makes off pins OFF, dropped ones
DROPPED and the rest UNARMED, with FBASE=0; while halted the start waits; clearing EN makes every channel OFF.
TOUCH_PAIR_START starts a pair where one may run, which takes TCH_THR, TCH_MAXON and TCH_DROP as they stand; with its operand
set (log entry 104) the mutual pass starts and takes TCH_DROP as it stands; once a sleep request is answered neither pass
starts. TOUCH_PAIR_END takes the counts of the pins its self pass measured, ends the pair, where TCH_DROP takes effect, leaves
OFF channels OFF, returns a channel that was dropped while UNARMED and whose bit is clear to UNARMED with a window that starts
anew, takes a pin dropped at a boundary within the pair to DROPPED, takes an IDLE button whose self delta has been SELF or
more for DEB pairs to TOUCHED and leaves one below SELF, with no earlier result pending, IDLE; TCH_STATE follows the channels
and a change of it is reported. WAKE_SCAN_SAMPLE notes for just the pins it samples whether they reach baseline plus TH; a
first hit raises nothing, a second in a row raises WAKEHIT. -/
def Obligations.Touch : Prop :=
  (∀ (s : State) (m : Master) (v : Word) (sc mc : List Nat),
    s.por = false → s.reaches m 0x4000D000 1 v.toNat = true → bitOf v.toNat 0 = true → s.on TCH_CFG_EN = false →
    s.tch.halted = false → s.tch.starting = false → s.tch.ch.length = 16 → s.rd 0x200DFF00 4 ≠ 0x54424C31 → s.ms.nvErr = [] →
    s.nvs.moving = none → ∃ t, exec (.touchStart m v sc mc) s = .next t ∧
      t.get TCH_CFG_EN = 1 ∧ t.get TCH_STAT_FBASE = 0 ∧ t.tch.starting = false ∧ t.tch.pair = false ∧
      (∀ n, n < 16 → t.get (TCH_CHST_SELF n) = if roleOn s n && !s.bit TCH_DROP_DROP n then sc.getD n 0 % 65536 else s.get (TCH_CHST_SELF n)) ∧
      (∀ n, n < 16 → t.get (TCH_CHST_STATE n) = if roleOn s n then (if s.bit TCH_DROP_DROP n then 6 else 1) else 0) ∧
      { s with regs := t.regs, tch := t.tch, evHeld := t.evHeld, evCap := t.evCap, evWin := t.evWin, free := t.free, bus := t.bus } = t ∧
      sameRegs [0, 13] s t) ∧
  (∀ (s : State) (m : Master) (v : Word) (sc mc : List Nat),
    s.por = false → s.reaches m 0x4000D000 1 v.toNat = true → bitOf v.toNat 0 = true → s.on TCH_CFG_EN = false →
    s.tch.halted = true → ∃ t, exec (.touchStart m v sc mc) s = .next t ∧
      t.get TCH_CFG_EN = 1 ∧ t.get TCH_STAT_RUN = 0 ∧
      t.tch = { s.tch with pair := false, starting := true, queued := false, thr := (s.get TCH_THR_SELF, s.get TCH_THR_MUT), sec := s.get TCH_MAXON_SEC, drop := s.get TCH_DROP_DROP, mutPass := false, selfDrop := s.get TCH_DROP_DROP } ∧
      { s with regs := t.regs, tch := t.tch, bus := t.bus } = t ∧ sameRegs [13] s t) ∧
  (∀ (s : State) (m : Master) (v : Word) (sc mc : List Nat),
    s.por = false → s.reaches m 0x4000D000 1 v.toNat = true → bitOf v.toNat 0 = false → s.on TCH_CFG_EN = true →
    ∃ t, exec (.touchStart m v sc mc) s = .next t ∧
      t.get TCH_CFG_EN = 0 ∧ t.get TCH_STAT_RUN = 0 ∧ t.get TCH_STATE_TOUCHED = 0 ∧
      (∀ n, n < 16 → t.get (TCH_CHST_STATE n) = 0) ∧
      t.tch = { s.tch with pair := false, starting := false, queued := false, mutPass := false } ∧
      { s with regs := t.regs, tch := t.tch, bus := t.bus } = t ∧ sameRegs [13] s t) ∧
  (∀ (s : State),
    s.por = false → pairsRun s = true → s.tch.pair = false → (s.get TCH_CFG_MODE ≠ 2 ∨ s.tch.queued = true) →
    ∃ t, exec (.touchPairStart false) s = .next t ∧
      t.tch = { s.tch with pair := true, queued := false, thr := (s.get TCH_THR_SELF, s.get TCH_THR_MUT), sec := s.get TCH_MAXON_SEC, drop := s.get TCH_DROP_DROP, mutPass := false, selfDrop := s.get TCH_DROP_DROP } ∧
      { s with tch := t.tch } = t) ∧
  (∀ (s : State) (b : Bool),
    s.por = false → tchHeld s = true → ∃ t, exec (.touchPairStart b) s = .next t ∧
      t = s) ∧
  (∀ (s : State),
    s.por = false → s.tch.pair = true → s.tch.mutPass = false → tchHeld s = false →
    ∃ t, exec (.touchPairStart true) s = .next t ∧
      t.tch = { s.tch with drop := s.get TCH_DROP_DROP, mutPass := true } ∧ { s with tch := t.tch } = t) ∧
  (∀ (s : State) (sc mc : List Nat) (ms : Nat),
    s.por = false → s.tch.pair = true → s.tch.starting = false → s.tch.ch.length = 16 →
    ∃ t, exec (.touchPairEnd sc mc ms) s = .next t ∧
      t.tch.pair = false ∧
      (∀ n, n < 16 → t.get (TCH_CHST_SELF n) = if roleOn s n && !bitOf s.tch.selfDrop n then sc.getD n 0 % 65536 else s.get (TCH_CHST_SELF n)) ∧
      t.tch.mutPass = false ∧ t.tch.drop = s.get TCH_DROP_DROP ∧
      (∀ n, n < 16 → s.get (TCH_CHST_STATE n) ≠ 0 → s.get (TCH_CHST_STATE n) ≠ 6 → bitOf s.tch.selfDrop n = true ∨ bitOf s.tch.drop n = true → t.get (TCH_CHST_STATE n) = 6) ∧
      (∀ n, n < 16 → s.get (TCH_CHST_STATE n) = 0 → t.get (TCH_CHST_STATE n) = 0) ∧
      (∀ n, n < 16 → (s.get (TCH_CHST_STATE n) = 6 ∧ s.bit TCH_DROP_DROP n = false ∧ (tchAt s n).saved = 1) → t.get (TCH_CHST_STATE n) = 1 ∧ (tchAt t n).win = (t.get (TCH_CHST_SELF n), 0)) ∧
      (∀ n, n < 16 → (s.get (TCH_CHST_STATE n) = 2 ∧ s.get (TCH_PINCFG_ROLE n) = 3 ∧ bitOf s.tch.selfDrop n = false ∧ bitOf s.tch.drop n = false ∧ s.bit TCH_DROP_DROP n = false ∧ s.get (TCH_CHBASE_SBASE n) + thSelf s ≤ sc.getD n 0 % 65536 ∧ (tchAt s n).last = 1 ∧ max 1 (s.get TCH_CFG_DEB) ≤ (tchAt s n).run + 1) → t.get (TCH_CHST_STATE n) = 3) ∧
      (∀ n, n < 16 → (s.get (TCH_CHST_STATE n) = 2 ∧ s.get (TCH_PINCFG_ROLE n) = 3 ∧ bitOf s.tch.selfDrop n = false ∧ bitOf s.tch.drop n = false ∧ s.bit TCH_DROP_DROP n = false ∧ sc.getD n 0 % 65536 < s.get (TCH_CHBASE_SBASE n) + thSelf s) → t.get (TCH_CHST_STATE n) = 2) ∧
      (t.get TCH_STATE_TOUCHED = maskOf 16 fun n => t.get (TCH_CHST_STATE n) == 3) ∧
      (t.get TCH_STATE_WET = maskOf 16 fun n => t.get (TCH_CHST_STATE n) == 4) ∧
      (t.word 0x4000D01C = s.word 0x4000D01C ∨ t.get TCH_EVT_REPORT = 1) ∧
      { s with regs := t.regs, tch := t.tch, evHeld := t.evHeld, evCap := t.evCap, evWin := t.evWin, free := t.free } = t ∧
      sameRegs [0, 13] s t) ∧
  (∀ (s : State) (sc : List Nat),
    s.por = false → s.on TCH_STAT_WSCAN = true → s.tch.ch.length = 16 → ∃ t, exec (.wakeScanSample sc) s = .next t ∧
      (∀ n, n < 16 → (tchAt t n).hit = if scanned s n then (if (tchAt s n).wbase + max 1 (s.get TCH_WAKE_TH) ≤ sc.getD n 0 % 65536 then min 2 ((tchAt s n).hit + 1) else 0) else (tchAt s n).hit) ∧
      (s.tch.ch.any (fun c => c.hit != 0) = true ∨ t.get TCH_EVT_WAKEHIT = s.get TCH_EVT_WAKEHIT) ∧
      { s with regs := t.regs, tch := t.tch, evHeld := t.evHeld, evCap := t.evCap, evWin := t.evWin, free := t.free } = t ∧
      sameRegs [0, 13] s t) ∧
  (∀ (s : State) (sc : List Nat) (n : Nat),
    s.por = false → s.on TCH_STAT_WSCAN = true → s.tch.ch.length = 16 → n < 16 → scanned s n = true → (tchAt s n).hit ≠ 0 →
    (tchAt s n).wbase + max 1 (s.get TCH_WAKE_TH) ≤ sc.getD n 0 % 65536 → ∃ t, exec (.wakeScanSample sc) s = .next t ∧
      t.get TCH_EVT_WAKEHIT = 1 ∧
      { s with regs := t.regs, tch := t.tch, evHeld := t.evHeld, evCap := t.evCap, evWin := t.evWin, free := t.free } = t ∧
      sameRegs [0, 13] s t)

/-- A write of SEC_DBGCTL with OPEN, for a claimed slot, in a state in which the principal may prove itself, with the tamper
input low, makes a fresh challenge; otherwise it is refused, with RESULT 5 for the first two (log entry 37). The cryptography
is that of the standards the spec names (log entry 9, presumed). PROVE with the CMAC gives the port the tag, any other proof
ends the challenge and counts; END drops tag and challenge. With VIO3 up, EXTEST and SAMPLE/PRELOAD capture the levels and
load their cells while the port carries VENDOR or MAKER; IDCODE answers 0x1964062D; BYPASS shifts its bit and captures 0 (log
entry 20); five TMS clocks select IDCODE (log entry 7, presumed); DAPACC reads and writes words of the SEC_ page at 0x4000E000
plus four times their number, or reads the word of a debug window (log entry 21). The lowest submitted slot's SEAL, SIGN,
PUBKEY, VERIFY, RANDOM and HASH write status, output length and output to the slot, end its request and report it, and no
other byte changes, the slot's other words among them; SIGN draws its secret number from the random source (log entry 40);
SEAL without the right is DENIED. -/
def Obligations.DebugJtagAndServices : Prop :=
  (∀ (s : State) (m : Master) (v : Word) (salt : List Byte),
    s.por = false → s.reaches m 0x4000E080 1 v.toNat = true → bitOf v.toNat 4 = true → bitOf v.toNat 5 = false →
    bitOf v.toNat 6 = false → s.sec.tampin = false → saltOf s (v.toNat % 16) = some salt → dbgMay s (v.toNat % 16) = true →
    ∃ t, exec (.debugOpen m v) s = .next t ∧
      t.sec = { s.sec with dbgChal := some ((v.toNat % 16), (s.random 16).1) } ∧
      (∀ n, n < 4 → t.get (SEC_DBGCHAL_DATA n) = leNat (((s.random 16).1.drop (4 * n)).take 4)) ∧ t.get SEC_DBGCTL_RESULT = 0 ∧
      { s with sec := t.sec, regs := t.regs, free := t.free, bus := t.bus } = t ∧ sameRegs [14] s t) ∧
  (∀ (s : State) (m : Master) (v : Word) (p : Nat) (cd salt : List Byte),
    s.por = false → s.reaches m 0x4000E080 1 v.toNat = true → bitOf v.toNat 4 = false → bitOf v.toNat 5 = true →
    bitOf v.toNat 6 = false → s.sec.dbgChal = some (p, cd) → saltOf s p = some salt → dbgMay s p = true →
    dbgRsp s = cmac (prinKey s p salt) (proofMsg p 1 zero16 cd) → ∃ t, exec (.debugProve m v) s = .next t ∧
      t.sec = { s.sec with dbgChal := none, dbgPrin := p, dbgProved := true } ∧ t.get SEC_DBGCTL_RESULT = 0 ∧
      t.get SEC_EVT_DBGAUTH = 1 ∧ { s with sec := t.sec, regs := t.regs, bus := t.bus } = t ∧ sameRegs [14] s t) ∧
  (∀ (s : State) (m : Master) (v : Word),
    s.por = false → s.reaches m 0x4000E080 1 v.toNat = true → bitOf v.toNat 4 = true → bitOf v.toNat 5 = false →
    bitOf v.toNat 6 = false → s.sec.tampin = false → (saltOf s (v.toNat % 16) = none ∨ dbgMay s (v.toNat % 16) = false) →
    ∃ t, exec (.debugOpen m v) s = .next t ∧
      t.get SEC_DBGCTL_RESULT = 5 ∧ { s with regs := t.regs, bus := t.bus } = t ∧ sameRegs [14] s t) ∧
  (∀ (s : State) (m : Master) (v : Word),
    s.por = false → s.reaches m 0x4000E080 1 v.toNat = true → bitOf v.toNat 4 = true → bitOf v.toNat 5 = false →
    bitOf v.toNat 6 = false → s.sec.tampin = true → ∃ t, exec (.debugOpen m v) s = .next t ∧
      t.get SEC_DBGCTL_RESULT = 3 ∧ { s with regs := t.regs, bus := t.bus } = t ∧ sameRegs [14] s t) ∧
  (∀ (s : State) (m : Master) (v : Word) (p : Nat) (cd salt : List Byte),
    s.por = false → s.reaches m 0x4000E080 1 v.toNat = true → bitOf v.toNat 4 = false → bitOf v.toNat 5 = true →
    bitOf v.toNat 6 = false → s.sec.dbgChal = some (p, cd) → saltOf s p = some salt →
    dbgRsp s ≠ cmac (prinKey s p salt) (proofMsg p 1 zero16 cd) → ∃ t, exec (.debugProve m v) s = .next t ∧
      t.sec = { s.sec with dbgChal := none } ∧ t.get SEC_DBGCTL_RESULT = 7 ∧ t.get SEC_EVT_AUTHFAIL = 1 ∧
      t.get SEC_AUTHCNT_COUNT = min (s.get SEC_AUTHCNT_COUNT + 1) 65535 ∧
      { s with sec := t.sec, regs := t.regs, bus := t.bus } = t ∧ sameRegs [14] s t) ∧
  (∀ (s : State) (m : Master) (v : Word),
    s.por = false → s.reaches m 0x4000E080 1 v.toNat = true → bitOf v.toNat 4 = false → bitOf v.toNat 5 = false →
    bitOf v.toNat 6 = true → ∃ t, exec (.debugEnd m v) s = .next t ∧
      t.sec = { s.sec with dbgPrin := 0, dbgProved := false, dbgChal := none } ∧
      { s with sec := t.sec, regs := t.regs, bus := t.bus } = t ∧ sameRegs [14] s t) ∧
  (∀ (s : State) (x y : BitVec 171),
    s.por = false → scanWorks s = true → bitOf s.vio 3 = true → ∃ t, exec (.extest x y) s = .next t ∧
      t.jtag = { s.jtag with ir := 0, bsr := x, pins := y } ∧ { s with jtag := t.jtag } = t) ∧
  (∀ (s : State) (x y : BitVec 171),
    s.por = false → scanWorks s = true → bitOf s.vio 3 = true → ∃ t, exec (.samplePreload x y) s = .next t ∧
      t.jtag = { s.jtag with ir := 2, pins := x, bsr := y } ∧ { s with jtag := t.jtag } = t) ∧
  (∀ (s : State),
    s.por = false → bitOf s.vio 3 = true → ∃ t, exec (.idcode) s = .next t ∧
      t.jtag = { s.jtag with ir := 1, tdo := 0x1964062D } ∧ { s with jtag := t.jtag } = t) ∧
  (∀ (s : State) (c : BitVec 5) (b : Bool),
    s.por = false → bitOf s.vio 3 = true → c.toNat ∉ [0, 1, 2, 8] → ∃ t, exec (.bypass c b) s = .next t ∧
      t.jtag = { s.jtag with ir := c, byp := b, tdo := 0 } ∧ { s with jtag := t.jtag } = t) ∧
  (∀ (s : State),
    s.por = false → bitOf s.vio 3 = true → ∃ t, exec (.tapReset) s = .next t ∧
      t.jtag = { s.jtag with ir := 1 } ∧ { s with jtag := t.jtag } = t) ∧
  (∀ (s : State) (w : BitVec 40) (a : Nat),
    s.por = false → bitOf s.vio 3 = true → bitOf w.toNat 39 = false → a = 0x4000E000 + 4 * (w.toNat / 2 ^ 32 % 128) →
    access s .dap (dapTag s) a 4 0 0 = .ok → ∃ t, exec (.dapacc w) s = .next t ∧
      t.bus = .ok (viewReg s a) ∧ t.jtag.ir = 8 ∧ t.jtag.tdo.setWidth 32 = BitVec.ofNat 32 (viewReg s a) ∧
      { s with jtag := t.jtag, free := t.free, regs := t.regs, bus := t.bus } = t ∧ sameRegs [14] s t) ∧
  (∀ (s : State) (w : BitVec 40) (a : Word),
    s.por = false → bitOf s.vio 3 = true → bitOf w.toNat 39 = false → a.toNat % 4 = 0 → inPage a.toNat = false →
    access s .dap (dapTag s) a.toNat 4 0 0 = .ok → ∃ t, exec (.dapacc w (some a)) s = .next t ∧
      t.bus = (busRead s .dap (dapTag s) a.toNat).bus ∧ t.jtag.ir = 8 ∧
      (∀ v, t.bus = .ok v → t.jtag.tdo.setWidth 32 = BitVec.ofNat 32 v) ∧
      { s with jtag := t.jtag, free := t.free, regs := t.regs, mem := t.mem, ms := t.ms, nvs := t.nvs, bus := t.bus } = t ∧
      sameRegs [0, 3, 4, 9] s t) ∧
  (∀ (s : State) (w : BitVec 40) (n : Nat),
    s.por = false → bitOf s.vio 3 = true → bitOf w.toNat 39 = true → n < 4 → w.toNat / 2 ^ 32 % 128 = 0x28 + n →
    access s .dap (dapTag s) (0x4000E0A0 + 4 * n) 4 1 (w.toNat % 2 ^ 32) = .ok → ∃ t, exec (.dapacc w) s = .next t ∧
      t.get (SEC_DBGRSP_DATA n) = w.toNat % 2 ^ 32 ∧ t.bus = .ok 0 ∧ t.jtag.ir = 8 ∧
      { s with jtag := t.jtag, free := t.free, regs := t.regs, bus := t.bus } = t ∧ sameRegs [14] s t) ∧
  (∀ (s : State) (q : Nat) (par d : List Byte) (salt out : List Byte),
    s.por = false → s.svcReady q 1 par d = true →
    ((s.sec.svcTag.getD q 0 = 8 ∨ s.sec.svcTag.getD q 0 = 9) ∧ (pf par 0 4 = 2 ∨ pf par 0 4 = 3 ∧ s.on SEC_FWSTAT_ACCEPT = true ∧ lcState s = 2)) →
    saltOf s (pf par 0 4) = some salt →
    out = ctr (secretKey s (label 0x44 0x58 0x53 0x4C) (pf par 0 4) salt) ((par.drop 4).take 12) d →
    ∃ t, exec (.seal q) s = .next t ∧
      served t q 0 out ∧
      (∀ a, (a < svcBase q + 4 ∨ (svcBase q + 8 ≤ a ∧ a < svcBase q + 12) ∨ (svcBase q + 16 ≤ a ∧ a < svcBase q + 0x20) ∨ svcBase q + 0x20 + out.length ≤ a) → t.byte a = s.byte a) ∧
      { s with mem := t.mem, ms := t.ms, regs := t.regs, evHeld := t.evHeld, evCap := t.evCap, evWin := t.evWin, free := t.free } = t ∧
      sameRegs [0, 3, 14, 15] s t) ∧
  (∀ (s : State) (q : Nat) (par d : List Byte),
    s.por = false → s.svcReady q 1 par d = true →
    (¬((s.sec.svcTag.getD q 0 = 8 ∨ s.sec.svcTag.getD q 0 = 9) ∧ (pf par 0 4 = 2 ∨ pf par 0 4 = 3 ∧ s.on SEC_FWSTAT_ACCEPT = true ∧ lcState s = 2))) →
    ∃ t, exec (.seal q) s = .next t ∧
      served t q 3 [] ∧
      (∀ a, (a < svcBase q + 4 ∨ (svcBase q + 8 ≤ a ∧ a < svcBase q + 12) ∨ (svcBase q + 16 ≤ a ∧ a < svcBase q + 0x20) ∨ svcBase q + 0x20 + 0 ≤ a) → t.byte a = s.byte a) ∧
      { s with mem := t.mem, ms := t.ms, regs := t.regs, evHeld := t.evHeld, evCap := t.evCap, evWin := t.evWin, free := t.free } = t ∧
      sameRegs [0, 3, 14, 15] s t) ∧
  (∀ (s : State) (q : Nat) (par d : List Byte),
    s.por = false → s.svcReady q 2 par d = true → s.sec.svcTag.getD q 0 ≠ 10 → ∃ t, exec (.sign q) s = .next t ∧
      (∃ k, k < t.free ∧ served t q 0 (beBytes 32 (ecdsaSign (attKey s) (beNat ({ s with free := k }.random 32).1 % (n256 - 1) + 1) (sha256 (1 :: d))).1 ++ beBytes 32 (ecdsaSign (attKey s) (beNat ({ s with free := k }.random 32).1 % (n256 - 1) + 1) (sha256 (1 :: d))).2)) ∧
      (∀ a, (a < svcBase q + 4 ∨ (svcBase q + 8 ≤ a ∧ a < svcBase q + 12) ∨ (svcBase q + 16 ≤ a ∧ a < svcBase q + 0x20) ∨ svcBase q + 0x20 + 64 ≤ a) → t.byte a = s.byte a) ∧
      { s with mem := t.mem, ms := t.ms, regs := t.regs, evHeld := t.evHeld, evCap := t.evCap, evWin := t.evWin, free := t.free } = t ∧
      sameRegs [0, 3, 14, 15] s t) ∧
  (∀ (s : State) (q : Nat) (par d : List Byte),
    s.por = false → s.svcReady q 3 par d = true → ∃ t, exec (.pubkey q) s = .next t ∧
      served t q 0 (beBytes 32 (pubOf (attKey s)).1 ++ beBytes 32 (pubOf (attKey s)).2) ∧
      (∀ a, (a < svcBase q + 4 ∨ (svcBase q + 8 ≤ a ∧ a < svcBase q + 12) ∨ (svcBase q + 16 ≤ a ∧ a < svcBase q + 0x20) ∨ svcBase q + 0x20 + 64 ≤ a) → t.byte a = s.byte a) ∧
      { s with mem := t.mem, ms := t.ms, regs := t.regs, evHeld := t.evHeld, evCap := t.evCap, evWin := t.evWin, free := t.free } = t ∧
      sameRegs [0, 3, 14, 15] s t) ∧
  (∀ (s : State) (q : Nat) (par d : List Byte) (key sig : Nat × Nat),
    s.por = false → s.svcReady q 4 par d = true → 128 ≤ d.length → key = (beNat (d.take 32), beNat ((d.drop 32).take 32)) →
    sig = (beNat ((d.drop 64).take 32), beNat ((d.drop 96).take 32)) → ∃ t, exec (.verify q) s = .next t ∧
      served t q (if ecdsaVerify key.1 key.2 sig.1 sig.2 (sha256 (d.drop 128)) then 0 else 7) [] ∧
      (∀ a, (a < svcBase q + 4 ∨ (svcBase q + 8 ≤ a ∧ a < svcBase q + 12) ∨ (svcBase q + 16 ≤ a ∧ a < svcBase q + 0x20) ∨ svcBase q + 0x20 + 0 ≤ a) → t.byte a = s.byte a) ∧
      { s with mem := t.mem, ms := t.ms, regs := t.regs, evHeld := t.evHeld, evCap := t.evCap, evWin := t.evWin, free := t.free } = t ∧
      sameRegs [0, 3, 14, 15] s t) ∧
  (∀ (s : State) (q : Nat) (par d : List Byte),
    s.por = false → s.svcReady q 5 par d = true → ∃ t, exec (.randomBytes q) s = .next t ∧
      (∃ k, k ≤ t.free ∧ served t q 0 ({ s with free := k }.random d.length).1) ∧
      (∀ a, (a < svcBase q + 4 ∨ (svcBase q + 8 ≤ a ∧ a < svcBase q + 12) ∨ (svcBase q + 16 ≤ a ∧ a < svcBase q + 0x20) ∨ svcBase q + 0x20 + d.length ≤ a) → t.byte a = s.byte a) ∧
      { s with mem := t.mem, ms := t.ms, regs := t.regs, evHeld := t.evHeld, evCap := t.evCap, evWin := t.evWin, free := t.free } = t ∧
      sameRegs [0, 3, 14, 15] s t) ∧
  (∀ (s : State) (q : Nat) (par d : List Byte),
    s.por = false → s.svcReady q 6 par d = true → ∃ t, exec (.hash q) s = .next t ∧
      served t q 0 (sha256 d) ∧
      (∀ a, (a < svcBase q + 4 ∨ (svcBase q + 8 ≤ a ∧ a < svcBase q + 12) ∨ (svcBase q + 16 ≤ a ∧ a < svcBase q + 0x20) ∨ svcBase q + 0x20 + 32 ≤ a) → t.byte a = s.byte a) ∧
      { s with mem := t.mem, ms := t.ms, regs := t.regs, evHeld := t.evHeld, evCap := t.evCap, evWin := t.evWin, free := t.free } = t ∧
      sameRegs [0, 3, 14, 15] s t)

/-- RESETN_LOW asserts power-on reset with cause 2 and keeps only the NV array of memory and the ball levels in GPIO_IN, or
while it stands only sets SEEN. POWER_ON_RELEASE ends it: the link engine in LISTEN, HOLDRDY 1, banks 2 to 7 zero, the
management controller up, and with no image, or in BLANK or SCRAPPED, the core stays stopped; with an authentic image it is in
bank 0, owner acceptance is judged, and the core runs at M from vector slot 0. With no sequence or entry under way
WATCHDOG_EXPIRY, MANAGEMENT_MONITOR_EXPIRY, SOFTWARE_RESET and the first RESET_DEVICE that is due of those asked for set cause
and SEEN and clear the core; the fuses, the calendar and the regions of records and recipes stay; one of no higher rank than a
sequence under way only sets SEEN. The warning notes itself and asks for an NMI. A tamper edge ends session and proofs, starts
the wipe of bank 6 and counts in tly29, and asks for an NMI; its fall lowers the input (log entry 39). Each of these is one
step of the model (log entries 29 and 30); SEEN under a standing reset or sequence is log entry 33. -/
def Obligations.Resets : Prop :=
  (∀ (s : State),
    s.por = false → ∃ t, exec (.resetnLow) s = .next t ∧
      t.por = true ∧ t.resetnLow = true ∧ t.get PWR_RSTCAUSE_LAST = 2 ∧ t.get PWR_RSTCAUSE_SEEN = 4 ∧ t.dx = State.reset.dx ∧
      (t.mem = s.mem.filter fun e => inNv e.1) ∧ t.sec.fuses = s.sec.fuses ∧ t.sec.sess = none ∧
      t.get GPIO_IN_IN = s.get GPIO_IN_IN % 256 ∧
      (∀ f : Fld, f.key ≠ PWR_RSTCAUSE_LAST.key → f.key ≠ PWR_RSTCAUSE_SEEN.key → f.key ≠ GPIO_IN_IN.key → t.get f = f.rst)) ∧
  (∀ (s : State),
    s.por = true → ∃ t, exec (.resetnLow) s = .next t ∧
      t.resetnLow = true ∧ t.get PWR_RSTCAUSE_SEEN = (s.get PWR_RSTCAUSE_SEEN ||| 4) % 2 ^ 10 ∧
      { s with resetnLow := t.resetnLow, regs := t.regs } = t ∧ sameRegs [0] s t) ∧
  (∀ (s : State) (n : Nat),
    s.por = true → markStands s = false → ∃ t, exec (.powerOnRelease n) s = .next t ∧
      t.por = false ∧ t.get LNK_STAT_STATE = 1 ∧ t.get NVS_STAT_HOLDRDY = 1 ∧ t.cmd.mgmtUp = true ∧ t.sec.fuses = s.sec.fuses ∧
      t.get PWR_RSTCAUSE_LAST = s.get PWR_RSTCAUSE_LAST ∧ (∀ a, (0x10200000 ≤ a ∧ a < 0x10400000) → t.byte a = 0) ∧
      (fwStates s = true ∧ s.rd 0x20010004 4 ≠ 0 ∨ t.dx.running = s.dx.running) ∧
      (∀ a, (0x20010000 ≤ a ∧ a < 0x201E0000) → t.byte a = s.byte a)) ∧
  (∀ (s : State) (n l : Nat),
    s.por = true → s.dx = State.reset.dx → s.get CORE_STATUS_PL = 2 → s.ms.nvErr = [] → s.nvs.moving = none →
    markStands s = false → fwStates s = true → (imageCheck s (lcState s != 1)).1.auth = 1 →
    l = (imageCheck s (lcState s != 1)).1.limg → ∃ t, exec (.powerOnRelease n) s = .next t ∧
      t.dx.running = true ∧ t.dx.pc = 0x10000000 ∧ t.get CORE_STATUS_PL = 2 ∧ t.get SEC_FWSTAT_AUTH = 1 ∧
      t.get SEC_FWSTAT_POLICY = (if s.rd 0x200E0000 4 = 0x4F504C31 then 1 else 0) ∧
      (t.get SEC_FWSTAT_ACCEPT = 1 ↔ s.rd 0x200E0000 4 ≠ 0x4F504C31 ∨ (imageCheck s (lcState s != 1)).1.digest = s.rdBytes 0x200E0008 32 ∨ (imageCheck s (lcState s != 1)).1.digest = s.rdBytes 0x200E0028 32) ∧
      (∀ a, a < 0x100000 → t.byte (0x10000000 + a) = if a < l then s.byte (0x20010100 + a) else 0) ∧
      t.rd 0x101FFFC0 4 = 0x48444F31 ∧ t.rd 0x101FFFCC 4 = l) ∧
  (∀ (s : State),
    s.por = false → wdRuns s = true → s.boot = none → s.pwr.entry = none → s.pwr.withheld = false →
    ∃ t, exec (.watchdogExpiry) s = .next t ∧
      t.get PWR_RSTCAUSE_LAST = 6 ∧ t.bit PWR_RSTCAUSE_SEEN (6) = true ∧ t.dx.g = Vector.replicate 32 0 ∧
      t.dx.acc = Vector.replicate 4 0 ∧ t.dx.stores = [] ∧ t.dx.bundle = [] ∧ t.dx.pc = 0x10000000 ∧
      t.sec.fuses = s.sec.fuses ∧ t.clk.t = s.clk.t ∧ (∀ a, (0x20010000 ≤ a ∧ a < 0x201E0000) → t.byte a = s.byte a)) ∧
  (∀ (s : State) (c : Nat),
    s.por = false → 7 ≤ c → c ≤ 9 → s.boot = none → s.pwr.entry = none → s.pwr.withheld = false →
    ∃ t, exec (.softwareReset c) s = .next t ∧
      t.get PWR_RSTCAUSE_LAST = c ∧ t.bit PWR_RSTCAUSE_SEEN (c) = true ∧ t.dx.g = Vector.replicate 32 0 ∧
      t.dx.acc = Vector.replicate 4 0 ∧ t.dx.stores = [] ∧ t.dx.bundle = [] ∧ t.dx.pc = 0x10000000 ∧
      t.sec.fuses = s.sec.fuses ∧ t.clk.t = s.clk.t ∧ (∀ a, (0x20010000 ≤ a ∧ a < 0x201E0000) → t.byte a = s.byte a)) ∧
  (∀ (s : State) (c : Nat),
    s.por = false → 7 ≤ c → c ≤ 9 → s.boot.isSome = true → ∃ t, exec (.softwareReset c) s = .next t ∧
      t.get PWR_RSTCAUSE_SEEN = (s.get PWR_RSTCAUSE_SEEN ||| 2 ^ c) % 2 ^ 10 ∧ { s with regs := t.regs } = t ∧ sameRegs [0] s t) ∧
  (∀ (s : State),
    s.por = false → s.boot = none → s.pwr.entry = none → markStands s = false →
    ∃ t, exec (.managementMonitorExpiry) s = .next t ∧
      t.get PWR_RSTCAUSE_LAST = 5 ∧ t.bit PWR_RSTCAUSE_SEEN (5) = true ∧ t.dx.g = Vector.replicate 32 0 ∧
      t.dx.acc = Vector.replicate 4 0 ∧ t.dx.stores = [] ∧ t.dx.bundle = [] ∧ t.dx.pc = 0x10000000 ∧
      t.sec.fuses = s.sec.fuses ∧ t.clk.t = s.clk.t ∧ t.sec.sess = none ∧ t.sec.chal = none ∧ t.evHeld = 0 ∧
      (∀ a, (0x20010000 ≤ a ∧ a < 0x201E0000) → t.byte a = s.byte a)) ∧
  (∀ (s : State) (p : Nat) (rest : List (Nat × Nat × Nat)),
    s.por = false → s.cmd.resetDev = (2, 0, p) :: rest → s.boot = none → s.pwr.entry = none → markStands s = false →
    ∃ t, exec (.resetDeviceStart) s = .next t ∧
      t.get PWR_RSTCAUSE_LAST = 3 ∧ t.bit PWR_RSTCAUSE_SEEN (3) = true ∧ t.dx.g = Vector.replicate 32 0 ∧
      t.dx.acc = Vector.replicate 4 0 ∧ t.dx.stores = [] ∧ t.dx.bundle = [] ∧ t.dx.pc = 0x10000000 ∧
      t.sec.fuses = s.sec.fuses ∧ t.clk.t = s.clk.t ∧ t.cmd.resetDev = [] ∧ t.sec.sess = none ∧ t.evHeld = 0 ∧
      (∀ a, (0x20010000 ≤ a ∧ a < 0x201E0000) → t.byte a = s.byte a)) ∧
  (∀ (s : State) (k n p q : Nat) (rest : List (Nat × Nat × Nat)),
    s.por = false → s.cmd.resetDev = (k, n, p) :: (1, 0, q) :: rest → n ≠ 0 → s.boot = none → s.pwr.entry = none →
    ∃ t, exec (.resetDeviceStart) s = .next t ∧
      t.get PWR_RSTCAUSE_LAST = 9 ∧ t.bit PWR_RSTCAUSE_SEEN (9) = true ∧ t.dx.g = Vector.replicate 32 0 ∧
      t.dx.acc = Vector.replicate 4 0 ∧ t.dx.stores = [] ∧ t.dx.bundle = [] ∧ t.dx.pc = 0x10000000 ∧
      t.sec.fuses = s.sec.fuses ∧ t.clk.t = s.clk.t ∧ (t.cmd.resetDev = ((k, n, p) :: rest).map fun r => (r.1, r.2.1, 5)) ∧
      (∀ a, (0x20010000 ≤ a ∧ a < 0x201E0000) → t.byte a = s.byte a)) ∧
  (∀ (s : State),
    s.por = false → wdRuns s = true → wdWarn s ≠ 0 → 128 * wdWarn s < s.get PWR_WDSTAT_REMAIN →
    ∃ t, exec (.watchdogWarning) s = .next t ∧
      t.get PWR_WDSTAT_REMAIN = 128 * wdWarn s % 2 ^ 24 ∧ t.get PWR_WDSTAT_WARNED = 1 ∧ t.dx = { s.dx with nmiWd := true } ∧
      { s with regs := t.regs, dx := t.dx, evHeld := t.evHeld, evCap := t.evCap, evWin := t.evWin, free := t.free } = t ∧
      sameRegs [0] s t) ∧
  (∀ (s : State) (b : Bool),
    s.por = false → s.sec.trans = none → s.cmd.places = List.replicate 4 none → s.nvs.ops = [] → s.nvs.own = [] →
    s.clk.staged = none → s.on NVS_STAT_HOLDRDY = true → s.ms.nvErr = [] → carryPends s 29 = false →
    tallyCells s 29 + 1 < 2 ^ 64 → ∃ t, exec (.tamperEdge b) s = .next t ∧
      t.sec = { s.sec with tampin := b, sess := none, chal := none, claim := none, dbgPrin := 0, dbgProved := false, dbgChal := none } ∧
      t.dx = { s.dx with nmiTamper := true } ∧ t.get SEC_EVT_TAMPER = 1 ∧ t.ms.wipeQ.contains 6 = true ∧
      (t.nvs.ops.map (fun o => (o.kind, o.idx, o.src, o.val)) = [(2, 29, 1, tallyCells s 29 + 1)]) ∧
      (∀ a, (a < 0x201E4000 ∨ 0x20200000 ≤ a) → t.byte a = s.byte a) ∧
      { s with sec := t.sec, dx := t.dx, ms := t.ms, mem := t.mem, nvs := t.nvs, disp := t.disp, regs := t.regs, evHeld := t.evHeld, evCap := t.evCap, evWin := t.evWin, free := t.free } = t ∧
      sameRegs [0, 3, 9, 14] s t) ∧
  (∀ (s : State) (b : Bool),
    s.por = false → ∃ t, exec (.tamperEdge b true) s = .next t ∧
      t.sec = { s.sec with tampin := false } ∧ { s with sec := t.sec } = t)

/-- A data write adds its byte to a transmit FIFO that has room, and sets TXOVF on a full one; a data read answers the oldest
received entry with VALID and takes it, 0 when there is none. SPI_CMD starts a transfer on an enabled idle block, and sets
CMDERR on a busy one; the transfer moves what FIFOs and received bytes allow, and with its last byte clears BUSY, keeps chip
select by CSHOLD and sets DONE. I2C_CMD starts a transaction, or sets CMDERR; it ends with DONE, by its bytes, NACKA or
TIMEOUT. A UART character is received with its error bits and RXBYTE; TXDONE empties the FIFO. That bytes leave the FIFO at
that row, some with its operand, and that a start bit comes by an operand is log entry 15; that one row moves what FIFOs and
bytes allow is log entry 16; received bytes need the group's supply. A rise of an input ball sets its level, and while SYS
runs its EDGE; a fall clears its level; a driven ball does not follow (log entry 14). The edges are said with no channel in
asynchronous mode, whose level may raise an EVO ball. -/
def Obligations.Ports : Prop :=
  (∀ (s : State) (m : Master) (n : Nat) (v : Word),
    s.por = false → s.reaches m (0x40010008 + 0x1000 * n) 1 v.toNat = true → s.ports.length = 4 → (port s n).tx.length < 16 →
    n < 2 → s.on (SPI_CFG_EN n) = true → ∃ t, exec (.spiTransmitData m n v) s = .next t ∧
      t.ports = s.ports.set n { port s n with tx := (port s n).tx ++ [v.setWidth 8] } ∧ t.bus = .ok 0 ∧
      { s with ports := t.ports, regs := t.regs, bus := t.bus } = t ∧ sameRegs [0] s t) ∧
  (∀ (s : State) (m : Master) (v : Word),
    s.por = false → s.reaches m 0x40012008 1 v.toNat = true → s.ports.length = 4 → (port s 2).tx.length < 16 →
    ∃ t, exec (.i2cTransmitData m v) s = .next t ∧
      t.ports = s.ports.set 2 { port s 2 with tx := (port s 2).tx ++ [v.setWidth 8] } ∧ t.bus = .ok 0 ∧
      { s with ports := t.ports, regs := t.regs, bus := t.bus } = t ∧ sameRegs [0] s t) ∧
  (∀ (s : State) (m : Master) (v : Word),
    s.por = false → s.reaches m 0x40013004 1 v.toNat = true → s.ports.length = 4 → (port s 3).tx.length < 16 →
    ∃ t, exec (.uartTransmitData m v) s = .next t ∧
      t.ports = s.ports.set 3 { port s 3 with tx := (port s 3).tx ++ [v.setWidth 8] } ∧ t.bus = .ok 0 ∧
      { s with ports := t.ports, regs := t.regs, bus := t.bus } = t ∧ sameRegs [0] s t) ∧
  (∀ (s : State) (m : Master) (n : Nat) (v : Word),
    s.por = false → n < 2 → s.on (SPI_CFG_EN n) = true → s.reaches m (0x40010008 + 0x1000 * n) 1 v.toNat = true →
    16 ≤ (port s n).tx.length → ∃ t, exec (.spiTransmitData m n v) s = .next t ∧
      t.get (SPI_EVT_TXOVF n) = 1 ∧ { s with regs := t.regs, bus := t.bus } = t ∧ sameRegs [0, 16, 17] s t) ∧
  (∀ (s : State) (m : Master) (v : Word),
    s.por = false → s.reaches m 0x40012008 1 v.toNat = true → 16 ≤ (port s 2).tx.length →
    ∃ t, exec (.i2cTransmitData m v) s = .next t ∧
      t.get I2C_EVT_TXOVF = 1 ∧ { s with regs := t.regs, bus := t.bus } = t ∧ sameRegs [0, 18] s t) ∧
  (∀ (s : State) (m : Master) (n : Nat),
    s.por = false → n < 2 → s.reaches m (0x4001000C + 0x1000 * n) 0 0 = true → (port s n).rx = [] →
    ∃ t, exec (.spiReceiveData m n) s = .next t ∧
      t.bus = .ok 0 ∧ { s with regs := t.regs, bus := t.bus } = t ∧ sameRegs [0] s t) ∧
  (∀ (s : State) (m : Master),
    s.por = false → s.reaches m 0x4001200C 0 0 = true → (port s 2).rx = [] → ∃ t, exec (.i2cReceiveData m) s = .next t ∧
      t.bus = .ok 0 ∧ { s with regs := t.regs, bus := t.bus } = t ∧ sameRegs [0] s t) ∧
  (∀ (s : State) (m : Master) (v : Word),
    s.por = false → s.reaches m 0x40013004 1 v.toNat = true → 16 ≤ (port s 3).tx.length →
    ∃ t, exec (.uartTransmitData m v) s = .next t ∧
      t.get UART_EVT_TXOVF = 1 ∧ { s with regs := t.regs, bus := t.bus } = t ∧ sameRegs [0, 19] s t) ∧
  (∀ (s : State) (m : Master) (n e : Nat) (l : List Nat),
    s.por = false → n < 2 → s.reaches m (0x4001000C + 0x1000 * n) 0 0 = true → s.ports.length = 4 → (port s n).rx = e :: l →
    ∃ t, exec (.spiReceiveData m n) s = .next t ∧
      t.bus = .ok (e % 256 + 256 + e / 256 % 4 * 512) ∧ t.ports = s.ports.set n { port s n with rx := l } ∧
      { s with ports := t.ports, regs := t.regs, bus := t.bus } = t ∧ sameRegs [0] s t) ∧
  (∀ (s : State) (m : Master) (e : Nat) (l : List Nat),
    s.por = false → s.reaches m 0x4001200C 0 0 = true → s.ports.length = 4 → (port s 2).rx = e :: l →
    ∃ t, exec (.i2cReceiveData m) s = .next t ∧
      t.bus = .ok (e % 256 + 256 + e / 256 % 4 * 512) ∧ t.ports = s.ports.set 2 { port s 2 with rx := l } ∧
      { s with ports := t.ports, regs := t.regs, bus := t.bus } = t ∧ sameRegs [0] s t) ∧
  (∀ (s : State) (m : Master) (e : Nat) (l : List Nat),
    s.por = false → s.reaches m 0x40013008 0 0 = true → s.ports.length = 4 → (port s 3).rx = e :: l →
    ∃ t, exec (.uartReceiveData m) s = .next t ∧
      t.bus = .ok (e % 256 + 256 + e / 256 % 4 * 512) ∧ t.ports = s.ports.set 3 { port s 3 with rx := l } ∧
      { s with ports := t.ports, regs := t.regs, bus := t.bus } = t ∧ sameRegs [0] s t) ∧
  (∀ (s : State) (m : Master),
    s.por = false → s.reaches m 0x40013008 0 0 = true → (port s 3).rx = [] → ∃ t, exec (.uartReceiveData m) s = .next t ∧
      t.bus = .ok 0 ∧ { s with regs := t.regs, bus := t.bus } = t ∧ sameRegs [0] s t) ∧
  (∀ (s : State) (m : Master) (n : Nat) (v : Word),
    s.por = false → n < 2 → s.reaches m (0x40010004 + 0x1000 * n) 1 v.toNat = true → s.on (SPI_CFG_EN n) = true →
    s.on (SPI_STAT_BUSY n) = false → s.on (SPI_CFG_QUAD n) = false → v.toNat % 65536 ≠ 0 →
    ∃ t, exec (.spiTransfer m n v) s = .next t ∧
      (t.ports = s.ports.set n { port s n with len := v.toNat % 65536, dir := if v.toNat / 65536 % 4 = 3 then 0 else v.toNat / 65536 % 4 }) ∧
      t.get (SPI_STAT_BUSY n) = 1 ∧ t.get (SPI_STAT_CSLOW n) = 1 ∧
      { s with ports := t.ports, regs := t.regs, bus := t.bus } = t ∧ sameRegs [0, 16, 17] s t) ∧
  (∀ (s : State) (m : Master) (n : Nat) (v : Word),
    s.por = false → n < 2 → s.reaches m (0x40010004 + 0x1000 * n) 1 v.toNat = true → s.on (SPI_CFG_EN n) = true →
    s.on (SPI_STAT_BUSY n) = true → ∃ t, exec (.spiTransfer m n v) s = .next t ∧
      t.get (SPI_EVT_CMDERR n) = 1 ∧ { s with regs := t.regs, bus := t.bus } = t ∧ sameRegs [0, 16, 17] s t) ∧
  (∀ (s : State) (n : Nat) (r : List Byte),
    s.por = false → n < 2 → s.on (SPI_STAT_BUSY n) = true → sysRuns s = true → s.ports.length = 4 → bitOf s.vio 0 = true →
    spiMoves (port s n) r.length = (port s n).len → ∃ t, exec (.spiTransferDone n r) s = .next t ∧
      (port t n).len = 0 ∧ ((port t n).tx = if (port s n).dir = 2 then (port s n).tx else (port s n).tx.drop (port s n).len) ∧
      ((port t n).rx = if (port s n).dir = 1 then (port s n).rx else (port s n).rx ++ (r.take (port s n).len).map fun b => b.toNat) ∧
      t.get (SPI_STAT_BUSY n) = 0 ∧ t.get (SPI_STAT_CSLOW n) = s.get (SPI_CFG_CSHOLD n) % 2 ∧ t.get (SPI_EVT_DONE n) = 1 ∧
      { s with ports := t.ports, regs := t.regs, evHeld := t.evHeld, evCap := t.evCap, evWin := t.evWin, free := t.free } = t ∧
      sameRegs [16, 17] s t) ∧
  (∀ (s : State) (m : Master) (v : Word),
    s.por = false → s.reaches m 0x40012004 1 v.toNat = true → s.on I2C_CFG_EN = true → s.on I2C_STAT_BUSY = false →
    ∃ t, exec (.i2cTransaction m v) s = .next t ∧
      t.ports = s.ports.set 2 { port s 2 with len := bitsOf v.toNat 8 8, dir := bitsOf v.toNat 7 1, nostop := bitOf v.toNat 16, addr := v.toNat % 128 } ∧
      t.get I2C_STAT_BUSY = 1 ∧ t.get I2C_STAT_HELD = 0 ∧ { s with ports := t.ports, regs := t.regs, bus := t.bus } = t ∧
      sameRegs [0, 18] s t) ∧
  (∀ (s : State) (m : Master) (v : Word),
    s.por = false → s.reaches m 0x40012004 1 v.toNat = true → s.on I2C_CFG_EN = true → s.on I2C_STAT_BUSY = true →
    ∃ t, exec (.i2cTransaction m v) s = .next t ∧
      t.get I2C_EVT_CMDERR = 1 ∧ { s with regs := t.regs, bus := t.bus } = t ∧ sameRegs [0, 18] s t) ∧
  (∀ (s : State) (r : List Byte),
    s.por = false → s.on I2C_STAT_BUSY = true → sysRuns s = true → bitOf s.vio 1 = true → s.ports.length = 4 →
    (port s 2).dir = 0 → (port s 2).len ≤ (port s 2).tx.length → ∃ t, exec (.i2cTransactionDone false false r) s = .next t ∧
      t.ports = s.ports.set 2 { port s 2 with tx := (port s 2).tx.drop (port s 2).len, len := 0 } ∧ t.get I2C_STAT_BUSY = 0 ∧
      t.get I2C_STAT_HELD = b2n (port s 2).nostop ∧ t.get I2C_EVT_DONE = 1 ∧
      { s with ports := t.ports, regs := t.regs, evHeld := t.evHeld, evCap := t.evCap, evWin := t.evWin, free := t.free } = t ∧
      sameRegs [18] s t) ∧
  (∀ (s : State) (r : List Byte),
    s.por = false → s.on I2C_STAT_BUSY = true → sysRuns s = true → bitOf s.vio 1 = true → s.ports.length = 4 →
    (port s 2).dir = 1 → (port s 2).len ≤ r.length → (port s 2).rx.length + (port s 2).len ≤ 16 →
    ∃ t, exec (.i2cTransactionDone false false r) s = .next t ∧
      (t.ports = s.ports.set 2 { port s 2 with rx := (port s 2).rx ++ (r.take (port s 2).len).map fun b => b.toNat, len := 0 }) ∧
      t.get I2C_STAT_BUSY = 0 ∧ t.get I2C_EVT_DONE = 1 ∧
      { s with ports := t.ports, regs := t.regs, evHeld := t.evHeld, evCap := t.evCap, evWin := t.evWin, free := t.free } = t ∧
      sameRegs [18] s t) ∧
  (∀ (s : State) (b : Bool) (r : List Byte),
    s.por = false → s.on I2C_STAT_BUSY = true → sysRuns s = true → bitOf s.vio 1 = true →
    ∃ t, exec (.i2cTransactionDone true b r) s = .next t ∧
      t.get I2C_EVT_NACKA = 1 ∧ t.get I2C_EVT_DONE = 1 ∧ t.get I2C_STAT_BUSY = 0 ∧ t.get I2C_STAT_HELD = 0 ∧
      { s with regs := t.regs, evHeld := t.evHeld, evCap := t.evCap, evWin := t.evWin, free := t.free } = t ∧ sameRegs [18] s t) ∧
  (∀ (s : State),
    s.por = false → s.on I2C_STAT_BUSY = true → sysRuns s = true → ∃ t, exec (.i2cTimeout) s = .next t ∧
      t.get I2C_EVT_TIMEOUT = 1 ∧ t.get I2C_EVT_DONE = 1 ∧ t.get I2C_STAT_BUSY = 0 ∧ t.get I2C_STAT_HELD = 0 ∧
      { s with regs := t.regs, evHeld := t.evHeld, evCap := t.evCap, evWin := t.evWin, free := t.free } = t ∧ sameRegs [18] s t) ∧
  (∀ (s : State) (b : Byte) (pe fe par : Bool),
    s.por = false → s.on UART_CFG_RXEN = true → sysRuns s = true → bitOf s.vio 1 = true → s.ports.length = 4 →
    (port s 3).rx.length < 16 → par = (pe && (s.get UART_CFG_PARITY == 1 || s.get UART_CFG_PARITY == 2)) →
    ∃ t, exec (.uartCharacterReceived b pe fe) s = .next t ∧
      t.ports = s.ports.set 3 { port s 3 with dir := 0, rx := (port s 3).rx ++ [b.toNat + 256 * b2n par + 512 * b2n fe] } ∧
      t.get UART_EVT_RXBYTE = 1 ∧ (t.get UART_EVT_PERR = if par then 1 else s.get UART_EVT_PERR) ∧
      (t.get UART_EVT_FERR = if fe then 1 else s.get UART_EVT_FERR) ∧
      { s with ports := t.ports, regs := t.regs, evHeld := t.evHeld, evCap := t.evCap, evWin := t.evWin, free := t.free } = t ∧
      sameRegs [19] s t) ∧
  (∀ (s : State) (b : Byte) (pe fe : Bool),
    s.por = false → s.on UART_CFG_RXEN = true → sysRuns s = true →
    ∃ t, exec (.uartCharacterReceived b pe fe true) s = .next t ∧
      t.ports = s.ports.set 3 { port s 3 with dir := 1 } ∧ { s with ports := t.ports } = t) ∧
  (∀ (s : State) (k : Nat),
    s.por = false → s.on UART_CFG_TXEN = true → sysRuns s = true → 0 < k → k ≤ (port s 3).tx.length →
    ∃ t, exec (.uartTransmitDone (some k)) s = .next t ∧
      t.ports = s.ports.set 3 { port s 3 with tx := (port s 3).tx.drop k, len := 1 } ∧ { s with ports := t.ports } = t) ∧
  (∀ (s : State),
    s.por = false → s.on UART_CFG_TXEN = true → sysRuns s = true → ((port s 3).tx ≠ [] ∨ (port s 3).len ≠ 0) →
    ∃ t, exec (.uartTransmitDone) s = .next t ∧
      t.ports = s.ports.set 3 { port s 3 with tx := [], len := 0 } ∧ t.get UART_EVT_TXDONE = 1 ∧
      { s with ports := t.ports, regs := t.regs } = t ∧ sameRegs [19] s t) ∧
  (∀ (s : State) (n : Nat),
    s.por = false → n < 8 → bitOf s.vio 1 = true → s.get (GPIO_FUNC_FUNC n) = 0 → s.get EVF_ASYNC_ASYNC = 0 →
    ∃ t, exec (.gpioEdge n true) s = .next t ∧
      t.bit GPIO_IN_IN n = false ∧ (∀ k, k < 8 → k ≠ n → t.bit GPIO_IN_IN k = s.bit GPIO_IN_IN k) ∧
      (∀ k, k < 8 → t.bit GPIO_EDGE_EDGE k = s.bit GPIO_EDGE_EDGE k) ∧
      { s with regs := t.regs, evHeld := t.evHeld, evCap := t.evCap, evWin := t.evWin, free := t.free } = t ∧ sameRegs [20] s t) ∧
  (∀ (s : State) (n : Nat),
    s.por = false → n < 8 → bitOf s.vio 1 = true → s.get (GPIO_FUNC_FUNC n) = 1 → ∃ t, exec (.gpioEdge n) s = .next t ∧
      (∀ k, k < 8 → t.bit GPIO_EDGE_EDGE k = s.bit GPIO_EDGE_EDGE k) ∧
      { s with regs := t.regs, evHeld := t.evHeld, evCap := t.evCap, evWin := t.evWin, free := t.free } = t ∧ sameRegs [20] s t) ∧
  (∀ (s : State) (n : Nat),
    s.por = false → n < 8 → bitOf s.vio 1 = true → s.get (GPIO_FUNC_FUNC n) = 0 → s.get EVF_ASYNC_ASYNC = 0 →
    ∃ t, exec (.gpioEdge n) s = .next t ∧
      t.bit GPIO_IN_IN n = true ∧ t.bit GPIO_EDGE_EDGE n = (s.bit GPIO_EDGE_EDGE n || sysClocked s) ∧
      (∀ k, k < 8 → k ≠ n → t.bit GPIO_IN_IN k = s.bit GPIO_IN_IN k ∧ t.bit GPIO_EDGE_EDGE k = s.bit GPIO_EDGE_EDGE k) ∧
      { s with regs := t.regs, evHeld := t.evHeld, evCap := t.evCap, evWin := t.evWin, free := t.free } = t ∧ sameRegs [20] s t)
end

