-- ==== Sys2Proof/Laws/State.lean ====
section
/-! SUPPORT. What each basic update of State leaves alone, field by field, and what a register field reads after a write. -/

namespace Sys2Proof.Machine

open Sys2Proof

/-! ### Fields an update does not touch -/

@[simp] theorem put_pending (s : State) (f : Fld) (v : Nat) : (s.put f v).pending = s.pending := rfl
@[simp] theorem put_free (s : State) (f : Fld) (v : Nat) : (s.put f v).free = s.free := rfl
@[simp] theorem put_mem (s : State) (f : Fld) (v : Nat) : (s.put f v).mem = s.mem := rfl
@[simp] theorem put_bus (s : State) (f : Fld) (v : Nat) : (s.put f v).bus = s.bus := rfl
@[simp] theorem put_por (s : State) (f : Fld) (v : Nat) : (s.put f v).por = s.por := rfl
@[simp] theorem put_resetnLow (s : State) (f : Fld) (v : Nat) : (s.put f v).resetnLow = s.resetnLow := rfl
@[simp] theorem put_boot (s : State) (f : Fld) (v : Nat) : (s.put f v).boot = s.boot := rfl
@[simp] theorem put_pwr (s : State) (f : Fld) (v : Nat) : (s.put f v).pwr = s.pwr := rfl
@[simp] theorem put_led (s : State) (f : Fld) (v : Nat) : (s.put f v).led = s.led := rfl
@[simp] theorem put_chan (s : State) (f : Fld) (v : Nat) : (s.put f v).chan = s.chan := rfl
@[simp] theorem put_dx (s : State) (f : Fld) (v : Nat) : (s.put f v).dx = s.dx := rfl
@[simp] theorem put_ms (s : State) (f : Fld) (v : Nat) : (s.put f v).ms = s.ms := rfl
@[simp] theorem put_mov (s : State) (f : Fld) (v : Nat) : (s.put f v).mov = s.mov := rfl
@[simp] theorem put_movRr (s : State) (f : Fld) (v : Nat) : (s.put f v).movRr = s.movRr := rfl
@[simp] theorem put_lnk (s : State) (f : Fld) (v : Nat) : (s.put f v).lnk = s.lnk := rfl
@[simp] theorem put_cmd (s : State) (f : Fld) (v : Nat) : (s.put f v).cmd = s.cmd := rfl
@[simp] theorem put_evHeld (s : State) (f : Fld) (v : Nat) : (s.put f v).evHeld = s.evHeld := rfl
@[simp] theorem put_evCap (s : State) (f : Fld) (v : Nat) : (s.put f v).evCap = s.evCap := rfl
@[simp] theorem put_evo (s : State) (f : Fld) (v : Nat) : (s.put f v).evo = s.evo := rfl
@[simp] theorem put_evWin (s : State) (f : Fld) (v : Nat) : (s.put f v).evWin = s.evWin := rfl
@[simp] theorem put_nvs (s : State) (f : Fld) (v : Nat) : (s.put f v).nvs = s.nvs := rfl
@[simp] theorem put_clk (s : State) (f : Fld) (v : Nat) : (s.put f v).clk = s.clk := rfl
@[simp] theorem put_disp (s : State) (f : Fld) (v : Nat) : (s.put f v).disp = s.disp := rfl
@[simp] theorem put_tch (s : State) (f : Fld) (v : Nat) : (s.put f v).tch = s.tch := rfl
@[simp] theorem put_sec (s : State) (f : Fld) (v : Nat) : (s.put f v).sec = s.sec := rfl
@[simp] theorem put_jtag (s : State) (f : Fld) (v : Nat) : (s.put f v).jtag = s.jtag := rfl
@[simp] theorem put_ports (s : State) (f : Fld) (v : Nat) : (s.put f v).ports = s.ports := rfl
@[simp] theorem put_vio (s : State) (f : Fld) (v : Nat) : (s.put f v).vio = s.vio := rfl

@[simp] theorem setFlag_pending (s : State) (a b : Nat) : (s.setFlag a b).pending = s.pending := rfl
@[simp] theorem setFlag_free (s : State) (a b : Nat) : (s.setFlag a b).free = s.free := rfl
@[simp] theorem setFlag_mem (s : State) (a b : Nat) : (s.setFlag a b).mem = s.mem := rfl
@[simp] theorem setFlag_bus (s : State) (a b : Nat) : (s.setFlag a b).bus = s.bus := rfl
@[simp] theorem setFlag_por (s : State) (a b : Nat) : (s.setFlag a b).por = s.por := rfl
@[simp] theorem setFlag_resetnLow (s : State) (a b : Nat) : (s.setFlag a b).resetnLow = s.resetnLow := rfl
@[simp] theorem setFlag_boot (s : State) (a b : Nat) : (s.setFlag a b).boot = s.boot := rfl
@[simp] theorem setFlag_pwr (s : State) (a b : Nat) : (s.setFlag a b).pwr = s.pwr := rfl
@[simp] theorem setFlag_led (s : State) (a b : Nat) : (s.setFlag a b).led = s.led := rfl
@[simp] theorem setFlag_chan (s : State) (a b : Nat) : (s.setFlag a b).chan = s.chan := rfl
@[simp] theorem setFlag_dx (s : State) (a b : Nat) : (s.setFlag a b).dx = s.dx := rfl
@[simp] theorem setFlag_ms (s : State) (a b : Nat) : (s.setFlag a b).ms = s.ms := rfl
@[simp] theorem setFlag_mov (s : State) (a b : Nat) : (s.setFlag a b).mov = s.mov := rfl
@[simp] theorem setFlag_movRr (s : State) (a b : Nat) : (s.setFlag a b).movRr = s.movRr := rfl
@[simp] theorem setFlag_lnk (s : State) (a b : Nat) : (s.setFlag a b).lnk = s.lnk := rfl
@[simp] theorem setFlag_cmd (s : State) (a b : Nat) : (s.setFlag a b).cmd = s.cmd := rfl
@[simp] theorem setFlag_evHeld (s : State) (a b : Nat) : (s.setFlag a b).evHeld = s.evHeld := rfl
@[simp] theorem setFlag_evCap (s : State) (a b : Nat) : (s.setFlag a b).evCap = s.evCap := rfl
@[simp] theorem setFlag_evo (s : State) (a b : Nat) : (s.setFlag a b).evo = s.evo := rfl
@[simp] theorem setFlag_evWin (s : State) (a b : Nat) : (s.setFlag a b).evWin = s.evWin := rfl
@[simp] theorem setFlag_nvs (s : State) (a b : Nat) : (s.setFlag a b).nvs = s.nvs := rfl
@[simp] theorem setFlag_clk (s : State) (a b : Nat) : (s.setFlag a b).clk = s.clk := rfl
@[simp] theorem setFlag_disp (s : State) (a b : Nat) : (s.setFlag a b).disp = s.disp := rfl
@[simp] theorem setFlag_tch (s : State) (a b : Nat) : (s.setFlag a b).tch = s.tch := rfl
@[simp] theorem setFlag_sec (s : State) (a b : Nat) : (s.setFlag a b).sec = s.sec := rfl
@[simp] theorem setFlag_jtag (s : State) (a b : Nat) : (s.setFlag a b).jtag = s.jtag := rfl
@[simp] theorem setFlag_ports (s : State) (a b : Nat) : (s.setFlag a b).ports = s.ports := rfl
@[simp] theorem setFlag_vio (s : State) (a b : Nat) : (s.setFlag a b).vio = s.vio := rfl

@[simp] theorem setBit_pending (s : State) (f : Fld) (i : Nat) : (s.setBit f i).pending = s.pending := rfl
@[simp] theorem setBit_free (s : State) (f : Fld) (i : Nat) : (s.setBit f i).free = s.free := rfl
@[simp] theorem setBit_mem (s : State) (f : Fld) (i : Nat) : (s.setBit f i).mem = s.mem := rfl
@[simp] theorem setBit_bus (s : State) (f : Fld) (i : Nat) : (s.setBit f i).bus = s.bus := rfl
@[simp] theorem setBit_por (s : State) (f : Fld) (i : Nat) : (s.setBit f i).por = s.por := rfl
@[simp] theorem setBit_resetnLow (s : State) (f : Fld) (i : Nat) : (s.setBit f i).resetnLow = s.resetnLow := rfl
@[simp] theorem setBit_boot (s : State) (f : Fld) (i : Nat) : (s.setBit f i).boot = s.boot := rfl
@[simp] theorem setBit_pwr (s : State) (f : Fld) (i : Nat) : (s.setBit f i).pwr = s.pwr := rfl
@[simp] theorem setBit_led (s : State) (f : Fld) (i : Nat) : (s.setBit f i).led = s.led := rfl
@[simp] theorem setBit_chan (s : State) (f : Fld) (i : Nat) : (s.setBit f i).chan = s.chan := rfl
@[simp] theorem setBit_dx (s : State) (f : Fld) (i : Nat) : (s.setBit f i).dx = s.dx := rfl
@[simp] theorem setBit_ms (s : State) (f : Fld) (i : Nat) : (s.setBit f i).ms = s.ms := rfl
@[simp] theorem setBit_mov (s : State) (f : Fld) (i : Nat) : (s.setBit f i).mov = s.mov := rfl
@[simp] theorem setBit_movRr (s : State) (f : Fld) (i : Nat) : (s.setBit f i).movRr = s.movRr := rfl
@[simp] theorem setBit_lnk (s : State) (f : Fld) (i : Nat) : (s.setBit f i).lnk = s.lnk := rfl
@[simp] theorem setBit_cmd (s : State) (f : Fld) (i : Nat) : (s.setBit f i).cmd = s.cmd := rfl
@[simp] theorem setBit_evHeld (s : State) (f : Fld) (i : Nat) : (s.setBit f i).evHeld = s.evHeld := rfl
@[simp] theorem setBit_evCap (s : State) (f : Fld) (i : Nat) : (s.setBit f i).evCap = s.evCap := rfl
@[simp] theorem setBit_evo (s : State) (f : Fld) (i : Nat) : (s.setBit f i).evo = s.evo := rfl
@[simp] theorem setBit_evWin (s : State) (f : Fld) (i : Nat) : (s.setBit f i).evWin = s.evWin := rfl
@[simp] theorem setBit_nvs (s : State) (f : Fld) (i : Nat) : (s.setBit f i).nvs = s.nvs := rfl
@[simp] theorem setBit_clk (s : State) (f : Fld) (i : Nat) : (s.setBit f i).clk = s.clk := rfl
@[simp] theorem setBit_disp (s : State) (f : Fld) (i : Nat) : (s.setBit f i).disp = s.disp := rfl
@[simp] theorem setBit_tch (s : State) (f : Fld) (i : Nat) : (s.setBit f i).tch = s.tch := rfl
@[simp] theorem setBit_sec (s : State) (f : Fld) (i : Nat) : (s.setBit f i).sec = s.sec := rfl
@[simp] theorem setBit_jtag (s : State) (f : Fld) (i : Nat) : (s.setBit f i).jtag = s.jtag := rfl
@[simp] theorem setBit_ports (s : State) (f : Fld) (i : Nat) : (s.setBit f i).ports = s.ports := rfl
@[simp] theorem setBit_vio (s : State) (f : Fld) (i : Nat) : (s.setBit f i).vio = s.vio := rfl

@[simp] theorem clrBits_pending (s : State) (f : Fld) (m : Nat) : (s.clrBits f m).pending = s.pending := rfl
@[simp] theorem clrBits_free (s : State) (f : Fld) (m : Nat) : (s.clrBits f m).free = s.free := rfl
@[simp] theorem clrBits_mem (s : State) (f : Fld) (m : Nat) : (s.clrBits f m).mem = s.mem := rfl
@[simp] theorem clrBits_bus (s : State) (f : Fld) (m : Nat) : (s.clrBits f m).bus = s.bus := rfl
@[simp] theorem clrBits_por (s : State) (f : Fld) (m : Nat) : (s.clrBits f m).por = s.por := rfl
@[simp] theorem clrBits_resetnLow (s : State) (f : Fld) (m : Nat) : (s.clrBits f m).resetnLow = s.resetnLow := rfl
@[simp] theorem clrBits_boot (s : State) (f : Fld) (m : Nat) : (s.clrBits f m).boot = s.boot := rfl
@[simp] theorem clrBits_pwr (s : State) (f : Fld) (m : Nat) : (s.clrBits f m).pwr = s.pwr := rfl
@[simp] theorem clrBits_led (s : State) (f : Fld) (m : Nat) : (s.clrBits f m).led = s.led := rfl
@[simp] theorem clrBits_chan (s : State) (f : Fld) (m : Nat) : (s.clrBits f m).chan = s.chan := rfl
@[simp] theorem clrBits_dx (s : State) (f : Fld) (m : Nat) : (s.clrBits f m).dx = s.dx := rfl
@[simp] theorem clrBits_ms (s : State) (f : Fld) (m : Nat) : (s.clrBits f m).ms = s.ms := rfl
@[simp] theorem clrBits_mov (s : State) (f : Fld) (m : Nat) : (s.clrBits f m).mov = s.mov := rfl
@[simp] theorem clrBits_movRr (s : State) (f : Fld) (m : Nat) : (s.clrBits f m).movRr = s.movRr := rfl
@[simp] theorem clrBits_lnk (s : State) (f : Fld) (m : Nat) : (s.clrBits f m).lnk = s.lnk := rfl
@[simp] theorem clrBits_cmd (s : State) (f : Fld) (m : Nat) : (s.clrBits f m).cmd = s.cmd := rfl
@[simp] theorem clrBits_evHeld (s : State) (f : Fld) (m : Nat) : (s.clrBits f m).evHeld = s.evHeld := rfl
@[simp] theorem clrBits_evCap (s : State) (f : Fld) (m : Nat) : (s.clrBits f m).evCap = s.evCap := rfl
@[simp] theorem clrBits_evo (s : State) (f : Fld) (m : Nat) : (s.clrBits f m).evo = s.evo := rfl
@[simp] theorem clrBits_evWin (s : State) (f : Fld) (m : Nat) : (s.clrBits f m).evWin = s.evWin := rfl
@[simp] theorem clrBits_nvs (s : State) (f : Fld) (m : Nat) : (s.clrBits f m).nvs = s.nvs := rfl
@[simp] theorem clrBits_clk (s : State) (f : Fld) (m : Nat) : (s.clrBits f m).clk = s.clk := rfl
@[simp] theorem clrBits_disp (s : State) (f : Fld) (m : Nat) : (s.clrBits f m).disp = s.disp := rfl
@[simp] theorem clrBits_tch (s : State) (f : Fld) (m : Nat) : (s.clrBits f m).tch = s.tch := rfl
@[simp] theorem clrBits_sec (s : State) (f : Fld) (m : Nat) : (s.clrBits f m).sec = s.sec := rfl
@[simp] theorem clrBits_jtag (s : State) (f : Fld) (m : Nat) : (s.clrBits f m).jtag = s.jtag := rfl
@[simp] theorem clrBits_ports (s : State) (f : Fld) (m : Nat) : (s.clrBits f m).ports = s.ports := rfl
@[simp] theorem clrBits_vio (s : State) (f : Fld) (m : Nat) : (s.clrBits f m).vio = s.vio := rfl

@[simp] theorem bump_pending (s : State) (f : Fld) (n : Nat) : (s.bump f n).pending = s.pending := rfl
@[simp] theorem bump_free (s : State) (f : Fld) (n : Nat) : (s.bump f n).free = s.free := rfl
@[simp] theorem bump_mem (s : State) (f : Fld) (n : Nat) : (s.bump f n).mem = s.mem := rfl
@[simp] theorem bump_bus (s : State) (f : Fld) (n : Nat) : (s.bump f n).bus = s.bus := rfl
@[simp] theorem bump_por (s : State) (f : Fld) (n : Nat) : (s.bump f n).por = s.por := rfl
@[simp] theorem bump_resetnLow (s : State) (f : Fld) (n : Nat) : (s.bump f n).resetnLow = s.resetnLow := rfl
@[simp] theorem bump_boot (s : State) (f : Fld) (n : Nat) : (s.bump f n).boot = s.boot := rfl
@[simp] theorem bump_pwr (s : State) (f : Fld) (n : Nat) : (s.bump f n).pwr = s.pwr := rfl
@[simp] theorem bump_led (s : State) (f : Fld) (n : Nat) : (s.bump f n).led = s.led := rfl
@[simp] theorem bump_chan (s : State) (f : Fld) (n : Nat) : (s.bump f n).chan = s.chan := rfl
@[simp] theorem bump_dx (s : State) (f : Fld) (n : Nat) : (s.bump f n).dx = s.dx := rfl
@[simp] theorem bump_ms (s : State) (f : Fld) (n : Nat) : (s.bump f n).ms = s.ms := rfl
@[simp] theorem bump_mov (s : State) (f : Fld) (n : Nat) : (s.bump f n).mov = s.mov := rfl
@[simp] theorem bump_movRr (s : State) (f : Fld) (n : Nat) : (s.bump f n).movRr = s.movRr := rfl
@[simp] theorem bump_lnk (s : State) (f : Fld) (n : Nat) : (s.bump f n).lnk = s.lnk := rfl
@[simp] theorem bump_cmd (s : State) (f : Fld) (n : Nat) : (s.bump f n).cmd = s.cmd := rfl
@[simp] theorem bump_evHeld (s : State) (f : Fld) (n : Nat) : (s.bump f n).evHeld = s.evHeld := rfl
@[simp] theorem bump_evCap (s : State) (f : Fld) (n : Nat) : (s.bump f n).evCap = s.evCap := rfl
@[simp] theorem bump_evo (s : State) (f : Fld) (n : Nat) : (s.bump f n).evo = s.evo := rfl
@[simp] theorem bump_evWin (s : State) (f : Fld) (n : Nat) : (s.bump f n).evWin = s.evWin := rfl
@[simp] theorem bump_nvs (s : State) (f : Fld) (n : Nat) : (s.bump f n).nvs = s.nvs := rfl
@[simp] theorem bump_clk (s : State) (f : Fld) (n : Nat) : (s.bump f n).clk = s.clk := rfl
@[simp] theorem bump_disp (s : State) (f : Fld) (n : Nat) : (s.bump f n).disp = s.disp := rfl
@[simp] theorem bump_tch (s : State) (f : Fld) (n : Nat) : (s.bump f n).tch = s.tch := rfl
@[simp] theorem bump_sec (s : State) (f : Fld) (n : Nat) : (s.bump f n).sec = s.sec := rfl
@[simp] theorem bump_jtag (s : State) (f : Fld) (n : Nat) : (s.bump f n).jtag = s.jtag := rfl
@[simp] theorem bump_ports (s : State) (f : Fld) (n : Nat) : (s.bump f n).ports = s.ports := rfl
@[simp] theorem bump_vio (s : State) (f : Fld) (n : Nat) : (s.bump f n).vio = s.vio := rfl

@[simp] theorem resetPage_pending (s : State) (b : Nat) (l : List Nat) : (s.resetPage b l).pending = s.pending := rfl
@[simp] theorem resetPage_free (s : State) (b : Nat) (l : List Nat) : (s.resetPage b l).free = s.free := rfl
@[simp] theorem resetPage_mem (s : State) (b : Nat) (l : List Nat) : (s.resetPage b l).mem = s.mem := rfl
@[simp] theorem resetPage_bus (s : State) (b : Nat) (l : List Nat) : (s.resetPage b l).bus = s.bus := rfl
@[simp] theorem resetPage_por (s : State) (b : Nat) (l : List Nat) : (s.resetPage b l).por = s.por := rfl
@[simp] theorem resetPage_resetnLow (s : State) (b : Nat) (l : List Nat) : (s.resetPage b l).resetnLow = s.resetnLow := rfl
@[simp] theorem resetPage_boot (s : State) (b : Nat) (l : List Nat) : (s.resetPage b l).boot = s.boot := rfl
@[simp] theorem resetPage_pwr (s : State) (b : Nat) (l : List Nat) : (s.resetPage b l).pwr = s.pwr := rfl
@[simp] theorem resetPage_led (s : State) (b : Nat) (l : List Nat) : (s.resetPage b l).led = s.led := rfl
@[simp] theorem resetPage_chan (s : State) (b : Nat) (l : List Nat) : (s.resetPage b l).chan = s.chan := rfl
@[simp] theorem resetPage_dx (s : State) (b : Nat) (l : List Nat) : (s.resetPage b l).dx = s.dx := rfl
@[simp] theorem resetPage_ms (s : State) (b : Nat) (l : List Nat) : (s.resetPage b l).ms = s.ms := rfl
@[simp] theorem resetPage_mov (s : State) (b : Nat) (l : List Nat) : (s.resetPage b l).mov = s.mov := rfl
@[simp] theorem resetPage_movRr (s : State) (b : Nat) (l : List Nat) : (s.resetPage b l).movRr = s.movRr := rfl
@[simp] theorem resetPage_lnk (s : State) (b : Nat) (l : List Nat) : (s.resetPage b l).lnk = s.lnk := rfl
@[simp] theorem resetPage_cmd (s : State) (b : Nat) (l : List Nat) : (s.resetPage b l).cmd = s.cmd := rfl
@[simp] theorem resetPage_evHeld (s : State) (b : Nat) (l : List Nat) : (s.resetPage b l).evHeld = s.evHeld := rfl
@[simp] theorem resetPage_evCap (s : State) (b : Nat) (l : List Nat) : (s.resetPage b l).evCap = s.evCap := rfl
@[simp] theorem resetPage_evo (s : State) (b : Nat) (l : List Nat) : (s.resetPage b l).evo = s.evo := rfl
@[simp] theorem resetPage_evWin (s : State) (b : Nat) (l : List Nat) : (s.resetPage b l).evWin = s.evWin := rfl
@[simp] theorem resetPage_nvs (s : State) (b : Nat) (l : List Nat) : (s.resetPage b l).nvs = s.nvs := rfl
@[simp] theorem resetPage_clk (s : State) (b : Nat) (l : List Nat) : (s.resetPage b l).clk = s.clk := rfl
@[simp] theorem resetPage_disp (s : State) (b : Nat) (l : List Nat) : (s.resetPage b l).disp = s.disp := rfl
@[simp] theorem resetPage_tch (s : State) (b : Nat) (l : List Nat) : (s.resetPage b l).tch = s.tch := rfl
@[simp] theorem resetPage_sec (s : State) (b : Nat) (l : List Nat) : (s.resetPage b l).sec = s.sec := rfl
@[simp] theorem resetPage_jtag (s : State) (b : Nat) (l : List Nat) : (s.resetPage b l).jtag = s.jtag := rfl
@[simp] theorem resetPage_ports (s : State) (b : Nat) (l : List Nat) : (s.resetPage b l).ports = s.ports := rfl
@[simp] theorem resetPage_vio (s : State) (b : Nat) (l : List Nat) : (s.resetPage b l).vio = s.vio := rfl

@[simp] theorem putByte_pending (s : State) (a : Nat) (b : Byte) : (s.putByte a b).pending = s.pending := rfl
@[simp] theorem putByte_free (s : State) (a : Nat) (b : Byte) : (s.putByte a b).free = s.free := rfl
@[simp] theorem putByte_regs (s : State) (a : Nat) (b : Byte) : (s.putByte a b).regs = s.regs := rfl
@[simp] theorem putByte_bus (s : State) (a : Nat) (b : Byte) : (s.putByte a b).bus = s.bus := rfl
@[simp] theorem putByte_por (s : State) (a : Nat) (b : Byte) : (s.putByte a b).por = s.por := rfl
@[simp] theorem putByte_resetnLow (s : State) (a : Nat) (b : Byte) : (s.putByte a b).resetnLow = s.resetnLow := rfl
@[simp] theorem putByte_boot (s : State) (a : Nat) (b : Byte) : (s.putByte a b).boot = s.boot := rfl
@[simp] theorem putByte_pwr (s : State) (a : Nat) (b : Byte) : (s.putByte a b).pwr = s.pwr := rfl
@[simp] theorem putByte_led (s : State) (a : Nat) (b : Byte) : (s.putByte a b).led = s.led := rfl
@[simp] theorem putByte_chan (s : State) (a : Nat) (b : Byte) : (s.putByte a b).chan = s.chan := rfl
@[simp] theorem putByte_dx (s : State) (a : Nat) (b : Byte) : (s.putByte a b).dx = s.dx := rfl
@[simp] theorem putByte_ms (s : State) (a : Nat) (b : Byte) : (s.putByte a b).ms = s.ms := rfl
@[simp] theorem putByte_mov (s : State) (a : Nat) (b : Byte) : (s.putByte a b).mov = s.mov := rfl
@[simp] theorem putByte_movRr (s : State) (a : Nat) (b : Byte) : (s.putByte a b).movRr = s.movRr := rfl
@[simp] theorem putByte_lnk (s : State) (a : Nat) (b : Byte) : (s.putByte a b).lnk = s.lnk := rfl
@[simp] theorem putByte_cmd (s : State) (a : Nat) (b : Byte) : (s.putByte a b).cmd = s.cmd := rfl
@[simp] theorem putByte_evHeld (s : State) (a : Nat) (b : Byte) : (s.putByte a b).evHeld = s.evHeld := rfl
@[simp] theorem putByte_evCap (s : State) (a : Nat) (b : Byte) : (s.putByte a b).evCap = s.evCap := rfl
@[simp] theorem putByte_evo (s : State) (a : Nat) (b : Byte) : (s.putByte a b).evo = s.evo := rfl
@[simp] theorem putByte_evWin (s : State) (a : Nat) (b : Byte) : (s.putByte a b).evWin = s.evWin := rfl
@[simp] theorem putByte_nvs (s : State) (a : Nat) (b : Byte) : (s.putByte a b).nvs = s.nvs := rfl
@[simp] theorem putByte_clk (s : State) (a : Nat) (b : Byte) : (s.putByte a b).clk = s.clk := rfl
@[simp] theorem putByte_disp (s : State) (a : Nat) (b : Byte) : (s.putByte a b).disp = s.disp := rfl
@[simp] theorem putByte_tch (s : State) (a : Nat) (b : Byte) : (s.putByte a b).tch = s.tch := rfl
@[simp] theorem putByte_sec (s : State) (a : Nat) (b : Byte) : (s.putByte a b).sec = s.sec := rfl
@[simp] theorem putByte_jtag (s : State) (a : Nat) (b : Byte) : (s.putByte a b).jtag = s.jtag := rfl
@[simp] theorem putByte_ports (s : State) (a : Nat) (b : Byte) : (s.putByte a b).ports = s.ports := rfl
@[simp] theorem putByte_vio (s : State) (a : Nat) (b : Byte) : (s.putByte a b).vio = s.vio := rfl

@[simp] theorem wipe_pending (s : State) (a n : Nat) : (s.wipe a n).pending = s.pending := rfl
@[simp] theorem wipe_free (s : State) (a n : Nat) : (s.wipe a n).free = s.free := rfl
@[simp] theorem wipe_regs (s : State) (a n : Nat) : (s.wipe a n).regs = s.regs := rfl
@[simp] theorem wipe_bus (s : State) (a n : Nat) : (s.wipe a n).bus = s.bus := rfl
@[simp] theorem wipe_por (s : State) (a n : Nat) : (s.wipe a n).por = s.por := rfl
@[simp] theorem wipe_resetnLow (s : State) (a n : Nat) : (s.wipe a n).resetnLow = s.resetnLow := rfl
@[simp] theorem wipe_boot (s : State) (a n : Nat) : (s.wipe a n).boot = s.boot := rfl
@[simp] theorem wipe_pwr (s : State) (a n : Nat) : (s.wipe a n).pwr = s.pwr := rfl
@[simp] theorem wipe_led (s : State) (a n : Nat) : (s.wipe a n).led = s.led := rfl
@[simp] theorem wipe_chan (s : State) (a n : Nat) : (s.wipe a n).chan = s.chan := rfl
@[simp] theorem wipe_dx (s : State) (a n : Nat) : (s.wipe a n).dx = s.dx := rfl
@[simp] theorem wipe_ms (s : State) (a n : Nat) : (s.wipe a n).ms = s.ms := rfl
@[simp] theorem wipe_mov (s : State) (a n : Nat) : (s.wipe a n).mov = s.mov := rfl
@[simp] theorem wipe_movRr (s : State) (a n : Nat) : (s.wipe a n).movRr = s.movRr := rfl
@[simp] theorem wipe_lnk (s : State) (a n : Nat) : (s.wipe a n).lnk = s.lnk := rfl
@[simp] theorem wipe_cmd (s : State) (a n : Nat) : (s.wipe a n).cmd = s.cmd := rfl
@[simp] theorem wipe_evHeld (s : State) (a n : Nat) : (s.wipe a n).evHeld = s.evHeld := rfl
@[simp] theorem wipe_evCap (s : State) (a n : Nat) : (s.wipe a n).evCap = s.evCap := rfl
@[simp] theorem wipe_evo (s : State) (a n : Nat) : (s.wipe a n).evo = s.evo := rfl
@[simp] theorem wipe_evWin (s : State) (a n : Nat) : (s.wipe a n).evWin = s.evWin := rfl
@[simp] theorem wipe_nvs (s : State) (a n : Nat) : (s.wipe a n).nvs = s.nvs := rfl
@[simp] theorem wipe_clk (s : State) (a n : Nat) : (s.wipe a n).clk = s.clk := rfl
@[simp] theorem wipe_disp (s : State) (a n : Nat) : (s.wipe a n).disp = s.disp := rfl
@[simp] theorem wipe_tch (s : State) (a n : Nat) : (s.wipe a n).tch = s.tch := rfl
@[simp] theorem wipe_sec (s : State) (a n : Nat) : (s.wipe a n).sec = s.sec := rfl
@[simp] theorem wipe_jtag (s : State) (a n : Nat) : (s.wipe a n).jtag = s.jtag := rfl
@[simp] theorem wipe_ports (s : State) (a n : Nat) : (s.wipe a n).ports = s.ports := rfl
@[simp] theorem wipe_vio (s : State) (a n : Nat) : (s.wipe a n).vio = s.vio := rfl

@[simp] theorem fill_pending (s : State) (a : Nat) (l : List Byte) : (s.fill a l).pending = s.pending := rfl
@[simp] theorem fill_free (s : State) (a : Nat) (l : List Byte) : (s.fill a l).free = s.free := rfl
@[simp] theorem fill_regs (s : State) (a : Nat) (l : List Byte) : (s.fill a l).regs = s.regs := rfl
@[simp] theorem fill_bus (s : State) (a : Nat) (l : List Byte) : (s.fill a l).bus = s.bus := rfl
@[simp] theorem fill_por (s : State) (a : Nat) (l : List Byte) : (s.fill a l).por = s.por := rfl
@[simp] theorem fill_resetnLow (s : State) (a : Nat) (l : List Byte) : (s.fill a l).resetnLow = s.resetnLow := rfl
@[simp] theorem fill_boot (s : State) (a : Nat) (l : List Byte) : (s.fill a l).boot = s.boot := rfl
@[simp] theorem fill_pwr (s : State) (a : Nat) (l : List Byte) : (s.fill a l).pwr = s.pwr := rfl
@[simp] theorem fill_led (s : State) (a : Nat) (l : List Byte) : (s.fill a l).led = s.led := rfl
@[simp] theorem fill_chan (s : State) (a : Nat) (l : List Byte) : (s.fill a l).chan = s.chan := rfl
@[simp] theorem fill_dx (s : State) (a : Nat) (l : List Byte) : (s.fill a l).dx = s.dx := rfl
@[simp] theorem fill_ms (s : State) (a : Nat) (l : List Byte) : (s.fill a l).ms = s.ms := rfl
@[simp] theorem fill_mov (s : State) (a : Nat) (l : List Byte) : (s.fill a l).mov = s.mov := rfl
@[simp] theorem fill_movRr (s : State) (a : Nat) (l : List Byte) : (s.fill a l).movRr = s.movRr := rfl
@[simp] theorem fill_lnk (s : State) (a : Nat) (l : List Byte) : (s.fill a l).lnk = s.lnk := rfl
@[simp] theorem fill_cmd (s : State) (a : Nat) (l : List Byte) : (s.fill a l).cmd = s.cmd := rfl
@[simp] theorem fill_evHeld (s : State) (a : Nat) (l : List Byte) : (s.fill a l).evHeld = s.evHeld := rfl
@[simp] theorem fill_evCap (s : State) (a : Nat) (l : List Byte) : (s.fill a l).evCap = s.evCap := rfl
@[simp] theorem fill_evo (s : State) (a : Nat) (l : List Byte) : (s.fill a l).evo = s.evo := rfl
@[simp] theorem fill_evWin (s : State) (a : Nat) (l : List Byte) : (s.fill a l).evWin = s.evWin := rfl
@[simp] theorem fill_nvs (s : State) (a : Nat) (l : List Byte) : (s.fill a l).nvs = s.nvs := rfl
@[simp] theorem fill_clk (s : State) (a : Nat) (l : List Byte) : (s.fill a l).clk = s.clk := rfl
@[simp] theorem fill_disp (s : State) (a : Nat) (l : List Byte) : (s.fill a l).disp = s.disp := rfl
@[simp] theorem fill_tch (s : State) (a : Nat) (l : List Byte) : (s.fill a l).tch = s.tch := rfl
@[simp] theorem fill_sec (s : State) (a : Nat) (l : List Byte) : (s.fill a l).sec = s.sec := rfl
@[simp] theorem fill_jtag (s : State) (a : Nat) (l : List Byte) : (s.fill a l).jtag = s.jtag := rfl
@[simp] theorem fill_ports (s : State) (a : Nat) (l : List Byte) : (s.fill a l).ports = s.ports := rfl
@[simp] theorem fill_vio (s : State) (a : Nat) (l : List Byte) : (s.fill a l).vio = s.vio := rfl

@[simp] theorem xk_pending (s : State) (f : Dx → Dx) : (xk s f).pending = s.pending := rfl
@[simp] theorem xk_free (s : State) (f : Dx → Dx) : (xk s f).free = s.free := rfl
@[simp] theorem xk_regs (s : State) (f : Dx → Dx) : (xk s f).regs = s.regs := rfl
@[simp] theorem xk_mem (s : State) (f : Dx → Dx) : (xk s f).mem = s.mem := rfl
@[simp] theorem xk_bus (s : State) (f : Dx → Dx) : (xk s f).bus = s.bus := rfl
@[simp] theorem xk_por (s : State) (f : Dx → Dx) : (xk s f).por = s.por := rfl
@[simp] theorem xk_resetnLow (s : State) (f : Dx → Dx) : (xk s f).resetnLow = s.resetnLow := rfl
@[simp] theorem xk_boot (s : State) (f : Dx → Dx) : (xk s f).boot = s.boot := rfl
@[simp] theorem xk_pwr (s : State) (f : Dx → Dx) : (xk s f).pwr = s.pwr := rfl
@[simp] theorem xk_led (s : State) (f : Dx → Dx) : (xk s f).led = s.led := rfl
@[simp] theorem xk_chan (s : State) (f : Dx → Dx) : (xk s f).chan = s.chan := rfl
@[simp] theorem xk_ms (s : State) (f : Dx → Dx) : (xk s f).ms = s.ms := rfl
@[simp] theorem xk_mov (s : State) (f : Dx → Dx) : (xk s f).mov = s.mov := rfl
@[simp] theorem xk_movRr (s : State) (f : Dx → Dx) : (xk s f).movRr = s.movRr := rfl
@[simp] theorem xk_lnk (s : State) (f : Dx → Dx) : (xk s f).lnk = s.lnk := rfl
@[simp] theorem xk_cmd (s : State) (f : Dx → Dx) : (xk s f).cmd = s.cmd := rfl
@[simp] theorem xk_evHeld (s : State) (f : Dx → Dx) : (xk s f).evHeld = s.evHeld := rfl
@[simp] theorem xk_evCap (s : State) (f : Dx → Dx) : (xk s f).evCap = s.evCap := rfl
@[simp] theorem xk_evo (s : State) (f : Dx → Dx) : (xk s f).evo = s.evo := rfl
@[simp] theorem xk_evWin (s : State) (f : Dx → Dx) : (xk s f).evWin = s.evWin := rfl
@[simp] theorem xk_nvs (s : State) (f : Dx → Dx) : (xk s f).nvs = s.nvs := rfl
@[simp] theorem xk_clk (s : State) (f : Dx → Dx) : (xk s f).clk = s.clk := rfl
@[simp] theorem xk_disp (s : State) (f : Dx → Dx) : (xk s f).disp = s.disp := rfl
@[simp] theorem xk_tch (s : State) (f : Dx → Dx) : (xk s f).tch = s.tch := rfl
@[simp] theorem xk_sec (s : State) (f : Dx → Dx) : (xk s f).sec = s.sec := rfl
@[simp] theorem xk_jtag (s : State) (f : Dx → Dx) : (xk s f).jtag = s.jtag := rfl
@[simp] theorem xk_ports (s : State) (f : Dx → Dx) : (xk s f).ports = s.ports := rfl
@[simp] theorem xk_vio (s : State) (f : Dx → Dx) : (xk s f).vio = s.vio := rfl

@[simp] theorem pk_pending (s : State) (f : Pwr → Pwr) : (pk s f).pending = s.pending := rfl
@[simp] theorem pk_free (s : State) (f : Pwr → Pwr) : (pk s f).free = s.free := rfl
@[simp] theorem pk_regs (s : State) (f : Pwr → Pwr) : (pk s f).regs = s.regs := rfl
@[simp] theorem pk_mem (s : State) (f : Pwr → Pwr) : (pk s f).mem = s.mem := rfl
@[simp] theorem pk_bus (s : State) (f : Pwr → Pwr) : (pk s f).bus = s.bus := rfl
@[simp] theorem pk_por (s : State) (f : Pwr → Pwr) : (pk s f).por = s.por := rfl
@[simp] theorem pk_resetnLow (s : State) (f : Pwr → Pwr) : (pk s f).resetnLow = s.resetnLow := rfl
@[simp] theorem pk_boot (s : State) (f : Pwr → Pwr) : (pk s f).boot = s.boot := rfl
@[simp] theorem pk_led (s : State) (f : Pwr → Pwr) : (pk s f).led = s.led := rfl
@[simp] theorem pk_chan (s : State) (f : Pwr → Pwr) : (pk s f).chan = s.chan := rfl
@[simp] theorem pk_dx (s : State) (f : Pwr → Pwr) : (pk s f).dx = s.dx := rfl
@[simp] theorem pk_ms (s : State) (f : Pwr → Pwr) : (pk s f).ms = s.ms := rfl
@[simp] theorem pk_mov (s : State) (f : Pwr → Pwr) : (pk s f).mov = s.mov := rfl
@[simp] theorem pk_movRr (s : State) (f : Pwr → Pwr) : (pk s f).movRr = s.movRr := rfl
@[simp] theorem pk_lnk (s : State) (f : Pwr → Pwr) : (pk s f).lnk = s.lnk := rfl
@[simp] theorem pk_cmd (s : State) (f : Pwr → Pwr) : (pk s f).cmd = s.cmd := rfl
@[simp] theorem pk_evHeld (s : State) (f : Pwr → Pwr) : (pk s f).evHeld = s.evHeld := rfl
@[simp] theorem pk_evCap (s : State) (f : Pwr → Pwr) : (pk s f).evCap = s.evCap := rfl
@[simp] theorem pk_evo (s : State) (f : Pwr → Pwr) : (pk s f).evo = s.evo := rfl
@[simp] theorem pk_evWin (s : State) (f : Pwr → Pwr) : (pk s f).evWin = s.evWin := rfl
@[simp] theorem pk_nvs (s : State) (f : Pwr → Pwr) : (pk s f).nvs = s.nvs := rfl
@[simp] theorem pk_clk (s : State) (f : Pwr → Pwr) : (pk s f).clk = s.clk := rfl
@[simp] theorem pk_disp (s : State) (f : Pwr → Pwr) : (pk s f).disp = s.disp := rfl
@[simp] theorem pk_tch (s : State) (f : Pwr → Pwr) : (pk s f).tch = s.tch := rfl
@[simp] theorem pk_sec (s : State) (f : Pwr → Pwr) : (pk s f).sec = s.sec := rfl
@[simp] theorem pk_jtag (s : State) (f : Pwr → Pwr) : (pk s f).jtag = s.jtag := rfl
@[simp] theorem pk_ports (s : State) (f : Pwr → Pwr) : (pk s f).ports = s.ports := rfl
@[simp] theorem pk_vio (s : State) (f : Pwr → Pwr) : (pk s f).vio = s.vio := rfl

@[simp] theorem lk_pending (s : State) (f : Link → Link) : (lk s f).pending = s.pending := rfl
@[simp] theorem lk_free (s : State) (f : Link → Link) : (lk s f).free = s.free := rfl
@[simp] theorem lk_regs (s : State) (f : Link → Link) : (lk s f).regs = s.regs := rfl
@[simp] theorem lk_mem (s : State) (f : Link → Link) : (lk s f).mem = s.mem := rfl
@[simp] theorem lk_bus (s : State) (f : Link → Link) : (lk s f).bus = s.bus := rfl
@[simp] theorem lk_por (s : State) (f : Link → Link) : (lk s f).por = s.por := rfl
@[simp] theorem lk_resetnLow (s : State) (f : Link → Link) : (lk s f).resetnLow = s.resetnLow := rfl
@[simp] theorem lk_boot (s : State) (f : Link → Link) : (lk s f).boot = s.boot := rfl
@[simp] theorem lk_pwr (s : State) (f : Link → Link) : (lk s f).pwr = s.pwr := rfl
@[simp] theorem lk_led (s : State) (f : Link → Link) : (lk s f).led = s.led := rfl
@[simp] theorem lk_chan (s : State) (f : Link → Link) : (lk s f).chan = s.chan := rfl
@[simp] theorem lk_dx (s : State) (f : Link → Link) : (lk s f).dx = s.dx := rfl
@[simp] theorem lk_ms (s : State) (f : Link → Link) : (lk s f).ms = s.ms := rfl
@[simp] theorem lk_mov (s : State) (f : Link → Link) : (lk s f).mov = s.mov := rfl
@[simp] theorem lk_movRr (s : State) (f : Link → Link) : (lk s f).movRr = s.movRr := rfl
@[simp] theorem lk_cmd (s : State) (f : Link → Link) : (lk s f).cmd = s.cmd := rfl
@[simp] theorem lk_evHeld (s : State) (f : Link → Link) : (lk s f).evHeld = s.evHeld := rfl
@[simp] theorem lk_evCap (s : State) (f : Link → Link) : (lk s f).evCap = s.evCap := rfl
@[simp] theorem lk_evo (s : State) (f : Link → Link) : (lk s f).evo = s.evo := rfl
@[simp] theorem lk_evWin (s : State) (f : Link → Link) : (lk s f).evWin = s.evWin := rfl
@[simp] theorem lk_nvs (s : State) (f : Link → Link) : (lk s f).nvs = s.nvs := rfl
@[simp] theorem lk_clk (s : State) (f : Link → Link) : (lk s f).clk = s.clk := rfl
@[simp] theorem lk_disp (s : State) (f : Link → Link) : (lk s f).disp = s.disp := rfl
@[simp] theorem lk_tch (s : State) (f : Link → Link) : (lk s f).tch = s.tch := rfl
@[simp] theorem lk_sec (s : State) (f : Link → Link) : (lk s f).sec = s.sec := rfl
@[simp] theorem lk_jtag (s : State) (f : Link → Link) : (lk s f).jtag = s.jtag := rfl
@[simp] theorem lk_ports (s : State) (f : Link → Link) : (lk s f).ports = s.ports := rfl
@[simp] theorem lk_vio (s : State) (f : Link → Link) : (lk s f).vio = s.vio := rfl

@[simp] theorem ck_pending (s : State) (f : Cmds → Cmds) : (ck s f).pending = s.pending := rfl
@[simp] theorem ck_free (s : State) (f : Cmds → Cmds) : (ck s f).free = s.free := rfl
@[simp] theorem ck_regs (s : State) (f : Cmds → Cmds) : (ck s f).regs = s.regs := rfl
@[simp] theorem ck_mem (s : State) (f : Cmds → Cmds) : (ck s f).mem = s.mem := rfl
@[simp] theorem ck_bus (s : State) (f : Cmds → Cmds) : (ck s f).bus = s.bus := rfl
@[simp] theorem ck_por (s : State) (f : Cmds → Cmds) : (ck s f).por = s.por := rfl
@[simp] theorem ck_resetnLow (s : State) (f : Cmds → Cmds) : (ck s f).resetnLow = s.resetnLow := rfl
@[simp] theorem ck_boot (s : State) (f : Cmds → Cmds) : (ck s f).boot = s.boot := rfl
@[simp] theorem ck_pwr (s : State) (f : Cmds → Cmds) : (ck s f).pwr = s.pwr := rfl
@[simp] theorem ck_led (s : State) (f : Cmds → Cmds) : (ck s f).led = s.led := rfl
@[simp] theorem ck_chan (s : State) (f : Cmds → Cmds) : (ck s f).chan = s.chan := rfl
@[simp] theorem ck_dx (s : State) (f : Cmds → Cmds) : (ck s f).dx = s.dx := rfl
@[simp] theorem ck_ms (s : State) (f : Cmds → Cmds) : (ck s f).ms = s.ms := rfl
@[simp] theorem ck_mov (s : State) (f : Cmds → Cmds) : (ck s f).mov = s.mov := rfl
@[simp] theorem ck_movRr (s : State) (f : Cmds → Cmds) : (ck s f).movRr = s.movRr := rfl
@[simp] theorem ck_lnk (s : State) (f : Cmds → Cmds) : (ck s f).lnk = s.lnk := rfl
@[simp] theorem ck_evHeld (s : State) (f : Cmds → Cmds) : (ck s f).evHeld = s.evHeld := rfl
@[simp] theorem ck_evCap (s : State) (f : Cmds → Cmds) : (ck s f).evCap = s.evCap := rfl
@[simp] theorem ck_evo (s : State) (f : Cmds → Cmds) : (ck s f).evo = s.evo := rfl
@[simp] theorem ck_evWin (s : State) (f : Cmds → Cmds) : (ck s f).evWin = s.evWin := rfl
@[simp] theorem ck_nvs (s : State) (f : Cmds → Cmds) : (ck s f).nvs = s.nvs := rfl
@[simp] theorem ck_clk (s : State) (f : Cmds → Cmds) : (ck s f).clk = s.clk := rfl
@[simp] theorem ck_disp (s : State) (f : Cmds → Cmds) : (ck s f).disp = s.disp := rfl
@[simp] theorem ck_tch (s : State) (f : Cmds → Cmds) : (ck s f).tch = s.tch := rfl
@[simp] theorem ck_sec (s : State) (f : Cmds → Cmds) : (ck s f).sec = s.sec := rfl
@[simp] theorem ck_jtag (s : State) (f : Cmds → Cmds) : (ck s f).jtag = s.jtag := rfl
@[simp] theorem ck_ports (s : State) (f : Cmds → Cmds) : (ck s f).ports = s.ports := rfl
@[simp] theorem ck_vio (s : State) (f : Cmds → Cmds) : (ck s f).vio = s.vio := rfl

@[simp] theorem sk_pending (s : State) (f : Secr → Secr) : (sk s f).pending = s.pending := rfl
@[simp] theorem sk_free (s : State) (f : Secr → Secr) : (sk s f).free = s.free := rfl
@[simp] theorem sk_regs (s : State) (f : Secr → Secr) : (sk s f).regs = s.regs := rfl
@[simp] theorem sk_mem (s : State) (f : Secr → Secr) : (sk s f).mem = s.mem := rfl
@[simp] theorem sk_bus (s : State) (f : Secr → Secr) : (sk s f).bus = s.bus := rfl
@[simp] theorem sk_por (s : State) (f : Secr → Secr) : (sk s f).por = s.por := rfl
@[simp] theorem sk_resetnLow (s : State) (f : Secr → Secr) : (sk s f).resetnLow = s.resetnLow := rfl
@[simp] theorem sk_boot (s : State) (f : Secr → Secr) : (sk s f).boot = s.boot := rfl
@[simp] theorem sk_pwr (s : State) (f : Secr → Secr) : (sk s f).pwr = s.pwr := rfl
@[simp] theorem sk_led (s : State) (f : Secr → Secr) : (sk s f).led = s.led := rfl
@[simp] theorem sk_chan (s : State) (f : Secr → Secr) : (sk s f).chan = s.chan := rfl
@[simp] theorem sk_dx (s : State) (f : Secr → Secr) : (sk s f).dx = s.dx := rfl
@[simp] theorem sk_ms (s : State) (f : Secr → Secr) : (sk s f).ms = s.ms := rfl
@[simp] theorem sk_mov (s : State) (f : Secr → Secr) : (sk s f).mov = s.mov := rfl
@[simp] theorem sk_movRr (s : State) (f : Secr → Secr) : (sk s f).movRr = s.movRr := rfl
@[simp] theorem sk_lnk (s : State) (f : Secr → Secr) : (sk s f).lnk = s.lnk := rfl
@[simp] theorem sk_cmd (s : State) (f : Secr → Secr) : (sk s f).cmd = s.cmd := rfl
@[simp] theorem sk_evHeld (s : State) (f : Secr → Secr) : (sk s f).evHeld = s.evHeld := rfl
@[simp] theorem sk_evCap (s : State) (f : Secr → Secr) : (sk s f).evCap = s.evCap := rfl
@[simp] theorem sk_evo (s : State) (f : Secr → Secr) : (sk s f).evo = s.evo := rfl
@[simp] theorem sk_evWin (s : State) (f : Secr → Secr) : (sk s f).evWin = s.evWin := rfl
@[simp] theorem sk_nvs (s : State) (f : Secr → Secr) : (sk s f).nvs = s.nvs := rfl
@[simp] theorem sk_clk (s : State) (f : Secr → Secr) : (sk s f).clk = s.clk := rfl
@[simp] theorem sk_disp (s : State) (f : Secr → Secr) : (sk s f).disp = s.disp := rfl
@[simp] theorem sk_tch (s : State) (f : Secr → Secr) : (sk s f).tch = s.tch := rfl
@[simp] theorem sk_jtag (s : State) (f : Secr → Secr) : (sk s f).jtag = s.jtag := rfl
@[simp] theorem sk_ports (s : State) (f : Secr → Secr) : (sk s f).ports = s.ports := rfl
@[simp] theorem sk_vio (s : State) (f : Secr → Secr) : (sk s f).vio = s.vio := rfl

@[simp] theorem tk_pending (s : State) (f : Clock → Clock) : (tk s f).pending = s.pending := rfl
@[simp] theorem tk_free (s : State) (f : Clock → Clock) : (tk s f).free = s.free := rfl
@[simp] theorem tk_regs (s : State) (f : Clock → Clock) : (tk s f).regs = s.regs := rfl
@[simp] theorem tk_mem (s : State) (f : Clock → Clock) : (tk s f).mem = s.mem := rfl
@[simp] theorem tk_bus (s : State) (f : Clock → Clock) : (tk s f).bus = s.bus := rfl
@[simp] theorem tk_por (s : State) (f : Clock → Clock) : (tk s f).por = s.por := rfl
@[simp] theorem tk_resetnLow (s : State) (f : Clock → Clock) : (tk s f).resetnLow = s.resetnLow := rfl
@[simp] theorem tk_boot (s : State) (f : Clock → Clock) : (tk s f).boot = s.boot := rfl
@[simp] theorem tk_pwr (s : State) (f : Clock → Clock) : (tk s f).pwr = s.pwr := rfl
@[simp] theorem tk_led (s : State) (f : Clock → Clock) : (tk s f).led = s.led := rfl
@[simp] theorem tk_chan (s : State) (f : Clock → Clock) : (tk s f).chan = s.chan := rfl
@[simp] theorem tk_dx (s : State) (f : Clock → Clock) : (tk s f).dx = s.dx := rfl
@[simp] theorem tk_ms (s : State) (f : Clock → Clock) : (tk s f).ms = s.ms := rfl
@[simp] theorem tk_mov (s : State) (f : Clock → Clock) : (tk s f).mov = s.mov := rfl
@[simp] theorem tk_movRr (s : State) (f : Clock → Clock) : (tk s f).movRr = s.movRr := rfl
@[simp] theorem tk_lnk (s : State) (f : Clock → Clock) : (tk s f).lnk = s.lnk := rfl
@[simp] theorem tk_cmd (s : State) (f : Clock → Clock) : (tk s f).cmd = s.cmd := rfl
@[simp] theorem tk_evHeld (s : State) (f : Clock → Clock) : (tk s f).evHeld = s.evHeld := rfl
@[simp] theorem tk_evCap (s : State) (f : Clock → Clock) : (tk s f).evCap = s.evCap := rfl
@[simp] theorem tk_evo (s : State) (f : Clock → Clock) : (tk s f).evo = s.evo := rfl
@[simp] theorem tk_evWin (s : State) (f : Clock → Clock) : (tk s f).evWin = s.evWin := rfl
@[simp] theorem tk_nvs (s : State) (f : Clock → Clock) : (tk s f).nvs = s.nvs := rfl
@[simp] theorem tk_disp (s : State) (f : Clock → Clock) : (tk s f).disp = s.disp := rfl
@[simp] theorem tk_tch (s : State) (f : Clock → Clock) : (tk s f).tch = s.tch := rfl
@[simp] theorem tk_sec (s : State) (f : Clock → Clock) : (tk s f).sec = s.sec := rfl
@[simp] theorem tk_jtag (s : State) (f : Clock → Clock) : (tk s f).jtag = s.jtag := rfl
@[simp] theorem tk_ports (s : State) (f : Clock → Clock) : (tk s f).ports = s.ports := rfl
@[simp] theorem tk_vio (s : State) (f : Clock → Clock) : (tk s f).vio = s.vio := rfl

@[simp] theorem dk_pending (s : State) (f : Disp → Disp) : (dk s f).pending = s.pending := rfl
@[simp] theorem dk_free (s : State) (f : Disp → Disp) : (dk s f).free = s.free := rfl
@[simp] theorem dk_regs (s : State) (f : Disp → Disp) : (dk s f).regs = s.regs := rfl
@[simp] theorem dk_mem (s : State) (f : Disp → Disp) : (dk s f).mem = s.mem := rfl
@[simp] theorem dk_bus (s : State) (f : Disp → Disp) : (dk s f).bus = s.bus := rfl
@[simp] theorem dk_por (s : State) (f : Disp → Disp) : (dk s f).por = s.por := rfl
@[simp] theorem dk_resetnLow (s : State) (f : Disp → Disp) : (dk s f).resetnLow = s.resetnLow := rfl
@[simp] theorem dk_boot (s : State) (f : Disp → Disp) : (dk s f).boot = s.boot := rfl
@[simp] theorem dk_pwr (s : State) (f : Disp → Disp) : (dk s f).pwr = s.pwr := rfl
@[simp] theorem dk_led (s : State) (f : Disp → Disp) : (dk s f).led = s.led := rfl
@[simp] theorem dk_chan (s : State) (f : Disp → Disp) : (dk s f).chan = s.chan := rfl
@[simp] theorem dk_dx (s : State) (f : Disp → Disp) : (dk s f).dx = s.dx := rfl
@[simp] theorem dk_ms (s : State) (f : Disp → Disp) : (dk s f).ms = s.ms := rfl
@[simp] theorem dk_mov (s : State) (f : Disp → Disp) : (dk s f).mov = s.mov := rfl
@[simp] theorem dk_movRr (s : State) (f : Disp → Disp) : (dk s f).movRr = s.movRr := rfl
@[simp] theorem dk_lnk (s : State) (f : Disp → Disp) : (dk s f).lnk = s.lnk := rfl
@[simp] theorem dk_cmd (s : State) (f : Disp → Disp) : (dk s f).cmd = s.cmd := rfl
@[simp] theorem dk_evHeld (s : State) (f : Disp → Disp) : (dk s f).evHeld = s.evHeld := rfl
@[simp] theorem dk_evCap (s : State) (f : Disp → Disp) : (dk s f).evCap = s.evCap := rfl
@[simp] theorem dk_evo (s : State) (f : Disp → Disp) : (dk s f).evo = s.evo := rfl
@[simp] theorem dk_evWin (s : State) (f : Disp → Disp) : (dk s f).evWin = s.evWin := rfl
@[simp] theorem dk_nvs (s : State) (f : Disp → Disp) : (dk s f).nvs = s.nvs := rfl
@[simp] theorem dk_clk (s : State) (f : Disp → Disp) : (dk s f).clk = s.clk := rfl
@[simp] theorem dk_tch (s : State) (f : Disp → Disp) : (dk s f).tch = s.tch := rfl
@[simp] theorem dk_sec (s : State) (f : Disp → Disp) : (dk s f).sec = s.sec := rfl
@[simp] theorem dk_jtag (s : State) (f : Disp → Disp) : (dk s f).jtag = s.jtag := rfl
@[simp] theorem dk_ports (s : State) (f : Disp → Disp) : (dk s f).ports = s.ports := rfl
@[simp] theorem dk_vio (s : State) (f : Disp → Disp) : (dk s f).vio = s.vio := rfl

@[simp] theorem uk_pending (s : State) (f : Touch → Touch) : (uk s f).pending = s.pending := rfl
@[simp] theorem uk_free (s : State) (f : Touch → Touch) : (uk s f).free = s.free := rfl
@[simp] theorem uk_regs (s : State) (f : Touch → Touch) : (uk s f).regs = s.regs := rfl
@[simp] theorem uk_mem (s : State) (f : Touch → Touch) : (uk s f).mem = s.mem := rfl
@[simp] theorem uk_bus (s : State) (f : Touch → Touch) : (uk s f).bus = s.bus := rfl
@[simp] theorem uk_por (s : State) (f : Touch → Touch) : (uk s f).por = s.por := rfl
@[simp] theorem uk_resetnLow (s : State) (f : Touch → Touch) : (uk s f).resetnLow = s.resetnLow := rfl
@[simp] theorem uk_boot (s : State) (f : Touch → Touch) : (uk s f).boot = s.boot := rfl
@[simp] theorem uk_pwr (s : State) (f : Touch → Touch) : (uk s f).pwr = s.pwr := rfl
@[simp] theorem uk_led (s : State) (f : Touch → Touch) : (uk s f).led = s.led := rfl
@[simp] theorem uk_chan (s : State) (f : Touch → Touch) : (uk s f).chan = s.chan := rfl
@[simp] theorem uk_dx (s : State) (f : Touch → Touch) : (uk s f).dx = s.dx := rfl
@[simp] theorem uk_ms (s : State) (f : Touch → Touch) : (uk s f).ms = s.ms := rfl
@[simp] theorem uk_mov (s : State) (f : Touch → Touch) : (uk s f).mov = s.mov := rfl
@[simp] theorem uk_movRr (s : State) (f : Touch → Touch) : (uk s f).movRr = s.movRr := rfl
@[simp] theorem uk_lnk (s : State) (f : Touch → Touch) : (uk s f).lnk = s.lnk := rfl
@[simp] theorem uk_cmd (s : State) (f : Touch → Touch) : (uk s f).cmd = s.cmd := rfl
@[simp] theorem uk_evHeld (s : State) (f : Touch → Touch) : (uk s f).evHeld = s.evHeld := rfl
@[simp] theorem uk_evCap (s : State) (f : Touch → Touch) : (uk s f).evCap = s.evCap := rfl
@[simp] theorem uk_evo (s : State) (f : Touch → Touch) : (uk s f).evo = s.evo := rfl
@[simp] theorem uk_evWin (s : State) (f : Touch → Touch) : (uk s f).evWin = s.evWin := rfl
@[simp] theorem uk_nvs (s : State) (f : Touch → Touch) : (uk s f).nvs = s.nvs := rfl
@[simp] theorem uk_clk (s : State) (f : Touch → Touch) : (uk s f).clk = s.clk := rfl
@[simp] theorem uk_disp (s : State) (f : Touch → Touch) : (uk s f).disp = s.disp := rfl
@[simp] theorem uk_sec (s : State) (f : Touch → Touch) : (uk s f).sec = s.sec := rfl
@[simp] theorem uk_jtag (s : State) (f : Touch → Touch) : (uk s f).jtag = s.jtag := rfl
@[simp] theorem uk_ports (s : State) (f : Touch → Touch) : (uk s f).ports = s.ports := rfl
@[simp] theorem uk_vio (s : State) (f : Touch → Touch) : (uk s f).vio = s.vio := rfl

@[simp] theorem jk_pending (s : State) (f : Jtag → Jtag) : (jk s f).pending = s.pending := rfl
@[simp] theorem jk_free (s : State) (f : Jtag → Jtag) : (jk s f).free = s.free := rfl
@[simp] theorem jk_regs (s : State) (f : Jtag → Jtag) : (jk s f).regs = s.regs := rfl
@[simp] theorem jk_mem (s : State) (f : Jtag → Jtag) : (jk s f).mem = s.mem := rfl
@[simp] theorem jk_bus (s : State) (f : Jtag → Jtag) : (jk s f).bus = s.bus := rfl
@[simp] theorem jk_por (s : State) (f : Jtag → Jtag) : (jk s f).por = s.por := rfl
@[simp] theorem jk_resetnLow (s : State) (f : Jtag → Jtag) : (jk s f).resetnLow = s.resetnLow := rfl
@[simp] theorem jk_boot (s : State) (f : Jtag → Jtag) : (jk s f).boot = s.boot := rfl
@[simp] theorem jk_pwr (s : State) (f : Jtag → Jtag) : (jk s f).pwr = s.pwr := rfl
@[simp] theorem jk_led (s : State) (f : Jtag → Jtag) : (jk s f).led = s.led := rfl
@[simp] theorem jk_chan (s : State) (f : Jtag → Jtag) : (jk s f).chan = s.chan := rfl
@[simp] theorem jk_dx (s : State) (f : Jtag → Jtag) : (jk s f).dx = s.dx := rfl
@[simp] theorem jk_ms (s : State) (f : Jtag → Jtag) : (jk s f).ms = s.ms := rfl
@[simp] theorem jk_mov (s : State) (f : Jtag → Jtag) : (jk s f).mov = s.mov := rfl
@[simp] theorem jk_movRr (s : State) (f : Jtag → Jtag) : (jk s f).movRr = s.movRr := rfl
@[simp] theorem jk_lnk (s : State) (f : Jtag → Jtag) : (jk s f).lnk = s.lnk := rfl
@[simp] theorem jk_cmd (s : State) (f : Jtag → Jtag) : (jk s f).cmd = s.cmd := rfl
@[simp] theorem jk_evHeld (s : State) (f : Jtag → Jtag) : (jk s f).evHeld = s.evHeld := rfl
@[simp] theorem jk_evCap (s : State) (f : Jtag → Jtag) : (jk s f).evCap = s.evCap := rfl
@[simp] theorem jk_evo (s : State) (f : Jtag → Jtag) : (jk s f).evo = s.evo := rfl
@[simp] theorem jk_evWin (s : State) (f : Jtag → Jtag) : (jk s f).evWin = s.evWin := rfl
@[simp] theorem jk_nvs (s : State) (f : Jtag → Jtag) : (jk s f).nvs = s.nvs := rfl
@[simp] theorem jk_clk (s : State) (f : Jtag → Jtag) : (jk s f).clk = s.clk := rfl
@[simp] theorem jk_disp (s : State) (f : Jtag → Jtag) : (jk s f).disp = s.disp := rfl
@[simp] theorem jk_tch (s : State) (f : Jtag → Jtag) : (jk s f).tch = s.tch := rfl
@[simp] theorem jk_sec (s : State) (f : Jtag → Jtag) : (jk s f).sec = s.sec := rfl
@[simp] theorem jk_ports (s : State) (f : Jtag → Jtag) : (jk s f).ports = s.ports := rfl
@[simp] theorem jk_vio (s : State) (f : Jtag → Jtag) : (jk s f).vio = s.vio := rfl

@[simp] theorem setPort_pending (s : State) (k : Nat) (p : Port) : (setPort s k p).pending = s.pending := rfl
@[simp] theorem setPort_free (s : State) (k : Nat) (p : Port) : (setPort s k p).free = s.free := rfl
@[simp] theorem setPort_regs (s : State) (k : Nat) (p : Port) : (setPort s k p).regs = s.regs := rfl
@[simp] theorem setPort_mem (s : State) (k : Nat) (p : Port) : (setPort s k p).mem = s.mem := rfl
@[simp] theorem setPort_bus (s : State) (k : Nat) (p : Port) : (setPort s k p).bus = s.bus := rfl
@[simp] theorem setPort_por (s : State) (k : Nat) (p : Port) : (setPort s k p).por = s.por := rfl
@[simp] theorem setPort_resetnLow (s : State) (k : Nat) (p : Port) : (setPort s k p).resetnLow = s.resetnLow := rfl
@[simp] theorem setPort_boot (s : State) (k : Nat) (p : Port) : (setPort s k p).boot = s.boot := rfl
@[simp] theorem setPort_pwr (s : State) (k : Nat) (p : Port) : (setPort s k p).pwr = s.pwr := rfl
@[simp] theorem setPort_led (s : State) (k : Nat) (p : Port) : (setPort s k p).led = s.led := rfl
@[simp] theorem setPort_chan (s : State) (k : Nat) (p : Port) : (setPort s k p).chan = s.chan := rfl
@[simp] theorem setPort_dx (s : State) (k : Nat) (p : Port) : (setPort s k p).dx = s.dx := rfl
@[simp] theorem setPort_ms (s : State) (k : Nat) (p : Port) : (setPort s k p).ms = s.ms := rfl
@[simp] theorem setPort_mov (s : State) (k : Nat) (p : Port) : (setPort s k p).mov = s.mov := rfl
@[simp] theorem setPort_movRr (s : State) (k : Nat) (p : Port) : (setPort s k p).movRr = s.movRr := rfl
@[simp] theorem setPort_lnk (s : State) (k : Nat) (p : Port) : (setPort s k p).lnk = s.lnk := rfl
@[simp] theorem setPort_cmd (s : State) (k : Nat) (p : Port) : (setPort s k p).cmd = s.cmd := rfl
@[simp] theorem setPort_evHeld (s : State) (k : Nat) (p : Port) : (setPort s k p).evHeld = s.evHeld := rfl
@[simp] theorem setPort_evCap (s : State) (k : Nat) (p : Port) : (setPort s k p).evCap = s.evCap := rfl
@[simp] theorem setPort_evo (s : State) (k : Nat) (p : Port) : (setPort s k p).evo = s.evo := rfl
@[simp] theorem setPort_evWin (s : State) (k : Nat) (p : Port) : (setPort s k p).evWin = s.evWin := rfl
@[simp] theorem setPort_nvs (s : State) (k : Nat) (p : Port) : (setPort s k p).nvs = s.nvs := rfl
@[simp] theorem setPort_clk (s : State) (k : Nat) (p : Port) : (setPort s k p).clk = s.clk := rfl
@[simp] theorem setPort_disp (s : State) (k : Nat) (p : Port) : (setPort s k p).disp = s.disp := rfl
@[simp] theorem setPort_tch (s : State) (k : Nat) (p : Port) : (setPort s k p).tch = s.tch := rfl
@[simp] theorem setPort_sec (s : State) (k : Nat) (p : Port) : (setPort s k p).sec = s.sec := rfl
@[simp] theorem setPort_jtag (s : State) (k : Nat) (p : Port) : (setPort s k p).jtag = s.jtag := rfl
@[simp] theorem setPort_vio (s : State) (k : Nat) (p : Port) : (setPort s k p).vio = s.vio := rfl

@[simp] theorem setCh_pending (s : State) (n : Nat) (c : Mch) : (setCh s n c).pending = s.pending := rfl
@[simp] theorem setCh_free (s : State) (n : Nat) (c : Mch) : (setCh s n c).free = s.free := rfl
@[simp] theorem setCh_regs (s : State) (n : Nat) (c : Mch) : (setCh s n c).regs = s.regs := rfl
@[simp] theorem setCh_mem (s : State) (n : Nat) (c : Mch) : (setCh s n c).mem = s.mem := rfl
@[simp] theorem setCh_bus (s : State) (n : Nat) (c : Mch) : (setCh s n c).bus = s.bus := rfl
@[simp] theorem setCh_por (s : State) (n : Nat) (c : Mch) : (setCh s n c).por = s.por := rfl
@[simp] theorem setCh_resetnLow (s : State) (n : Nat) (c : Mch) : (setCh s n c).resetnLow = s.resetnLow := rfl
@[simp] theorem setCh_boot (s : State) (n : Nat) (c : Mch) : (setCh s n c).boot = s.boot := rfl
@[simp] theorem setCh_pwr (s : State) (n : Nat) (c : Mch) : (setCh s n c).pwr = s.pwr := rfl
@[simp] theorem setCh_led (s : State) (n : Nat) (c : Mch) : (setCh s n c).led = s.led := rfl
@[simp] theorem setCh_chan (s : State) (n : Nat) (c : Mch) : (setCh s n c).chan = s.chan := rfl
@[simp] theorem setCh_dx (s : State) (n : Nat) (c : Mch) : (setCh s n c).dx = s.dx := rfl
@[simp] theorem setCh_ms (s : State) (n : Nat) (c : Mch) : (setCh s n c).ms = s.ms := rfl
@[simp] theorem setCh_movRr (s : State) (n : Nat) (c : Mch) : (setCh s n c).movRr = s.movRr := rfl
@[simp] theorem setCh_lnk (s : State) (n : Nat) (c : Mch) : (setCh s n c).lnk = s.lnk := rfl
@[simp] theorem setCh_cmd (s : State) (n : Nat) (c : Mch) : (setCh s n c).cmd = s.cmd := rfl
@[simp] theorem setCh_evHeld (s : State) (n : Nat) (c : Mch) : (setCh s n c).evHeld = s.evHeld := rfl
@[simp] theorem setCh_evCap (s : State) (n : Nat) (c : Mch) : (setCh s n c).evCap = s.evCap := rfl
@[simp] theorem setCh_evo (s : State) (n : Nat) (c : Mch) : (setCh s n c).evo = s.evo := rfl
@[simp] theorem setCh_evWin (s : State) (n : Nat) (c : Mch) : (setCh s n c).evWin = s.evWin := rfl
@[simp] theorem setCh_nvs (s : State) (n : Nat) (c : Mch) : (setCh s n c).nvs = s.nvs := rfl
@[simp] theorem setCh_clk (s : State) (n : Nat) (c : Mch) : (setCh s n c).clk = s.clk := rfl
@[simp] theorem setCh_disp (s : State) (n : Nat) (c : Mch) : (setCh s n c).disp = s.disp := rfl
@[simp] theorem setCh_tch (s : State) (n : Nat) (c : Mch) : (setCh s n c).tch = s.tch := rfl
@[simp] theorem setCh_sec (s : State) (n : Nat) (c : Mch) : (setCh s n c).sec = s.sec := rfl
@[simp] theorem setCh_jtag (s : State) (n : Nat) (c : Mch) : (setCh s n c).jtag = s.jtag := rfl
@[simp] theorem setCh_ports (s : State) (n : Nat) (c : Mch) : (setCh s n c).ports = s.ports := rfl
@[simp] theorem setCh_vio (s : State) (n : Nat) (c : Mch) : (setCh s n c).vio = s.vio := rfl

@[simp] theorem takeHeld_pending (s : State) (k : Nat) : (takeHeld s k).pending = s.pending := rfl
@[simp] theorem takeHeld_free (s : State) (k : Nat) : (takeHeld s k).free = s.free := rfl
@[simp] theorem takeHeld_regs (s : State) (k : Nat) : (takeHeld s k).regs = s.regs := rfl
@[simp] theorem takeHeld_mem (s : State) (k : Nat) : (takeHeld s k).mem = s.mem := rfl
@[simp] theorem takeHeld_bus (s : State) (k : Nat) : (takeHeld s k).bus = s.bus := rfl
@[simp] theorem takeHeld_por (s : State) (k : Nat) : (takeHeld s k).por = s.por := rfl
@[simp] theorem takeHeld_resetnLow (s : State) (k : Nat) : (takeHeld s k).resetnLow = s.resetnLow := rfl
@[simp] theorem takeHeld_boot (s : State) (k : Nat) : (takeHeld s k).boot = s.boot := rfl
@[simp] theorem takeHeld_pwr (s : State) (k : Nat) : (takeHeld s k).pwr = s.pwr := rfl
@[simp] theorem takeHeld_led (s : State) (k : Nat) : (takeHeld s k).led = s.led := rfl
@[simp] theorem takeHeld_chan (s : State) (k : Nat) : (takeHeld s k).chan = s.chan := rfl
@[simp] theorem takeHeld_dx (s : State) (k : Nat) : (takeHeld s k).dx = s.dx := rfl
@[simp] theorem takeHeld_ms (s : State) (k : Nat) : (takeHeld s k).ms = s.ms := rfl
@[simp] theorem takeHeld_mov (s : State) (k : Nat) : (takeHeld s k).mov = s.mov := rfl
@[simp] theorem takeHeld_movRr (s : State) (k : Nat) : (takeHeld s k).movRr = s.movRr := rfl
@[simp] theorem takeHeld_lnk (s : State) (k : Nat) : (takeHeld s k).lnk = s.lnk := rfl
@[simp] theorem takeHeld_cmd (s : State) (k : Nat) : (takeHeld s k).cmd = s.cmd := rfl
@[simp] theorem takeHeld_evCap (s : State) (k : Nat) : (takeHeld s k).evCap = s.evCap := rfl
@[simp] theorem takeHeld_evo (s : State) (k : Nat) : (takeHeld s k).evo = s.evo := rfl
@[simp] theorem takeHeld_evWin (s : State) (k : Nat) : (takeHeld s k).evWin = s.evWin := rfl
@[simp] theorem takeHeld_nvs (s : State) (k : Nat) : (takeHeld s k).nvs = s.nvs := rfl
@[simp] theorem takeHeld_clk (s : State) (k : Nat) : (takeHeld s k).clk = s.clk := rfl
@[simp] theorem takeHeld_disp (s : State) (k : Nat) : (takeHeld s k).disp = s.disp := rfl
@[simp] theorem takeHeld_tch (s : State) (k : Nat) : (takeHeld s k).tch = s.tch := rfl
@[simp] theorem takeHeld_sec (s : State) (k : Nat) : (takeHeld s k).sec = s.sec := rfl
@[simp] theorem takeHeld_jtag (s : State) (k : Nat) : (takeHeld s k).jtag = s.jtag := rfl
@[simp] theorem takeHeld_ports (s : State) (k : Nat) : (takeHeld s k).ports = s.ports := rfl
@[simp] theorem takeHeld_vio (s : State) (k : Nat) : (takeHeld s k).vio = s.vio := rfl

/-! ### What the updated field holds -/

@[simp] theorem putByte_mem (s : State) (a : Nat) (b : Byte) : (s.putByte a b).mem = Sparse.set 0 s.mem a b := rfl
@[simp] theorem xk_dx (s : State) (f : Dx → Dx) : (xk s f).dx = f s.dx := rfl
@[simp] theorem pk_pwr (s : State) (f : Pwr → Pwr) : (pk s f).pwr = f s.pwr := rfl
@[simp] theorem lk_lnk (s : State) (f : Link → Link) : (lk s f).lnk = f s.lnk := rfl
@[simp] theorem ck_cmd (s : State) (f : Cmds → Cmds) : (ck s f).cmd = f s.cmd := rfl
@[simp] theorem sk_sec (s : State) (f : Secr → Secr) : (sk s f).sec = f s.sec := rfl
@[simp] theorem tk_clk (s : State) (f : Clock → Clock) : (tk s f).clk = f s.clk := rfl
@[simp] theorem dk_disp (s : State) (f : Disp → Disp) : (dk s f).disp = f s.disp := rfl
@[simp] theorem uk_tch (s : State) (f : Touch → Touch) : (uk s f).tch = f s.tch := rfl
@[simp] theorem jk_jtag (s : State) (f : Jtag → Jtag) : (jk s f).jtag = f s.jtag := rfl

/-! ### Sparse maps -/

/-- A key that is not listed reads as the default. -/
theorem look_del_same {α : Type} (d : α) (m : Sparse α) (k : Nat) : Sparse.look d (m.del k) k = d := by
  induction m with
  | nil => rfl
  | cons e t ih =>
    obtain ⟨a, x⟩ := e
    by_cases h : a = k
    · simpa [Sparse.del, h] using ih
    · simpa [Sparse.del, h, Sparse.look] using ih

/-- Dropping a key leaves the others. -/
theorem look_del_ne {α : Type} (d : α) (m : Sparse α) {j k : Nat} (h : j ≠ k) :
    Sparse.look d (m.del k) j = Sparse.look d m j := by
  induction m with
  | nil => rfl
  | cons e t ih =>
    obtain ⟨a, x⟩ := e
    unfold Sparse.del at ih ⊢
    by_cases ha : a = k
    · have hj : a ≠ j := fun e => h (e.symm.trans ha)
      simp only [List.filter_cons, ha, beq_self_eq_true, Bool.not_true, Sparse.look]
      rw [ha] at hj
      simpa [hj] using ih
    · simp only [List.filter_cons, beq_eq_false_iff_ne.mpr ha, Bool.not_false, if_true, Sparse.look]
      rw [ih]

/-- What stands at a key after an insertion. -/
theorem look_ins {α : Type} (d : α) (m : Sparse α) (j k : Nat) (x : α) :
    Sparse.look d (m.ins k x) j = if j = k then x else Sparse.look d m j := by
  induction m with
  | nil =>
    simp only [Sparse.ins, Sparse.look]
    by_cases h : k = j
    · simp [h]
    · rw [if_neg h, if_neg (Ne.symm h)]
  | cons e t ih =>
    obtain ⟨a, y⟩ := e
    simp only [Sparse.ins]
    by_cases hk : k ≤ a
    · rw [if_pos hk]
      by_cases h : k = j
      · simp [Sparse.look, h]
      · simp [Sparse.look, h, Ne.symm h]
    · rw [if_neg hk]
      by_cases h : a = j
      · have : j ≠ k := by omega
        simp [Sparse.look, h, this]
      · simp only [Sparse.look, if_neg h, ih]

/-- What a map reads after a write; a value equal to the default is not listed. -/
theorem look_set {α : Type} [DecidableEq α] (d e : α) (m : Sparse α) (j k : Nat) (x : α) :
    Sparse.look e (m.set d k x) j = if j = k then (if x = d then e else x) else Sparse.look e m j := by
  unfold Sparse.set
  by_cases h : x = d
  · rw [if_pos h]
    by_cases hj : j = k
    · subst hj; simp [look_del_same, h]
    · simp [look_del_ne e m hj, hj]
  · rw [if_neg h, look_ins]
    by_cases hj : j = k
    · simp [hj, h]
    · simp [hj, look_del_ne e m hj]

/-! ### Register fields -/

/-- What any field reads after a write of one. -/
theorem get_put (s : State) (f g : Fld) (v : Nat) :
    (s.put f v).get g =
      if g.key = f.key then (if v % 2 ^ f.w = f.rst then g.rst else v % 2 ^ f.w) else s.get g := by
  simp [State.get, State.put, look_set]

/-- A field reads what was last written to it, within its width. -/
theorem get_put_self (s : State) (f : Fld) (v : Nat) : (s.put f v).get f = v % 2 ^ f.w := by
  rw [get_put, if_pos rfl]
  split
  · rename_i h; exact h.symm
  · rfl

/-- A field at another place keeps its value. -/
theorem get_put_ne (s : State) (f g : Fld) (v : Nat) (h : g.key ≠ f.key) : (s.put f v).get g = s.get g := by
  rw [get_put, if_neg h]

/-- A byte reads what was last stored to it (R6). -/
theorem byte_putByte (s : State) (a c : Nat) (b : Byte) : (s.putByte a b).byte c = if c = a then b else s.byte c := by
  simp only [State.byte, State.putByte, look_set]
  split
  · split
    · rename_i h; exact h.symm
    · rfl
  · rfl

@[simp] theorem putByte_get (s : State) (a : Nat) (b : Byte) (g : Fld) : (s.putByte a b).get g = s.get g := rfl
@[simp] theorem putByte_on (s : State) (a : Nat) (b : Byte) (g : Fld) : (s.putByte a b).on g = s.on g := rfl
@[simp] theorem wipe_get (s : State) (a n : Nat) (g : Fld) : (s.wipe a n).get g = s.get g := rfl
@[simp] theorem wipe_on (s : State) (a n : Nat) (g : Fld) : (s.wipe a n).on g = s.on g := rfl
@[simp] theorem fill_get (s : State) (a : Nat) (l : List Byte) (g : Fld) : (s.fill a l).get g = s.get g := rfl
@[simp] theorem fill_on (s : State) (a : Nat) (l : List Byte) (g : Fld) : (s.fill a l).on g = s.on g := rfl
@[simp] theorem xk_get (s : State) (f : Dx → Dx) (g : Fld) : (xk s f).get g = s.get g := rfl
@[simp] theorem xk_on (s : State) (f : Dx → Dx) (g : Fld) : (xk s f).on g = s.on g := rfl
@[simp] theorem pk_get (s : State) (f : Pwr → Pwr) (g : Fld) : (pk s f).get g = s.get g := rfl
@[simp] theorem pk_on (s : State) (f : Pwr → Pwr) (g : Fld) : (pk s f).on g = s.on g := rfl
@[simp] theorem lk_get (s : State) (f : Link → Link) (g : Fld) : (lk s f).get g = s.get g := rfl
@[simp] theorem lk_on (s : State) (f : Link → Link) (g : Fld) : (lk s f).on g = s.on g := rfl
@[simp] theorem ck_get (s : State) (f : Cmds → Cmds) (g : Fld) : (ck s f).get g = s.get g := rfl
@[simp] theorem ck_on (s : State) (f : Cmds → Cmds) (g : Fld) : (ck s f).on g = s.on g := rfl
@[simp] theorem sk_get (s : State) (f : Secr → Secr) (g : Fld) : (sk s f).get g = s.get g := rfl
@[simp] theorem sk_on (s : State) (f : Secr → Secr) (g : Fld) : (sk s f).on g = s.on g := rfl
@[simp] theorem tk_get (s : State) (f : Clock → Clock) (g : Fld) : (tk s f).get g = s.get g := rfl
@[simp] theorem tk_on (s : State) (f : Clock → Clock) (g : Fld) : (tk s f).on g = s.on g := rfl
@[simp] theorem dk_get (s : State) (f : Disp → Disp) (g : Fld) : (dk s f).get g = s.get g := rfl
@[simp] theorem dk_on (s : State) (f : Disp → Disp) (g : Fld) : (dk s f).on g = s.on g := rfl
@[simp] theorem uk_get (s : State) (f : Touch → Touch) (g : Fld) : (uk s f).get g = s.get g := rfl
@[simp] theorem uk_on (s : State) (f : Touch → Touch) (g : Fld) : (uk s f).on g = s.on g := rfl
@[simp] theorem jk_get (s : State) (f : Jtag → Jtag) (g : Fld) : (jk s f).get g = s.get g := rfl
@[simp] theorem jk_on (s : State) (f : Jtag → Jtag) (g : Fld) : (jk s f).on g = s.on g := rfl
@[simp] theorem setPort_get (s : State) (k : Nat) (p : Port) (g : Fld) : (setPort s k p).get g = s.get g := rfl
@[simp] theorem setPort_on (s : State) (k : Nat) (p : Port) (g : Fld) : (setPort s k p).on g = s.on g := rfl
@[simp] theorem setCh_get (s : State) (n : Nat) (c : Mch) (g : Fld) : (setCh s n c).get g = s.get g := rfl
@[simp] theorem setCh_on (s : State) (n : Nat) (c : Mch) (g : Fld) : (setCh s n c).on g = s.on g := rfl
@[simp] theorem takeHeld_get (s : State) (k : Nat) (g : Fld) : (takeHeld s k).get g = s.get g := rfl
@[simp] theorem takeHeld_on (s : State) (k : Nat) (g : Fld) : (takeHeld s k).on g = s.on g := rfl
@[simp] theorem put_byte (s : State) (f : Fld) (v : Nat) (adr : Nat) : (s.put f v).byte adr = s.byte adr := rfl
@[simp] theorem put_memWf (s : State) (f : Fld) (v : Nat) : (s.put f v).memWf = s.memWf := rfl
@[simp] theorem setFlag_byte (s : State) (a b : Nat) (adr : Nat) : (s.setFlag a b).byte adr = s.byte adr := rfl
@[simp] theorem setFlag_memWf (s : State) (a b : Nat) : (s.setFlag a b).memWf = s.memWf := rfl
@[simp] theorem setBit_byte (s : State) (f : Fld) (i : Nat) (adr : Nat) : (s.setBit f i).byte adr = s.byte adr := rfl
@[simp] theorem setBit_memWf (s : State) (f : Fld) (i : Nat) : (s.setBit f i).memWf = s.memWf := rfl
@[simp] theorem clrBits_byte (s : State) (f : Fld) (m : Nat) (adr : Nat) : (s.clrBits f m).byte adr = s.byte adr := rfl
@[simp] theorem clrBits_memWf (s : State) (f : Fld) (m : Nat) : (s.clrBits f m).memWf = s.memWf := rfl
@[simp] theorem bump_byte (s : State) (f : Fld) (n : Nat) (adr : Nat) : (s.bump f n).byte adr = s.byte adr := rfl
@[simp] theorem bump_memWf (s : State) (f : Fld) (n : Nat) : (s.bump f n).memWf = s.memWf := rfl
@[simp] theorem resetPage_byte (s : State) (b : Nat) (l : List Nat) (adr : Nat) : (s.resetPage b l).byte adr = s.byte adr := rfl
@[simp] theorem resetPage_memWf (s : State) (b : Nat) (l : List Nat) : (s.resetPage b l).memWf = s.memWf := rfl
@[simp] theorem xk_byte (s : State) (f : Dx → Dx) (adr : Nat) : (xk s f).byte adr = s.byte adr := rfl
@[simp] theorem xk_memWf (s : State) (f : Dx → Dx) : (xk s f).memWf = s.memWf := rfl
@[simp] theorem pk_byte (s : State) (f : Pwr → Pwr) (adr : Nat) : (pk s f).byte adr = s.byte adr := rfl
@[simp] theorem pk_memWf (s : State) (f : Pwr → Pwr) : (pk s f).memWf = s.memWf := rfl
@[simp] theorem lk_byte (s : State) (f : Link → Link) (adr : Nat) : (lk s f).byte adr = s.byte adr := rfl
@[simp] theorem lk_memWf (s : State) (f : Link → Link) : (lk s f).memWf = s.memWf := rfl
@[simp] theorem ck_byte (s : State) (f : Cmds → Cmds) (adr : Nat) : (ck s f).byte adr = s.byte adr := rfl
@[simp] theorem ck_memWf (s : State) (f : Cmds → Cmds) : (ck s f).memWf = s.memWf := rfl
@[simp] theorem sk_byte (s : State) (f : Secr → Secr) (adr : Nat) : (sk s f).byte adr = s.byte adr := rfl
@[simp] theorem sk_memWf (s : State) (f : Secr → Secr) : (sk s f).memWf = s.memWf := rfl
@[simp] theorem tk_byte (s : State) (f : Clock → Clock) (adr : Nat) : (tk s f).byte adr = s.byte adr := rfl
@[simp] theorem tk_memWf (s : State) (f : Clock → Clock) : (tk s f).memWf = s.memWf := rfl
@[simp] theorem dk_byte (s : State) (f : Disp → Disp) (adr : Nat) : (dk s f).byte adr = s.byte adr := rfl
@[simp] theorem dk_memWf (s : State) (f : Disp → Disp) : (dk s f).memWf = s.memWf := rfl
@[simp] theorem uk_byte (s : State) (f : Touch → Touch) (adr : Nat) : (uk s f).byte adr = s.byte adr := rfl
@[simp] theorem uk_memWf (s : State) (f : Touch → Touch) : (uk s f).memWf = s.memWf := rfl
@[simp] theorem jk_byte (s : State) (f : Jtag → Jtag) (adr : Nat) : (jk s f).byte adr = s.byte adr := rfl
@[simp] theorem jk_memWf (s : State) (f : Jtag → Jtag) : (jk s f).memWf = s.memWf := rfl
@[simp] theorem setPort_byte (s : State) (k : Nat) (p : Port) (adr : Nat) : (setPort s k p).byte adr = s.byte adr := rfl
@[simp] theorem setPort_memWf (s : State) (k : Nat) (p : Port) : (setPort s k p).memWf = s.memWf := rfl
@[simp] theorem setCh_byte (s : State) (n : Nat) (c : Mch) (adr : Nat) : (setCh s n c).byte adr = s.byte adr := rfl
@[simp] theorem setCh_memWf (s : State) (n : Nat) (c : Mch) : (setCh s n c).memWf = s.memWf := rfl
@[simp] theorem takeHeld_byte (s : State) (k : Nat) (adr : Nat) : (takeHeld s k).byte adr = s.byte adr := rfl
@[simp] theorem takeHeld_memWf (s : State) (k : Nat) : (takeHeld s k).memWf = s.memWf := rfl

/-- A command other than the four that reset takes does nothing while power-on reset is asserted, else has its effect (R12). -/
theorem live_por (s t : State) (h : s.por = true) : live s t = .next s := by simp [live, h]

/-- Out of reset a command has its effect. -/
theorem live_run (s t : State) (h : s.por = false) : live s t = .next t := by simp [live, h]

end Sys2Proof.Machine
end

