-- ==== Sys2Proof/Laws/Core.lean ====
section
/-! SUPPORT. What a bundle of one syllable does: the chain from its row to its completion. -/

namespace Sys2Proof.Machine

open Sys2Proof

/-- The state with the syllable gathered. -/
def gathered (s : State) (cls op : Nat) (x : Syl) : State := xk s fun d => { d with bundle := [⟨cls, op, x⟩] }

/-- A read of a word of banks 0 and 1 by the core, with no wipe and no stored error, changes nothing. -/
theorem readWord_core (s : State) (a : Nat) (h1 : 0x10000000 ≤ a) (h2 : a < 0x10200000) (he : s.ms.sramErr = [])
    (hw : s.ms.wipeQ = []) : readWord s .core a = (some (s.rd a 4), s) := by
  have hsram : inSram a = true := by simp [inSram]; omega
  have hset : inSet a = false := by simp [inSet]; omega
  have hclr : inClr a = false := by simp [inClr]; omega
  have hb : bankOwner (bankOf a) = some .core := by
    unfold bankOf
    simp only
    split
    · rfl
    · rw [if_pos (by omega)]; rfl
  have hr : inRom a = false := by simp [inRom]; omega
  simp [readWord, unalias, hset, hclr, hsram, hr, sramRead, sramWait, hw, noteConf, confOf, hb, he, Sparse.look]

/-- The words of a bundle inside banks 0 and 1 are fetched without effect. -/
theorem fetchBundle_core (pc : Nat) (n : Nat) : ∀ (i : Nat) (s : State), 0x10000000 ≤ pc → pc + 4 * (i + n) ≤ 0x10200000 →
    s.ms.sramErr = [] → s.ms.wipeQ = [] → fetchBundle pc i n s = (none, s) := by
  induction n with
  | zero => intro i s _ _ _ _; rfl
  | succ n ih =>
    intro i s h1 h2 he hw
    have hm : (pc + 4 * i) % 2 ^ 32 = pc + 4 * i := Nat.mod_eq_of_lt (by omega)
    have hr := readWord_core s (pc + 4 * i) (by omega) (by omega) he hw
    have hf : fetchable (pc + 4 * i) = true := by simp [fetchable]; omega
    unfold fetchBundle
    simp only [hm, hr, hf, Bool.not_true, Bool.false_eq_true, if_false]
    exact ih (i + 1) s h1 (by omega) he hw

/-- The registers of the pages do not depend on the core's own state. -/
theorem xk_word (s : State) (f : Dx → Dx) (a : Nat) : (xk s f).word a = s.word a := by
  unfold State.word; simp only [xk_get]

theorem xk_bit (s : State) (f : Dx → Dx) (g : Fld) (i : Nat) : (xk s f).bit g i = s.bit g i := rfl

theorem xk_irqLines (s : State) (f : Dx → Dx) : irqLines (xk s f) = irqLines s := by
  unfold irqLines; simp only [xk_word, xk_get, xk_on]

theorem xk_candidate (s : State) (f : Dx → Dx) (n : Nat) : candidate (xk s f) n = candidate s n := by
  unfold candidate handleLevel coreLvl linePri; simp only [xk_irqLines, xk_get, xk_bit, xk_on]; rfl

theorem xk_bestLine (s : State) (f : Dx → Dx) : bestLine (xk s f) = bestLine s := by
  unfold bestLine linePri; simp only [xk_candidate, xk_get]; rfl

/-- Gathering a syllable changes no entry. -/
theorem gathered_asyncKind (s : State) (cls op : Nat) (x : Syl) : asyncKind (gathered s cls op x) = asyncKind s := by
  unfold asyncKind gathered linePri; simp only [xk_bestLine, xk_get, xk_on, xk_dx]

/-- With no drain due, clearing it changes nothing. -/
theorem xk_drainDue (s : State) (h : s.dx.drainDue = false) : xk s (fun d => { d with drainDue := false }) = s := by
  have e : { s.dx with drainDue := false } = s.dx := by rw [← h]
  exact congrArg (fun d => { s with dx := d }) e

/-- The guard's answer to a fetch does not depend on what is gathered. -/
theorem xk_get_fun (s : State) (f : Dx → Dx) : State.get (xk s f) = State.get s := rfl
theorem xk_on_fun (s : State) (f : Dx → Dx) : State.on (xk s f) = State.on s := rfl
theorem xk_bit_fun (s : State) (f : Dx → Dx) : State.bit (xk s f) = State.bit s := rfl

theorem xk_right (s : State) (f : Dx → Dx) (a : Asset) (p : Nat) (w : Bool) : right (xk s f) a p w = right s a p w := by
  unfold right; simp only [xk_on]; rfl

theorem xk_inLiveCopy (s : State) (f : Dx → Dx) (a : Nat) : inLiveCopy (xk s f) a = inLiveCopy s a := by
  unfold inLiveCopy liveExt liveCopy; simp only [xk_get, xk_bit]; rfl

theorem xk_regionAllows (s : State) (f : Dx → Dx) (l a k : Nat) : regionAllows (xk s f) l a k = regionAllows s l a k := by
  unfold regionAllows; simp only [xk_get, xk_on, xk_bit]; rfl

theorem xk_sramFixed (s : State) (f : Dx → Dx) : sramFixed (xk s f) = sramFixed s := by
  have h1 : lcState (xk s f) = lcState s := rfl
  have h2 : right (xk s f) = right s := by funext a p w; exact xk_right s f a p w
  have h3 : inLiveCopy (xk s f) = inLiveCopy s := by funext a; exact xk_inLiveCopy s f a
  unfold sramFixed
  rw [h1, h2, h3]

theorem xk_guard1 (s : State) (f : Dx → Dx) : guard1 (xk s f) = guard1 s := by
  have h2 : right (xk s f) = right s := by funext a p w; exact xk_right s f a p w
  have h3 : regionAllows (xk s f) = regionAllows s := by funext l a k; exact xk_regionAllows s f l a k
  have h4 : regRight (xk s f) = regRight s := rfl
  unfold guard1 fixedRule progRule
  rw [xk_sramFixed, h2, h3, h4]

theorem gathered_fetchRefused (s : State) (cls op : Nat) (x : Syl) (pc n : Nat) :
    fetchRefused (gathered s cls op x) pc n = fetchRefused s pc n := by
  have hc : coreTag (gathered s cls op x) = coreTag s := by unfold coreTag gathered; simp only [xk_get]
  unfold fetchRefused guard
  rw [hc]
  unfold gathered
  simp only [xk_guard1]

/-- The parts of canIssue. -/
theorem canIssue_parts (s : State) (cls op : Nat) (x : Syl) (h : s.canIssue cls op x = true) :
    s.por = false ∧ coreRuns s = true ∧ s.dx.bundle = [] ∧ s.dx.loads = [] ∧ s.dx.stores = [] ∧ s.dx.rep = none ∧
    s.dx.drainDue = false ∧ s.dx.armShadow = false ∧ s.dx.armProg = false ∧ asyncKind s = none ∧ s.ms.sramErr = [] ∧
    s.ms.wipeQ = [] ∧ x.stop = true ∧ sylLegal cls op x = true ∧ 0x10000000 ≤ s.dx.pc ∧ s.dx.pc + 4 * wordsOf x ≤ 0x10200000 ∧
    fetchRefused s s.dx.pc (wordsOf x) = none := by
  simp only [State.canIssue, State.canFetch, State.quiet, Bool.and_eq_true, Bool.not_eq_true', List.isEmpty_iff,
    Option.isNone_iff_eq_none, decide_eq_true_eq] at h
  tauto

theorem wordsOf_le (x : Syl) : wordsOf x ≤ 2 := by
  unfold wordsOf b2n; split <;> omega

theorem wordsOf_pos (x : Syl) : 1 ≤ wordsOf x := by
  unfold wordsOf; omega

/-- A bundle of one legal syllable passes the fetch and the checks of R92 and R93 and runs (R92, R154). -/
theorem syllable_only (s : State) (cls op : Nat) (x : Syl) (h : s.canIssue cls op x = true) :
    syllable s cls op x =
      runOne (gathered s cls op x) s.dx.pc (s.nextPc x) (wordsOf x) [only cls op x] false := by
  obtain ⟨hpor, hrun, hb, hl, hst, hrep, hdr, hsh, hpr, hak, hse, hwq, hstop, hleg, hp1, hp2, hf⟩ := canIssue_parts s cls op x h
  have hw2 := wordsOf_le x
  have hw1 := wordsOf_pos x
  have hdue : dueEntry s = none := by
    unfold dueEntry; split
    · exact hak
    · rfl
  have hdrain : boundary s = s := by simp [boundary, mirrorDrain, stbufDrain, hst, throughLast, hdr]
  have hwords : words [⟨cls, op, x⟩] = wordsOf x := by simp [words, bwords, wordsOf]
  have hplace : place 0 [⟨cls, op, x⟩] = [only cls op x] := by simp [place, only]
  have hg : gathered s cls op x = xk s fun d => { d with bundle := [⟨cls, op, x⟩] } := rfl
  have hsl : ∀ ys, preDrain (gathered s cls op x) ys = gathered s cls op x := by
    intro ys
    unfold preDrain
    split
    · have : (xk (drainWait (gathered s cls op x)) fun d => { d with drainDue := false }) = gathered s cls op x := by
        have h : drainWait (gathered s cls op x) = gathered s cls op x := by simp [drainWait, gathered, hst]
        rw [h, xk_drainDue (gathered s cls op x) hdr]
      rw [this]
      simp only [gathered_asyncKind, hak, ite_self]
    · rfl
  have hgone : gone (gathered s cls op x) = false := by simp [gone, gathered]
  have hn : min (wordsOf x) 7 = wordsOf x := by omega
  have hfe : fetchAll s.dx.pc (min (wordsOf x) 7) (gathered s cls op x) = (none, gathered s cls op x) := by
    unfold fetchAll
    rw [hn, gathered_fetchRefused, hf]
    exact fetchBundle_core s.dx.pc (wordsOf x) 0 (gathered s cls op x) hp1 (by omega) hse hwq
  have hill : illegalAt (gathered s cls op x) [only cls op x] (wordsOf x) true false = none := by
    have h1 : customBlocked (gathered s cls op x) [only cls op x] (only cls op x) = false := by simp [customBlocked]
    have h2 : progMisses (gathered s cls op x) [only cls op x] = false := by simp [progMisses, gathered, hpr]
    have h3 : (limms [only cls op x]).drop 1 = [] := by
      unfold limms; simp only [List.filterMap_cons, List.filterMap_nil]; split <;> rfl
    unfold illegalAt
    simp only [h2, h3, List.filter_cons, List.filter_nil, h1, orderBad]
    have h4 : sylLegal (only cls op x).cls (only cls op x).op (only cls op x).x = true := hleg
    have h5 : ¬ 7 < wordsOf x := by omega
    simp [h4, h5]
  unfold syllable
  simp only [hrun, hb, List.isEmpty_nil, Bool.and_self, if_true, hdrain, hdue, Option.isSome_none, Bool.not_true, Bool.or_self,
    Bool.false_eq_true, if_false, List.nil_append, hstop, Bool.true_or]
  rw [← hg]
  unfold runBundle
  have e1 : (gathered s cls op x).dx.bundle = [⟨cls, op, x⟩] := rfl
  have e2 : (gathered s cls op x).dx.pc = s.dx.pc := rfl
  have e3 : (gathered s cls op x).dx.rep = none := hrep
  have e4 : (gathered s cls op x).dx.loads = [] := hl
  simp only [e1, e2, e3, e4, hplace, hwords, List.getLast?_singleton, hstop, hsl, hgone, hfe, gathered_asyncKind, hak,
    Option.isSome_none, Bool.false_and, Bool.false_eq_true, if_false, hill]
  rfl

/-- Completion with nothing in flight and no record: the effects alone. -/
theorem complete_plain (s : State) (ws : List Wr) (l : List (Nat × Nat)) (hm : ws.filter isMvts = [])
    (hg : gone (ws.foldl apply s) = false) (hl : (ws.foldl apply s).dx.loads = [])
    (hsh : (ws.foldl apply s).dx.armShadow = false) :
    complete s ws l false = xk (ws.foldl apply s) fun d => { d with loads := l } := by
  have hf : ws.filter (fun w => !isMvts w) = ws := by
    refine List.filter_eq_self.mpr fun w hw => ?_
    have := List.filter_eq_nil_iff.mp hm w hw
    simpa using this
  unfold complete
  simp only [hf, hm, hg, Bool.false_eq_true, if_false]
  have hland : landLoads (ws.foldl apply s) = xk (ws.foldl apply s) fun d => { d with loads := [] } := by
    simp [landLoads, hl]
  rw [hland]
  simp [xk, hsh]

/-- A syllable of the ALU or MAC classes alone in its bundle raises nothing (R96, R154). -/
theorem preExc_plain (s : State) (cls op : Nat) (x : Syl) (pc n : Nat) (hc : cls ∈ [0, 1, 3, 4])
    (hf : fetchRefused s pc n = none) : preExc s pc n [only cls op x] = none := by
  have h2 : cls ≠ 2 ∧ cls ≠ 5 ∧ cls ≠ 6 := by
    simp only [List.mem_cons, List.not_mem_nil, or_false] at hc; omega
  obtain ⟨h2, h5, h6⟩ := h2
  have i1 : invalidExc s (only cls op x) = none := by simp [invalidExc, isCustom, only, h6]
  have i2 : lacksLevel s (only cls op x) = false := by simp [lacksLevel, only, h5, h6]
  have i3 : misaligned s pc (only cls op x) = none := by simp [misaligned, only, h2, h5]
  have i4 : stackSlot s (only cls op x) = none := by simp [stackSlot, only, h5]
  have i5 : accOf s (only cls op x) = none := by simp [accOf, only, h2]
  unfold preExc
  by_cases ha : active s (only cls op x) = true
  · simp [ha, i1, i2, i3, i4, i5, hf]
  · simp [ha, hf]

/-- From REP to the last iteration no asynchronous entry is due (R132). -/
theorem dueEntry_rep (s : State) (h : s.dx.rep ≠ none) : dueEntry s = none := by
  have hr : repHolds s = true := Option.isSome_iff_ne_none.mpr h
  simp [dueEntry, hr]

/-- Nor is one taken, of whatever kind. -/
theorem takeEntry_rep (s : State) (p : Nat → Bool) (h : s.dx.rep ≠ none) : takeEntry s p = s := by
  simp [takeEntry, dueEntry_rep s h]

end Sys2Proof.Machine
end

