-- ==== Sys2Proof/Laws/Hold.lean ====
section
/-! SUPPORT. What waits for the hold capacitor, the turns at the NV store, what lands between two bundles, and the cycles of a sleep
entry: one lemma for each case of the shared operations. -/

namespace Sys2Proof.Machine

open Sys2Proof

/-- With no store waiting at the head of the store buffer, a word's turn is its wait alone (R301, R304). -/
theorem holdTurn_alone (s : State) (h : headWaits s = false) : holdTurn s = holdWait s := by
  simp [holdTurn, h]

/-- A stopped domain's start leaves the hold capacitor as it is. -/
theorem demandStart_holdReady (s : State) (d : Nat) : holdReady (demandStart s d) = holdReady s := by
  unfold demandStart
  split
  · split
    · unfold holdReady State.on; rw [get_put_ne _ _ _ _ (by decide)]
    · rfl
  · unfold holdReady State.on; rw [get_put_ne _ _ _ _ (by decide)]
  · unfold holdReady State.on; rw [get_put_ne _ _ _ _ (by decide)]

/-- With the capacitor ready a word's turn comes at once, once SYS runs (R25, R64, R301). -/
theorem holdTurn_ready (s : State) (h : holdReady s = true) : holdTurn s = (true, demandStart s 0) := by
  have hw : headWaits s = false := by unfold headWaits; split <;> simp [h]
  rw [holdTurn_alone s hw]
  simp [holdWait, demandStart_holdReady, h]

/-- A claim's slot is written at once with the capacitor ready (R394). -/
theorem claimSlot_ready (s : State) (p : Nat) (salt : List Byte) (h : holdReady s = true) :
    claimSlot s p salt =
      (true, secEvt (sk (demandStart s 0) fun c => { c with slots := c.slots.set (p - 1) (some salt) }) 4) := by
  simp [claimSlot, holdTurn_ready s h]

/-- Where nothing waits, the capacitor's becoming ready sets HOLDRDY and nothing else (R301). -/
theorem holdUp_idle (s : State) (h : noneWaits s = true) : holdUp s = s.put NVS_STAT_HOLDRDY 1 := by
  simp only [noneWaits, Bool.and_eq_true, Bool.or_eq_true, Bool.not_eq_true', Option.isNone_iff_eq_none] at h
  obtain ⟨⟨hw, hr⟩, hb⟩ := h
  have hc : holdComesNow s = s.put NVS_STAT_HOLDRDY 1 := by
    unfold holdComesNow
    rcases hr with hr | hr
    · simp [hw, hr]
    · have he : engineRuns (s.put NVS_STAT_HOLDRDY 1) = false := by
        rw [← hr]; unfold engineRuns; rw [get_put_ne _ _ _ _ (by decide)]; simp only [put_nvs]
      simp [hw, he]
  have hp : (s.put NVS_STAT_HOLDRDY 1).boot = none := hb
  unfold holdUp
  simp only [hc, hp]

/-- A supply below 1.80 V clears HOLDRDY and nothing else. -/
theorem setHold_down (s : State) : setHold s false = s.put NVS_STAT_HOLDRDY 0 := rfl

/-- A store that waits when the capacitor becomes ready is begun at once, after a move of its page (R301, R309). -/
theorem holdComesNow_head (s : State) (h : headWaits s = true) : holdComesNow s = headGo (s.put NVS_STAT_HOLDRDY 1) := by
  simp [holdComesNow, h]

/-! The cycles of a sleep entry (R57, R102) change the cycle count and the counter of free values alone. -/

@[simp] theorem entryTick_get (s : State) (f : Fld) : (entryTick s).get f = s.get f := rfl
@[simp] theorem entryTick_pwr (s : State) : (entryTick s).pwr = s.pwr := rfl
@[simp] theorem entryTick_mem (s : State) : (entryTick s).mem = s.mem := rfl

theorem entryTick_dx (s : State) : (entryTick s).dx = { s.dx with cyc := (entryTick s).dx.cyc } := rfl

theorem entryTick_only (s : State) : { s with free := (entryTick s).free, dx := (entryTick s).dx } = entryTick s := rfl

/-- Nothing waits at the head of the store buffer: another master's access comes at once (R304). -/
theorem nvTurn_free (s : State) (h : headWaits s = false) : nvTurn s = s := by simp [nvTurn, h]

/-- An access outside the NV store takes no turn there (R304). -/
theorem busTurn_outside (s : State) (a : Nat) (h : inNv a = false) : busTurn s a = s := by simp [busTurn, h]

/-- With no word of an engine to write, a bus access only notes that the engine has not yielded (R304). -/
theorem busTurn_idle (s : State) (a : Nat) (h : inNv a = true) (e : engineRuns s = false) :
    busTurn s a = { s with nvs := { s.nvs with yielded := false } } := by simp [busTurn, h, e]

/-- No store to the CORE_ page is buffered: the boundary of two bundles has nothing to drain for it (R8). -/
theorem mirrorDrain_none (s : State) (h : throughLast (fun st => mirror st.addr) s.dx.stores = 0) : mirrorDrain s = s := by
  simp [mirrorDrain, h]

/-- With an empty store buffer and no drain due the boundary of two bundles changes nothing (R8, R165). -/
theorem boundary_empty (s : State) (h : s.dx.stores = []) (d : s.dx.drainDue = false) : boundary s = s := by
  simp [boundary, stbufDrain, mirrorDrain, throughLast, h, d]

/-- A drain ends no earlier than the stores it is for: none is left where it goes through them all. -/
theorem throughLast_le (p : Store → Bool) (l : List Store) : throughLast p l ≤ l.length := by
  induction l with
  | nil => simp [throughLast]
  | cons st t ih => simp only [throughLast, List.length_cons]; split <;> [omega; (split <;> omega)]

end Sys2Proof.Machine
end

