-- ==== Sys2Proof/Laws/Memory.lean ====
section
/-! SUPPORT. The memory keeps its canonical form under every operation that writes it (R6, R180): one byte, a run of bytes, a
wipe, a fill, and the writes of each memory's words. -/

namespace Sys2Proof.Machine

open Sys2Proof

/-- The canonical form as a proposition about the list. -/
def MemOk (m : List Host.Cell) : Prop := (∀ e ∈ m, e.2 ≠ 0) ∧ m.Pairwise fun a b => a.1 < b.1

theorem memWf_iff (s : State) : s.memWf = true ↔ MemOk s.mem := by
  simp [State.memWf, MemOk, List.all_eq_true]

theorem memOk_nil : MemOk [] := ⟨by simp, List.Pairwise.nil⟩

theorem memOk_filter (m : List Host.Cell) (p : Host.Cell → Bool) (h : MemOk m) : MemOk (m.filter p) :=
  ⟨fun e he => h.1 e (List.mem_of_mem_filter he), h.2.sublist List.filter_sublist⟩

/-- An inserted key is the new one or an old one. -/
theorem mem_ins {α : Type} (m : Sparse α) (k : Nat) (x : α) (e : Nat × α) (h : e ∈ m.ins k x) : e = (k, x) ∨ e ∈ m := by
  induction m with
  | nil => simp [Sparse.ins] at h; exact .inl h
  | cons f t ih =>
    obtain ⟨a, y⟩ := f
    simp only [Sparse.ins] at h
    split at h
    · rcases List.mem_cons.mp h with h | h
      · exact .inl h
      · exact .inr h
    · rcases List.mem_cons.mp h with h | h
      · exact .inr (h ▸ List.mem_cons_self ..)
      · rcases ih h with h | h
        · exact .inl h
        · exact .inr (List.mem_cons_of_mem _ h)

/-- Insertion of a key that is not listed keeps the keys rising. -/
theorem ins_pairwise {α : Type} (m : Sparse α) (k : Nat) (x : α) (h : m.Pairwise fun a b => a.1 < b.1)
    (hk : ∀ e ∈ m, e.1 ≠ k) : (m.ins k x).Pairwise fun a b => a.1 < b.1 := by
  induction m with
  | nil => simp [Sparse.ins]
  | cons f t ih =>
    obtain ⟨a, y⟩ := f
    have hp := List.pairwise_cons.mp h
    have hak : a ≠ k := hk (a, y) (List.mem_cons_self ..)
    simp only [Sparse.ins]
    split
    · refine List.pairwise_cons.mpr ⟨fun e he => ?_, h⟩
      rcases List.mem_cons.mp he with rfl | he
      · show k < a; omega
      · have := hp.1 e he; show k < e.1; simp only at this; omega
    · refine List.pairwise_cons.mpr ⟨fun e he => ?_, ih hp.2 fun e he => hk e (List.mem_cons_of_mem _ he)⟩
      rcases mem_ins t k x e he with rfl | he
      · show a < k; omega
      · exact hp.1 e he

theorem memOk_set (m : List Host.Cell) (a : Nat) (b : Byte) (h : MemOk m) : MemOk (Sparse.set 0 m a b) := by
  unfold Sparse.set
  split
  · exact memOk_filter m _ h
  · rename_i hb
    have hd := memOk_filter m (fun e => !(e.1 == a)) h
    refine ⟨fun e he => ?_, ins_pairwise _ _ _ hd.2 fun e he => ?_⟩
    · rcases mem_ins _ _ _ _ he with rfl | he
      · exact hb
      · exact hd.1 e he
    · have := (List.mem_filter.mp he).2
      simpa using this

/-- One byte. -/
theorem memWf_putByte (s : State) (a : Nat) (b : Byte) (h : s.memWf = true) : (s.putByte a b).memWf = true :=
  (memWf_iff _).mpr (memOk_set _ _ _ ((memWf_iff _).mp h))

/-- A run of bytes. -/
theorem memWf_wrBytes (l : List Byte) : ∀ (s : State) (a : Nat), s.memWf = true → (s.wrBytes a l).memWf = true := by
  induction l with
  | nil => intro s a h; exact h
  | cons b t ih => intro s a h; exact ih _ _ (memWf_putByte s a b h)

/-- A number, little-endian. -/
theorem memWf_wr (s : State) (a n v : Nat) (h : s.memWf = true) : (s.wr a n v).memWf = true := memWf_wrBytes _ _ _ h

/-- A wipe (R180, R197). -/
theorem memWf_wipe (s : State) (a n : Nat) (h : s.memWf = true) : (s.wipe a n).memWf = true :=
  (memWf_iff _).mpr (memOk_filter _ _ ((memWf_iff _).mp h))

/-- The listed bytes of a run: each at its address, in order, none zero. -/
theorem run_ok (a : Nat) (l : List Byte) (i : Nat) :
    MemOk ((((List.range' i l.length).zip l).filterMap fun e : Nat × Byte => if e.2 = 0 then none else some (a + e.1, e.2))) ∧
    ∀ e ∈ (((List.range' i l.length).zip l).filterMap fun e : Nat × Byte => if e.2 = 0 then none else some (a + e.1, e.2)),
      a + i ≤ e.1 ∧ e.1 < a + i + l.length := by
  induction l generalizing i with
  | nil => simp [memOk_nil]
  | cons b t ih =>
    obtain ⟨h1, h2⟩ := ih (i + 1)
    simp only [List.length_cons, List.range'_succ, List.zip_cons_cons, List.filterMap_cons]
    by_cases hb : b = 0
    · simp only [hb, if_true]
      exact ⟨h1, fun e he => by have := h2 e he; omega⟩
    · simp only [hb, if_false]
      refine ⟨⟨fun e he => ?_, List.pairwise_cons.mpr ⟨fun e he => ?_, h1.2⟩⟩, fun e he => ?_⟩
      · rcases List.mem_cons.mp he with rfl | he
        · exact hb
        · exact h1.1 e he
      · have := h2 e he; show a + i < e.1; omega
      · rcases List.mem_cons.mp he with rfl | he
        · show a + i ≤ a + i ∧ a + i < _; omega
        · have := h2 e he; omega

/-- A run of bytes written at once. -/
theorem memWf_fill (s : State) (a : Nat) (l : List Byte) (h : s.memWf = true) : (s.fill a l).memWf = true := by
  have hm := (memWf_iff _).mp h
  have hlo := memOk_filter s.mem (fun e => decide (e.1 < a)) hm
  have hhi := memOk_filter s.mem (fun e => decide (a + l.length ≤ e.1)) hm
  have hr := run_ok a l 0
  rw [← List.range_eq_range'] at hr
  refine (memWf_iff _).mpr ⟨fun e he => ?_, ?_⟩
  · rcases List.mem_append.mp he with he | he
    · rcases List.mem_append.mp he with he | he
      · exact hlo.1 e he
      · exact hr.1.1 e he
    · exact hhi.1 e he
  · refine List.pairwise_append.mpr ⟨List.pairwise_append.mpr ⟨hlo.2, hr.1.2, fun e he f hf => ?_⟩, hhi.2, fun e he f hf => ?_⟩
    · have h1 := (List.mem_filter.mp he).2
      have h2 := hr.2 f hf
      simp at h1; omega
    · have h3 := (List.mem_filter.mp hf).2
      simp at h3
      rcases List.mem_append.mp he with he | he
      · have h1 := (List.mem_filter.mp he).2
        simp at h1; omega
      · have h2 := hr.2 e he; omega

end Sys2Proof.Machine
end

