-- ==== Sys2Proof/Tests/Witness.lean ====
section
/-! SUPPORT. Witnesses: for each statement a state and operands that meet its hypotheses. -/

namespace Sys2Proof.Tests

open Sys2Proof Sys2Proof.Machine

set_option Elab.async false

/-- The part in Run with the core released, no wipe running, and CORE_STATUS.EL set as after an entry. -/
def w0 : State :=
  ({ State.reset with
      por := false
      dx := { State.reset.dx with running := true }
      ms := { State.reset.ms with wipeQ := [] }
      cmd := { State.reset.cmd with mgmtUp := true, serving := true }
      sec := { State.reset.sec with fuses := 1 } }).put CORE_STATUS_EL 1

/-- The same with EL=0. -/
def w1 : State := w0.put CORE_STATUS_EL 0

/-- At level S, and at level U with the regions' default open. -/
def wS : State := w0.put CORE_STATUS_PL 1
def wU : State := (w1.put CORE_STATUS_PL 0).put MEM_RGCFG_DEFU 7

/-- g4 holds an address of bank 0. -/
def wMem : State := xk w0 fun d => { d with g := d.g.set 4 0x10001000 }

/-- Precise stores; g3 a count, g4 and g5 addresses of bank 0. -/
def wPrec : State :=
  (xk wMem fun d => { d with g := (d.g.set 5 0x10002000).set 3 5 }).put CORE_EXCCFG_STBUF 0

/-- irq31 raised, enabled, at priority 5, with IE=1 at M. -/
def wIrq : State :=
  (((w1.put CORE_IRQSET_SW 1).put CORE_IRQEN_LINES 0x80000000).put (CORE_IRQPRI_PRI 3 7) 5).put CORE_STATUS_IE 1

/-- CUSTOM2 valid, at the microword MOVI u3, 77 with END. -/
def wMic : State :=
  ((xk w0 fun d => { d with ustore := [(6, 2 ^ 24 + 3 * 2 ^ 22 + 5 * 2 ^ 17 + 77 * 2 ^ 7)] }).put (CORE_DTE_VALID 2) 1).put
    (CORE_DTE_ENTRY 2) 6

/-- In MADE under power-on reset, with an image of four bytes signed under the private key 2. -/
def wImg : State :=
  let s := (State.reset.fill 0x20010000 (leBytes 4 0x46584431 ++ leBytes 4 4)).fill 0x20010010
    (beBytes 32 0x7cf27b188d034f7e8a52380304b51ac3c08969e277f21b35a60b48fc47669978 ++
      beBytes 32 0x7775510db8ed040293d9ac69f7430dbba7dade63ce982299e04b79d227873d1)
  let s := (s.fill 0x20010050
    (beBytes 32 0x6b17d1f2e12c4247f8bce6e563a440f277037d812deb33a0f4a13945d898c296 ++
      beBytes 32 0x8968ba6fe12c368f9a07c4f70a387d659f3c18d674baa5391a1dd08c5242462e)).fill 0x20010100 [1, 2, 3, 4]
  sk s fun c => { c with fuses := 1 }

/-- A syllable with its predicate p0, stopping its bundle. -/
def sy (d a b : Nat) : Syl := ⟨true, 0, BitVec.ofNat 5 d, BitVec.ofNat 5 a, BitVec.ofNat 5 b, 0, none⟩


/-- The link engine UP with port U one lane, POS 5 fixed. -/
def wLnk : State :=
  { ((((w0.put LNK_STAT_STATE 3).put LNK_STAT_PU 2).put LNK_STAT_LU 1).put LNK_CFG_POSMODE 1).put LNK_POS_POS 5 with
    lnk := { w0.lnk with joined := [0], everUp := [0], procJoined := true } }

/-- A frame is open whose header has passed; table 1 is live with eight words at offset 0, all rights. -/
def wSlot : State :=
  (((({ wLnk with lnk := { wLnk.lnk with frame := some ⟨0, true, some true, 128, 4, false⟩ } }).put (TBL_LDESC1_COUNT 1) 8).put
    (TBL_LDESC0_MR 1) 1).put (TBL_LDESC0_MW 1) 1).put TBL_READY_READY 2

/-- A slot header with its check byte: position 5, type, table 1, entry 2, two words. -/
def shdr (ty : Nat) : SlotHdr :=
  let b := 5 + ty * 4096 + 1 * 2 ^ 16 + 2 * 2 ^ 20 + 2 * 2 ^ 36
  ⟨BitVec.ofNat 56 b, BitVec.ofNat 8 (crc8 (leBytes 7 b))⟩

/-- A header of bytes with its HCRC. -/
def chdr (l : List Byte) : List Byte := l ++ [BitVec.ofNat 8 (crc8 l)]

/-- A command packet's first eight bytes. -/
def phdr (op flags tag len : Nat) : List Byte :=
  let h := [BitVec.ofNat 8 op, BitVec.ofNat 8 flags] ++ leBytes 2 tag ++ leBytes 2 len
  h ++ leBytes 2 (crc16 h)

/-- A packet in a place, without AUTH: opcode, flags, payload, principal. -/
def plc (op flags prin : Nat) (pay : List Byte) : Place :=
  ⟨phdr op flags 0x55 pay.length ++ pay, prin, none, false, false, 7, false⟩

/-- Place 0 holds it, in FIELDED. -/
def wCmd (pl : Place) : State :=
  { w0 with cmd := { w0.cmd with places := w0.cmd.places.set 0 (some pl) }, sec := { w0.sec with fuses := 3 } }

/-- A set of the clock over midnight of a leap day, which alarm 0 matches and the jump passes. -/
def jumpDay (catching : Nat) : State :=
  tk (((((w0.put RTC_STAT_CPEND 1).put (RTC_ALMCFG_ARM 0) 1).put (RTC_ALMCFG_MDAY 0) 1).put (RTC_ALMT1_DAY 0) 29).put (RTC_ALMCFG_CATCH 0) catching) 
    fun k => { k with t := ⟨255, 59, 59, 23, 6, 28, 2, 24⟩, staged := some (⟨0, 0, 0, 0, 0, 1, 3, 24⟩, none) }
/-- The same jump with an alarm that no second meets. -/
def jumpSec : State :=
  tk (((((w0.put RTC_STAT_CPEND 1).put (RTC_ALMCFG_ARM 0) 1).put (RTC_ALMCFG_MSEC 0) 1).put (RTC_ALMT0_SEC 0) 63).put (RTC_ALMCFG_CATCH 0) 0) 
    fun k => { k with t := ⟨255, 59, 59, 23, 6, 28, 2, 24⟩, staged := some (⟨0, 0, 0, 0, 0, 1, 3, 24⟩, none) }

theorem wit_queueFront :
    ∃ s : State, s.pending = [] :=
  ⟨State.reset, rfl⟩

theorem wit_memoryFormKept :
    ∃ s t : State, s.memWf = true ∧ step s = .next t :=
  ⟨{ wMem with pending := [.bufferedStoreComplete] }, _, by decide +kernel, rfl⟩

theorem wit_heldInReset :
    (∃ s t : State, s.heldInReset = true ∧ step s = .next t) ∧
    (∃ s t : State, s.heldInReset = true ∧ s.pending.head? = some .supplyLoss ∧ step s = .next t) :=
  ⟨⟨{ State.reset with pending := [.resetnLow] }, _, by decide +kernel, rfl⟩,
   ⟨{ State.reset with pending := [.supplyLoss] }, _, by decide +kernel, rfl, rfl⟩⟩

theorem wit_aluResults :
    ([0x00, 0x01, 0x02, 0x03, 0x04].all (fun op => w0.canIssue 0 op (sy 1 2 3)) = true ∧ [0x05, 0x06].all (fun op => w0.canIssue 1 op (sy 1 2 0)) = true ∧ w0.guarded (sy 1 2 3) = true) ∧
    ([0x08, 0x09, 0x0A, 0x0B, 0x0C, 0x0D, 0x0E, 0x10, 0x12, 0x14, 0x16].all (fun op => w0.canIssue 0 op (sy 1 2 3)) = true ∧ [0x0F, 0x11, 0x13, 0x15, 0x17].all (fun op => w0.canIssue 1 op (sy 1 2 0)) = true ∧ w0.guarded (sy 1 2 3) = true) :=
  ⟨by decide +kernel,
   by decide +kernel⟩

theorem wit_aluSelections :
    [0x18, 0x19, 0x1A, 0x1B, 0x1E, 0x1F, 0x22].all (fun op => w0.canIssue 0 op (sy 1 2 3)) = true ∧ [0x1C, 0x1D, 0x20].all (fun op => w0.canIssue 1 op (sy 1 2 0)) = true ∧ w0.canIssue 0 0x21 (sy 1 0 3) = true ∧ w0.guarded (sy 1 2 3) = true :=
  by decide +kernel

theorem wit_comparesAndPredicates :
    [0x28, 0x29, 0x2A, 0x2B, 0x2C, 0x2D, 0x30, 0x31, 0x32, 0x33, 0x34, 0x35, 0x38, 0x39, 0x3A, 0x3B].all (fun op => w0.canIssue 0 op (sy 1 2 3)) = true ∧ [0x28, 0x30].all (fun op => w0.canIssue 0 op (sy 9 2 3) && w0.canIssue 0 op (sy 17 2 3)) = true ∧ w0.canIssue 1 0x3C (sy 1 2 0) = true ∧ w0.guarded (sy 1 2 3) = true :=
  by decide +kernel

theorem wit_multiplyAndMoveAccumulators :
    [0x00, 0x01, 0x02, 0x03].all (fun op => w0.canIssue 3 op (sy 1 2 3)) = true ∧ [0x11, 0x12, 0x13].all (fun op => w0.canIssue 4 op (sy 1 2 0)) = true ∧ w0.canIssue 3 0x14 (sy 1 0 0) = true ∧ w0.canIssue 4 0x10 (sy 1 2 3) = true ∧ w0.guarded (sy 1 2 3) = true :=
  by decide +kernel

theorem wit_accumulate :
    [0x08, 0x09, 0x0A, 0x0B, 0x0C, 0x0D, 0x0E, 0x0F, 0x15, 0x16, 0x17].all (fun op => w0.canIssue 3 op (sy 1 2 3) && w0.canIssue 4 op ({ sy 1 2 3 with mod := 8 })) = true ∧ w0.guarded (sy 1 2 3) = true :=
  by decide +kernel

theorem wit_loadsDeliver :
    [0x00, 0x01, 0x02, 0x03, 0x04, 0x05, 0x08, 0x09, 0x0A, 0x0B, 0x0C, 0x0D, 0x10, 0x11, 0x12, 0x13, 0x14, 0x15].all (fun op => wMem.canIssue 2 op (sy 2 4 0) && match lsuOp op, accOf wMem (only 2 op (sy 2 4 0)) with | some l, some p => l.load && decide (p.addr % l.size = 0) && inSram p.addr && decide (accGuard wMem p = .ok) | _, _ => false) = true ∧ wMem.guarded (sy 2 4 0) = true :=
  by decide +kernel

theorem wit_storesReach :
    ([0x18, 0x19, 0x1A, 0x1B, 0x1C, 0x1D, 0x1E, 0x1F, 0x20, 0x21, 0x22, 0x23, 0x24, 0x25, 0x26].all (fun op => [wMem, wMem.put CORE_EXCCFG_STBUF 0].all fun s => s.canIssue 2 op (sy 2 4 0) && match lsuOp op, accOf s (only 2 op (sy 2 4 0)) with | some l, some p => !l.load && decide (p.addr % l.size = 0) && inSram p.addr && decide (accGuard s p = .ok) | _, _ => false) = true ∧ wMem.guarded (sy 2 4 0) = true) ∧
    ((let s := xk w0 fun d => { d with g := d.g.set 4 0x40002224 }; s.canIssue 2 0x1E (sy 2 4 0) && s.guarded (sy 2 4 0) && s.on CORE_EXCCFG_STBUF && match lsuOp 0x1E, accOf s (only 2 0x1E (sy 2 4 0)) with | some l, some p => !l.load && !l.sat && l.size == 4 && p.addr == 0x40002224 && decide (accGuard s p = .ok) | _, _ => false) = true) :=
  ⟨by decide +kernel,
   by decide +kernel⟩

theorem wit_satstStoresTheClampedWord :
    [0x24, 0x25, 0x26].all (fun op => [wMem, wMem.put CORE_DSPCFG_GUARD 1].all fun s => s.canIssue 2 op (sy 2 4 0) && match accOf s (only 2 op (sy 2 4 0)) with | some p => decide (p.addr % 4 = 0) && decide (accGuard s p = .ok) && s.on CORE_EXCCFG_STBUF | none => false) = true ∧ wMem.guarded (sy 2 4 0) = true :=
  by decide +kernel

theorem wit_longInstructionsMoveWords :
    ([0x30, 0x31].all (fun op => wPrec.canIssue 2 op (sy 2 4 3) && (List.range 2).all fun k => decide (access wPrec .core (coreTag wPrec) (0x10001000 + 4 * k) 4 0 0 = .ok) && decide (access wPrec .core (coreTag wPrec) (0x10001000 + 4 * k) 4 1 0 = .ok)) = true ∧ (gA wPrec (sy 2 4 3)).toNat = 0x10001000 ∧ wPrec.on CORE_EXCCFG_STBUF = false ∧ wPrec.guarded (sy 2 4 3) = true) ∧
    (wPrec.canIssue 2 0x32 (sy 5 4 3) = true ∧ (gA wPrec (sy 5 4 3)).toNat = 0x10001000 ∧ (rd wPrec 5).toNat = 0x10002000 ∧ (gB wPrec (sy 5 4 3)).toNat = 5 ∧ (List.range 5).all (fun k => decide (access wPrec .core (coreTag wPrec) (0x10001000 + k) 1 0 0 = .ok) && decide (access wPrec .core (coreTag wPrec) (0x10002000 + k) 1 1 0 = .ok)) = true) ∧
    (w0.canIssue 2 0x38 (sy 0 0 0) = true ∧ w0.guarded (sy 0 0 0) = true) :=
  ⟨by decide +kernel,
   by decide +kernel,
   by decide +kernel⟩

theorem wit_callAndReturnStack :
    ([2, 3].all (fun op => w0.canIssue 5 op (sy 0 1 0) && decide (target w0 w0.dx.pc (only 5 op (sy 0 0 0)) % 4 = 0) && decide (rsDepth w0 = 0)) = true ∧ w0.guarded (sy 0 0 0) = true) ∧
    ((w0.put CORE_RSP_DEPTH 3).canIssue 5 4 (sy 0 0 0) = true ∧ rsDepth (w0.put CORE_RSP_DEPTH 3) = 3 ∧ (w0.put CORE_RSP_DEPTH 3).guarded (sy 0 0 0) = true) ∧
    (w1.canIssue 5 4 (sy 0 0 0) = true ∧ rsDepth w1 = 0 ∧ w1.on CORE_RSCFG_OVF = false ∧ w1.on CORE_STATUS_EL = false ∧ (w1.put CORE_RSP_DEPTH 16).canIssue 5 2 (sy 0 0 0) = true ∧ rsDepth (w1.put CORE_RSP_DEPTH 16) = 16 ∧ target w1 w1.dx.pc (only 5 2 (sy 0 0 0)) % 4 = 0) :=
  ⟨by decide +kernel,
   by decide +kernel,
   by decide +kernel⟩

theorem wit_branchesReturnsAndTraps :
    ([0, 1].all (fun op => w0.canIssue 5 op (sy 0 1 0) && decide (target w0 w0.dx.pc (only 5 op (sy 0 1 0)) % 4 = 0)) = true ∧ w0.canIssue 5 5 (sy 0 0 0) = true ∧ coreLvl w0 = 2 ∧ w1.canIssue 5 6 (sy 0 0 0) = true ∧ w1.on CORE_STATUS_EL = false ∧ w0.guarded (sy 0 0 0) = true) ∧
    ((wS.put CORE_STATUS_PPL 0).canIssue 5 5 (sy 0 0 0) = true ∧ coreLvl (wS.put CORE_STATUS_PPL 0) = 1) :=
  ⟨by decide +kernel,
   by decide +kernel⟩

theorem wit_specialRegisterMoves :
    ([(0x20, wS), (0x30, wS), (0x37, wS), (0x2D, w0), (0x90, w0), (0xA5, w0), (0x22, w0), (0x2C, w0)].all (fun p => p.2.canIssue 6 0x11 { sy 0 4 (p.1 / 16) with mod := BitVec.ofNat 4 (p.1 % 16) }) = true ∧ wS.guarded (sy 0 0 0) = true) ∧
    (w0.canIssue 6 0x10 (sy 1 0 8) = true ∧ w0.canIssue 6 0x11 (sy 0 1 8) = true ∧ w0.guarded (sy 1 0 8) = true ∧ imm9 (sy 1 0 8) = 0x80 ∧ coreLevel 0x80 false = some 0 ∧ coreLevel 0x80 true = some 0) :=
  ⟨by decide +kernel,
   by decide +kernel⟩

theorem wit_sleepRepeatAndCustom :
    ((w0.put PWR_WAKESRC_SRC 256).canIssue 6 0x12 { sy 0 0 0 with mod := 2 } = true ∧ coreLvl (w0.put PWR_WAKESRC_SRC 256) = 2 ∧ (w0.put PWR_WAKESRC_SRC 256).on PWR_LVLSTAT_BUSY = false ∧ (w0.put PWR_WAKESRC_SRC 256).pwr.lvlQueue = none ∧ (w0.put PWR_WAKESRC_SRC 256).pwr.pendReset = none ∧ (w0.put PWR_WAKESRC_SRC 256).pwr.withheld = false ∧ (w0.put PWR_WAKESRC_SRC 256).bit PWR_WAKESRC_SRC 8 = true ∧ bitOf (wakeEn (w0.put PWR_WAKESRC_SRC 256)) 8 = true ∧ (w0.put PWR_WAKESRC_SRC 256).guarded { sy 0 0 0 with mod := 2 } = true) ∧
    (w0.canIssue 6 0x12 (sy 0 0 0) = true ∧ w0.canIssue 6 0x12 { sy 0 0 0 with mod := 2 } = true ∧ coreLvl w0 = 2 ∧ w0.on PWR_LVLSTAT_BUSY = false ∧ w0.pwr.lvlQueue = none ∧ w0.pwr.pendReset = none ∧ w0.get PWR_WAKESRC_SRC = 0 ∧ w0.get CORE_IRQEN_LINES = 0 ∧ w0.guarded (sy 0 0 0) = true) ∧
    (w0.canIssue 6 0x13 (sy 0 0 3) = true ∧ w0.canIssue 6 0x14 (sy 0 3 0) = true ∧ w0.guarded (sy 0 0 3) = true) ∧
    (wMic.canIssue 6 2 (sy 1 2 3) = true ∧ wMic.on (CORE_DTE_VALID 2) = true ∧ wMic.get (CORE_DTE_PRIV 2) ≤ coreLvl wMic ∧ Sparse.look 0 wMic.dx.ustore (wMic.get (CORE_DTE_ENTRY 2)) = 2 ^ 24 + 3 * 2 ^ 22 + 5 * 2 ^ 17 + 77 * 2 ^ 7 ∧ wMic.dx.uBad = [] ∧ wMic.guarded (sy 1 2 3) = true) :=
  ⟨by decide +kernel,
   by decide +kernel,
   by decide +kernel,
   by decide +kernel⟩

theorem wit_falsePredicateHasNoEffect :
    coreSyl (.trap { sy 0 0 1 with pred := 3 }) = some (5, 6, { sy 0 0 1 with pred := 3 }) ∧ w0.canIssue 5 6 { sy 0 0 1 with pred := 3 } = true ∧ w0.guarded { sy 0 0 1 with pred := 3 } = false :=
  by decide +kernel

theorem wit_bundleReadsBeforeItWrites :
    w0.canIssue 1 0x20 (sy 1 2 0) = true ∧ aluLegal 0x20 { sy 2 1 0 with stop := false } = true ∧ w0.guarded (sy 1 2 0) = true ∧ w0.dx.pc + 8 ≤ 0x10200000 ∧ (fetchRefused w0 w0.dx.pc 2).isNone = true :=
  by decide +kernel

theorem wit_loadLandsOneBundleLater :
    ({ w0 with dx := { w0.dx with loads := [] } } : State).canIssue 1 0x20 (sy 7 7 0) = true ∧ w0.guarded (sy 7 7 0) = true ∧ ({ w0 with dx := { w0.dx with loads := [(7, 9)] } } : State).dx.loads = [(7, 9)] :=
  by decide +kernel

theorem wit_repeatedBundleRuns :
    w0.canIssue 0 0x02 (sy 3 3 1) = true ∧ ({ w0 with dx := { w0.dx with rep := some ⟨5, w0.dx.pc, 0⟩ } } : State).guarded (sy 3 3 1) = true :=
  by decide +kernel

theorem wit_preciseExceptionsAreTaken :
    (coreSyl (.add false { sy 1 2 3 with mod := 1 }) = some (0, 0, { sy 1 2 3 with mod := 1 }) ∧ w1.canFetch { sy 1 2 3 with mod := 1 } = true ∧ sylLegal 0 0 { sy 1 2 3 with mod := 1 } = false ∧ w1.on CORE_STATUS_EL = false) ∧
    (wU.canIssue 6 0x12 (sy 0 0 0) = true ∧ coreLvl wU = 0 ∧ wU.on CORE_STATUS_EL = false ∧ wU.guarded (sy 0 0 0) = true) ∧
    (wU.canIssue 5 5 (sy 0 0 0) = true ∧ wU.canIssue 6 0x10 (sy 1 0 1) = true ∧ coreLevel (imm9 (sy 1 0 1)) false = some 1 ∧ wU.canIssue 6 0x11 (sy 0 1 1) = true ∧ coreLevel (imm9 (sy 0 1 1)) true = some 1 ∧ wU.guarded (sy 1 0 1) = true ∧ (((wS.put CORE_STATUS_EL 0).put CORE_STATUS_PPL 2).put MEM_RGCFG_DEFS 7).canIssue 5 5 (sy 0 0 0) = true ∧ coreLvl ((wS.put CORE_STATUS_EL 0).put CORE_STATUS_PPL 2) = 1 ∧ ((wU.put (CORE_DTE_VALID 2) 1).put (CORE_DTE_PRIV 2) 1).canIssue 6 2 (sy 1 2 3) = true ∧ coreLvl ((wU.put (CORE_DTE_VALID 2) 1).put (CORE_DTE_PRIV 2) 1) = 0) ∧
    (w1.canIssue 2 4 { sy 2 0 0 with limm := some 0x1000100, mod := 1 } = true ∧ (match accOf w1 (only 2 4 { sy 2 0 0 with limm := some 0x1000100, mod := 1 }) with | some p => decide (p.addr % p.lsu.size ≠ 0) | none => false) = true) :=
  ⟨by decide +kernel,
   by decide +kernel,
   by decide +kernel,
   by decide +kernel⟩

theorem wit_handlingLevels :
    (wIrq.on CORE_STATUS_EL = false) ∧ asyncKind wIrq = some (16 + 31, some 6) :=
  by decide +kernel

theorem wit_interruptChoice :
    (wIrq.por = false ∧ coreRuns wIrq = true ∧ wIrq.dx.bundle = [] ∧ wIrq.dx.rep = none ∧ wIrq.dx.loads = [] ∧ wIrq.on CORE_STATUS_EL = false ∧ wIrq.dx.mcPend = false ∧ wIrq.dx.nmiWd = false ∧ wIrq.dx.nmiTamper = false ∧ bestLine wIrq = some 31) ∧
    (bestLine w1 = none ∧ coreRuns w1 = true ∧ w1.on CORE_STATUS_EL = false) :=
  ⟨by decide +kernel,
   by decide +kernel⟩

theorem wit_unrefusableEntries :
    ({ w1 with dx := { w1.dx with mcPend := true } } : State).on CORE_STATUS_EL = false ∧ coreRuns w1 = true ∧ w1.dx.bundle = [] ∧ w1.dx.rep = none ∧ w1.dx.loads = [] ∧ w1.dx.stores = [] ∧ w1.por = false ∧ w1.dx.armShadow = false ∧ w1.dx.armProg = false ∧ w1.dx.mcPend = false ∧ ({ w1 with dx := { w1.dx with nmiWd := true } } : State).dx.nmiWd = true ∧ w0.on CORE_STATUS_EL = true ∧ ({ w1 with dx := { w1.dx with rep := some ⟨3, 0x10000000, 0⟩ } } : State).dx.rep ≠ none :=
  by decide +kernel

theorem wit_storeBufferAndHoldCapacitor :
    (∃ (s : State) (st : Store) (rest : List Store), s.por = false ∧ s.dx.stores = st :: rest ∧ st.size = 4 ∧ st.addr % 4 = 0 ∧ inSram st.addr = true ∧ inLiveCopy s st.addr = false ∧ s.ms.wipeQ = [] ∧ s.dx.mcPend = false) ∧
    (∃ (s : State) (st : Store) (rest : List Store), s.por = false ∧ s.dx.stores = st :: rest ∧ st.size = 4 ∧ inSram st.addr = true ∧ inLiveCopy s st.addr = true ∧ s.on CORE_BEINFO_VALID = false) ∧
    (∃ (s : State) (st : Store) (rest : List Store), s.por = false ∧ s.dx.stores = st :: rest ∧ st.size = 4 ∧ st.addr % 4 = 0 ∧ inNv st.addr = true ∧ s.on NVS_STAT_HOLDRDY = false ∧ s.nvs.moving = none ∧ s.dx.mcPend = false ∧ s.boot = none) ∧
    (∃ (s : State) (st : Store) (rest : List Store), s.por = false ∧ s.dx.stores = st :: rest ∧ st.size = 4 ∧ inNv st.addr = true ∧ s.on NVS_STAT_HOLDRDY = false ∧ s.nvs.moving = none ∧ s.on CORE_BEINFO_VALID = false) :=
  ⟨⟨{ w0 with dx := { w0.dx with stores := [⟨0x10001000, 4, 77, 0, 8⟩] } }, ⟨0x10001000, 4, 77, 0, 8⟩, [], by decide +kernel⟩,
   ⟨{ (w0.put (TBL_LDESC1_COUNT 0) 8) with dx := { w0.dx with stores := [⟨0x10200004, 4, 77, 0, 8⟩] } }, ⟨0x10200004, 4, 77, 0, 8⟩, [], by decide +kernel⟩,
   ⟨{ (w0.put NVS_STAT_HOLDRDY 0) with dx := { w0.dx with stores := [⟨0x20020000, 4, 77, 0, 8⟩] } }, ⟨0x20020000, 4, 77, 0, 8⟩, [], by decide +kernel⟩,
   ⟨{ (w0.put NVS_STAT_HOLDRDY 0) with dx := { w0.dx with stores := [⟨0x20020000, 4, 77, 0, 8⟩] } }, ⟨0x20020000, 4, 77, 0, 8⟩, [], by decide +kernel⟩⟩

theorem wit_levelRequestsAndTransitions :
    (∃ (s : State) (m : Master) (v : Word), s.por = false ∧ s.reaches m 0x40000004 1 v.toNat = true ∧ s.on PWR_LVLSTAT_BUSY = false ∧ s.pwr.entry = none ∧ s.get PWR_DOMSTAT_STATE = 0 ∧ v.toNat % 8 ≤ 2) ∧
    (∃ (s : State) (m : Master) (v : Word) (a : Nat), s.por = false ∧ s.reaches m 0x40000004 1 v.toNat = true ∧ s.on PWR_LVLSTAT_BUSY = false ∧ s.pwr.entry = none ∧ s.get PWR_DOMSTAT_STATE = 0 ∧ 3 ≤ v.toNat % 8 ∧ v.toNat % 8 ≤ 5 ∧ v.toNat / 256 % 65536 ≠ 0 ∧ decide81 s 2 (levelAmount s (v.toNat % 8) (v.toNat / 256 % 65536)) = (stOk, a)) ∧
    (∃ (s : State) (m : Master) (v : Word), s.por = false ∧ s.reaches m 0x40000004 1 v.toNat = true ∧ (5 < v.toNat % 8 ∨ (3 ≤ v.toNat % 8 ∧ v.toNat / 256 % 65536 = 0))) ∧
    (∃ (s : State) (m : Master) (v : Word) (r a : Nat), s.por = false ∧ s.reaches m 0x40000004 1 v.toNat = true ∧ s.on PWR_LVLSTAT_BUSY = false ∧ s.pwr.entry = none ∧ s.get PWR_DOMSTAT_STATE = 0 ∧ 3 ≤ v.toNat % 8 ∧ v.toNat % 8 ≤ 5 ∧ v.toNat / 256 % 65536 ≠ 0 ∧ decide81 s 2 (levelAmount s (v.toNat % 8) (v.toNat / 256 % 65536)) = (r, a) ∧ r ≠ stOk) ∧
    (∃ (s : State) (m : Master) (v : Word), s.por = false ∧ s.reaches m 0x40000004 1 v.toNat = true ∧ s.on PWR_LVLSTAT_BUSY = true ∧ v.toNat % 8 ≤ 2) ∧
    (∃ (s : State), s.por = false ∧ s.on PWR_LVLSTAT_BUSY = true ∧ s.pwr.lvlQueue = none ∧ s.pwr.entry = none) :=
  ⟨⟨w0.put PWR_LVLSTAT_CUR 2, .core, 1, by decide +kernel⟩,
   ⟨w0.put HRV_EAVAIL_EAVAIL 1000000, .core, 0xA03, 30, by decide +kernel⟩,
   ⟨w0, .core, 3, by decide +kernel⟩,
   ⟨w0, .core, 0xA03, 9, 0, by decide +kernel⟩,
   ⟨w0.put PWR_LVLSTAT_BUSY 1, .core, 1, by decide +kernel⟩,
   ⟨(w0.put PWR_LVLSTAT_BUSY 1).put PWR_LVLSTAT_TARGET 4, by decide +kernel⟩⟩

theorem wit_levelDurationExpiry :
    (∃ (s : State), s.por = false ∧ s.pwr.durOn = true ∧ s.pwr.lvlQueue = none ∧ s.on PWR_LVLSTAT_BUSY = false) ∧
    (∃ (s : State), s.por = false ∧ s.pwr.durOn = true ∧ s.pwr.lvlQueue = none ∧ s.on PWR_LVLSTAT_BUSY = true) ∧
    (∃ (s : State), s.por = false ∧ (s.pwr.durOn = false ∨ s.pwr.lvlQueue.isSome = true)) :=
  ⟨⟨{ (w0.put PWR_LVLSTAT_CUR 4) with pwr := { w0.pwr with durOn := true } }, by decide +kernel⟩,
   ⟨{ (w0.put PWR_LVLSTAT_BUSY 1) with pwr := { w0.pwr with durOn := true } }, by decide +kernel⟩,
   ⟨w0, by decide +kernel⟩⟩

theorem wit_sleepHandshake :
    (∃ (s : State) (e : Entry), s.por = false ∧ s.pwr.entry = some e ∧ e.wait = false ∧ e.answered = false ∧ naks s e.target ≠ [] ∧ s.pwr.pendReset = none) ∧
    (∃ (s : State) (e : Entry), s.por = false ∧ s.pwr.entry = some e ∧ e.wait = false ∧ e.answered = false ∧ naks s e.target = [] ∧ holds s e.target ≠ 0) ∧
    (∃ (s : State) (e : Entry), s.por = false ∧ s.pwr.entry = some e ∧ e.wait = false ∧ e.answered = false ∧ naks s e.target = [] ∧ holds s e.target = 0 ∧ s.pwr.pendReset = none ∧ s.get PWR_WAKESRC_SRC = 0 ∧ s.get CORE_IRQEN_LINES = 0) ∧
    (∃ (s : State) (src pt : Nat) (e : Entry), s.por = false ∧ s.pwr.entry = some e ∧ e.wait = false ∧ e.answered = false ∧ naks s e.target = [] ∧ holds s e.target = 0 ∧ s.pwr.pendReset = none ∧ s.pwr.withheld = false ∧ s.get PWR_WAKESRC_SRC = 0 ∧ s.get CORE_IRQEN_LINES = 0 ∧ 0 < src ∧ src < 10 ∧ 2 ≤ pt ∧ pt ≤ 3 ∧ bitOf (wakeEn s) src = true ∧ bitOf (wakeActs s (e.target + 1)) src = true) ∧
    (∃ (s : State) (e : Entry), s.por = false ∧ s.pwr.entry = some e ∧ e.wait = false ∧ e.answered = false ∧ naks s e.target = [] ∧ holds s e.target = 0 ∧ s.pwr.pendReset = none ∧ s.pwr.withheld = false ∧ s.get PWR_WAKESRC_SRC &&& wakeEn s &&& wakeActs s (e.target + 1) &&& 0xFFE ≠ 0) ∧
    (∃ (s : State) (k : Nat) (e : Entry), s.por = false ∧ s.pwr.entry = some e ∧ e.answered = true ∧ bitOf e.hold k = true ∧ e.hold ≠ 2 ^ k ∧ ackReady s k = true) ∧
    (∃ (s : State) (k : Nat) (e : Entry), s.por = false ∧ s.pwr.entry = some e ∧ e.answered = true ∧ e.hold = 2 ^ k ∧ ackReady s k = true ∧ s.pwr.pendReset = none ∧ s.get PWR_WAKESRC_SRC = 0 ∧ s.get CORE_IRQEN_LINES = 0) ∧
    (∃ (s : State) (k : Nat) (e : Entry), s.por = false ∧ s.pwr.entry = some e ∧ e.answered = true ∧ bitOf e.hold k = true ∧ k < 8 ∧ s.pwr.pendReset = none) :=
  ⟨⟨{ w0 with pwr := { w0.pwr with entry := some ⟨1, false, false, 0, false⟩ } }, ⟨1, false, false, 0, false⟩, by decide +kernel⟩,
   ⟨{ (((w0.put DRM_STAT_WIPING 0).put PWR_DOMSTAT_MEM 2)) with pwr := { w0.pwr with entry := some ⟨1, false, false, 0, false⟩ } }, ⟨1, false, false, 0, false⟩, by decide +kernel⟩,
   ⟨{ (((w0.put DRM_STAT_WIPING 0).put PWR_DOMSTAT_MEM 1)) with pwr := { w0.pwr with entry := some ⟨2, false, false, 0, false⟩ } }, ⟨2, false, false, 0, false⟩, by decide +kernel⟩,
   ⟨{ (((w0.put DRM_STAT_WIPING 0).put PWR_DOMSTAT_MEM 1)) with pwr := { w0.pwr with entry := some ⟨1, false, false, 0, false⟩ } }, 8, 2, ⟨1, false, false, 0, false⟩, by decide +kernel⟩,
   ⟨{ (((w0.put DRM_STAT_WIPING 0).put PWR_DOMSTAT_MEM 1).put PWR_WAKESRC_SRC 256) with pwr := { w0.pwr with entry := some ⟨1, false, false, 0, false⟩ } }, ⟨1, false, false, 0, false⟩, by decide +kernel⟩,
   ⟨{ w0 with pwr := { w0.pwr with entry := some ⟨1, false, true, 18, true⟩ } }, 1, ⟨1, false, true, 18, true⟩, by decide +kernel⟩,
   ⟨{ w0 with pwr := { w0.pwr with entry := some ⟨1, false, true, 2, true⟩ } }, 1, ⟨1, false, true, 2, true⟩, by decide +kernel⟩,
   ⟨{ w0 with pwr := { w0.pwr with entry := some ⟨1, false, true, 18, true⟩ } }, 4, ⟨1, false, true, 18, true⟩, by decide +kernel⟩⟩

theorem wit_wakesAndDomains :
    (∃ (s : State) (src : Nat), s.por = false ∧ s.get PWR_DOMSTAT_STATE = 0 ∧ s.pwr.entry = none ∧ 0 < src ∧ src < 12 ∧ src ≠ 10 ∧ bitOf (wakeEn s) src = true) ∧
    (∃ (s : State) (src : Nat), s.por = false ∧ 1 ≤ s.get PWR_DOMSTAT_STATE ∧ s.pwr.entry = none ∧ 0 < src ∧ src < 12 ∧ src ≠ 10 ∧ bitOf (wakeEn s) src = true ∧ bitOf (wakeActs s (s.get PWR_DOMSTAT_STATE)) src = true ∧ s.pwr.withheld = false) ∧
    (∃ (s : State), s.por = false ∧ s.pwr.withheld = true ∧ s.boot = none ∧ s.pwr.entry = none ∧ s.get PWR_WAKESRC_SRC &&& wakeEn s &&& wakeActs s (s.get PWR_DOMSTAT_STATE) &&& 0xFFE = 0 ∧ s.get CORE_IRQEN_LINES = 0) ∧
    (∃ (s : State), s.por = false ∧ s.pwr.withheld = true ∧ s.boot = none ∧ s.pwr.entry = none ∧ 1 ≤ s.get PWR_DOMSTAT_STATE ∧ s.get PWR_WAKESRC_SRC &&& wakeEn s &&& wakeActs s (s.get PWR_DOMSTAT_STATE) &&& 0xFFE ≠ 0) ∧
    (∃ (s : State), s.por = false ∧ 2 ≤ s.get PWR_DOMSTAT_STATE ∧ s.get PWR_DOMSTAT_SYS < 2) ∧
    (∃ (s : State), s.por = false) ∧
    (∃ (s : State), s.por = false) ∧
    (∃ (s : State), s.por = false ∧ s.get PWR_DOMSTAT_SYS = 2) ∧
    (∃ (s : State), s.por = false ∧ s.get PWR_DOMSTAT_STATE = 2 ∧ s.on DRM_STAT_WIPING = false ∧ s.on DRM_SESS_OPENST = false ∧ s.get PWR_DOMSTAT_MEM = 2) ∧
    (∃ (s : State) (k : Nat), s.por = false ∧ 3 ≤ s.get PWR_DOMSTAT_STATE ∧ s.on DRM_STAT_WIPING = false ∧ s.on DRM_SESS_OPENST = false ∧ s.get PWR_DOMSTAT_MEM = 2 ∧ k = s.pwr.keepLat % 65536) ∧
    (∃ (s : State), s.por = false ∧ s.on EPD_STAT_HVON = false ∧ s.on EPD_STAT_INITBUSY = false) ∧
    (∃ (s : State), s.por = false ∧ s.get PWR_DOMSTAT_STATE = 4 ∧ s.pwr.entry = none ∧ s.pwr.withheld = false ∧ s.get LNK_STAT_STATE = 1 ∧ s.on LNK_STAT_FLOORLOCK = false ∧ s.on LNK_STAT_BACKOFF = false ∧ activityActs s = true ∧ (decide81 s 4 (s.get (HRV_CLSAMT_AMOUNT 4))).1 = stOk) :=
  ⟨⟨w0, 8, by decide +kernel⟩,
   ⟨w0.put PWR_DOMSTAT_STATE 3, 8, by decide +kernel⟩,
   ⟨{ (w0.put PWR_DOMSTAT_STATE 4) with pwr := { w0.pwr with withheld := true } }, by decide +kernel⟩,
   ⟨{ ((w0.put PWR_DOMSTAT_STATE 4).put PWR_WAKESRC_SRC 0x100) with pwr := { w0.pwr with withheld := true } }, by decide +kernel⟩,
   ⟨(w0.put PWR_DOMSTAT_STATE 3).put PWR_DOMSTAT_SYS 0, by decide +kernel⟩,
   ⟨w0, by decide +kernel⟩,
   ⟨w0, by decide +kernel⟩,
   ⟨(w0.put PWR_DOMSTAT_STATE 3).put PWR_DOMSTAT_SYS 2, by decide +kernel⟩,
   ⟨(fun s : State => { s with ms := { s.ms with ckl := [⟨2, List.replicate 32 7, true⟩] } }) (((w0.put PWR_DOMSTAT_STATE 2).put PWR_DOMSTAT_MEM 2).put DRM_STAT_WIPING 0), by decide +kernel⟩,
   ⟨(fun s : State => { s with ms := { s.ms with ckl := [⟨2, List.replicate 32 7, true⟩] } }) ({ ((w0.put PWR_DOMSTAT_STATE 3).put PWR_DOMSTAT_MEM 2).put DRM_STAT_WIPING 0 with pwr := { w0.pwr with keepLat := 65539 } }), 3, by decide +kernel⟩,
   ⟨w0.put PWR_DOMSTAT_PIX 1, by decide +kernel⟩,
   ⟨((((w0.put PWR_DOMSTAT_STATE 4).put LNK_STAT_STATE 1).put PWR_CFG_LISTEN 1).put HRV_EAVAIL_EAVAIL 1000000), by decide +kernel⟩⟩

theorem wit_supplyCrossings :
    (∃ (s : State), s.por = false ∧ s.on HRV_STAT_SHUNT = false) ∧
    (∃ (s : State), s.por = false) ∧
    (∃ (s : State), s.por = false ∧ s.on HRV_STAT_SRC = false ∧ s.on HRV_STAT_PRIMOK = true ∧ s.on HRV_STAT_CAPBUSY = false) ∧
    (∃ (s : State), s.por = false ∧ s.on HRV_STAT_SRC = false ∧ s.on HRV_STAT_PRIMOK = true ∧ s.on HRV_STAT_CAPBUSY = true) ∧
    (∃ (s : State), s.por = false ∧ s.on HRV_STAT_SRC = true) ∧
    (∃ (s : State) (st : Store) (rest : List Store), s.por = false ∧ s.on HRV_STAT_SRC = true ∧ s.dx.stores = st :: rest ∧ st.size = 4 ∧ st.addr % 4 = 0 ∧ inNv st.addr = true ∧ s.on NVS_STAT_HOLDRDY = false ∧ s.nvs.moving = none ∧ s.dx.mcPend = false ∧ s.boot = none) ∧
    (∃ (s : State), s.por = false) ∧
    (∃ (s : State), s.por = false ∧ s.on HRV_STAT_SRC = true ∧ (1780 ≤ s.get HRV_SUPPLY_VSTO ∨ s.pwr.withheld = true)) ∧
    (∃ (s : State), s.por = false ∧ s.on HRV_STAT_SRC = true ∧ s.get HRV_SUPPLY_VSTO < 1780 ∧ s.pwr.withheld = false ∧ s.pwr.pendReset = none) ∧
    (∃ (s : State), s.por = false ∧ s.on HRV_STAT_SRC = false) ∧
    (∃ (s : State), s.por = true) :=
  ⟨⟨w0, by decide +kernel⟩,
   ⟨w0.put HRV_STAT_SHUNT 1, by decide +kernel⟩,
   ⟨w0.put HRV_STAT_PRIMOK 1, by decide +kernel⟩,
   ⟨(w0.put HRV_STAT_PRIMOK 1).put HRV_STAT_CAPBUSY 1, by decide +kernel⟩,
   ⟨w0.put HRV_STAT_SRC 1, by decide +kernel⟩,
   ⟨xk ((w0.put NVS_STAT_HOLDRDY 0).put HRV_STAT_SRC 1) fun d => { d with stores := [⟨0x20020000, 4, 5, 0, 8⟩] }, ⟨0x20020000, 4, 5, 0, 8⟩, [], by decide +kernel⟩,
   ⟨w0, by decide +kernel⟩,
   ⟨(w0.put HRV_STAT_SRC 1).put HRV_SUPPLY_VSTO 1790, by decide +kernel⟩,
   ⟨(w0.put HRV_STAT_SRC 1).put HRV_SUPPLY_VSTO 1700, by decide +kernel⟩,
   ⟨w0.put HRV_STAT_PRIMOK 1, by decide +kernel⟩,
   ⟨State.reset, by decide +kernel⟩⟩

theorem wit_supplyFailures :
    (∃ (s : State), s.por = false ∧ s.on HRV_STAT_SRC = false ∧ s.pwr.withheld = false ∧ s.pwr.pendReset = none) ∧
    (∃ (s : State) (c : Nat), s.por = false ∧ s.on HRV_STAT_SRC = false ∧ s.pwr.withheld = false ∧ s.pwr.pendReset = some c ∧ c ∈ [6, 7, 8, 9]) ∧
    (∃ (s : State) (vsto : Nat), s.por = false ∧ s.on HRV_STAT_SRC = true ∧ vsto < 1780 ∧ s.pwr.withheld = false ∧ s.pwr.pendReset = none) ∧
    (∃ (s : State) (vsto : Nat), s.por = false ∧ s.on HRV_STAT_SRC = true ∧ (1780 ≤ vsto ∨ s.pwr.withheld = true)) ∧
    (∃ (s : State) (_vsto : Nat), s.por = false ∧ s.on HRV_STAT_SRC = false) ∧
    (∃ (s : State), s.por = false) ∧
    (∃ (s : State), s.por = false ∧ s.on HRV_STAT_FLOOR = false) ∧
    (∃ (s : State), s.por = false) :=
  ⟨⟨w0, by decide +kernel⟩,
   ⟨{ w0 with pwr := { w0.pwr with entry := some ⟨1, false, false, 0, false⟩, pendReset := some 8 } }, 8, by decide +kernel⟩,
   ⟨w0.put HRV_STAT_SRC 1, 1700, by decide +kernel⟩,
   ⟨w0.put HRV_STAT_SRC 1, 1800, by decide +kernel⟩,
   ⟨w0.put HRV_STAT_PRIMOK 1, 1700, by decide +kernel⟩,
   ⟨w0, by decide +kernel⟩,
   ⟨{ (w0.put DRM_SESS_OPENST 1) with led := { w0.led with res := [⟨2, 0, 0, none, true, 0⟩] } }, by decide +kernel⟩,
   ⟨w0.put HRV_STAT_FLOOR 1, by decide +kernel⟩⟩

theorem wit_harvestSamples :
    (∃ (s : State) (n voc iop r p : Nat) (b : Bool) (c : Chan), s.por = false ∧ n < 4 ∧ s.bit HRV_CFG_EN n = true ∧ dropped s n = false ∧ s.on HRV_STAT_SHUNT = false ∧ s.on HRV_STAT_CAPBUSY = false ∧ voc ≤ 1500 ∧ iop ≤ 1200000 ∧ s.chan.length = 4 ∧ chanAt s n = c ∧ r = (voc - (min (voc * (if s.get (HRV_CHCFG_FRAC n) = 0 then 8 else s.get (HRV_CHCFG_FRAC n)) / 16) 400)) * 10 ^ 6 / iop ∧ (b = (c.ref.any fun q => iop = 0 || 3 * q < 2 * r || 2 * r < q)) ∧ (b = false ∨ c.drift < 15) ∧ 240 ≤ voc * (if s.get (HRV_CHCFG_FRAC n) = 0 then 8 else s.get (HRV_CHCFG_FRAC n)) ∧ p = (min (voc * (if s.get (HRV_CHCFG_FRAC n) = 0 then 8 else s.get (HRV_CHCFG_FRAC n)) / 16) 400) * iop / 1000 ∧ p ≤ 10000) ∧
    (∃ (s : State) (n voc iop : Nat), s.por = false ∧ n < 4 ∧ s.bit HRV_CFG_EN n = true ∧ dropped s n = false ∧ s.on HRV_STAT_SHUNT = false ∧ s.on HRV_STAT_CAPBUSY = false ∧ voc ≤ 1500 ∧ iop ≤ 1200000 ∧ s.chan.length = 4 ∧ ((chanAt s n).ref = none ∨ (chanAt s n).drift < 15) ∧ 240 ≤ voc * (if s.get (HRV_CHCFG_FRAC n) = 0 then 8 else s.get (HRV_CHCFG_FRAC n)) ∧ 10000 < (min (voc * (if s.get (HRV_CHCFG_FRAC n) = 0 then 8 else s.get (HRV_CHCFG_FRAC n)) / 16) 400) * iop / 1000) ∧
    (∃ (s : State) (n voc iop : Nat), s.por = false ∧ n < 4 ∧ s.bit HRV_CFG_EN n = true ∧ dropped s n = false ∧ s.on HRV_STAT_SHUNT = false ∧ s.on HRV_STAT_CAPBUSY = false ∧ voc ≤ 1500 ∧ iop ≤ 1200000 ∧ s.chan.length = 4 ∧ voc * (if s.get (HRV_CHCFG_FRAC n) = 0 then 8 else s.get (HRV_CHCFG_FRAC n)) < 240) ∧
    (∃ (s : State) (n voc iop q r : Nat), s.por = false ∧ n < 4 ∧ s.bit HRV_CFG_EN n = true ∧ dropped s n = false ∧ s.on HRV_STAT_SHUNT = false ∧ s.on HRV_STAT_CAPBUSY = false ∧ voc ≤ 1500 ∧ iop ≤ 1200000 ∧ s.chan.length = 4 ∧ chanAt s n = ⟨some q, 15⟩ ∧ r = (voc - (min (voc * (if s.get (HRV_CHCFG_FRAC n) = 0 then 8 else s.get (HRV_CHCFG_FRAC n)) / 16) 400)) * 10 ^ 6 / iop ∧ (iop = 0 ∨ 3 * q < 2 * r ∨ 2 * r < q) ∧ 240 ≤ voc * (if s.get (HRV_CHCFG_FRAC n) = 0 then 8 else s.get (HRV_CHCFG_FRAC n)) ∧ (min (voc * (if s.get (HRV_CHCFG_FRAC n) = 0 then 8 else s.get (HRV_CHCFG_FRAC n)) / 16) 400) * iop / 1000 ≤ 10000) ∧
    (∃ voc iop : Nat, 1500 < voc ∨ 1200000 < iop) :=
  ⟨⟨w0, 2, 600, 9000, 33333, 2700, false, ⟨none, 0⟩, by decide +kernel⟩,
   ⟨w0, 2, 600, 90000, by decide +kernel⟩,
   ⟨w0, 2, 20, 9000, by decide +kernel⟩,
   ⟨{ w0.put NVS_STAT_HOLDRDY 1 with chan := [⟨none, 0⟩, ⟨none, 0⟩, ⟨some 10, 15⟩, ⟨none, 0⟩] }, 2, 600, 9000, 10, 33333, by decide +kernel⟩,
   ⟨1501, 0, by decide⟩⟩

theorem wit_tickAndCapacitance :
    (∃ (s : State) (vsto vbat charge vio : Nat), s.por = false ∧ tickOk s vsto vbat = true ∧ vioOk s vio = true ∧ bitOf vio 1 = true ∧ vbat < 4096 ∧ s.led.chargeRem + charge < 3600 ∧ (s.boot = none ∨ (if s.on HRV_STAT_SRC then vbat else vsto) < 1800)) ∧
    (∃ (s : State) (vsto vbat charge vio : Nat) (st : Store) (rest : List Store), s.por = false ∧ tickOk s vsto vbat = true ∧ vioOk s vio = true ∧ bitOf vio 1 = true ∧ 1800 ≤ (if s.on HRV_STAT_SRC then vbat else vsto) ∧ s.led.chargeRem + charge < 3600 ∧ s.dx.stores = st :: rest ∧ st.size = 4 ∧ st.addr % 4 = 0 ∧ inNv st.addr = true ∧ s.on NVS_STAT_HOLDRDY = false ∧ s.nvs.moving = none ∧ s.dx.mcPend = false ∧ s.boot = none) ∧
    (∃ (s : State) (m : Master) (v : Word) (vsto : Nat), s.por = false ∧ s.reaches m 0x40001038 1 v.toNat = true ∧ v.toNat % 2 = 1 ∧ 2100 ≤ vsto ∧ vsto ≤ 4000 ∧ s.on HRV_STAT_SRC = false ∧ s.on HRV_STAT_CAPBUSY = false) ∧
    (∃ (s : State) (m : Master) (v : Word) (vsto : Nat), s.por = false ∧ s.reaches m 0x40001038 1 v.toNat = true ∧ v.toNat % 2 = 1 ∧ vsto ≤ 4000 ∧ (vsto < 2100 ∨ s.on HRV_STAT_SRC = true ∨ s.on HRV_STAT_CAPBUSY = true)) ∧
    (∃ (s : State) (v0 v1 v2 : Nat), s.por = false ∧ s.on HRV_STAT_CAPBUSY = true ∧ v0 ≤ 4000 ∧ v1 ≤ 4000 ∧ v2 ≤ 4000 ∧ 0 < (v1 - v2 : Int) - (v0 - v1) ∧ 470 ≤ (100 * (capT s : Int) / ((v1 - v2 : Int) - (v0 - v1))) ∧ (100 * (capT s : Int) / ((v1 - v2 : Int) - (v0 - v1))) ≤ 47000) ∧
    (∃ (s : State) (v0 v1 v2 : Nat), s.por = false ∧ s.on HRV_STAT_CAPBUSY = true ∧ v0 ≤ 4000 ∧ v1 ≤ 4000 ∧ v2 ≤ 4000 ∧ ((v1 - v2 : Int) - (v0 - v1) ≤ 0 ∨ (100 * (capT s : Int) / ((v1 - v2 : Int) - (v0 - v1))) < 470 ∨ 47000 < (100 * (capT s : Int) / ((v1 - v2 : Int) - (v0 - v1))))) ∧
    (∃ (s : State) (vsto vbat : Nat), tickOk s vsto vbat = false) ∧
    (∃ (s : State) (vsto : Nat), s.por = false ∧ 4000 < vsto) :=
  ⟨⟨w0, 3300, 3000, 20, 15, by decide +kernel⟩,
   ⟨xk (w0.put NVS_STAT_HOLDRDY 0) fun d => { d with stores := [⟨0x20020000, 4, 5, 0, 8⟩] }, 3300, 3000, 20, 15, ⟨0x20020000, 4, 5, 0, 8⟩, [], by decide +kernel⟩,
   ⟨w0, .core, 5, 2500, by decide +kernel⟩,
   ⟨w0, .core, 1, 2000, by decide +kernel⟩,
   ⟨w0.put HRV_STAT_CAPBUSY 1, 3000, 2990, 2950, by decide +kernel⟩,
   ⟨w0.put HRV_STAT_CAPBUSY 1, 3000, 2990, 2985, by decide +kernel⟩,
   ⟨w0, 4100, 3000, by decide +kernel⟩,
   ⟨w0, 4001, by decide +kernel⟩⟩

theorem wit_reservations :
    (∃ (s : State) (m : Master) (v : Word) (cls a : Nat), s.por = false ∧ s.reaches m 0x40001050 1 v.toNat = true ∧ bitsOf v.toNat 20 3 = cls ∧ cls ≠ 2 ∧ cls ≤ 4 ∧ bitsOf v.toNat 0 20 ≠ 0 ∧ decide81 s cls (bitsOf v.toNat 0 20) = (stOk, a)) ∧
    (∃ (s : State) (m : Master) (v : Word) (cls r a : Nat), s.por = false ∧ s.reaches m 0x40001050 1 v.toNat = true ∧ bitsOf v.toNat 20 3 = cls ∧ cls ≠ 2 ∧ cls ≤ 4 ∧ bitsOf v.toNat 0 20 ≠ 0 ∧ decide81 s cls (bitsOf v.toNat 0 20) = (r, a) ∧ r ≠ stOk) ∧
    (∃ (s : State) (m : Master) (v : Word), s.por = false ∧ s.reaches m 0x40001050 1 v.toNat = true ∧ (bitsOf v.toNat 20 3 = 2 ∨ 4 < bitsOf v.toNat 20 3 ∨ bitsOf v.toNat 0 20 = 0)) ∧
    (∃ (s : State) (m : Master) (v : Word) (r : Resv), s.por = false ∧ s.reaches m 0x40001058 1 v.toNat = true ∧ ticketOf s (v.toNat % 8) = some r ∧ r.tag = masterTag s m ∧ r.bound = false) ∧
    (∃ (s : State) (m : Master) (v : Word) (r : Resv), s.por = false ∧ s.reaches m 0x40001058 1 v.toNat = true ∧ ticketOf s (v.toNat % 8) = some r ∧ (r.tag ≠ masterTag s m ∨ r.bound = true)) ∧
    (∃ (s : State) (k : Nat) (r : Resv), s.por = false ∧ ticketOf s k = some r ∧ r.bound = false ∧ r.left = 0) ∧
    (∃ (s : State) (k : Nat) (r : Resv), s.por = false ∧ ticketOf s k = some r ∧ (r.bound = true ∨ r.left ≠ 0)) :=
  ⟨⟨w0.put HRV_EAVAIL_EAVAIL 1000000, .core, 0x300064, 3, 100, by decide +kernel⟩,
   ⟨w0, .core, 0x300064, 3, 9, 0, by decide +kernel⟩,
   ⟨w0, .core, 0x200064, by decide +kernel⟩,
   ⟨{ w0 with led := { w0.led with res := [⟨3, 50, 8, some 0, false, 16⟩] } }, .core, 0, ⟨3, 50, 8, some 0, false, 16⟩, by decide +kernel⟩,
   ⟨{ w0 with led := { w0.led with res := [⟨3, 50, 2, some 0, false, 16⟩] } }, .core, 0, ⟨3, 50, 2, some 0, false, 16⟩, by decide +kernel⟩,
   ⟨{ w0 with led := { w0.led with res := [⟨3, 50, 2, some 4, false, 0⟩] } }, 4, ⟨3, 50, 2, some 4, false, 0⟩, by decide +kernel⟩,
   ⟨{ w0 with led := { w0.led with res := [⟨3, 50, 2, some 4, false, 2⟩] } }, 4, ⟨3, 50, 2, some 4, false, 2⟩, by decide +kernel⟩⟩

theorem wit_busAccesses :
    (∃ (s : State) (m : Master) (addr v : Word), s.por = false ∧ s.reaches m addr.toNat 1 v.toNat = true ∧ plainReg addr.toNat = true) ∧
    (∃ (s : State) (m : Master) (addr v : Word), s.por = false ∧ s.reaches m addr.toNat 1 v.toNat = true ∧ addr.toNat % 4 = 0 ∧ inSram addr.toNat = true ∧ inLiveCopy s addr.toNat = false ∧ s.ms.wipeQ = []) ∧
    (∃ (s : State) (m : Master) (addr v : Word), s.por = false ∧ s.reaches m addr.toNat 1 v.toNat = true ∧ addr.toNat % 4 = 0 ∧ inNv addr.toNat = true ∧ s.nvs.moving = none ∧ s.nvs.yielded = false ∧ s.on NVS_STAT_HOLDRDY = true) ∧
    (∃ (s : State) (m : Master) (addr v : Word), s.por = false ∧ s.reaches m addr.toNat 1 v.toNat = true ∧ m ≠ .core ∧ addr.toNat % 4 = 0 ∧ inNv addr.toNat = true ∧ s.nvs.moving = none ∧ s.nvs.yielded = false ∧ s.on NVS_STAT_HOLDRDY = false) ∧
    (∃ (s : State) (m : Master) (addr v : Word) (b : Nat) (l : List Byte), s.por = false ∧ s.reaches m addr.toNat 1 v.toNat = true ∧ addr.toNat % 4 = 0 ∧ inDram addr.toNat = true ∧ s.get DRM_STAT_UNWIPED = 0 ∧ b = addr.toNat - addr.toNat % 32 ∧ rsDecode (burstOf s b) = some (l, false) ∧ s.ms.ckl.length < 64) ∧
    (∃ (s : State) (m : Master) (addr v : Word) (r : Nat), s.por = false ∧ masterActs s m = true ∧ m ≠ .core ∧ addr.toNat % 4 = 0 ∧ access s m (masterTag s m) addr.toNat 4 1 v.toNat = .refuse r ∧ s.on MEM_RGFSTAT_VALID = false) ∧
    (∃ (s : State) (addr v : Word) (r : Nat), s.por = false ∧ coreRuns s = true ∧ s.dx.stores = [] ∧ s.dx.loads = [] ∧ s.dx.rep = none ∧ s.dx.armShadow = false ∧ addr.toNat % 4 = 0 ∧ dueEntry s = none ∧ access s .core (coreTag s) addr.toNat 4 1 v.toNat = .refuse r ∧ s.on CORE_STATUS_EL = false) ∧
    (∃ (s : State) (addr v : Word) (k : Nat), s.por = false ∧ coreRuns s = true ∧ s.dx.stores = [] ∧ s.dx.loads = [] ∧ s.dx.rep = none ∧ s.dx.armShadow = false ∧ dueEntry s = none ∧ (addr.toNat % 4 ≠ 0 ∨ access s .core (coreTag s) addr.toNat 4 1 v.toNat = .busErr) ∧ s.on CORE_STATUS_EL = false ∧ (k = if addr.toNat % 4 = 0 then 8 else 5)) ∧
    (∃ (s : State) (m : Master) (addr v : Word), s.por = false ∧ masterActs s m = true ∧ m ≠ .core ∧ (addr.toNat % 4 ≠ 0 ∨ access s m (masterTag s m) addr.toNat 4 1 v.toNat = .busErr)) ∧
    (∃ (s : State) (addr v : Word), s.por = false ∧ masterActs s .core = true ∧ s.dx.stores = [] ∧ s.dx.mcPend = true ∧ access s .core (coreTag s) addr.toNat 4 1 v.toNat = .ok ∧ addr.toNat % 4 = 0 ∧ inSram addr.toNat = true ∧ inLiveCopy s addr.toNat = false ∧ s.ms.wipeQ = []) ∧
    (∃ (s : State) (addr v : Word) (k : Nat) (r : Rep), s.por = false ∧ coreRuns s = true ∧ s.dx.stores = [] ∧ s.dx.loads = [] ∧ s.dx.rep = some r ∧ r.kind ≠ 2 ∧ r.count < 1024 ∧ s.dx.armShadow = false ∧ addr.toNat % 4 = 0 ∧ dueEntry s = none ∧ access s .core (coreTag s) addr.toNat 4 1 v.toNat = .refuse k ∧ s.on CORE_STATUS_EL = false) ∧
    (∃ (s : State) (addr v : Word), s.por = false ∧ s.reaches .core addr.toNat 1 v.toNat = true ∧ addr.toNat % 4 = 0 ∧ (inSet addr.toNat || inClr addr.toNat) = true ∧ s.on CORE_EXCCFG_STBUF = true) ∧
    (∃ (s : State) (st : Store) (rest : List Store) (w : Nat), s.por = false ∧ s.dx.stores = st :: rest ∧ st.size = 4 ∧ st.addr % 4 = 0 ∧ st.kind = (if inSet st.addr then 1 else 2) ∧ (inSet st.addr || inClr st.addr) = true ∧ w = unalias st.addr ∧ inLiveCopy s w = false ∧ s.ms.wipeQ = [] ∧ s.ms.sramErr = [] ∧ s.dx.mcPend = false) ∧
    (∃ (s : State) (m : Master) (addr _v : Word), s.por = false ∧ m ∈ [.mover, .link, .display] ∧ (inSet addr.toNat || inClr addr.toNat) = true) ∧
    (∃ (s : State) (m : Master) (addr v : Word) (w : Nat), s.por = false ∧ s.reaches m addr.toNat 1 v.toNat = true ∧ (m = .core → s.on CORE_EXCCFG_STBUF = false) ∧ addr.toNat % 4 = 0 ∧ (inSet addr.toNat || inClr addr.toNat) = true ∧ w = unalias addr.toNat ∧ inLiveCopy s w = false ∧ s.ms.wipeQ = [] ∧ s.ms.sramErr = []) ∧
    (∃ (s : State) (m : Master) (addr : Word), s.por = false ∧ s.reaches m addr.toNat 0 0 = true ∧ addr.toNat ∈ rcRegs) ∧
    (∃ (s : State) (m : Master) (v : Word), s.por = false ∧ s.reaches m 0x40000044 1 v.toNat = true ∧ v.toNat % 65536 = 0x3C96) ∧
    (∃ (s : State) (m : Master) (v : Word), s.por = false ∧ s.reaches m 0x40000044 1 v.toNat = true ∧ v.toNat % 65536 ≠ 0x3C96) :=
  ⟨⟨w0, .core, 0x40003030, 0x15, by decide +kernel⟩,
   ⟨w0, .core, 0x10001000, 0x12345678, by decide +kernel⟩,
   ⟨w0.put NVS_STAT_HOLDRDY 1, .core, 0x200D0004, 0x12345678, by decide +kernel⟩,
   ⟨w0.put NVS_STAT_HOLDRDY 0, .dap, 0x20020004, 0x12345678, by decide +kernel⟩,
   ⟨w0.put DRM_STAT_UNWIPED 0, .core, 0x80000044, 0x12345678, 0x80000040, List.replicate 32 0, by decide +kernel⟩,
   ⟨w0, .mgmt, 0x103E8000, 1, 1, by decide +kernel⟩,
   ⟨w1, 0x103C0000, 1, 1, by decide +kernel⟩,
   ⟨w1, 0x70000000, 1, 8, by decide +kernel⟩,
   ⟨w0, .dap, 0x70000000, 1, by decide +kernel⟩,
   ⟨{ w0 with dx := { w0.dx with mcPend := true } }, 0x10001000, 0x12345678, by decide +kernel⟩,
   ⟨{ w1 with dx := { w1.dx with rep := some ⟨5, w1.dx.pc, 0⟩ } }, 0x103C0000, 1, 1, ⟨5, w1.dx.pc, 0⟩, by decide +kernel⟩,
   ⟨w0.put CORE_EXCCFG_STBUF 1, 0x18001000, 0x12345678, by decide +kernel⟩,
   ⟨{ w0 with dx := { w0.dx with stores := [⟨0x18001000, 4, 77, 1, 8⟩] } }, ⟨0x18001000, 4, 77, 1, 8⟩, [], 0x10001000, by decide +kernel⟩,
   ⟨w0, .mover, 0x18001000, 1, by decide +kernel⟩,
   ⟨w0, .dap, 0x18001000, 0x12345678, 0x10001000, by decide +kernel⟩,
   ⟨w0.put LNK_ERRCNT0_SHDR 7, .core, 0x40006014, by decide +kernel⟩,
   ⟨w0.put PWR_WDSTAT_REMAIN 7, .core, 0x3C96, by decide +kernel⟩,
   ⟨w0, .core, 0x3C97, by decide +kernel⟩⟩

theorem wit_coreWindows :
    (∃ (s : State) (m : Master) (v : Word), s.por = false ∧ s.reaches m 0x4000224C 1 v.toNat = true ∧ s.dx.usHeld = none ∧ s.on CORE_UCFG_LOCK = false) ∧
    (∃ (s : State) (m : Master) (v : Word), s.por = false ∧ s.reaches m 0x4000224C 1 v.toNat = true ∧ s.dx.usHeld = none ∧ s.on CORE_UCFG_LOCK = true) ∧
    (∃ (s : State) (m : Master) (v : Word) (k : Nat), s.por = false ∧ s.reaches m 0x40002250 1 v.toNat = true ∧ s.dx.usHeld = none ∧ s.on CORE_UCFG_LOCK = false ∧ s.get CORE_USADDR_ADDR = k) ∧
    (∃ (s : State) (m : Master) (v : Word), s.por = false ∧ s.reaches m 0x40002250 1 v.toNat = true ∧ s.dx.usHeld = none ∧ s.on CORE_UCFG_LOCK = true) ∧
    (∃ (s : State) (m : Master) (w : Nat), s.por = false ∧ s.reaches m 0x4000224C 0 0 = true ∧ w = Sparse.look 0 s.dx.ustore (s.get CORE_USADDR_ADDR)) ∧
    (∃ (s : State) (m : Master), s.por = false ∧ s.reaches m 0x40002250 0 0 = true) ∧
    (∃ (s : State) (m : Master), s.por = false ∧ s.reaches m 0x40002008 0 0 = true) ∧
    (∃ (s : State) (m : Master) (v : Word), s.por = false ∧ s.reaches m 0x400020B0 1 v.toNat = true ∧ v.toNat % 65536 = 0x5A3C ∧ s.boot = none ∧ s.pwr.entry = none) ∧
    (∃ (s : State) (m : Master) (v : Word), s.por = false ∧ s.reaches m 0x400020B0 1 v.toNat = true ∧ v.toNat % 65536 ≠ 0x5A3C) :=
  ⟨⟨w0, .core, 77, by decide +kernel⟩,
   ⟨w0.put CORE_UCFG_LOCK 1, .core, 77, by decide +kernel⟩,
   ⟨xk (w0.put CORE_USADDR_ADDR 511) fun d => { d with usLo := 5, uBad := [511, 3] }, .core, 77, 511, by decide +kernel⟩,
   ⟨w0.put CORE_UCFG_LOCK 1, .core, 77, by decide +kernel⟩,
   ⟨wMic.put CORE_USADDR_ADDR 6, .core, 2 ^ 24 + 3 * 2 ^ 22 + 5 * 2 ^ 17 + 77 * 2 ^ 7, by decide +kernel⟩,
   ⟨w0, .core, by decide +kernel⟩,
   ⟨xk w0 fun d => { d with cyc := 2 ^ 33 + 9 }, .core, by decide +kernel⟩,
   ⟨wMem, .core, 0x5A3C, by decide +kernel⟩,
   ⟨w0, .core, 0x5A3D, by decide +kernel⟩⟩

theorem wit_sramUpkeep :
    (∃ (s : State) (a : Nat) (l : List Nat), s.por = false ∧ s.ms.wb = a :: l) ∧
    (∃ (s : State) (b r : Nat), s.por = false ∧ b < 8 ∧ s.ms.moveDue.contains (b, r) = true ∧ s.get (MEM_SPARE_ROWS b) < 8) ∧
    (∃ (s : State) (b r : Nat), s.por = false ∧ (s.ms.moveDue.contains (b, r) = false ∨ 8 ≤ s.get (MEM_SPARE_ROWS b))) ∧
    (∃ (s : State) (b k : Nat), s.por = false ∧ b < 8 ∧ 4 ≤ colRows s b k ∧ s.get (MEM_SPARECOL_COLS b) < 2) ∧
    (∃ (s : State) (b k : Nat), s.por = false ∧ (colRows s b k < 4 ∨ 2 ≤ s.get (MEM_SPARECOL_COLS b))) ∧
    (∃ (s : State) (r : Nat), s.por = false ∧ s.ms.wipeQ.contains r = true) :=
  ⟨⟨{ w0 with ms := { w0.ms with wb := [0x10000010], sramErr := [(0x10000010, 4)] } }, 0x10000010, [], by decide +kernel⟩,
   ⟨{ (w0.put NVS_STAT_HOLDRDY 1).put (MEM_SPARE_ROWS 4) 7 with ms := { w0.ms with moveDue := [(4, 9)] } }, 4, 9, by decide +kernel⟩,
   ⟨w0, 4, 9, by decide +kernel⟩,
   ⟨{ (w0.put NVS_STAT_HOLDRDY 1).put (MEM_SPARECOL_COLS 4) 1 with ms := { w0.ms with colHits := [(4, 7, 0), (4, 7, 1), (4, 7, 2), (4, 7, 3)] } }, 4, 7, by decide +kernel⟩,
   ⟨w0, 4, 7, by decide +kernel⟩,
   ⟨{ wMem.wr 0x10001000 4 5 with ms := { w0.ms with wipeQ := [0, 9] } }, 0, by decide +kernel⟩⟩

theorem wit_dramUpkeep :
    (∃ (s : State) (m : Master) (v : Word) (a : Nat), s.por = false ∧ s.reaches m 0x40004004 1 v.toNat = true ∧ v.toNat % 4 = 1 ∧ s.on DRM_SESS_OPENST = false ∧ bindTicket 1 (masterTag s m) 0 s.led.res = none ∧ decide81 s 1 (s.get (HRV_CLSAMT_AMOUNT 1)) = (stOk, a)) ∧
    (∃ (s : State) (m : Master) (v : Word) (r a : Nat), s.por = false ∧ s.reaches m 0x40004004 1 v.toNat = true ∧ v.toNat % 4 = 1 ∧ s.on DRM_SESS_OPENST = false ∧ bindTicket 1 (masterTag s m) 0 s.led.res = none ∧ decide81 s 1 (s.get (HRV_CLSAMT_AMOUNT 1)) = (r, a) ∧ r ≠ stOk) ∧
    (∃ (s : State) (m : Master) (v : Word), s.por = false ∧ s.reaches m 0x40004004 1 v.toNat = true ∧ (v.toNat % 4 = 3 ∨ (v.toNat % 4 = 1 ∧ s.on DRM_SESS_OPENST = true))) ∧
    (∃ (s : State) (m : Master) (v : Word), s.por = false ∧ s.reaches m 0x40004004 1 v.toNat = true ∧ v.toNat % 4 = 2 ∧ s.on DRM_SESS_OPENST = true) ∧
    (∃ (s : State), s.por = false ∧ s.ms.cutWait = true ∧ moverDram s = false ∧ s.on DRM_SESS_OPENST = true) ∧
    (∃ (s : State), s.por = false ∧ s.on DRM_SESS_OPENST = false ∧ s.on DRM_STAT_WIPING = false ∧ s.get PWR_DOMSTAT_MEM = 2) ∧
    (∃ (s : State) (b : Nat) (l : List Byte), s.por = false ∧ s.on DRM_CFG_SCRUBEN = true ∧ s.on DRM_SESS_OPENST = true ∧ s.get DRM_STAT_UNWIPED = 0 ∧ s.ms.scrubPos < 1966080 ∧ b = 0x80000000 + s.ms.scrubPos / 122880 * 0x400000 + 32 * (s.ms.scrubPos % 122880) ∧ rsDecode (burstOf s b) = some (l, false) ∧ s.ms.ckl.length < 64) ∧
    (∃ (s : State) (b r : Nat) (l : List Byte), s.por = false ∧ s.on DRM_CFG_SCRUBEN = true ∧ s.on DRM_SESS_OPENST = true ∧ s.get DRM_STAT_UNWIPED = 0 ∧ s.ms.scrubPos < 1966080 ∧ b = 0x80000000 + s.ms.scrubPos / 122880 * 0x400000 + 32 * (s.ms.scrubPos % 122880) ∧ rsDecode (burstOf s b) = some (l, true) ∧ s.ms.ckl.length < 64 ∧ r = (b - 0x80000000) / 1024) ∧
    (∃ (s : State) (row a : Nat), s.por = false ∧ max 1 (s.get DRM_CFG_RMTH) ≤ Sparse.look 0 s.ms.dramRow row ∧ s.ms.remap.length < 512 ∧ s.ms.ckl.length < 63 ∧ a = 0x80000000 + row * 1024) ∧
    (∃ (s : State) (n : Nat), s.por = false ∧ s.on DRM_STAT_WIPING = true ∧ lowBit (s.get DRM_STAT_UNWIPED) = some n ∧ s.get DRM_STAT_UNWIPED < 65536 ∧ s.get DRM_STAT_UNWIPED ≠ 2 ^ n) ∧
    (∃ (s : State) (n : Nat), s.por = false ∧ s.on DRM_STAT_WIPING = true ∧ n < 16 ∧ s.get DRM_STAT_UNWIPED = 2 ^ n) :=
  ⟨⟨w0.put HRV_EAVAIL_EAVAIL 1000000, .core, 1, 20000, by decide +kernel⟩,
   ⟨w0, .core, 1, 9, 0, by decide +kernel⟩,
   ⟨w0.put DRM_SESS_OPENST 1, .core, 1, by decide +kernel⟩,
   ⟨{ w0.put DRM_SESS_OPENST 1 with led := { w0.led with res := [⟨1, 9, 1, none, true, 0⟩] } }, .core, 2, by decide +kernel⟩,
   ⟨{ w0.put DRM_SESS_OPENST 1 with ms := { w0.ms with cutWait := true, ckl := [⟨2, List.replicate 32 7, true⟩] } }, by decide +kernel⟩,
   ⟨{ (w0.put DRM_STAT_WIPING 0).put PWR_DOMSTAT_MEM 2 with ms := { w0.ms with ckl := [⟨2, List.replicate 32 7, true⟩] } }, by decide +kernel⟩,
   ⟨(w0.put DRM_SESS_OPENST 1).put DRM_STAT_UNWIPED 0, 0x80000000, List.replicate 32 0, by decide +kernel⟩,
   ⟨((w0.put DRM_SESS_OPENST 1).put DRM_STAT_UNWIPED 0).putByte 0x80000005 9, 0x80000000, 0, List.replicate 32 0, by decide +kernel⟩,
   ⟨{ w0.put NVS_STAT_HOLDRDY 1 with ms := { w0.ms with dramRow := [(12, 4)] } }, 12, 0x80003000, by decide +kernel⟩,
   ⟨(w0.put DRM_STAT_UNWIPED 6).putByte 0x80400005 9, 1, by decide +kernel⟩,
   ⟨(w0.put DRM_STAT_UNWIPED 4).putByte 0x80800005 9, 2, by decide +kernel⟩⟩

theorem wit_moverChannels :
    (∃ (s : State) (m : Master) (n : Nat) (v : Word), s.por = false ∧ s.reaches m (0x40005100 + 32 * n) 1 v.toNat = true ∧ n < 4 ∧ v.toNat % 2 = 1 ∧ (s.get (MOV_CHSTAT_STATE n) = 0 ∨ 5 ≤ s.get (MOV_CHSTAT_STATE n)) ∧ s.mov.length = 4) ∧
    (∃ (s : State) (m : Master) (n : Nat) (v : Word), s.por = false ∧ s.reaches m (0x40005100 + 32 * n) 1 v.toNat = true ∧ n < 4 ∧ v.toNat / 2 % 2 = 1 ∧ (s.get (MOV_CHSTAT_STATE n) = 1 ∨ s.get (MOV_CHSTAT_STATE n) = 2 ∨ s.get (MOV_CHSTAT_STATE n) = 4)) ∧
    (∃ (s : State) (m : Master) (n : Nat) (v : Word), s.por = false ∧ s.reaches m (0x40005100 + 32 * n) 1 v.toNat = true ∧ n < 4 ∧ v.toNat / 2 % 2 = 1 ∧ s.get (MOV_CHSTAT_STATE n) = 3 ∧ (chAt s n).gather = []) ∧
    (∃ (s : State) (n : Nat), s.por = false ∧ n < 4 ∧ s.get (MOV_CHSTAT_STATE n) = 1 ∧ sysRuns s = true ∧ moverHeld s (chAt s n) = true) ∧
    (∃ (s : State) (n a : Nat) (l : List Nat) (c : Mch), s.por = false ∧ n < 4 ∧ s.mov.length = 4 ∧ s.get (MOV_CHSTAT_STATE n) = 1 ∧ sysRuns s = true ∧ moverHeld s (chAt s n) = false ∧ a = 32 * s.get (MOV_CHCUR_ADDR n) ∧ inSram a = true ∧ (((List.range 8).all fun i => decide (access s .mover (s.get (MOV_CHSTAT_TAG n)) (a + 4 * i) 4 0 0 = .ok)) = true) ∧ s.ms.wipeQ = [] ∧ s.ms.sramErr = [] ∧ (l = (List.range 8).map fun i => s.rd (a + 4 * i) 4) ∧ c = ⟨l, [], none, l.getD 1 0, l.getD 2 0, bitsOf (l.getD 0 0) 16 16⟩ ∧ descFails l = false ∧ moverHeld s c = false) ∧
    (∃ (s : State) (n a : Nat) (l : List Nat) (c : Mch), s.por = false ∧ n < 4 ∧ s.mov.length = 4 ∧ s.get (MOV_CHSTAT_STATE n) = 1 ∧ sysRuns s = true ∧ moverHeld s (chAt s n) = false ∧ a = 32 * s.get (MOV_CHCUR_ADDR n) ∧ inSram a = true ∧ (((List.range 8).all fun i => decide (access s .mover (s.get (MOV_CHSTAT_TAG n)) (a + 4 * i) 4 0 0 = .ok)) = true) ∧ s.ms.wipeQ = [] ∧ s.ms.sramErr = [] ∧ (l = (List.range 8).map fun i => s.rd (a + 4 * i) 4) ∧ c = ⟨l, [], none, l.getD 1 0, l.getD 2 0, bitsOf (l.getD 0 0) 16 16⟩ ∧ descFails l = false ∧ moverHeld s c = true) ∧
    (∃ (s : State) (n a : Nat) (l : List Nat), s.por = false ∧ n < 4 ∧ s.mov.length = 4 ∧ s.get (MOV_CHSTAT_STATE n) = 1 ∧ sysRuns s = true ∧ moverHeld s (chAt s n) = false ∧ a = 32 * s.get (MOV_CHCUR_ADDR n) ∧ inSram a = true ∧ (((List.range 8).all fun i => decide (access s .mover (s.get (MOV_CHSTAT_TAG n)) (a + 4 * i) 4 0 0 = .ok)) = true) ∧ s.ms.wipeQ = [] ∧ s.ms.sramErr = [] ∧ (l = (List.range 8).map fun i => s.rd (a + 4 * i) 4) ∧ descFails l = true) ∧
    (∃ (s : State) (n : Nat), s.por = false ∧ n < 4 ∧ s.mov.length = 4 ∧ s.get (MOV_CHSTAT_STATE n) = 1 ∧ sysRuns s = true ∧ moverHeld s (chAt s n) = false ∧ access s .mover (s.get (MOV_CHSTAT_TAG n)) (32 * s.get (MOV_CHCUR_ADDR n)) 4 0 0 = .busErr) ∧
    (∃ (s : State) (n : Nat), s.por = false ∧ n < 4 ∧ s.mov.length = 4 ∧ s.get (MOV_CHSTAT_STATE n) = 1 ∧ sysRuns s = true ∧ moverHeld s (chAt s n) = false ∧ access s .mover (s.get (MOV_CHSTAT_TAG n)) (32 * s.get (MOV_CHCUR_ADDR n)) 4 0 0 = .ok ∧ inSram (32 * s.get (MOV_CHCUR_ADDR n)) = false) ∧
    (∃ (s : State) (n r : Nat), s.por = false ∧ n < 4 ∧ s.mov.length = 4 ∧ s.get (MOV_CHSTAT_STATE n) = 1 ∧ sysRuns s = true ∧ moverHeld s (chAt s n) = false ∧ access s .mover (s.get (MOV_CHSTAT_TAG n)) (32 * s.get (MOV_CHCUR_ADDR n)) 4 0 0 = .refuse r) ∧
    (∃ (s : State) (n : Nat), s.por = false ∧ n < 4 ∧ bitOf s.evHeld (12 + n) = true ∧ sysClocked s = true) ∧
    (∃ (s : State) (n z : Nat) (c : Mch), s.por = false ∧ nextRun s = some n ∧ n < 4 ∧ s.mov.length = 4 ∧ sysRuns s = true ∧ chAt s n = c ∧ c.gather = [] ∧ z = 2 ^ (c.desc.getD 0 0 % 4) ∧ c.src % z = 0 ∧ c.dst % z = 0 ∧ inSram c.src = true ∧ inSram c.dst = true ∧ moverReach c.dst = true ∧ access s .mover (s.get (MOV_CHSTAT_TAG n)) c.src z 0 0 = .ok ∧ access s .mover (s.get (MOV_CHSTAT_TAG n)) c.dst z 1 (s.rd c.src z) = .ok ∧ inLiveCopy s c.dst = false ∧ s.ms.wipeQ = [] ∧ s.ms.sramErr = []) ∧
    (∃ (s : State) (n z : Nat) (c : Mch), s.por = false ∧ nextRun s = some n ∧ n < 4 ∧ s.mov.length = 4 ∧ sysRuns s = true ∧ chAt s n = c ∧ c.gather = [] ∧ z = 2 ^ (c.desc.getD 0 0 % 4) ∧ (c.src % z ≠ 0 ∨ c.dst % z ≠ 0)) ∧
    (∃ (s : State) (n b a : Nat) (l : List (Nat × Byte)), s.por = false ∧ n < 4 ∧ s.mov.length = 4 ∧ s.get (MOV_CHSTAT_STATE n) = 3 ∧ (chAt s n).gather = [⟨b, a, l⟩] ∧ l.length = 32 ∧ inDram b = true ∧ b % 32 = 0 ∧ (b - 0x80000000) % 0x400000 < 0x3C0000 ∧ s.get DRM_STAT_UNWIPED = 0) ∧
    (∃ (s : State) (n : Nat), s.por = false ∧ n < 4 ∧ s.get (MOV_CHSTAT_STATE n) = 3 ∧ (chAt s n).rem = 0 ∧ (chAt s n).gather = [] ∧ bitOf (dw (chAt s n) 0) 8 = true) ∧
    (∃ (s : State) (n : Nat), s.por = false ∧ n < 4 ∧ s.get (MOV_CHSTAT_STATE n) = 3 ∧ (chAt s n).rem = 0 ∧ (chAt s n).gather = [] ∧ bitOf (dw (chAt s n) 0) 8 = false) :=
  ⟨⟨w0.put (MOV_CHDESC_ADDR 2) 77, .core, 2, 1, by decide +kernel⟩,
   ⟨w0.put (MOV_CHSTAT_STATE 2) 2, .core, 2, 2, by decide +kernel⟩,
   ⟨w0.put (MOV_CHSTAT_STATE 2) 3, .core, 2, 2, by decide +kernel⟩,
   ⟨{ w0.put (MOV_CHSTAT_STATE 2) 1 with pwr := { w0.pwr with entry := some ⟨1, false, false, 0, false⟩ } }, 2, by decide +kernel⟩,
   ⟨(((((((w0.put (MOV_CHSTAT_STATE 1) 1).put (MOV_CHSTAT_TAG 1) 8).put (MOV_CHCUR_ADDR 1) 0x81C100).wr 0x10382000 4 0x00040102).wr 0x10382004 4 0x10380000).wr 0x10382008 4 0x10381000).wr 0x1038200C 4 4).wr 0x10382010 4 4, 1, 0x10382000, [0x00040102, 0x10380000, 0x10381000, 4, 4, 0, 0, 0], ⟨[0x00040102, 0x10380000, 0x10381000, 4, 4, 0, 0, 0], [], none, 0x10380000, 0x10381000, 4⟩, by decide +kernel⟩,
   ⟨{ ((((((((w0.put (MOV_CHSTAT_STATE 1) 1).put (MOV_CHSTAT_TAG 1) 8).put (MOV_CHCUR_ADDR 1) 0x81C100).wr 0x10382000 4 0x00040102).wr 0x10382004 4 0x10380000).wr 0x10382008 4 0x10381000).wr 0x1038200C 4 4).wr 0x10382010 4 4).wr 0x10382004 4 0x80000000 with ms := { w0.ms with cutWait := true } }, 1, 0x10382000, [0x00040102, 0x80000000, 0x10381000, 4, 4, 0, 0, 0], ⟨[0x00040102, 0x80000000, 0x10381000, 4, 4, 0, 0, 0], [], none, 0x80000000, 0x10381000, 4⟩, by decide +kernel⟩,
   ⟨((((((((w0.put (MOV_CHSTAT_STATE 1) 1).put (MOV_CHSTAT_TAG 1) 8).put (MOV_CHCUR_ADDR 1) 0x81C100).wr 0x10382000 4 0x00040102).wr 0x10382004 4 0x10380000).wr 0x10382008 4 0x10381000).wr 0x1038200C 4 4).wr 0x10382010 4 4).wr 0x10382000 4 0x00040202, 1, 0x10382000, [0x00040202, 0x10380000, 0x10381000, 4, 4, 0, 0, 0], by decide +kernel⟩,
   ⟨((((((((w0.put (MOV_CHSTAT_STATE 1) 1).put (MOV_CHSTAT_TAG 1) 8).put (MOV_CHCUR_ADDR 1) 0x81C100).wr 0x10382000 4 0x00040102).wr 0x10382004 4 0x10380000).wr 0x10382008 4 0x10381000).wr 0x1038200C 4 4).wr 0x10382010 4 4).put (MOV_CHCUR_ADDR 1) 0x1800000, 1, by decide +kernel⟩,
   ⟨((((((((w0.put (MOV_CHSTAT_STATE 1) 1).put (MOV_CHSTAT_TAG 1) 8).put (MOV_CHCUR_ADDR 1) 0x81C100).wr 0x10382000 4 0x00040102).wr 0x10382004 4 0x10380000).wr 0x10382008 4 0x10381000).wr 0x1038200C 4 4).wr 0x10382010 4 4).put (MOV_CHCUR_ADDR 1) 0x4000000, 1, by decide +kernel⟩,
   ⟨((((((((w0.put (MOV_CHSTAT_STATE 1) 1).put (MOV_CHSTAT_TAG 1) 8).put (MOV_CHCUR_ADDR 1) 0x81C100).wr 0x10382000 4 0x00040102).wr 0x10382004 4 0x10380000).wr 0x10382008 4 0x10381000).wr 0x1038200C 4 4).wr 0x10382010 4 4).put (MOV_CHSTAT_TAG 1) 10, 1, 3, by decide +kernel⟩,
   ⟨{ w0.put (MOV_CHSTAT_STATE 2) 2 with evHeld := 0x4001 }, 2, by decide +kernel⟩,
   ⟨{ (((w0.put (MOV_CHSTAT_STATE 1) 3).put (MOV_CHSTAT_TAG 1) 8).wr 0x10380000 4 0x1234) with mov := w0.mov.set 1 ⟨[0x00040002, 0x10380000, 0x10381000, 4, 4, 0, 0, 0], [], none, 0x10380000, 0x10381000, 4⟩ }, 1, 4, ⟨[0x00040002, 0x10380000, 0x10381000, 4, 4, 0, 0, 0], [], none, 0x10380000, 0x10381000, 4⟩, by decide +kernel⟩,
   ⟨{ (((w0.put (MOV_CHSTAT_STATE 1) 3).put (MOV_CHSTAT_TAG 1) 8).wr 0x10380000 4 0x1234) with mov := w0.mov.set 1 ⟨[0x00040002, 0x10380000, 0x10381000, 4, 4, 0, 0, 0], [], none, 0x10380002, 0x10381000, 4⟩ }, 1, 4, ⟨[0x00040002, 0x10380000, 0x10381000, 4, 4, 0, 0, 0], [], none, 0x10380002, 0x10381000, 4⟩, by decide +kernel⟩,
   ⟨{ (w0.put (MOV_CHSTAT_STATE 1) 3).put DRM_STAT_UNWIPED 0 with mov := w0.mov.set 1 ⟨[], [⟨0x80000040, 0x10380000, (List.range 32).map fun i => (i, BitVec.ofNat 8 (i + 1))⟩], none, 0, 0, 0⟩ }, 1, 0x80000040, 0x10380000, (List.range 32).map fun i => (i, BitVec.ofNat 8 (i + 1)), by decide +kernel⟩,
   ⟨{ w0.put (MOV_CHSTAT_STATE 1) 3 with mov := w0.mov.set 1 ⟨[0x182], [], none, 0, 0, 0⟩ }, 1, by decide +kernel⟩,
   ⟨{ w0.put (MOV_CHSTAT_STATE 1) 3 with mov := w0.mov.set 1 ⟨[2, 0, 0, 0, 0, 0, 0, 64], [], none, 0, 0, 0⟩ }, 1, by decide +kernel⟩⟩

theorem wit_linkPorts :
    (∃ (s : State) (p l : Nat), s.por = false ∧ p < 3 ∧ l < 2 ∧ 2 ≤ s.get LNK_STAT_STATE) ∧
    (∃ (s : State) (p : Nat), s.por = false ∧ p < 3 ∧ 2 ≤ s.get LNK_STAT_STATE ∧ s.get (portFld p) = 0) ∧
    (∃ (s : State) (p : Nat), s.por = false ∧ p < 3 ∧ s.get (portFld p) = 1) ∧
    (∃ (s : State) (p : Nat) (two : Bool), s.por = false ∧ p < 3 ∧ 2 ≤ s.get LNK_STAT_STATE ∧ s.get (portFld p) = 1 ∧ (if two then s.get (laneFld p) = 3 else s.get (laneFld p) ≠ 0)) ∧
    (∃ (s : State) (p l : Nat) (_e : Bool), s.por = false ∧ p < 3 ∧ bitOf (s.get (laneFld p)) l = true ∧ l < 2 ∧ s.get (laneFld p) ≠ 2 ^ l ∧ s.get (laneFld p) < 4 ∧ stripedOn s p = []) ∧
    (∃ (s : State) (p l q : Nat) (l2 : List Nat) (_e : Bool), s.por = false ∧ p < 3 ∧ s.get (laneFld p) = 3 ∧ l < 2 ∧ s.get (portFld p) = 3 ∧ stripedOn s p = q :: l2) ∧
    (∃ (s : State) (p l : Nat) (_e : Bool), s.por = false ∧ p < 3 ∧ s.get (laneFld p) = 2 ^ l ∧ l < 2 ∧ s.get (portFld p) ≠ 0) ∧
    (∃ (s : State) (p : Nat), s.por = false ∧ p < 3 ∧ portUp s p = true ∧ s.lnk.joined.contains p = false ∧ s.linkQuiet = true) ∧
    (∃ (s : State) (p : Nat), s.por = false ∧ routeKeeps { s with lnk := { s.lnk with joined := s.lnk.joined ++ [p] } } = false) ∧
    (∃ (s : State) (p : Nat), s.por = false ∧ p < 3 ∧ s.get LNK_STAT_STATE = 3 ∧ s.get (portFld p) = 0 ∧ silent s = false) ∧
    (∃ (s : State) (_p : Nat), s.por = false ∧ silent s = true) :=
  ⟨⟨wLnk, 1, 1, by decide +kernel⟩,
   ⟨wLnk, 1, by decide +kernel⟩,
   ⟨wLnk.put LNK_STAT_PD1 1, 1, by decide +kernel⟩,
   ⟨((w0.put LNK_STAT_STATE 2).put LNK_STAT_PD1 1).put LNK_STAT_LD1 3, 1, true, by decide +kernel⟩,
   ⟨(wLnk.put LNK_STAT_PU 3).put LNK_STAT_LU 3, 0, 1, true, by decide +kernel⟩,
   ⟨{ (wLnk.put LNK_STAT_PU 3).put LNK_STAT_LU 3 with lnk := { wLnk.lnk with tx := wLnk.lnk.tx.set 0 ⟨some ⟨0, false, true, false⟩, [], [], 0, 0, none⟩ } }, 0, 1, 0, [], false, by decide +kernel⟩,
   ⟨wLnk, 0, 0, true, by decide +kernel⟩,
   ⟨wLnk.put LNK_STAT_PD2 3, 2, by decide +kernel⟩,
   ⟨{ (wLnk.put LNK_STAT_PD2 3).put LNK_STAT_LD2 3 with lnk := { wLnk.lnk with tx := wLnk.lnk.tx.set 0 ⟨some ⟨0, false, true, false⟩, [], [], 0, 0, none⟩ } }, 2, by decide +kernel⟩,
   ⟨wLnk, 2, by decide +kernel⟩,
   ⟨w0, 2, by decide +kernel⟩⟩

theorem wit_linkService :
    (∃ (s : State), s.por = false ∧ listenerActs s = true ∧ activityActs s = true ∧ (decide81 s 4 (s.get (HRV_CLSAMT_AMOUNT 4))).1 = stOk) ∧
    (∃ (s : State), s.por = false ∧ listenerActs s = true ∧ activityActs s = true ∧ bindTicket 4 5 0 s.led.res = none ∧ (decide81 s 4 (s.get (HRV_CLSAMT_AMOUNT 4))).1 ≠ stOk) ∧
    (∃ (s : State) (m : Master) (v : Word), s.por = false ∧ s.reaches m 0x40006000 1 v.toNat = true ∧ bitOf v.toNat 1 = true ∧ listenerActs s = true ∧ (decide81 s 4 (s.get (HRV_CLSAMT_AMOUNT 4))).1 = stOk) ∧
    (∃ (s : State), s.por = false ∧ s.get LNK_STAT_STATE = 2 ∧ s.linkQuiet = true ∧ s.pwr.raised = false ∧ s.get PWR_DOMSTAT_STATE ≠ 4) ∧
    (∃ (s : State), s.por = false) ∧
    (∃ (s : State), s.por = false ∧ s.get LNK_STAT_STATE = 3) ∧
    (∃ (s : State), s.por = false ∧ s.get LNK_STAT_STATE = 3 ∧ s.linkQuiet = true ∧ s.pwr.raised = false ∧ s.get PWR_DOMSTAT_STATE ≠ 4) ∧
    (∃ (s : State), s.por = false ∧ s.get LNK_STAT_STATE = 3 ∧ s.linkQuiet = true ∧ s.pwr.raised = true ∧ s.get PWR_DOMSTAT_STATE = 3) ∧
    (∃ (s : State), s.por = false ∧ s.get LNK_STAT_STATE = 3 ∧ betweenFrames s = false) ∧
    (∃ (s : State) (q : Nat), s.por = false ∧ s.get LNK_STAT_STATE = 3 ∧ betweenFrames s = true ∧ s.lnk.tx.length = 3 ∧ q < 3 ∧ (txAt s q).frame.isSome = true ∧ s.pwr.raised = false ∧ s.get PWR_DOMSTAT_STATE ≠ 4) ∧
    (∃ (s : State), s.por = false ∧ s.get LNK_STAT_STATE = 3 ∧ s.get LNK_STAT_PU = 0 ∧ s.get LNK_STAT_PD1 = 0 ∧ s.get LNK_STAT_PD2 = 0 ∧ s.linkQuiet = true ∧ s.pwr.raised = false ∧ s.get PWR_DOMSTAT_STATE ≠ 4) ∧
    (∃ (s : State), s.por = false ∧ s.lnk.leave ≠ 0 ∧ s.linkQuiet = true ∧ s.pwr.raised = false ∧ s.get PWR_DOMSTAT_STATE ≠ 4) ∧
    (∃ (s : State) (p q : Nat) (ds dl : Byte), s.por = false ∧ s.get LNK_STAT_STATE = 3 ∧ portUp s p = true ∧ s.lnk.joined.contains p = true ∧ s.get (laneFld p) ≠ 0 ∧ p < 3 ∧ s.lnk.procJoined = true ∧ s.linkQuiet = true ∧ feedPort s = some p ∧ destOf s p = some q ∧ ds = 1 ∧ 7 < dl.toNat) ∧
    (∃ (s : State) (p : Nat) (_ds _dl : Byte) (f : Frame), s.por = false ∧ s.get LNK_STAT_STATE = 3 ∧ portUp s p = true ∧ s.lnk.joined.contains p = true ∧ s.get (laneFld p) ≠ 0 ∧ p < 3 ∧ s.lnk.frame = some f ∧ f.port = p ∧ s.lnk.tx.length = 3) ∧
    (∃ (s : State) (m : Master) (_n : Nat), s.por = false ∧ s.reaches m 0x40006028 0 0 = true ∧ s.lnk.csAt = []) :=
  ⟨⟨(w0.put LNK_STAT_STATE 1).put HRV_EAVAIL_EAVAIL 1000000, by decide +kernel⟩,
   ⟨w0.put LNK_STAT_STATE 1, by decide +kernel⟩,
   ⟨(w0.put LNK_STAT_STATE 1).put HRV_EAVAIL_EAVAIL 1000000, .core, 0x640A62, by decide +kernel⟩,
   ⟨w0.put LNK_STAT_STATE 2, by decide +kernel⟩,
   ⟨w0.put LNK_STAT_BACKOFF 1, by decide +kernel⟩,
   ⟨wLnk, by decide +kernel⟩,
   ⟨wLnk, by decide +kernel⟩,
   ⟨{ wLnk.put PWR_DOMSTAT_STATE 3 with pwr := { wLnk.pwr with raised := true } }, by decide +kernel⟩,
   ⟨wSlot, by decide +kernel⟩,
   ⟨{ wLnk with lnk := { wLnk.lnk with tx := wLnk.lnk.tx.set 0 ⟨some ⟨0, true, true, true⟩, [], [], 0, 0, none⟩ } }, 0, by decide +kernel⟩,
   ⟨wLnk.put LNK_STAT_PU 0, by decide +kernel⟩,
   ⟨{ wLnk.put HRV_STAT_FLOOR 1 with lnk := { wLnk.lnk with leave := 4 } }, by decide +kernel⟩,
   ⟨wLnk.put PWR_WAKEEN_EN0 4, 0, 0, 1, 8, by decide +kernel⟩,
   ⟨wSlot, 0, 1, 8, ⟨0, true, some true, 128, 4, false⟩, by decide +kernel⟩,
   ⟨{ wLnk with lnk := { wLnk.lnk with time := 2 ^ 34 + 5 } }, .core, 3, by decide +kernel⟩⟩

theorem wit_frames :
    (∃ (s : State) (p : Nat) (r : Bool) (_n : Nat), s.por = false ∧ s.lnk.csAt = [] ∧ s.get LNK_STAT_STATE = 3 ∧ portUp s p = true ∧ s.lnk.joined.contains p = true ∧ s.get (laneFld p) ≠ 0 ∧ p < 3 ∧ s.lnk.procJoined = true ∧ feedPort s = some p ∧ s.linkQuiet = true ∧ (r = true ∨ oneLane s = false) ∧ s.get TBL_CMTSTAT_PEND = 0) ∧
    (∃ (s : State) (p : Nat) (r : Bool) (_n : Nat), s.por = false ∧ s.lnk.csAt = [] ∧ s.get LNK_STAT_STATE = 3 ∧ portUp s p = true ∧ s.lnk.joined.contains p = true ∧ s.get (laneFld p) ≠ 0 ∧ p < 3 ∧ s.lnk.procJoined = true ∧ feedPort s = some p ∧ s.linkQuiet = true ∧ (r = true ∨ oneLane s = false) ∧ s.cmd.landing = [] ∧ s.get TBL_CMTSTAT_PEND ≠ 0 ∧ s.get TBL_CMTSTAT_PEND < 65536) ∧
    (∃ (s : State) (p : Nat) (r : Bool) (_n : Nat), s.por = false ∧ s.lnk.csAt = [] ∧ s.get LNK_STAT_STATE = 3 ∧ portUp s p = true ∧ s.lnk.joined.contains p = true ∧ s.get (laneFld p) ≠ 0 ∧ p < 3 ∧ s.lnk.procJoined = true ∧ feedPort s = some p ∧ s.linkQuiet = true ∧ (r = true ∨ oneLane s = false) ∧ s.cmd.landing ≠ []) ∧
    (∃ (s : State) (p _n : Nat) (f : Frame), s.por = false ∧ s.lnk.csAt = [] ∧ s.get LNK_STAT_STATE = 3 ∧ portUp s p = true ∧ s.lnk.joined.contains p = true ∧ s.get (laneFld p) ≠ 0 ∧ p < 3 ∧ s.lnk.procJoined = true ∧ feedPort s = some p ∧ s.lnk.narrow = [] ∧ s.lnk.frame = some f ∧ f.port = p ∧ s.get TBL_CMTSTAT_PEND = 0) ∧
    (∃ (s : State) (p _n : Nat), s.por = false ∧ s.lnk.csAt = [] ∧ s.get LNK_STAT_STATE = 3 ∧ portUp s p = true ∧ s.lnk.joined.contains p = true ∧ s.get (laneFld p) ≠ 0 ∧ p < 3 ∧ s.get (portFld p) = 2 ∧ s.linkQuiet = true) ∧
    (∃ (s : State) (p : Nat) (_r : Bool) (_n _e : Nat), s.por = false ∧ s.get LNK_STAT_STATE = 3 ∧ portUp s p = false ∧ s.lnk.csAt = []) ∧
    (∃ (s : State) (p : Nat) (_r : Bool) (_n : Nat), s.por = false ∧ s.lnk.csAt = [] ∧ portUp s p = false) ∧
    (∃ (s : State) (p : Nat) (bytes : List Byte) (_n : Nat) (f : Frame), s.por = false ∧ s.lnk.csAt = [] ∧ s.lnk.frame = some f ∧ f.port = p ∧ f.hdr = none ∧ bytes.length = 16 ∧ s.lnk.tx.length = 3 ∧ crc8 (bytes.take 15) = (bytes.getD 15 0).toNat) ∧
    (∃ (s : State) (p : Nat) (bytes : List Byte) (_n : Nat) (f : Frame), s.por = false ∧ s.lnk.csAt = [] ∧ s.lnk.frame = some f ∧ f.port = p ∧ f.hdr = none ∧ bytes.length = 16 ∧ crc8 (bytes.take 15) ≠ (bytes.getD 15 0).toNat) ∧
    (∃ (s : State) (p : Nat) (_bytes : List Byte) (errs : List (Nat × Nat)) (_n : Nat) (f : Frame), s.por = false ∧ s.lnk.csAt = [] ∧ s.lnk.frame = some f ∧ f.port = p ∧ f.hdr = none ∧ badPlaces s p f.replicated errs ≠ []) ∧
    (∃ (s : State) (n a : Nat), s.por = false ∧ s.lnk.csAt = [a] ∧ a ≤ s.lnk.time + 20 * n) ∧
    (∃ (s : State) (p _n : Nat) (f : Frame), s.por = false ∧ s.lnk.csAt = [] ∧ s.lnk.frame = some f ∧ f.port = p ∧ s.cmd.capture = [] ∧ s.cmd.landing = [] ∧ s.lnk.tx.length = 3) ∧
    (∃ (s : State) (p _n : Nat) (f : Frame), s.por = false ∧ s.lnk.csAt = [] ∧ s.lnk.frame = some f ∧ f.port = p ∧ s.cmd.capture ≠ [] ∧ s.cmd.landing = []) ∧
    (∃ (s : State) (p : Nat) (how : FrameEnd) (f : Frame), s.por = false ∧ s.lnk.frame = some f ∧ f.port = p ∧ how ≠ .portDown ∧ s.lnk.tx.length = 3) ∧
    (∃ (s : State) (p : Nat) (f : Frame), s.por = false ∧ s.lnk.frame = some f ∧ f.port = p ∧ feedPort s = some p ∧ p < 3 ∧ s.get (laneFld p) ≠ 0 ∧ s.get (laneFld p) < 4 ∧ s.lnk.tx.length = 3 ∧ s.lnk.narrow = []) ∧
    (∃ (s : State) (p : Nat) (f : Frame), s.por = false ∧ s.lnk.frame = some f ∧ f.port = p ∧ s.lnk.tx.length = 3) ∧
    (∃ (s : State), s.por = false ∧ s.get LNK_STAT_STATE = 3 ∧ s.lnk.anyFrame = true ∧ s.lnk.missed = false) :=
  ⟨⟨wLnk, 0, true, 9, by decide +kernel⟩,
   ⟨(((wLnk.put TBL_CMTSTAT_PEND 6).put (TBL_SDESC0_BASE 2) 9).put (TBL_SDESC1_COUNT 2) 4).put (TBL_LDESC1_GEN 2) 65535, 0, true, 9, by decide +kernel⟩,
   ⟨{ wLnk.put TBL_CMTSTAT_PEND 6 with cmd := { wLnk.cmd with landing := [(0x10200000, 5)] } }, 0, true, 9, by decide +kernel⟩,
   ⟨{ wSlot with lnk := { wSlot.lnk with tx := wSlot.lnk.tx.set 0 ⟨some ⟨0, true, true, false⟩, [], [], 0, 0, none⟩ } }, 0, 9, ⟨0, true, some true, 128, 4, false⟩, by decide +kernel⟩,
   ⟨wLnk, 0, 9, by decide +kernel⟩,
   ⟨wLnk, 1, true, 9, 5, by decide +kernel⟩,
   ⟨wLnk, 1, true, 9, by decide +kernel⟩,
   ⟨({ wLnk with lnk := { wLnk.lnk with frame := some ⟨0, true, none, 128, 4, false⟩, tx := wLnk.lnk.tx.set 0 ⟨some ⟨0, true, false, false⟩, [], [], 0, 0, none⟩ } }).put LNK_CFG_POSMODE 0, 0, chdr [1, 0, 0, 0, 0x10, 0x20, 0, 0, 0, 0, 0, 0, 3, 0x10, 16], 3, ⟨0, true, none, 128, 4, false⟩, by decide +kernel⟩,
   ⟨{ wLnk with lnk := { wLnk.lnk with frame := some ⟨0, true, none, 128, 4, false⟩, tx := wLnk.lnk.tx.set 0 ⟨some ⟨0, true, false, false⟩, [], [], 0, 0, none⟩ } }, 0, List.replicate 16 0, 3, ⟨0, true, none, 128, 4, false⟩, by decide +kernel⟩,
   ⟨{ wLnk with lnk := { wLnk.lnk with frame := some ⟨0, true, none, 128, 4, false⟩, tx := wLnk.lnk.tx.set 0 ⟨some ⟨0, true, false, false⟩, [], [], 0, 0, none⟩ } }, 0, chdr [1, 0, 0, 0, 0x10, 0x20, 0, 0, 0, 0, 0, 0, 3, 0x10, 16], [(0, 3)], 3, ⟨0, true, none, 128, 4, false⟩, by decide +kernel⟩,
   ⟨{ wLnk with lnk := { wLnk.lnk with csAt := [100] } }, 6, 100, by decide +kernel⟩,
   ⟨{ wSlot with lnk := { wSlot.lnk with tx := wSlot.lnk.tx.set 0 ⟨some ⟨0, true, true, false⟩, [], [], 0, 0, none⟩ } }, 0, 9, ⟨0, true, some true, 128, 4, false⟩, by decide +kernel⟩,
   ⟨{ wSlot with cmd := { wSlot.cmd with capture := [(0x10200008, 5)] } }, 0, 9, ⟨0, true, some true, 128, 4, false⟩, by decide +kernel⟩,
   ⟨{ wSlot with lnk := { wSlot.lnk with tx := wSlot.lnk.tx.set 0 ⟨some ⟨0, true, true, false⟩, [], [], 0, 0, none⟩ } }, 0, .start, ⟨0, true, some true, 128, 4, false⟩, by decide +kernel⟩,
   ⟨{ (wSlot.put LNK_STAT_PD2 2).put LNK_STAT_LD2 1 with lnk := { wSlot.lnk with joined := [0, 2], tx := wSlot.lnk.tx.set 2 ⟨some ⟨0, true, true, false⟩, [], [], 0, 0, none⟩ } }, 0, ⟨0, true, some true, 128, 4, false⟩, by decide +kernel⟩,
   ⟨{ wSlot with lnk := { wSlot.lnk with tx := wSlot.lnk.tx.set 0 ⟨some ⟨0, true, true, false⟩, [], [], 0, 0, none⟩ } }, 0, ⟨0, true, some true, 128, 4, false⟩, by decide +kernel⟩,
   ⟨{ wLnk with lnk := { wLnk.lnk with anyFrame := true } }, by decide +kernel⟩⟩

theorem wit_slots :
    (∃ (s : State) (h : SlotHdr) (g : Word) (pl : List Word) (_n : Nat), s.por = false ∧ s.slotMine 0 h = true ∧ pl.length = slotFld h 36 12 ∧ tableReady s (slotFld h 16 4) = true ∧ s.get (TBL_LDESC1_COUNT (slotFld h 16 4)) ≠ 0 ∧ s.on (TBL_LDESC0_MR (slotFld h 16 4)) = true ∧ stale s h g = false ∧ allIn s h = true ∧ s.tableCalm = true ∧ (∀ w, w < slotFld h 36 12 → (bankOf (slotAddr s h w) = 2 ∨ bankOf (slotAddr s h w) = 3) ∧ inSram (slotAddr s h w) = true)) ∧
    (∃ (s : State) (h : SlotHdr) (g : Word) (pl : List Word) (_n : Nat), s.por = false ∧ s.slotMine 0 h = true ∧ pl.length = slotFld h 36 12 ∧ tableReady s (slotFld h 16 4) = true ∧ s.get (TBL_LDESC1_COUNT (slotFld h 16 4)) ≠ 0 ∧ s.on (TBL_LDESC0_MR (slotFld h 16 4)) = true ∧ (stale s h g = true ∨ allIn s h = false) ∧ s.tableCalm = true ∧ (∀ w, w < slotFld h 36 12 → inRange s h w = true → (bankOf (slotAddr s h w) = 2 ∨ bankOf (slotAddr s h w) = 3) ∧ inSram (slotAddr s h w) = true)) ∧
    (∃ (s : State) (h : SlotHdr) (g : Word) (pl : List Word) (_n : Nat) (k : Nat), s.por = false ∧ s.slotMine 0 h = true ∧ pl.length = slotFld h 36 12 ∧ tableReady s (slotFld h 16 4) = true ∧ s.get (TBL_LDESC1_COUNT (slotFld h 16 4)) ≠ 0 ∧ s.on (TBL_LDESC0_MR (slotFld h 16 4)) = true ∧ stale s h g = false ∧ allIn s h = true ∧ s.tableCalm = true ∧ k < slotFld h 36 12 ∧ (∀ w, w < slotFld h 36 12 → (bankOf (slotAddr s h w) = 2 ∨ bankOf (slotAddr s h w) = 3) ∧ inSram (slotAddr s h w) = true)) ∧
    (∃ (s : State) (h : SlotHdr) (_g : Word) (pl : List Word) (_n : Nat) (_r : Option Nat), s.por = false ∧ s.slotMine 0 h = true ∧ pl.length = slotFld h 36 12 ∧ (tableReady s (slotFld h 16 4) = false ∨ (tableReady s (slotFld h 16 4) = true ∧ s.on (TBL_LDESC0_MR (slotFld h 16 4)) = true ∧ s.get (TBL_LDESC1_COUNT (slotFld h 16 4)) = 0))) ∧
    (∃ (s : State) (h : SlotHdr) (g : Word) (pl : List Word) (_n : Nat), s.por = false ∧ s.slotMine 0 h = true ∧ pl.length = slotFld h 36 12 ∧ tableReady s (slotFld h 16 4) = true ∧ s.get (TBL_LDESC1_COUNT (slotFld h 16 4)) ≠ 0 ∧ s.on (TBL_LDESC0_MR (slotFld h 16 4)) = true ∧ stale s h g = false ∧ allIn s h = true ∧ pl ≠ []) ∧
    (∃ (s : State) (h : SlotHdr) (_g : Word) (pl : List Word) (_n : Nat), s.por = false ∧ s.slotMine 0 h = true ∧ pl.length = slotFld h 36 12 ∧ tableReady s (slotFld h 16 4) = true ∧ s.on (TBL_LDESC0_MR (slotFld h 16 4)) = false) ∧
    (∃ (s : State) (h : SlotHdr) (_g : Word) (pl : List Word) (_n : Nat), s.por = false ∧ s.slotMine 1 h = true ∧ pl.length = slotFld h 36 12 ∧ tableReady s (slotFld h 16 4) = true ∧ s.get (TBL_LDESC1_COUNT (slotFld h 16 4)) ≠ 0 ∧ s.on (TBL_LDESC0_MW (slotFld h 16 4)) = true ∧ allIn s h = true ∧ s.cmd.capture.length + pl.length ≤ 1024) ∧
    (∃ (s : State) (h : SlotHdr) (_g : Word) (pl : List Word) (_n : Nat), s.por = false ∧ s.slotMine 1 h = true ∧ pl.length = slotFld h 36 12 ∧ tableReady s (slotFld h 16 4) = true ∧ s.on (TBL_LDESC0_MW (slotFld h 16 4)) = true ∧ (s.get (TBL_LDESC1_COUNT (slotFld h 16 4)) = 0 ∨ allIn s h = false) ∧ (s.cmd.capture.length + (((List.range pl.length).filter fun w => inRange s h w).map fun w => (slotAddr s h w, pl.getD w 0)).length ≤ 1024)) ∧
    (∃ (s : State) (h : SlotHdr) (_g : Word) (pl : List Word) (_n : Nat), s.por = false ∧ s.slotMine 1 h = true ∧ pl.length = slotFld h 36 12 ∧ (tableReady s (slotFld h 16 4) = false ∨ s.on (TBL_LDESC0_MW (slotFld h 16 4)) = false)) ∧
    (∃ (s : State) (h : SlotHdr) (_g : Word) (pl : List Word) (_n : Nat), s.por = false ∧ s.slotMine 1 h = true ∧ pl.length = slotFld h 36 12 ∧ tableReady s (slotFld h 16 4) = true ∧ s.on (TBL_LDESC0_MW (slotFld h 16 4)) = true ∧ (1024 < s.cmd.capture.length + (((List.range pl.length).filter fun w => inRange s h w).map fun w => (slotAddr s h w, pl.getD w 0)).length)) ∧
    (∃ (s : State) (h : SlotHdr) (g : Word) (pl : List Word) (_n : Nat), s.por = false ∧ s.slotMine 2 h = true ∧ pl.length = slotFld h 36 12 ∧ tableReady s (slotFld h 16 4) = true ∧ s.get (TBL_LDESC1_COUNT (slotFld h 16 4)) ≠ 0 ∧ s.on (TBL_LDESC0_MR (slotFld h 16 4)) = true ∧ s.on (TBL_LDESC0_MW (slotFld h 16 4)) = true ∧ stale s h g = false ∧ allIn s h = true ∧ s.cmd.capture.length + pl.length ≤ 1024 ∧ s.tableCalm = true ∧ (∀ w, w < slotFld h 36 12 → (bankOf (slotAddr s h w) = 2 ∨ bankOf (slotAddr s h w) = 3) ∧ inSram (slotAddr s h w) = true)) ∧
    (∃ (s : State) (h : SlotHdr) (g : Word) (pl : List Word) (_n : Nat), s.por = false ∧ s.slotMine 2 h = true ∧ pl.length = slotFld h 36 12 ∧ tableReady s (slotFld h 16 4) = true ∧ s.get (TBL_LDESC1_COUNT (slotFld h 16 4)) ≠ 0 ∧ s.on (TBL_LDESC0_MR (slotFld h 16 4)) = true ∧ s.on (TBL_LDESC0_MW (slotFld h 16 4)) = true ∧ (stale s h g = true ∨ allIn s h = false) ∧ (s.cmd.capture.length + (((List.range pl.length).filter fun w => inRange s h w).map fun w => (slotAddr s h w, pl.getD w 0)).length ≤ 1024) ∧ s.tableCalm = true ∧ (∀ w, w < slotFld h 36 12 → inRange s h w = true → (bankOf (slotAddr s h w) = 2 ∨ bankOf (slotAddr s h w) = 3) ∧ inSram (slotAddr s h w) = true)) ∧
    (∃ (s : State) (h : SlotHdr) (_g : Word) (pl : List Word) (_n : Nat) (_r : Option Nat), s.por = false ∧ s.slotMine 2 h = true ∧ pl.length = slotFld h 36 12 ∧ (tableReady s (slotFld h 16 4) = false ∨ s.on (TBL_LDESC0_MR (slotFld h 16 4)) = false ∨ s.on (TBL_LDESC0_MW (slotFld h 16 4)) = false)) ∧
    (∃ (s : State) (h : SlotHdr) (_g : Word) (pl : List Word) (_n : Nat) (w : Word) (rest : List Word), s.por = false ∧ s.slotMine 3 h = true ∧ pl.length = slotFld h 36 12 ∧ pl = w :: rest) ∧
    (∃ (s : State) (h : SlotHdr) (_g : Word) (pl : List Word) (_n : Nat) (w : Word) (rest : List Word), s.por = false ∧ s.slotMine 5 h = true ∧ pl.length = slotFld h 36 12 ∧ pl = w :: rest) ∧
    (∃ (s : State) (h : SlotHdr) (_g : Word) (pl : List Word) (_n : Nat) (w : Word) (rest : List Word) (d : List Byte) (q : Nat), s.por = false ∧ s.slotMine 4 h = true ∧ pl.length = slotFld h 36 12 ∧ pl = w :: rest ∧ cmdServing s = true ∧ bitsOf w.toNat 0 12 ≤ 4 * rest.length ∧ bitOf w.toNat 12 = true ∧ (d = (rest.flatMap fun x => leBytes 4 x.toNat).take (bitsOf w.toNat 0 12)) ∧ 8 ≤ d.length ∧ pHdrOk d = true ∧ pLen d ≤ 1024 ∧ pTotal d ≤ d.length ∧ pAuth d = false ∧ check4 s (d.take (pTotal d)) = none ∧ freePlace s = some q ∧ s.cmd.partialPkt = none ∧ s.cmd.upFrag = none ∧ s.cmd.rest = [] ∧ s.cmd.replies = [] ∧ s.cmd.places.length = 4 ∧ pOp d < 0x40) ∧
    (∃ (s : State) (h : SlotHdr) (_g : Word) (pl : List Word) (_n : Nat) (w : Word) (rest : List Word) (d : List Byte) (q : Nat), s.por = false ∧ s.slotMine 4 h = true ∧ pl.length = slotFld h 36 12 ∧ pl = w :: rest ∧ cmdServing s = true ∧ bitsOf w.toNat 0 12 ≤ 4 * rest.length ∧ bitOf w.toNat 12 = true ∧ (d = (rest.flatMap fun x => leBytes 4 x.toNat).take (bitsOf w.toNat 0 12)) ∧ 8 ≤ d.length ∧ pHdrOk d = true ∧ pLen d ≤ 1024 ∧ pTotal d ≤ d.length ∧ pAuth d = false ∧ check4 s (d.take (pTotal d)) = none ∧ s.cmd.partialPkt = none ∧ s.cmd.upFrag = none ∧ s.cmd.rest = [] ∧ s.cmd.replies = [] ∧ s.cmd.places.length = 4 ∧ freePlace s = some q ∧ 0x40 ≤ pOp d ∧ s.ms.wipeQ = []) ∧
    (∃ (s : State) (h : SlotHdr) (_g : Word) (pl : List Word) (errs : List (Nat × Nat)) (_r : Option Nat) (_n : Nat) (f : Frame) (k : List Nat), s.por = false ∧ s.lnk.csAt = [] ∧ serves s = true ∧ s.lnk.frame = some f ∧ k = badPlaces s f.port f.replicated errs ∧ (∀ i ∈ k, 8 ≤ i) ∧ crc8 (leBytes 7 h.bits.toNat) = h.scrc.toNat ∧ pl.length = slotFld h 36 12 ∧ slotFld h 12 3 = 0 ∧ slotFld h 0 12 ≠ devPos s) ∧
    (∃ (s : State) (h : SlotHdr) (_g : Word) (_pl : List Word) (errs : List (Nat × Nat)) (_n : Nat) (f : Frame), s.por = false ∧ s.lnk.csAt = [] ∧ serves s = true ∧ s.lnk.frame = some f ∧ (crc8 (leBytes 7 h.bits.toNat) ≠ h.scrc.toNat ∨ ((badPlaces s f.port f.replicated errs).any fun i => decide (i < 8)) = true)) :=
  ⟨⟨(wSlot.wr 0x10200008 4 77).wr 0x1020000C 4 78, shdr 0, 0, [0, 0], 3, by decide +kernel⟩,
   ⟨((((wSlot.put TBL_LIVE_LIVE 2).wr 0x10280008 4 77).wr 0x1028000C 4 78).put (TBL_LDESC1_GEN 1) 9).put (TBL_LDESC1_COUNT 1) 3, shdr 0, 0, [0, 0], 3, by decide +kernel⟩,
   ⟨((((wSlot.put TBL_LIVE_LIVE 2).wr 0x10280008 4 77).wr 0x1028000C 4 78).put (TBL_LDESC1_GEN 1) 9), shdr 0, 0, [0, 0], 3, 1, by decide +kernel⟩,
   ⟨wSlot.put TBL_READY_READY 0, shdr 0, 0, [5, 6], 3, none, by decide +kernel⟩,
   ⟨wSlot.wr 0x10200008 4 77, shdr 0, 0, [0, 0], 3, by decide +kernel⟩,
   ⟨wSlot.put (TBL_LDESC0_MR 1) 0, shdr 0, 0, [5, 6], 3, by decide +kernel⟩,
   ⟨wSlot, shdr 1, 0, [5, 6], 3, by decide +kernel⟩,
   ⟨wSlot.put (TBL_LDESC1_COUNT 1) 3, shdr 1, 0, [5, 6], 3, by decide +kernel⟩,
   ⟨wSlot.put TBL_READY_READY 0, shdr 1, 0, [5, 6], 3, by decide +kernel⟩,
   ⟨{ wSlot with cmd := { wSlot.cmd with capture := List.replicate 1023 (0x10200000, 5) } }, shdr 1, 0, [5, 6], 3, by decide +kernel⟩,
   ⟨wSlot.wr 0x10200008 4 77, shdr 2, 0, [5, 6], 3, by decide +kernel⟩,
   ⟨((((wSlot.put TBL_LIVE_LIVE 2).wr 0x10280008 4 77).wr 0x1028000C 4 78).put (TBL_LDESC1_GEN 1) 9), ⟨BitVec.ofNat 56 (5 + 2 * 4096 + 2 ^ 15 + 2 ^ 16 + 2 * 2 ^ 20 + 2 * 2 ^ 36), BitVec.ofNat 8 (crc8 (leBytes 7 (5 + 2 * 4096 + 2 ^ 15 + 2 ^ 16 + 2 * 2 ^ 20 + 2 * 2 ^ 36)))⟩, 8, [5, 6], 3, by decide +kernel⟩,
   ⟨wSlot.put (TBL_LDESC0_MW 1) 0, shdr 2, 0, [5, 6], 3, none, by decide +kernel⟩,
   ⟨wSlot.put LNK_EVOUT_BITS 3, shdr 3, 0, [8, 0], 3, 8, [0], by decide +kernel⟩,
   ⟨wSlot, shdr 5, 0, [0x80000123, 0], 3, 0x80000123, [0], by decide +kernel⟩,
   ⟨wSlot, ⟨BitVec.ofNat 56 (5 + 4 * 4096 + 3 * 2 ^ 36), BitVec.ofNat 8 (crc8 (leBytes 7 (5 + 4 * 4096 + 3 * 2 ^ 36)))⟩, 0, [0x00071008, BitVec.ofNat 32 (leNat ((phdr 1 2 0x55 0).take 4)), BitVec.ofNat 32 (leNat ((phdr 1 2 0x55 0).drop 4))], 3, 0x00071008, [BitVec.ofNat 32 (leNat ((phdr 1 2 0x55 0).take 4)), BitVec.ofNat 32 (leNat ((phdr 1 2 0x55 0).drop 4))], phdr 1 2 0x55 0, 0, by decide +kernel⟩,
   ⟨wSlot, ⟨BitVec.ofNat 56 (5 + 4 * 4096 + 3 * 2 ^ 36), BitVec.ofNat 8 (crc8 (leBytes 7 (5 + 4 * 4096 + 3 * 2 ^ 36)))⟩, 0, [0x00071008, BitVec.ofNat 32 (leNat ((phdr 0x41 2 0x55 0).take 4)), BitVec.ofNat 32 (leNat ((phdr 0x41 2 0x55 0).drop 4))], 3, 0x00071008, [BitVec.ofNat 32 (leNat ((phdr 0x41 2 0x55 0).take 4)), BitVec.ofNat 32 (leNat ((phdr 0x41 2 0x55 0).drop 4))], phdr 0x41 2 0x55 0, 0, by decide +kernel⟩,
   ⟨wSlot.put LNK_POS_POS 6, shdr 0, 0, [5, 6], [(0, 9)], none, 3, ⟨0, true, some true, 128, 4, false⟩, [9], by decide +kernel⟩,
   ⟨wSlot, ⟨(shdr 1).bits, (shdr 1).scrc + 1⟩, 0, [5, 6], [], 3, ⟨0, true, some true, 128, 4, false⟩, by decide +kernel⟩⟩

theorem wit_tableCommits :
    (∃ (s : State) (m : Master) (v : Word), s.por = false ∧ s.reaches m 0x40007000 1 v.toNat = true ∧ v.toNat % 65536 ≠ 0 ∧ v.toNat % 65536 &&& s.get TBL_CMTSTAT_PEND = 0 ∧ (((List.range 16).all fun n => !bitOf v.toNat n || !tableFails s v.toNat n) = true)) ∧
    (∃ (s : State) (m : Master) (v : Word), s.por = false ∧ s.reaches m 0x40007000 1 v.toNat = true ∧ v.toNat % 65536 = 0) ∧
    (∃ (s : State) (m : Master) (v : Word), s.por = false ∧ s.reaches m 0x40007000 1 v.toNat = true ∧ v.toNat % 65536 ≠ 0 ∧ v.toNat % 65536 &&& s.get TBL_CMTSTAT_PEND ≠ 0) ∧
    (∃ (s : State) (m : Master) (v : Word) (b : Nat), s.por = false ∧ s.reaches m 0x40007000 1 v.toNat = true ∧ v.toNat % 65536 ≠ 0 ∧ v.toNat % 65536 &&& s.get TBL_CMTSTAT_PEND = 0 ∧ b < 16 ∧ bitOf v.toNat b = true ∧ tableFails s v.toNat b = true ∧ (((List.range b).all fun n => !bitOf v.toNat n || !tableFails s v.toNat n) = true)) ∧
    (∃ (s : State) (m : Master) (v : Word), s.por = false ∧ s.reaches m 0x40007008 1 v.toNat = true ∧ s.get TBL_CMTSTAT_PEND < 65536) ∧
    (∃ (s : State) (a : Nat) (w : Word), s.por = false ∧ s.cmd.landing = [(a, w)] ∧ s.cmd.waitFlip = 0 ∧ s.ms.wipeQ = [] ∧ (bankOf a = 2 ∨ bankOf a = 3)) ∧
    (∃ (s : State) (l : List (Nat × Word)), s.por = false ∧ s.cmd.landing = l ∧ l ≠ [] ∧ s.cmd.waitFlip < 65536 ∧ s.ms.wipeQ = [] ∧ ((l.all fun x => x.1 % 4 == 0 && (bankOf x.1 == 2 || bankOf x.1 == 3)) = true)) :=
  ⟨⟨w0.put (TBL_SDESC1_COUNT 2) 4, .core, 4, by decide +kernel⟩,
   ⟨w0, .core, 0, by decide +kernel⟩,
   ⟨w0.put TBL_CMTSTAT_PEND 4, .core, 6, by decide +kernel⟩,
   ⟨(w0.put (TBL_SDESC1_COUNT 2) 4).put (TBL_SDESC1_COUNT 3) 4, .core, 12, 2, by decide +kernel⟩,
   ⟨{ w0.put TBL_CMTSTAT_PEND 14 with cmd := { w0.cmd with waitFlip := 8 } }, .core, 0xC, by decide +kernel⟩,
   ⟨{ w0 with cmd := { w0.cmd with landing := [(0x10200008, 0xABCD)] } }, 0x10200008, 0xABCD, by decide +kernel⟩,
   ⟨{ w0.put TBL_CMTSTAT_PEND 6 with cmd := { w0.cmd with landing := [(0x10200008, 0xABCD), (0x10280004, 7), (0x10200008, 9)], waitFlip := 2 } }, [(0x10200008, 0xABCD), (0x10280004, 7), (0x10200008, 9)], by decide +kernel⟩⟩

theorem wit_controlAndTableCommands :
    (∃ (s : State) (p : Nat) (pl : Place), s.por = false ∧ s.opReady p 1 pl = true ∧ (pPay pl.pkt).length ≤ 1020) ∧
    (∃ (s : State) (p : Nat) (pl : Place), s.por = false ∧ s.opReady p 1 pl = true ∧ 1020 < (pPay pl.pkt).length) ∧
    (∃ (s : State) (p : Nat) (pl : Place), s.por = false ∧ s.opReady p 2 pl = true ∧ (pPay pl.pkt) = []) ∧
    (∃ (s : State) (p : Nat) (pl : Place) (c : Byte), s.por = false ∧ s.opReady p 3 pl = true ∧ (pPay pl.pkt) = [c, 0, 0, 0] ∧ c.toNat < 32 ∧ s.get (EVF_CHOWN_PRIN c.toNat) = 5 ∧ s.evWin = []) ∧
    (∃ (s : State) (p : Nat) (pl : Place) (c : Byte), s.por = false ∧ s.opReady p 3 pl = true ∧ (pPay pl.pkt) = [c, 0, 0, 0] ∧ c.toNat < 32 ∧ s.get (EVF_CHOWN_PRIN c.toNat) ≠ 5) ∧
    (∃ (s : State) (p : Nat) (pl : Place) (v d0 d1 : Byte), s.por = false ∧ s.opReady p 4 pl = true ∧ (pPay pl.pkt) = [v, 0, d0, d1] ∧ v.toNat ≤ 2 ∧ s.on PWR_LVLSTAT_BUSY = false ∧ s.pwr.entry = none ∧ s.get PWR_DOMSTAT_STATE = 0 ∧ s.pwr.lvlQueue = none) ∧
    (∃ (s : State) (p : Nat) (pl : Place), s.por = false ∧ s.opReady p 4 pl = true ∧ (pPay pl.pkt).length ≠ 4) ∧
    (∃ (s : State) (p : Nat) (pl : Place) (v d0 d1 : Byte), s.por = false ∧ s.opReady p 5 pl = true ∧ (pPay pl.pkt) = [v, 0, d0, d1] ∧ 1 ≤ v.toNat ∧ v.toNat ≤ 3) ∧
    (∃ (s : State) (p : Nat) (pl : Place) (m0 m1 : Byte) (k : Nat), s.por = false ∧ s.opReady p 6 pl = true ∧ (pPay pl.pkt) = [m0, m1, 0, 0] ∧ k = m0.toNat + 256 * m1.toNat ∧ k ≠ 0 ∧ k &&& s.get TBL_CMTSTAT_PEND = 0 ∧ (((List.range 16).all fun i => !bitOf k i || s.on (TBL_SDESC0_CMDW i)) = true) ∧ (((List.range 16).all fun n => !bitOf k n || !tableFails s k n) = true)) ∧
    (∃ (s : State) (p : Nat) (pl : Place) (k : Byte), s.por = false ∧ s.opReady p 7 pl = true ∧ (pPay pl.pkt) = [k, 0, 0, 0] ∧ k.toNat < 16) ∧
    (∃ (s : State) (p : Nat) (pl : Place), s.por = false ∧ s.opReady p 8 pl = true ∧ 8 ≤ (pPay pl.pkt).length ∧ (pPay pl.pkt).length ≤ 1020 ∧ (pPay pl.pkt).length % 4 = 0 ∧ (pf (pPay pl.pkt) 0 1) < 16 ∧ pf (pPay pl.pkt) 1 1 = 0 ∧ s.on (TBL_SDESC0_CMDW (pf (pPay pl.pkt) 0 1)) = true ∧ s.bit TBL_CMTSTAT_PEND (pf (pPay pl.pkt) 0 1) = false ∧ pf (pPay pl.pkt) 2 2 * esz (s.get (TBL_SDESC0_ESIZE (pf (pPay pl.pkt) 0 1))) + (pPay pl.pkt).length ≤ (stagedExt s (pf (pPay pl.pkt) 0 1)).2 + 4 ∧ (copyBase (1 - liveCopy s (pf (pPay pl.pkt) 0 1)) + (stagedExt s (pf (pPay pl.pkt) 0 1)).1 + pf (pPay pl.pkt) 2 2 * esz (s.get (TBL_SDESC0_ESIZE (pf (pPay pl.pkt) 0 1)))) + (pPay pl.pkt).length ≤ 0x10300004 ∧ s.ms.wipeQ = []) ∧
    (∃ (s : State) (p : Nat) (pl : Place), s.por = false ∧ s.opReady p 8 pl = true ∧ 1 ≤ (pPay pl.pkt).length ∧ (pf (pPay pl.pkt) 0 1) < 16 ∧ s.on (TBL_SDESC0_CMDW (pf (pPay pl.pkt) 0 1)) = false) ∧
    (∃ (s : State) (p : Nat) (pl : Place), s.por = false ∧ s.opReady p 9 pl = true ∧ (pPay pl.pkt).length = 8 ∧ (pf (pPay pl.pkt) 0 1) < 16 ∧ pf (pPay pl.pkt) 1 1 = 0 ∧ pf (pPay pl.pkt) 6 2 = 0 ∧ 4 ≤ pf (pPay pl.pkt) 4 2 ∧ pf (pPay pl.pkt) 4 2 ≤ 1016 ∧ pf (pPay pl.pkt) 4 2 % 4 = 0 ∧ s.on (TBL_LDESC0_MR (pf (pPay pl.pkt) 0 1)) = true ∧ pf (pPay pl.pkt) 2 2 * esz (s.get (TBL_LDESC0_ESIZE (pf (pPay pl.pkt) 0 1))) + pf (pPay pl.pkt) 4 2 ≤ (liveExt s (pf (pPay pl.pkt) 0 1)).2 ∧ (copyBase (liveCopy s (pf (pPay pl.pkt) 0 1)) + (liveExt s (pf (pPay pl.pkt) 0 1)).1 + pf (pPay pl.pkt) 2 2 * esz (s.get (TBL_LDESC0_ESIZE (pf (pPay pl.pkt) 0 1)))) + pf (pPay pl.pkt) 4 2 ≤ 0x10300000 ∧ s.ms.wipeQ = [] ∧ s.ms.sramErr = []) :=
  ⟨⟨wCmd (plc 1 2 5 [1, 2, 3]), 0, plc 1 2 5 [1, 2, 3], by decide +kernel⟩,
   ⟨wCmd (plc 1 2 5 (List.replicate 1021 7)), 0, plc 1 2 5 (List.replicate 1021 7), by decide +kernel⟩,
   ⟨wCmd (plc 2 2 5 []), 0, plc 2 2 5 [], by decide +kernel⟩,
   ⟨((((wCmd (plc 3 2 5 [9, 0, 0, 0]))).put (EVF_CHOWN_PRIN 9) 5).put (EVF_CSEL_EN 12) 1).put (EVF_CSEL_CH 12) 9, 0, plc 3 2 5 [9, 0, 0, 0], 9, by decide +kernel⟩,
   ⟨wCmd (plc 3 2 5 [9, 0, 0, 0]), 0, plc 3 2 5 [9, 0, 0, 0], 9, by decide +kernel⟩,
   ⟨((wCmd (plc 4 2 5 [1, 0, 0, 0]))).put PWR_LVLSTAT_CUR 2, 0, plc 4 2 5 [1, 0, 0, 0], 1, 0, 0, by decide +kernel⟩,
   ⟨wCmd (plc 4 2 5 [1, 0, 0]), 0, plc 4 2 5 [1, 0, 0], by decide +kernel⟩,
   ⟨wCmd (plc 5 2 5 [2, 0, 5, 1]), 0, plc 5 2 5 [2, 0, 5, 1], 2, 5, 1, by decide +kernel⟩,
   ⟨(((wCmd (plc 6 2 5 [4, 0, 0, 0]))).put (TBL_SDESC0_CMDW 2) 1).put (TBL_SDESC1_COUNT 2) 8, 0, plc 6 2 5 [4, 0, 0, 0], 4, 0, 4, by decide +kernel⟩,
   ⟨((wCmd (plc 7 2 5 [2, 0, 0, 0]))).put (TBL_SDESC1_COUNT 2) 8, 0, plc 7 2 5 [2, 0, 0, 0], 2, by decide +kernel⟩,
   ⟨(((wCmd (plc 8 2 5 [2, 0, 1, 0, 5, 6, 7, 8]))).put (TBL_SDESC0_CMDW 2) 1).put (TBL_SDESC1_COUNT 2) 8, 0, plc 8 2 5 [2, 0, 1, 0, 5, 6, 7, 8], by decide +kernel⟩,
   ⟨wCmd (plc 8 2 5 [2, 0, 1, 0, 5, 6, 7, 8]), 0, plc 8 2 5 [2, 0, 1, 0, 5, 6, 7, 8], by decide +kernel⟩,
   ⟨((((wCmd (plc 9 2 5 [2, 0, 1, 0, 8, 0, 0, 0]))).put (TBL_LDESC0_MR 2) 1).put (TBL_LDESC1_COUNT 2) 8).wr 0x10200004 4 77, 0, plc 9 2 5 [2, 0, 1, 0, 8, 0, 0, 0], by decide +kernel⟩⟩

theorem wit_sessionCommands :
    (∃ (s : State) (p : Nat) (pl : Place) (salt : List Byte), s.por = false ∧ s.opReady p 0x40 pl = true ∧ (pPay pl.pkt).length = 20 ∧ slotted (pf (pPay pl.pkt) 0 1) = true ∧ pf (pPay pl.pkt) 1 3 = 0 ∧ s.sec.tampin = false ∧ s.sec.sess = none ∧ saltOf s (pf (pPay pl.pkt) 0 1) = some salt) ∧
    (∃ (s : State) (p : Nat) (pl : Place), s.por = false ∧ s.opReady p 0x40 pl = true ∧ (pPay pl.pkt).length = 20 ∧ slotted (pf (pPay pl.pkt) 0 1) = true ∧ pf (pPay pl.pkt) 1 3 = 0 ∧ s.sec.tampin = false ∧ s.sec.sess = none ∧ saltOf s (pf (pPay pl.pkt) 0 1) = none ∧ claimable s (pf (pPay pl.pkt) 0 1) = true) ∧
    (∃ (s : State) (p : Nat) (pl : Place), s.por = false ∧ s.opReady p 0x40 pl = true ∧ s.sec.tampin = true) ∧
    (∃ (s : State) (p : Nat) (pl : Place) (x : Sess), s.por = false ∧ s.opReady p 0x41 pl = true ∧ s.sec.chal = some x ∧ (pPay pl.pkt).length = 16 ∧ (pPay pl.pkt) = cmac x.key (proofMsg x.prin 0 x.nh x.cd) ∧ s.sec.claim = none) ∧
    (∃ (s : State) (p : Nat) (pl : Place) (x : Sess), s.por = false ∧ s.opReady p 0x41 pl = true ∧ s.sec.chal = some x ∧ (pPay pl.pkt).length = 16 ∧ (pPay pl.pkt) ≠ cmac x.key (proofMsg x.prin 0 x.nh x.cd)) ∧
    (∃ (s : State) (p : Nat) (pl : Place), s.por = false ∧ s.opReady p 0x42 pl = true ∧ (pPay pl.pkt) = [] ∧ pl.nonce.isSome = true ∧ s.sec.sess.isSome = true) ∧
    (∃ (s : State), s.por = false ∧ s.sec.sess.isSome = true) ∧
    (∃ (s : State) (p : Nat) (pl : Place) (x : Sess) (salt : List Byte), s.por = false ∧ s.opReady p 0x41 pl = true ∧ s.sec.chal = some x ∧ (pPay pl.pkt).length = 16 ∧ (pPay pl.pkt) = cmac x.key (proofMsg x.prin 0 x.nh x.cd) ∧ s.sec.claim = some salt ∧ s.on NVS_STAT_HOLDRDY = true) :=
  ⟨⟨sk ((wCmd (plc 0x40 2 5 (3 :: List.replicate 19 0)))) fun c => { c with slots := c.slots.set 2 (some (List.replicate 16 5)) }, 0, plc 0x40 2 5 (3 :: List.replicate 19 0), List.replicate 16 5, by decide +kernel⟩,
   ⟨wCmd (plc 0x40 2 5 (3 :: List.replicate 19 0)), 0, plc 0x40 2 5 (3 :: List.replicate 19 0), by decide +kernel⟩,
   ⟨sk ((wCmd (plc 0x40 2 5 (3 :: List.replicate 19 0)))) fun c => { c with tampin := true }, 0, plc 0x40 2 5 (3 :: List.replicate 19 0), by decide +kernel⟩,
   ⟨sk ((wCmd (plc 0x41 2 5 (cmac (List.replicate 16 1) (proofMsg 3 0 (List.replicate 16 2) (List.replicate 16 3)))))) fun c => { c with chal := some ⟨3, List.replicate 16 1, List.replicate 16 2, List.replicate 16 3, 0⟩ }, 0, plc 0x41 2 5 (cmac (List.replicate 16 1) (proofMsg 3 0 (List.replicate 16 2) (List.replicate 16 3))), ⟨3, List.replicate 16 1, List.replicate 16 2, List.replicate 16 3, 0⟩, by decide +kernel⟩,
   ⟨sk ((wCmd (plc 0x41 2 5 (List.replicate 16 9)))) fun c => { c with chal := some ⟨3, List.replicate 16 1, List.replicate 16 2, List.replicate 16 3, 0⟩ }, 0, plc 0x41 2 5 (List.replicate 16 9), ⟨3, List.replicate 16 1, List.replicate 16 2, List.replicate 16 3, 0⟩, by decide +kernel⟩,
   ⟨sk (wCmd { plc 0x42 2 3 [] with nonce := some (1, List.replicate 16 1) }) fun c => { c with sess := some ⟨3, List.replicate 16 1, [], [], 2⟩ }, 0, { plc 0x42 2 3 [] with nonce := some (1, List.replicate 16 1) }, by decide +kernel⟩,
   ⟨sk w0 fun c => { c with sess := some ⟨3, [], [], [], 1⟩ }, by decide +kernel⟩,
   ⟨(sk ((wCmd (plc 0x41 2 5 (cmac (List.replicate 16 1) (proofMsg 3 0 (List.replicate 16 2) (List.replicate 16 3)))))) fun c => { c with chal := some ⟨3, List.replicate 16 1, List.replicate 16 2, List.replicate 16 3, 0⟩, claim := some [7] }).put NVS_STAT_HOLDRDY 1, 0, plc 0x41 2 5 (cmac (List.replicate 16 1) (proofMsg 3 0 (List.replicate 16 2) (List.replicate 16 3))), ⟨3, List.replicate 16 1, List.replicate 16 2, List.replicate 16 3, 0⟩, [7], by decide +kernel⟩⟩

theorem wit_lifeCycleAndFirmwareCommands :
    (∃ (s : State) (p : Nat) (pl : Place), s.por = false ∧ s.opReady p 0x43 pl = true ∧ right s .lifecycle pl.prin false = true ∧ (pPay pl.pkt) = []) ∧
    (∃ (s : State) (p : Nat) (pl : Place), s.por = false ∧ s.opReady p 0x44 pl = true ∧ lcRefusal s pl.prin (pPay pl.pkt) = (none, s)) ∧
    (∃ (s : State) (p : Nat) (pl : Place) (st why : Nat), s.por = false ∧ s.opReady p 0x44 pl = true ∧ lcRefusal s pl.prin (pPay pl.pkt) = (some (st, why), s) ∧ st ≠ 2) ∧
    (∃ (s : State) (m : Master) (v : Word), s.por = false ∧ s.reaches m 0x4000E0C0 1 v.toNat = true ∧ v.toNat % 65536 = 0x4D31 ∧ lcState s = 0 ∧ s.sec.trans = none ∧ s.on NVS_STAT_HOLDRDY = true) ∧
    (∃ (s : State) (q : Nat), s.por = false ∧ s.sec.trans = some ⟨2, 3, 0, q⟩ ∧ lcState s = 2 ∧ s.boot = none ∧ s.pwr.entry = none ∧ s.sec.slots.length = 4 ∧ s.on NVS_STAT_HOLDRDY = true) ∧
    (∃ (s : State), s.por = false ∧ s.boot = some (4, 0) ∧ s.pwr.withheld = false ∧ s.dx.stores = [] ∧ s.nvs.ops = [] ∧ s.nvs.own = [] ∧ s.ms.nvErr = [] ∧ s.nvs.moving = none ∧ s.rd 0x2000FFFC 4 = 0x57504D23 ∧ lcState s = 3 ∧ s.sec.slots.length = 4) ∧
    (∃ (s : State), s.por = false ∧ s.boot = none ∧ s.pwr.entry = none ∧ s.pwr.withheld = false ∧ s.ms.nvErr = [] ∧ s.nvs.moving = none ∧ s.rd 0x2000FFFC 4 = 0x57504D23 ∧ lcState s = 3 ∧ s.on NVS_STAT_HOLDRDY = false) ∧
    (∃ (s : State) (p : Nat) (pl : Place) (k : Byte), s.por = false ∧ s.opReady p 0x53 pl = true ∧ (pPay pl.pkt) = [k, 0, 0, 0] ∧ (k = 1 ∧ (pl.prin = 4 ∨ pl.prin = 2 ∨ pl.prin = 1) ∨ k = 2 ∧ (pl.prin = 2 ∨ pl.prin = 1))) ∧
    (∃ (s : State) (p : Nat) (pl : Place), s.por = false ∧ s.opReady p (pOp pl.pkt) pl = true ∧ pl.sent = false ∧ 0x20 ≤ pOp pl.pkt ∧ pOp pl.pkt < 0x40 ∧ (leBytes 4 (pl.prin + pl.cycno * 65536) ++ pl.pkt.take 8 ++ pPay pl.pkt).length ≤ 0x800 ∧ s.ms.wipeQ = [] ∧ s.ms.sramErr = []) ∧
    (∃ (s : State) (m : Master) (v : Word) (p : Nat) (pl : Place) (h : List Byte), s.por = false ∧ s.reaches m 0x4000F018 1 v.toNat = true ∧ v.toNat = 2 ^ p ∧ p < 4 ∧ s.cmd.places.length = 4 ∧ placeAt s p = some pl ∧ pl.sent = true ∧ pl.replied = false ∧ pReply pl.pkt = true ∧ s.ms.wipeQ = [] ∧ s.ms.sramErr = [] ∧ h = s.rdBytes (0x103EA000 + 0x800 * p) 8 ∧ pLen h ≤ 1024 ∧ (h.drop 2).take 2 = (pl.pkt.drop 2).take 2 ∧ pOp h = pOp pl.pkt + 128) ∧
    (∃ (s : State) (p : Nat) (pl : Place), s.por = false ∧ p < 4 ∧ s.cmd.places.length = 4 ∧ placeAt s p = some pl ∧ pl.replied = false ∧ 0x20 ≤ pOp pl.pkt) :=
  ⟨⟨wCmd (plc 0x43 2 5 []), 0, plc 0x43 2 5 [], by decide +kernel⟩,
   ⟨wCmd (plc 0x44 2 3 [3, 0, 0, 0]), 0, plc 0x44 2 3 [3, 0, 0, 0], by decide +kernel⟩,
   ⟨wCmd (plc 0x44 2 4 [3, 0, 0, 0]), 0, plc 0x44 2 4 [3, 0, 0, 0], 3, 0, by decide +kernel⟩,
   ⟨sk (w0.put NVS_STAT_HOLDRDY 1) fun c => { c with fuses := 0 }, .dap, 0x4D31, by decide +kernel⟩,
   ⟨sk ((wCmd (plc 1 2 5 [])).put NVS_STAT_HOLDRDY 1) fun c => { c with trans := some ⟨2, 3, 0, 5⟩, slots := c.slots.set 2 (some []) }, 5, by decide +kernel⟩,
   ⟨sk { (w0.put NVS_STAT_HOLDRDY 0).wr 0x2000FFFC 4 0x57504D23 with boot := some (4, 0) } fun c => { c with fuses := 7 }, by decide +kernel⟩,
   ⟨sk ((w0.put NVS_STAT_HOLDRDY 0).wr 0x2000FFFC 4 0x57504D23) fun c => { c with fuses := 7 }, by decide +kernel⟩,
   ⟨wCmd (plc 0x53 2 2 [2, 0, 0, 0]), 0, plc 0x53 2 2 [2, 0, 0, 0], 2, by decide +kernel⟩,
   ⟨wCmd (plc 0x20 2 5 [1, 2, 3, 4, 5]), 0, plc 0x20 2 5 [1, 2, 3, 4, 5], by decide +kernel⟩,
   ⟨((wCmd { plc 0x20 2 5 [] with sent := true }).fill 0x103EA000 (phdr 0xA0 0 0x55 2)).fill 0x103EA008 [7, 9], .core, 1, 0, { plc 0x20 2 5 [] with sent := true }, phdr 0xA0 0 0x55 2, by decide +kernel⟩,
   ⟨wCmd (plc 0x20 2 5 []), 0, plc 0x20 2 5 [], by decide +kernel⟩⟩

theorem wit_managementCommands :
    (∃ (s : State) (p : Nat) (pl : Place), s.por = false ∧ s.opReady p 0x45 pl = true ∧ (pPay pl.pkt).length = 8 ∧ 1 ≤ (pf (pPay pl.pkt) 4 2) ∧ (pf (pPay pl.pkt) 4 2) ≤ 1020 ∧ (pf (pPay pl.pkt) 6 2) = 0 ∧ inNv (pf (pPay pl.pkt) 0 4) = true ∧ inNv ((pf (pPay pl.pkt) 0 4) + (pf (pPay pl.pkt) 4 2) - 1) = true ∧ nvRegion (pf (pPay pl.pkt) 0 4) = nvRegion ((pf (pPay pl.pkt) 0 4) + (pf (pPay pl.pkt) 4 2) - 1) ∧ right s (nvAsset (pf (pPay pl.pkt) 0 4)) pl.prin false = true ∧ right s (nvAsset ((pf (pPay pl.pkt) 0 4) + (pf (pPay pl.pkt) 4 2) - 1)) pl.prin false = true ∧ s.nvs.moving = none ∧ s.ms.nvErr = [] ∧ (s.dx.stores = [] ∨ s.on NVS_STAT_HOLDRDY = true) ∧ s.nvs.yielded = false) ∧
    (∃ (s : State) (p : Nat) (pl : Place), s.por = false ∧ s.opReady p 0x46 pl = true ∧ 4 ≤ (pPay pl.pkt).length ∧ inNv (pf (pPay pl.pkt) 0 4) = true ∧ right s (nvAsset (pf (pPay pl.pkt) 0 4)) pl.prin true = false) ∧
    (∃ (s : State) (p : Nat) (pl : Place), s.por = false ∧ s.opReady p 0x46 pl = true ∧ 12 ≤ (pPay pl.pkt).length ∧ (pPay pl.pkt).length ≤ 264 ∧ (pPay pl.pkt).length % 4 = 0 ∧ (pf (pPay pl.pkt) 0 4) % 4 = 0 ∧ pf (pPay pl.pkt) 4 4 = 0 ∧ inNv (pf (pPay pl.pkt) 0 4) = true ∧ nvAsset (pf (pPay pl.pkt) 0 4) = .image ∧ right s .image pl.prin true = true) ∧
    (∃ (s : State) (p : Nat) (pl : Place), s.por = false ∧ s.opReady p 0x47 pl = true ∧ 1 ≤ (pPay pl.pkt).length ∧ (pf (pPay pl.pkt) 0 1) < 128 ∧ right s (recAsset (pf (pPay pl.pkt) 0 1)) pl.prin false = false) ∧
    (∃ (s : State) (p : Nat) (pl : Place), s.por = false ∧ s.opReady p 0x48 pl = true ∧ 1 ≤ (pPay pl.pkt).length ∧ (pf (pPay pl.pkt) 0 1) < 128 ∧ right s (recAsset (pf (pPay pl.pkt) 0 1)) pl.prin true = false) ∧
    (∃ (s : State) (p : Nat) (pl : Place), s.por = false ∧ s.opReady p 0x49 pl = true ∧ tlyRight s pl.prin (pf (pPay pl.pkt) 0 1) false = false) ∧
    (∃ (s : State) (p : Nat) (pl : Place), s.por = false ∧ s.opReady p 0x4A pl = true ∧ 1 ≤ (pPay pl.pkt).length ∧ tlyRight s pl.prin (pf (pPay pl.pkt) 0 1) true = false) ∧
    (∃ (s : State) (p : Nat) (pl : Place), s.por = false ∧ s.opReady p 0x4C pl = true ∧ right s .clock pl.prin true = false) ∧
    (∃ (s : State) (p : Nat) (pl : Place), s.por = false ∧ s.opReady p 0x4E pl = true ∧ right s .ledger pl.prin true = false) ∧
    (∃ (s : State) (p : Nat) (pl : Place), s.por = false ∧ s.opReady p 0x51 pl = true ∧ right s .log pl.prin false = false) ∧
    (∃ (s : State) (p : Nat) (pl : Place), s.por = false ∧ s.opReady p 0x52 pl = true ∧ right s .log pl.prin false = false) ∧
    (∃ (s : State) (p : Nat) (pl : Place), s.por = false ∧ s.opReady p 0x45 pl = true ∧ inNv (pf (pPay pl.pkt) 0 4) = true ∧ right s (nvAsset (pf (pPay pl.pkt) 0 4)) pl.prin false = false) ∧
    (∃ (s : State) (p : Nat) (pl : Place) (e : Nat), s.por = false ∧ s.opReady p 0x46 pl = true ∧ 12 ≤ (pPay pl.pkt).length ∧ (pPay pl.pkt).length ≤ 264 ∧ (pPay pl.pkt).length % 4 = 0 ∧ (pf (pPay pl.pkt) 0 4) % 4 = 0 ∧ pf (pPay pl.pkt) 4 4 = 0 ∧ inNv (pf (pPay pl.pkt) 0 4) = true ∧ nvRegion (pf (pPay pl.pkt) 0 4) ≠ 4 ∧ nvRegion (pf (pPay pl.pkt) 0 4) ≠ 5 ∧ pageCheck s false pl.prin (pf (pPay pl.pkt) 0 4) (((pPay pl.pkt).length - 8) / 4) = none ∧ bindTicket 3 pl.prin 1 s.led.res = none ∧ decide81 s 3 (s.get (HRV_CLSAMT_AMOUNT 3)) = (stOk, e)) ∧
    (∃ (s : State) (p : Nat) (pl : Place) (k : Byte) (c a : Nat), s.por = false ∧ s.opReady p 0x47 pl = true ∧ (pPay pl.pkt) = [k, 0, 0, 0] ∧ k.toNat < 128 ∧ right s (recAsset k.toNat) pl.prin false = true ∧ s.nvs.ops = [] ∧ s.nvs.own = [] ∧ s.nvs.moving = none ∧ s.ms.nvErr = [] ∧ currentCopy s k.toNat = some c ∧ a = copyAt k.toNat c) ∧
    (∃ (s : State) (p : Nat) (pl : Place) (k : Byte), s.por = false ∧ s.opReady p 0x47 pl = true ∧ (pPay pl.pkt) = [k, 0, 0, 0] ∧ k.toNat < 128 ∧ right s (recAsset k.toNat) pl.prin false = true ∧ s.nvs.ops = [] ∧ s.nvs.own = [] ∧ s.nvs.moving = none ∧ s.ms.nvErr = [] ∧ currentCopy s k.toNat = none) ∧
    (∃ (s : State) (p : Nat) (pl : Place) (c q e : Nat), s.por = false ∧ s.opReady p 0x48 pl = true ∧ 4 ≤ (pPay pl.pkt).length ∧ (pPay pl.pkt).length ≤ 1012 ∧ (pf (pPay pl.pkt) 0 1) < 128 ∧ pf (pPay pl.pkt) 1 3 = 0 ∧ right s (recAsset (pf (pPay pl.pkt) 0 1)) pl.prin true = true ∧ s.nvs.ops = [] ∧ s.nvs.own = [] ∧ s.nvs.moving = none ∧ s.ms.nvErr = [] ∧ writeTarget s (pf (pPay pl.pkt) 0 1) = (c, q) ∧ bindTicket 3 pl.prin 2 s.led.res = none ∧ decide81 s 3 (s.get (HRV_CLSAMT_AMOUNT 3)) = (stOk, e)) ∧
    (∃ (s : State) (p : Nat) (pl : Place) (k : Byte), s.por = false ∧ s.opReady p 0x49 pl = true ∧ (pPay pl.pkt) = [k, 0, 0, 0] ∧ k.toNat < 32 ∧ right s .tallies pl.prin false = true ∧ s.nvs.ops = [] ∧ s.nvs.own = [] ∧ s.nvs.moving = none ∧ s.ms.nvErr = [] ∧ carryPends s k.toNat = false) ∧
    (∃ (s : State) (p : Nat) (pl : Place) (k a lo hi : Nat), s.por = false ∧ s.opReady p 0x4A pl = true ∧ (pPay pl.pkt).length = 8 ∧ k = (pf (pPay pl.pkt) 0 1) ∧ k < 29 ∧ pf (pPay pl.pkt) 1 3 = 0 ∧ a = pf (pPay pl.pkt) 4 4 ∧ a ≠ 0 ∧ right s .tallies pl.prin true = true ∧ s.nvs.ops = [] ∧ s.nvs.own = [] ∧ s.nvs.moving = none ∧ s.ms.nvErr = [] ∧ lo = s.rd (tallyAt k) 4 ∧ hi = s.rd (tallyAt k + 4) 4 ∧ carryPends s k = false ∧ lo + a < 2 ^ 32) ∧
    (∃ (s : State) (p : Nat) (pl : Place) (k a lo hi : Nat), s.por = false ∧ s.opReady p 0x4A pl = true ∧ (pPay pl.pkt).length = 8 ∧ k = (pf (pPay pl.pkt) 0 1) ∧ k < 29 ∧ pf (pPay pl.pkt) 1 3 = 0 ∧ a = pf (pPay pl.pkt) 4 4 ∧ a ≠ 0 ∧ right s .tallies pl.prin true = true ∧ s.nvs.ops = [] ∧ s.nvs.own = [] ∧ s.nvs.moving = none ∧ s.ms.nvErr = [] ∧ lo = s.rd (tallyAt k) 4 ∧ hi = s.rd (tallyAt k + 4) 4 ∧ carryPends s k = false ∧ 2 ^ 32 ≤ lo + a ∧ hi + 1 < 2 ^ 32) ∧
    (∃ (s : State) (p : Nat) (pl : Place) (k a lo hi : Nat), s.por = false ∧ s.opReady p 0x4A pl = true ∧ (pPay pl.pkt).length = 8 ∧ k = (pf (pPay pl.pkt) 0 1) ∧ k < 29 ∧ pf (pPay pl.pkt) 1 3 = 0 ∧ a = pf (pPay pl.pkt) 4 4 ∧ a ≠ 0 ∧ right s .tallies pl.prin true = true ∧ s.nvs.ops = [] ∧ s.nvs.own = [] ∧ s.nvs.moving = none ∧ s.ms.nvErr = [] ∧ lo = s.rd (tallyAt k) 4 ∧ hi = s.rd (tallyAt k + 4) 4 ∧ carryPends s k = false ∧ 2 ^ 32 ≤ lo + a ∧ hi = 2 ^ 32 - 1) ∧
    (∃ (s : State) (p : Nat) (pl : Place), s.por = false ∧ s.opReady p 0x4B pl = true ∧ (pPay pl.pkt) = [] ∧ right s .clock pl.prin false = true) ∧
    (∃ (s : State) (p : Nat) (pl : Place) (sec min hour wday day month year : Byte), s.por = false ∧ s.opReady p 0x4C pl = true ∧ (pPay pl.pkt) = [sec, min, hour, wday, day, month, year, 0] ∧ sec.toNat < 64 ∧ min.toNat < 64 ∧ hour.toNat < 32 ∧ wday.toNat < 8 ∧ day.toNat < 32 ∧ month.toNat < 16 ∧ right s .clock pl.prin true = true ∧ s.on RTC_STAT_CPEND = false) ∧
    (∃ (s : State) (p : Nat) (pl : Place), s.por = false ∧ s.opReady p 0x4D pl = true ∧ (pPay pl.pkt) = []) ∧
    (∃ (s : State) (p : Nat) (pl : Place) (k a0 a1 a2 : Byte) (e : Nat), s.por = false ∧ s.opReady p 0x4E pl = true ∧ (pPay pl.pkt) = [0, k, 0, 0, a0, a1, a2, 0] ∧ a2.toNat < 16 ∧ right s .ledger pl.prin true = true ∧ k ≠ 2 ∧ k.toNat ≤ 4 ∧ pf [a0, a1, a2, 0] 0 4 ≠ 0 ∧ decide81 s k.toNat (pf [a0, a1, a2, 0] 0 4) = (stOk, e)) ∧
    (∃ (s : State) (p : Nat) (pl : Place) (k : Byte) (r : Resv), s.por = false ∧ s.opReady p 0x4E pl = true ∧ (pPay pl.pkt) = [1, 0, k, 0, 0, 0, 0, 0] ∧ k.toNat < 8 ∧ right s .ledger pl.prin true = true ∧ ticketOf s k.toNat = some r ∧ r.tag = pl.prin ∧ r.bound = false) ∧
    (∃ (s : State) (p : Nat) (pl : Place), s.por = false ∧ s.opReady p 0x51 pl = true ∧ (pPay pl.pkt) = [] ∧ right s .log pl.prin false = true) ∧
    (∃ (s : State) (p : Nat) (pl : Place), s.por = false ∧ s.opReady p 0x52 pl = true ∧ (pPay pl.pkt).length = 8 ∧ 1 ≤ (pf (pPay pl.pkt) 4 2) ∧ (pf (pPay pl.pkt) 4 2) ≤ 1020 ∧ (pf (pPay pl.pkt) 6 2) = 0 ∧ (pf (pPay pl.pkt) 0 4) + (pf (pPay pl.pkt) 4 2) ≤ 0x1C000 ∧ right s .log pl.prin false = true ∧ s.nvs.moving = none ∧ s.ms.nvErr = [] ∧ (s.dx.stores = [] ∨ s.on NVS_STAT_HOLDRDY = true) ∧ s.nvs.yielded = false) :=
  ⟨⟨((wCmd (plc 0x45 2 3 (leBytes 4 0x200E0005 ++ [6, 0, 0, 0])))).wr 0x200E0004 4 0x12345678, 0, plc 0x45 2 3 (leBytes 4 0x200E0005 ++ [6, 0, 0, 0]), by decide +kernel⟩,
   ⟨wCmd (plc 0x46 2 2 (leBytes 4 0x200E0004 ++ [0, 0, 0, 0, 1, 2, 3, 4])), 0, plc 0x46 2 2 (leBytes 4 0x200E0004 ++ [0, 0, 0, 0, 1, 2, 3, 4]), by decide +kernel⟩,
   ⟨wCmd (plc 0x46 2 2 (leBytes 4 0x20010004 ++ [0, 0, 0, 0, 1, 2, 3, 4])), 0, plc 0x46 2 2 (leBytes 4 0x20010004 ++ [0, 0, 0, 0, 1, 2, 3, 4]), by decide +kernel⟩,
   ⟨wCmd (plc 0x47 2 2 [7, 0, 0, 0]), 0, plc 0x47 2 2 [7, 0, 0, 0], by decide +kernel⟩,
   ⟨wCmd (plc 0x48 2 2 [7, 0, 0, 0, 1, 2, 3]), 0, plc 0x48 2 2 [7, 0, 0, 0, 1, 2, 3], by decide +kernel⟩,
   ⟨wCmd (plc 0x49 2 5 [7, 0, 0, 0]), 0, plc 0x49 2 5 [7, 0, 0, 0], by decide +kernel⟩,
   ⟨wCmd (plc 0x4A 2 5 [7, 0, 0, 0, 5, 0, 0, 0]), 0, plc 0x4A 2 5 [7, 0, 0, 0, 5, 0, 0, 0], by decide +kernel⟩,
   ⟨wCmd (plc 0x4C 2 5 [1, 2, 3, 4, 5, 6, 7, 0]), 0, plc 0x4C 2 5 [1, 2, 3, 4, 5, 6, 7, 0], by decide +kernel⟩,
   ⟨wCmd (plc 0x4E 2 5 [0, 3, 0, 0, 9, 0, 0, 0]), 0, plc 0x4E 2 5 [0, 3, 0, 0, 9, 0, 0, 0], by decide +kernel⟩,
   ⟨wCmd (plc 0x51 2 5 []), 0, plc 0x51 2 5 [], by decide +kernel⟩,
   ⟨wCmd (plc 0x52 2 5 [4, 0, 0, 0, 9, 0, 0, 0]), 0, plc 0x52 2 5 [4, 0, 0, 0, 9, 0, 0, 0], by decide +kernel⟩,
   ⟨wCmd (plc 0x45 2 2 (leBytes 4 0x200E0005 ++ [6, 0, 0, 0])), 0, plc 0x45 2 2 (leBytes 4 0x200E0005 ++ [6, 0, 0, 0]), by decide +kernel⟩,
   ⟨((wCmd (plc 0x46 2 3 (leBytes 4 0x200E0004 ++ [0, 0, 0, 0, 1, 2, 3, 4, 5, 6, 7, 8])))).put HRV_EAVAIL_EAVAIL 1000000, 0, plc 0x46 2 3 (leBytes 4 0x200E0004 ++ [0, 0, 0, 0, 1, 2, 3, 4, 5, 6, 7, 8]), 50, by decide +kernel⟩,
   ⟨(((((wCmd (plc 0x47 2 3 [7, 0, 0, 0]))).wr (0x201A0000 + 2048 * 7) 4 9).wr (0x201A0004 + 2048 * 7) 4 7).wr (0x201A0008 + 2048 * 7) 4 2).wr (0x201A03FC + 2048 * 7) 4 (9 ^^^ 0xC3C3C3C3), 0, plc 0x47 2 3 [7, 0, 0, 0], 7, 0, 0x201A3800, by decide +kernel⟩,
   ⟨wCmd (plc 0x47 2 3 [7, 0, 0, 0]), 0, plc 0x47 2 3 [7, 0, 0, 0], 7, by decide +kernel⟩,
   ⟨((wCmd (plc 0x48 2 3 [7, 0, 0, 0, 1, 2, 3]))).put HRV_EAVAIL_EAVAIL 1000000, 0, plc 0x48 2 3 [7, 0, 0, 0, 1, 2, 3], 0, 1, 50, by decide +kernel⟩,
   ⟨((wCmd (plc 0x49 2 3 [7, 0, 0, 0]))).wr (0x201E0000 + 32 * 7) 4 99, 0, plc 0x49 2 3 [7, 0, 0, 0], 7, by decide +kernel⟩,
   ⟨wCmd (plc 0x4A 2 8 [7, 0, 0, 0, 5, 0, 0, 0]), 0, plc 0x4A 2 8 [7, 0, 0, 0, 5, 0, 0, 0], 7, 5, 0, 0, by decide +kernel⟩,
   ⟨((wCmd (plc 0x4A 2 8 [7, 0, 0, 0, 5, 0, 0, 0]))).wr (0x201E0000 + 32 * 7) 4 0xFFFFFFFE, 0, plc 0x4A 2 8 [7, 0, 0, 0, 5, 0, 0, 0], 7, 5, 0xFFFFFFFE, 0, by decide +kernel⟩,
   ⟨(((wCmd (plc 0x4A 2 8 [7, 0, 0, 0, 5, 0, 0, 0]))).wr (0x201E0000 + 32 * 7) 4 0xFFFFFFFE).wr (0x201E0004 + 32 * 7) 4 0xFFFFFFFF, 0, plc 0x4A 2 8 [7, 0, 0, 0, 5, 0, 0, 0], 7, 5, 0xFFFFFFFE, 0xFFFFFFFF, by decide +kernel⟩,
   ⟨wCmd (plc 0x4B 2 5 []), 0, plc 0x4B 2 5 [], by decide +kernel⟩,
   ⟨wCmd (plc 0x4C 2 3 [1, 2, 3, 4, 5, 6, 7, 0]), 0, plc 0x4C 2 3 [1, 2, 3, 4, 5, 6, 7, 0], 1, 2, 3, 4, 5, 6, 7, by decide +kernel⟩,
   ⟨wCmd (plc 0x4D 2 2 []), 0, plc 0x4D 2 2 [], by decide +kernel⟩,
   ⟨((wCmd (plc 0x4E 2 2 [0, 3, 0, 0, 9, 0, 0, 0]))).put HRV_EAVAIL_EAVAIL 1000000, 0, plc 0x4E 2 2 [0, 3, 0, 0, 9, 0, 0, 0], 3, 9, 0, 0, 9, by decide +kernel⟩,
   ⟨{ ((wCmd (plc 0x4E 2 2 [1, 0, 4, 0, 0, 0, 0, 0]))) with led := { w0.led with res := [⟨3, 50, 2, some 4, false, 0⟩] } }, 0, plc 0x4E 2 2 [1, 0, 4, 0, 0, 0, 0, 0], 4, ⟨3, 50, 2, some 4, false, 0⟩, by decide +kernel⟩,
   ⟨wCmd (plc 0x51 2 2 []), 0, plc 0x51 2 2 [], by decide +kernel⟩,
   ⟨((wCmd (plc 0x52 2 2 [4, 0, 0, 0, 9, 0, 0, 0]))).wr 0x201E4004 4 0x12345678, 0, plc 0x52 2 2 [4, 0, 0, 0, 9, 0, 0, 0], by decide +kernel⟩⟩

theorem wit_events :
    (∃ (s : State) (m : Master) (v : Word), s.por = false ∧ s.reaches m 0x40008000 1 v.toNat = true ∧ s.get EVF_ASYNC_ASYNC = 0 ∧ s.evWin = []) ∧
    (∃ (s : State) (v : Word) (c : Nat), s.por = false ∧ c < 32 ∧ bitOf v.toNat c = true ∧ authority (masterTag s .dap) (s.get (EVF_CHOWN_PRIN c)) = false) ∧
    (∃ (s : State) (v : Word) (c : Nat), s.por = false ∧ coreRuns s = true ∧ dueEntry s = none ∧ s.dx.stores = [] ∧ c < 32 ∧ bitOf v.toNat c = true ∧ authority (coreTag s) (s.get (EVF_CHOWN_PRIN c)) = false) ∧
    (∃ (s : State) (k : Nat), s.por = false ∧ s.get PWR_DOMSTAT_STATE = 0 ∧ s.pwr.entry = none ∧ bitOf s.evHeld k = true ∧ k < 8 ∧ sysClocked s = true) ∧
    (∃ (s : State) (k n x : Nat), s.por = false ∧ s.get PWR_DOMSTAT_STATE = 0 ∧ s.pwr.entry = none ∧ k = 8 + n ∧ n < 4 ∧ bitOf s.evHeld k = true ∧ 2 ≤ s.get LNK_STAT_STATE ∧ Sparse.look 0 s.evCap k = x ∧ (s.on (EVF_CAPSTAT_VALID n) = false ∨ s.on (EVF_CSEL_MODE k) = true)) ∧
    (∃ (s : State) (k n : Nat), s.por = false ∧ s.get PWR_DOMSTAT_STATE = 0 ∧ s.pwr.entry = none ∧ k = 8 + n ∧ n < 4 ∧ bitOf s.evHeld k = true ∧ 2 ≤ s.get LNK_STAT_STATE ∧ s.on (EVF_CAPSTAT_VALID n) = true ∧ s.on (EVF_CSEL_MODE k) = false) ∧
    (∃ (s : State) (k : Nat), s.por = false ∧ s.get PWR_DOMSTAT_STATE = 0 ∧ s.pwr.entry = none ∧ bitOf s.evHeld k = true ∧ k = 16 ∧ s.get PWR_DOMSTAT_PIX ≠ 0) ∧
    (∃ (s : State) (k n : Nat), s.por = false ∧ s.get PWR_DOMSTAT_STATE = 0 ∧ s.pwr.entry = none ∧ bitOf s.evHeld k = true ∧ k = 18 + n ∧ n < 4 ∧ s.get (GPIO_FUNC_FUNC (4 + n)) = 2 ∧ bitOf s.vio 1 = true) ∧
    (∃ (s : State) (k n : Nat), s.por = false ∧ s.get PWR_DOMSTAT_STATE = 0 ∧ s.pwr.entry = none ∧ bitOf s.evHeld k = true ∧ k = 18 + n ∧ n < 4 ∧ (s.get (GPIO_FUNC_FUNC (4 + n)) ≠ 2 ∨ bitOf s.vio 1 = false)) ∧
    (∃ (s : State) (k : Nat), s.por = false ∧ s.get PWR_DOMSTAT_STATE = 0 ∧ s.pwr.entry = none ∧ bitOf s.evHeld k = true ∧ k = 22) ∧
    (∃ (s : State) (k : Nat), s.por = false ∧ bitOf s.evHeld k = false) ∧
    (∃ (s : State) (m : Master) (n : Nat), s.por = false ∧ n < 4 ∧ s.reaches m (0x40008404 + 16 * n) 0 0 = true) ∧
    (∃ (s : State) (m : Master) (c : Nat) (v : Word), s.por = false ∧ c < 32 ∧ s.reaches m (0x40008100 + 16 * c) 1 v.toNat = true ∧ s.get EVF_ASYNC_ASYNC = 0 ∧ s.evWin = [] ∧ bitOf v.toNat 4 = false) ∧
    (∃ (s : State) (m : Master) (c : Nat) (v : Word), s.por = false ∧ c < 32 ∧ s.reaches m (0x40008100 + 16 * c) 1 v.toNat = true ∧ s.get EVF_ASYNC_ASYNC = 0 ∧ s.evWin = [] ∧ bitOf v.toNat 4 = true ∧ s.get (EVF_CHOWN_PRIN c) ≠ v.toNat % 16) ∧
    (∃ (s : State) (m : Master) (v : Word), s.por = false ∧ s.reaches m 0x40008004 1 v.toNat = true) ∧
    (∃ (s : State) (m : Master) (v : Word) (c : Nat), s.por = false ∧ s.reaches m 0x40008000 1 v.toNat = true ∧ v.toNat = 2 ^ c) :=
  ⟨⟨((w0.put EVF_ASYNC_ASYNC 0).put (EVF_CSEL_EN 3) 1).put (EVF_CSEL_CH 3) 4, .core, 0x10, by decide +kernel⟩,
   ⟨w0.put (EVF_CHOWN_PRIN 3) 1, 0x8, 3, by decide +kernel⟩,
   ⟨wU.put (EVF_CHOWN_PRIN 3) 1, 0x8, 3, by decide +kernel⟩,
   ⟨{ w0 with evHeld := 10 }, 3, by decide +kernel⟩,
   ⟨{ wLnk with evHeld := 2 ^ 9, evCap := [(9, 2 ^ 33 + 8)] }, 9, 1, 2 ^ 33 + 8, by decide +kernel⟩,
   ⟨({ wLnk with evHeld := 2 ^ 9, evCap := [(9, 2 ^ 33 + 8)] }).put (EVF_CAPSTAT_VALID 1) 1, 9, 1, by decide +kernel⟩,
   ⟨{ w0.put PWR_DOMSTAT_PIX 1 with evHeld := 2 ^ 16 }, 16, by decide +kernel⟩,
   ⟨{ w0.put (GPIO_FUNC_FUNC 5) 2 with evHeld := 2 ^ 19 }, 19, 1, by decide +kernel⟩,
   ⟨{ w0 with evHeld := 2 ^ 19 }, 19, 1, by decide +kernel⟩,
   ⟨{ w0 with evHeld := 2 ^ 22 }, 22, by decide +kernel⟩,
   ⟨w0, 5, by decide +kernel⟩,
   ⟨{ w0.put (EVF_CAPLO_TIME 2) 77 with evCap := [(2, 9)] }, .core, 2, by decide +kernel⟩,
   ⟨(w0.put EVF_ASYNC_ASYNC 0).put (EVF_CHOWN_PRIN 5) 8, .core, 5, 9, by decide +kernel⟩,
   ⟨(((((w0.put EVF_ASYNC_ASYNC 0).put (EVF_CHOWN_PRIN 5) 8).put (EVF_CSEL_EN 3) 1).put (EVF_CSEL_CH 3) 5).put (EVF_CSEL_WPRIN 3) 10).put (EVF_CSEL_EN 4) 1, .core, 5, 0x19, by decide +kernel⟩,
   ⟨w0, .core, 0x10, by decide +kernel⟩,
   ⟨{ w0 with evWin := [(2, 3, 0)] }, .core, 8, 3, by decide +kernel⟩⟩

theorem wit_pageEngine :
    (∃ (s : State) (m : Master) (v : Word) (n a e : Nat), s.por = false ∧ s.reaches m 0x40009024 1 v.toNat = true ∧ n = v.toNat % 128 ∧ a = 4 * s.get NVS_PGADDR_ADDR ∧ pageCheck s true (masterTag s m) a n = none ∧ bindTicket 3 (masterTag s m) 0 s.led.res = none ∧ decide81 s 3 (s.get (HRV_CLSAMT_AMOUNT 3)) = (stOk, e)) ∧
    (∃ (s : State) (m : Master) (v : Word) (n a st why : Nat), s.por = false ∧ s.reaches m 0x40009024 1 v.toNat = true ∧ n = v.toNat % 128 ∧ a = 4 * s.get NVS_PGADDR_ADDR ∧ pageCheck s true (masterTag s m) a n = some (st, why)) ∧
    (∃ (s : State) (o : NvOp) (a x b y : Nat) (l : List (Nat × Nat)), s.por = false ∧ s.nvs.ops = [o] ∧ o.kind = 0 ∧ o.begun = true ∧ o.susp = false ∧ (o.fw = false ∨ 2 ≤ s.get PWR_DOMSTAT_SYS) ∧ o.words = (a, x) :: (b, y) :: l ∧ o.page = some (nvPage b) ∧ s.nvs.own = [] ∧ s.nvs.moving = none ∧ s.on NVS_STAT_HOLDRDY = true) ∧
    (∃ (s : State) (o : NvOp) (a x : Nat), s.por = false ∧ s.nvs.ops = [o] ∧ s.nvs.own = [] ∧ o.kind = 0 ∧ o.fw = true ∧ 2 ≤ s.get PWR_DOMSTAT_SYS ∧ o.begun = true ∧ o.susp = false ∧ o.words = [(a, x)] ∧ s.nvs.moving = none ∧ s.on NVS_STAT_HOLDRDY = true) ∧
    (∃ (s : State), s.por = false ∧ s.on NVS_STAT_HOLDRDY = false) ∧
    (∃ (s : State), s.por = false ∧ 2 ≤ s.get PWR_DOMSTAT_SYS ∧ s.pwr.entry = none) ∧
    (∃ (s : State), s.por = false ∧ s.ms.nvErr = [] ∧ s.nvs.ops = [] ∧ s.nvs.own = []) ∧
    (∃ (s : State) (i : Nat), s.por = false ∧ s.nvs.ops = [] ∧ s.nvs.own = [] ∧ s.ms.nvErr = [] ∧ i < 64 ∧ s.on NVS_STAT_HOLDRDY = true ∧ s.memWf = true) ∧
    (∃ (s : State) (p : Nat), s.por = false ∧ s.nvs.moving = some p ∧ s.nvs.moveDue = [] ∧ s.on NVS_STAT_HOLDRDY = true) ∧
    (∃ (s : State) (p q : Nat), s.por = false ∧ (s.nvs.moving = some q ∧ q ≠ p ∨ s.nvs.moving = none ∧ s.nvs.moveDue = [])) ∧
    (∃ (s : State) (_p q : Nat) (l : List Nat), s.por = false ∧ s.nvs.moving = none ∧ s.nvs.moveDue = q :: l ∧ l.contains q = false ∧ s.nvs.tags.length < 64) :=
  ⟨⟨(w0.put HRV_EAVAIL_EAVAIL 1000000).put NVS_PGADDR_ADDR (0x200D0004 / 4), .core, 3, 3, 0x200D0004, 50, by decide +kernel⟩,
   ⟨w0.put NVS_PGADDR_ADDR (0x200D0004 / 4), .core, 0, 0, 0x200D0004, 5, 0, by decide +kernel⟩,
   ⟨(({ w0 with nvs := { w0.nvs with ops := [{ newOp 0 true 8 none 0 [] 0 with begun := true, words := [(0x200D0004, 9), (0x200D0008, 7)], page := some 3328 }] } }).put NVS_STAT_HOLDRDY 1), { newOp 0 true 8 none 0 [] 0 with begun := true, words := [(0x200D0004, 9), (0x200D0008, 7)], page := some 3328 }, 0x200D0004, 9, 0x200D0008, 7, [], by decide +kernel⟩,
   ⟨(({ w0 with nvs := { w0.nvs with ops := [{ newOp 0 true 8 none 0 [] 0 with begun := true, words := [(0x200D0004, 9)], page := some 3328 }] } }).put NVS_STAT_HOLDRDY 1), { newOp 0 true 8 none 0 [] 0 with begun := true, words := [(0x200D0004, 9)], page := some 3328 }, 0x200D0004, 9, by decide +kernel⟩,
   ⟨w0.put NVS_STAT_HOLDRDY 0, by decide +kernel⟩,
   ⟨(w0.put PWR_DOMSTAT_SYS 3).put NVS_STAT_PGSUSP 1, by decide +kernel⟩,
   ⟨w0, by decide +kernel⟩,
   ⟨w0.put NVS_STAT_HOLDRDY 1, 7, by decide +kernel⟩,
   ⟨{ w0.put NVS_STAT_HOLDRDY 1 with nvs := { w0.nvs with moving := some 9 } }, 9, by decide +kernel⟩,
   ⟨w0, 9, 8, by decide +kernel⟩,
   ⟨{ w0 with nvs := { w0.nvs with moveDue := [7, 9] } }, 9, 7, [9], by decide +kernel⟩⟩

theorem wit_recordAndTallyEngine :
    (∃ (s : State) (m : Master) (v : Word) (r c a : Nat), s.por = false ∧ s.reaches m 0x40009030 1 v.toNat = true ∧ bitOf v.toNat 8 = false ∧ r = v.toNat % 128 ∧ right s (recAsset r) (masterTag s m) false = true ∧ s.nvs.ops = [] ∧ s.nvs.own = [] ∧ s.nvs.moving = none ∧ s.ms.nvErr = [] ∧ currentCopy s r = some c ∧ a = copyAt r c) ∧
    (∃ (s : State) (m : Master) (v : Word) (r : Nat), s.por = false ∧ s.reaches m 0x40009030 1 v.toNat = true ∧ bitOf v.toNat 8 = false ∧ r = v.toNat % 128 ∧ right s (recAsset r) (masterTag s m) false = true ∧ s.nvs.ops = [] ∧ s.nvs.own = [] ∧ s.nvs.moving = none ∧ s.ms.nvErr = [] ∧ currentCopy s r = none) ∧
    (∃ (s : State) (m : Master) (v : Word) (r n c q e : Nat), s.por = false ∧ s.reaches m 0x40009030 1 v.toNat = true ∧ bitOf v.toNat 8 = true ∧ r = v.toNat % 128 ∧ right s (recAsset r) (masterTag s m) true = true ∧ n = bitsOf v.toNat 16 10 ∧ n ≤ 1008 ∧ s.nvs.ops = [] ∧ s.nvs.own = [] ∧ s.nvs.moving = none ∧ s.ms.nvErr = [] ∧ writeTarget s r = (c, q) ∧ bindTicket 3 (masterTag s m) 2 s.led.res = none ∧ decide81 s 3 (s.get (HRV_CLSAMT_AMOUNT 3)) = (stOk, e)) ∧
    (∃ (s : State) (m : Master) (v : Word) (k : Nat), s.por = false ∧ s.reaches m 0x40009040 1 v.toNat = true ∧ bitOf v.toNat 8 = false ∧ k = v.toNat % 32 ∧ tlyRight s (masterTag s m) k false = true ∧ s.nvs.ops = [] ∧ s.nvs.own = [] ∧ s.nvs.moving = none ∧ s.ms.nvErr = [] ∧ carryPends s k = false) ∧
    (∃ (s : State) (m : Master) (v : Word) (k lo hi : Nat), s.por = false ∧ s.reaches m 0x40009040 1 v.toNat = true ∧ bitOf v.toNat 8 = false ∧ k = v.toNat % 32 ∧ tlyRight s (masterTag s m) k false = true ∧ s.nvs.ops = [] ∧ s.nvs.own = [] ∧ s.nvs.moving = none ∧ s.ms.nvErr = [] ∧ carryPends s k = true ∧ lo = s.rd (tallyAt k + 8) 4 ∧ hi = s.rd (tallyAt k + 12) 4) ∧
    (∃ (s : State) (m : Master) (v : Word) (k a lo hi : Nat), s.por = false ∧ s.reaches m 0x40009040 1 v.toNat = true ∧ bitOf v.toNat 8 = true ∧ k = v.toNat % 32 ∧ a = s.get NVS_TLYAMT_AMOUNT ∧ tlyRight s (masterTag s m) k true = true ∧ s.nvs.ops = [] ∧ s.nvs.own = [] ∧ s.nvs.moving = none ∧ s.ms.nvErr = [] ∧ lo = s.rd (tallyAt k) 4 ∧ hi = s.rd (tallyAt k + 4) 4 ∧ carryPends s k = false ∧ a ≠ 0 ∧ lo + a < 2 ^ 32) ∧
    (∃ (s : State) (m : Master) (v : Word) (k a lo hi : Nat), s.por = false ∧ s.reaches m 0x40009040 1 v.toNat = true ∧ bitOf v.toNat 8 = true ∧ k = v.toNat % 32 ∧ a = s.get NVS_TLYAMT_AMOUNT ∧ tlyRight s (masterTag s m) k true = true ∧ s.nvs.ops = [] ∧ s.nvs.own = [] ∧ s.nvs.moving = none ∧ s.ms.nvErr = [] ∧ lo = s.rd (tallyAt k) 4 ∧ hi = s.rd (tallyAt k + 4) 4 ∧ carryPends s k = false ∧ a < 2 ^ 32 ∧ 2 ^ 32 ≤ lo + a ∧ hi + 1 < 2 ^ 32) ∧
    (∃ (s : State) (m : Master) (v : Word) (k a lo hi : Nat), s.por = false ∧ s.reaches m 0x40009040 1 v.toNat = true ∧ bitOf v.toNat 8 = true ∧ k = v.toNat % 32 ∧ a = s.get NVS_TLYAMT_AMOUNT ∧ tlyRight s (masterTag s m) k true = true ∧ s.nvs.ops = [] ∧ s.nvs.own = [] ∧ s.nvs.moving = none ∧ s.ms.nvErr = [] ∧ lo = s.rd (tallyAt k) 4 ∧ hi = s.rd (tallyAt k + 4) 4 ∧ carryPends s k = false ∧ (a = 0 ∨ 2 ^ 64 - 1 < hi * 2 ^ 32 + lo + a)) ∧
    (∃ (s : State) (m : Master) (v : Word), s.por = false ∧ s.reaches m 0x40009040 1 v.toNat = true ∧ bitOf v.toNat 8 = true ∧ tlyRight s (masterTag s m) (v.toNat % 32) true = false) ∧
    (∃ (s : State) (m : Master) (v : Word), s.por = false ∧ s.reaches m 0x40009030 1 v.toNat = true ∧ bitOf v.toNat 8 = true ∧ right s (recAsset (v.toNat % 128)) (masterTag s m) true = false) ∧
    ((match exec (.nvsRecordWrite .core 0x00060147) ((w0.put HRV_EAVAIL_EAVAIL 1000000).put NVS_STAT_HOLDRDY 1) with | .next t => (wordWrites 7 t).any fun u => decide (u.nvs.ops = [] ∧ u.get NVS_RECSTAT_RESULT = 0 ∧ u.reaches .core 0x40009030 1 71 = true ∧ right u (recAsset 71) (masterTag u .core) false = true) | _ => false) = true) ∧
    ((match exec (.nvsTallyRead .core 7) ((((w0.put NVS_STAT_HOLDRDY 1).wr (0x201E0008 + 32 * 7) 4 99).wr (0x201E000C + 32 * 7) 4 3).wr (0x201E0010 + 32 * 7) 4 0xA5C35A3C) with | .next t => (wordWrites 3 t).any fun u => decide (u.nvs.ops = []) | _ => false) = true) ∧
    ((match exec (.nvsTallyAdd .core 0x107) ((w0.put NVS_STAT_HOLDRDY 1).put NVS_TLYAMT_AMOUNT 5) with | .next t => (wordWrites 1 t).any fun u => decide (u.nvs.ops = []) | _ => false) = true) ∧
    ((match exec (.nvsTallyAdd .core 0x107) (((w0.put NVS_STAT_HOLDRDY 1).put NVS_TLYAMT_AMOUNT 5).wr (0x201E0000 + 32 * 7) 4 0xFFFFFFFE) with | .next t => (wordWrites 6 t).any fun u => decide (u.nvs.ops = []) | _ => false) = true) :=
  ⟨⟨((((w0.wr (0x201A0000 + 2048 * 71) 4 9).wr (0x201A0004 + 2048 * 71) 4 71).wr (0x201A0008 + 2048 * 71) 4 2).wr (0x201A03FC + 2048 * 71) 4 (9 ^^^ 0xC3C3C3C3)), .core, 71, 71, 0, 0x201C3800, by decide +kernel⟩,
   ⟨w0, .core, 71, 71, by decide +kernel⟩,
   ⟨(w0.put HRV_EAVAIL_EAVAIL 1000000).put NVS_STAT_HOLDRDY 1, .core, 0x00060147, 71, 6, 0, 1, 50, by decide +kernel⟩,
   ⟨(w0.wr (0x201E0000 + 32 * 7) 4 99), .core, 7, 7, by decide +kernel⟩,
   ⟨(((w0.put NVS_STAT_HOLDRDY 1).wr (0x201E0008 + 32 * 7) 4 99).wr (0x201E000C + 32 * 7) 4 3).wr (0x201E0010 + 32 * 7) 4 0xA5C35A3C, .core, 7, 7, 99, 3, by decide +kernel⟩,
   ⟨(w0.put NVS_STAT_HOLDRDY 1).put NVS_TLYAMT_AMOUNT 5, .core, 0x107, 7, 5, 0, 0, by decide +kernel⟩,
   ⟨((w0.put NVS_STAT_HOLDRDY 1).put NVS_TLYAMT_AMOUNT 5).wr (0x201E0000 + 32 * 7) 4 0xFFFFFFFE, .core, 0x107, 7, 5, 0xFFFFFFFE, 0, by decide +kernel⟩,
   ⟨w0.put NVS_TLYAMT_AMOUNT 0, .core, 0x107, 7, 0, 0, 0, by decide +kernel⟩,
   ⟨w0, .core, 0x11E, by decide +kernel⟩,
   ⟨w0, .core, 0x107, by decide +kernel⟩,
   by decide +kernel,
   by decide +kernel,
   by decide +kernel,
   by decide +kernel⟩

theorem wit_clockAndSegments :
    (∃ (s : State) (tdie : Int) (_raw : Nat), s.por = false ∧ tdieOk tdie = true ∧ s.clk.t.sub ≠ 255) ∧
    (∃ (s : State) (tdie : Int) (_raw : Nat), s.por = false ∧ tdieOk tdie = true ∧ s.clk.t.sub = 255) ∧
    (∃ (s : State) (tdie : Int) (_raw a w : Nat) (r : List (Nat × Nat)) (u : State), s.por = false ∧ tdieOk tdie = true ∧ s.clk.t.sub = 255 ∧ s.clk.lfOld = (a, w) :: r ∧ a ∈ [0x4000A020, 0x4000A024, 0x4000A028, 0x4000A030, 0x4000A034, 0x4000A038] ∧ (∀ f, f ∈ fieldsAt a → s.get f < 2 ^ f.w) ∧ u = lfLoad s a w) ∧
    (∃ (s : State) (tdie : Int) (_raw w : Nat) (r : List (Nat × Nat)), s.por = false ∧ tdieOk tdie = true ∧ s.clk.t.sub ≠ 255 ∧ s.clk.lfOld = (periodAddr, w) :: r) ∧
    (∃ (s : State) (m : Master), s.por = false ∧ s.reaches m 0x4000A000 0 0 = true) ∧
    (∃ (s : State) (m : Master) (v : Word), s.por = false ∧ s.reaches m 0x4000A010 1 v.toNat = true ∧ bitOf v.toNat 0 = true ∧ s.on RTC_STAT_CPEND = false) ∧
    (∃ (s : State) (m : Master) (v : Word), s.por = false ∧ s.reaches m 0x4000A010 1 v.toNat = true ∧ bitOf v.toNat 0 = true ∧ s.on RTC_STAT_CPEND = true) ∧
    (∃ (s : State) (x : Time), s.por = false ∧ s.on RTC_STAT_CPEND = true ∧ s.clk.staged = some (x, none)) ∧
    (∃ (s : State) (x : Time) (p : Nat) (pl : Place), s.por = false ∧ s.on RTC_STAT_CPEND = true ∧ s.clk.staged = some (x, some p) ∧ placeAt s p = some pl) ∧
    (∃ (s : State) (x : Time) (w : Nat) (r : List (Nat × Nat)), s.por = false ∧ s.on RTC_STAT_CPEND = true ∧ s.clk.staged = some (x, none) ∧ s.clk.lfOld = (periodAddr, w) :: r) ∧
    (∃ (s : State), s.por = false ∧ s.clk.perDue = true) ∧
    (∃ (s : State), s.por = false ∧ s.on RTC_STAT_SRC = false) ∧
    (∃ (s : State), s.por = false ∧ s.on RTC_STAT_SRC = true) ∧
    (∃ (s : State) (m : Master) (v : Word), s.por = false ∧ s.reaches m 0x4000B008 1 v.toNat = true ∧ bitOf v.toNat 0 = true) ∧
    (∃ (s : State) (m : Master) (v : Word), s.por = false ∧ s.reaches m 0x4000B000 1 v.toNat = true) ∧
    (∃ (s : State) (_soon : Bool), s.por = false ∧ s.on SEG_CFG_EN = false) ∧
    (∃ (s : State) (soon : Bool) (c : Nat), s.por = false ∧ s.on SEG_CFG_EN = true ∧ (s.on SEG_STAT_CPEND = false ∨ (soon = true ∧ s.disp.segSeen = false)) ∧ c = crc32 s.disp.segCopy) ∧
    (∃ (s : State) (soon : Bool), s.por = false ∧ s.on SEG_CFG_EN = true ∧ s.on SEG_STAT_CPEND = true ∧ (soon = false ∨ s.disp.segSeen = true) ∧ s.ms.wipeQ = [] ∧ s.ms.sramErr = []) ∧
    ((jumpDay 0).por = false ∧ (jumpDay 0).on RTC_STAT_CPEND = true ∧ countsTo (jumpDay 0).clk.t ⟨0, 0, 0, 0, 0, 29, 2, 24⟩ = true ∧ timeFits (jumpDay 0).clk.t = true ∧ timeFits ⟨0, 0, 0, 0, 0, 1, 3, 24⟩ = true ∧ (jumpDay 0).on (RTC_ALMCFG_ARM 0) = true ∧ alarmMeets (jumpDay 0) 0 ⟨0, 0, 0, 0, 0, 1, 3, 24⟩ true = false ∧ (jumpDay 0).get (RTC_ALMCFG_CATCH 0) = 0) ∧
    (jumpsOver (jumpDay 0) 0 ⟨0, 0, 0, 0, 0, 29, 2, 24⟩ ⟨0, 0, 0, 0, 0, 1, 3, 24⟩) ∧
    ((jumpDay 1).por = false ∧ (jumpDay 1).on RTC_STAT_CPEND = true ∧ countsTo (jumpDay 1).clk.t ⟨0, 0, 0, 0, 0, 29, 2, 24⟩ = true ∧ timeFits (jumpDay 1).clk.t = true ∧ timeFits ⟨0, 0, 0, 0, 0, 1, 3, 24⟩ = true ∧ (jumpDay 1).on (RTC_ALMCFG_ARM 0) = true ∧ alarmMeets (jumpDay 1) 0 ⟨0, 0, 0, 0, 0, 1, 3, 24⟩ true = false ∧ (jumpDay 1).get (RTC_ALMCFG_CATCH 0) = 1) ∧
    (jumpsOver (jumpDay 1) 0 ⟨0, 0, 0, 0, 0, 29, 2, 24⟩ ⟨0, 0, 0, 0, 0, 1, 3, 24⟩) ∧
    ((jumpSec).por = false ∧ (jumpSec).on RTC_STAT_CPEND = true ∧ countsTo (jumpSec).clk.t ⟨0, 0, 0, 0, 0, 29, 2, 24⟩ = true ∧ timeFits (jumpSec).clk.t = true ∧ timeFits ⟨0, 0, 0, 0, 0, 1, 3, 24⟩ = true ∧ (jumpSec).on (RTC_ALMCFG_ARM 0) = true ∧ alarmMeets (jumpSec) 0 ⟨0, 0, 0, 0, 0, 1, 3, 24⟩ true = false) ∧
    (¬ jumpsOver (jumpSec) 0 ⟨0, 0, 0, 0, 0, 29, 2, 24⟩ ⟨0, 0, 0, 0, 0, 1, 3, 24⟩) :=
  ⟨⟨tk w0 fun k => { k with acc := 999990, calInt := 1 }, 20, 0, by decide +kernel⟩,
   ⟨tk ((w0.put (RTC_ALMCFG_ARM 0) 1).put RTC_CAL_CAL 0xFFF) fun k => { k with t := ⟨255, 59, 59, 23, 6, 28, 2, 24⟩, calNew := true }, 20, 0, by decide +kernel⟩,
   ⟨tk ((w0.put (RTC_ALMCFG_ARM 0) 1).put (RTC_ALMCFG_MSEC 0) 1) fun k => { k with t := ⟨255, 59, 59, 23, 6, 28, 2, 24⟩, lfOld := [(0x4000A020, 30)] }, 20, 0, 0x4000A020, 30, [], lfLoad (tk ((w0.put (RTC_ALMCFG_ARM 0) 1).put (RTC_ALMCFG_MSEC 0) 1) fun k => { k with t := ⟨255, 59, 59, 23, 6, 28, 2, 24⟩, lfOld := [(0x4000A020, 30)] }) 0x4000A020 30, by decide +kernel⟩,
   ⟨tk w0 fun k => { k with perCnt := 9, lfOld := [(periodAddr, 1)] }, 20, 0, 1, [], by decide +kernel⟩,
   ⟨tk w0 fun k => { k with t := ⟨255, 59, 59, 23, 6, 28, 2, 24⟩ }, .core, by decide +kernel⟩,
   ⟨w0, .core, 1, by decide +kernel⟩,
   ⟨w0.put RTC_STAT_CPEND 1, .core, 1, by decide +kernel⟩,
   ⟨tk (w0.put RTC_STAT_CPEND 1) fun k => { k with staged := some (⟨0, 1, 2, 3, 4, 5, 6, 7⟩, none) }, ⟨0, 1, 2, 3, 4, 5, 6, 7⟩, by decide +kernel⟩,
   ⟨tk ((wCmd (plc 0x4C 2 3 [1, 2, 3, 4, 5, 6, 7, 0])).put RTC_STAT_CPEND 1) fun k => { k with staged := some (⟨0, 1, 2, 3, 4, 5, 6, 7⟩, some 0) }, ⟨0, 1, 2, 3, 4, 5, 6, 7⟩, 0, plc 0x4C 2 3 [1, 2, 3, 4, 5, 6, 7, 0], by decide +kernel⟩,
   ⟨tk (w0.put RTC_STAT_CPEND 1) fun k => { k with staged := some (⟨0, 1, 2, 3, 4, 5, 6, 7⟩, none), perCnt := 9, lfOld := [(periodAddr, 1)] }, ⟨0, 1, 2, 3, 4, 5, 6, 7⟩, 1, [], by decide +kernel⟩,
   ⟨tk w0 fun k => { k with perDue := true }, by decide +kernel⟩,
   ⟨w0.put RTC_STAT_SRC 0, by decide +kernel⟩,
   ⟨w0, by decide +kernel⟩,
   ⟨w0, .core, 1, by decide +kernel⟩,
   ⟨w0, .core, 0x2021, by decide +kernel⟩,
   ⟨dk w0 fun d => { d with pump := true }, false, by decide +kernel⟩,
   ⟨(w0.put SEG_CFG_EN 1).put SEG_CFG_CHKEN 1, true, crc32 w0.disp.segCopy, by decide +kernel⟩,
   ⟨((w0.put SEG_CFG_EN 1).put SEG_STAT_CPEND 1).wr 0x10340004 4 0x1234, false, by decide +kernel⟩,
   by decide +kernel,
   ⟨⟨0, 1, 0, 0, 0, 29, 2, 24⟩, by decide +kernel⟩,
   by decide +kernel,
   ⟨⟨0, 1, 0, 0, 0, 29, 2, 24⟩, by decide +kernel⟩,
   by decide +kernel,
   fun ⟨t, _, h, _, _, _, _, _, _, _, _, m⟩ => by
      have e := List.all_eq_true.mp m _ (List.mem_cons_self ..)
      have c : jumpSec.on (RTC_ALMCFG_MSEC 0) = true ∧ jumpSec.get (RTC_ALMT0_SEC 0) = 63 := by decide +kernel
      rw [c.1, c.2] at e
      have d : (63 : Nat) = t.sec := by simpa using e
      omega⟩

theorem wit_labelRequestsAndRegions :
    (∃ (s : State) (m : Master) (v : Word) (n p : Nat), s.por = false ∧ s.reaches m 0x4000C090 1 v.toNat = true ∧ n = v.toNat % 16 ∧ p = masterTag s m ∧ mayUpdate s n p = true ∧ s.on EPD_STAT_STATELOST = false ∧ s.on EPD_STAT_INITBUSY = false ∧ s.on EPD_CFG_EN = true ∧ requestFits s 0 n (s.get (EPD_RQPOS_X 0)) (s.get (EPD_RQPOS_Y 0)) (s.get (EPD_RQSIZE_W 0)) (s.get (EPD_RQSIZE_H 0)) (s.get (EPD_RQSRC_ADDR 0)) = true ∧ s.disp.upd.length < 16) ∧
    (∃ (s : State) (m : Master) (v : Word) (n p : Nat), s.por = false ∧ s.reaches m 0x4000C090 1 v.toNat = true ∧ n = v.toNat % 16 ∧ p = masterTag s m ∧ mayUpdate s n p = false) ∧
    (∃ (s : State) (m : Master) (v : Word) (n p : Nat), s.por = false ∧ s.reaches m 0x4000C090 1 v.toNat = true ∧ n = v.toNat % 16 ∧ p = masterTag s m ∧ mayUpdate s n p = true ∧ (s.on EPD_STAT_STATELOST = true ∨ s.on EPD_STAT_INITBUSY = true ∨ s.on EPD_CFG_EN = false)) ∧
    (∃ (s : State) (m : Master) (v : Word) (n p : Nat), s.por = false ∧ s.reaches m 0x4000C090 1 v.toNat = true ∧ n = v.toNat % 16 ∧ p = masterTag s m ∧ mayUpdate s n p = true ∧ s.on EPD_STAT_STATELOST = false ∧ s.on EPD_STAT_INITBUSY = false ∧ s.on EPD_CFG_EN = true ∧ requestFits s 0 n (s.get (EPD_RQPOS_X 0)) (s.get (EPD_RQPOS_Y 0)) (s.get (EPD_RQSIZE_W 0)) (s.get (EPD_RQSIZE_H 0)) (s.get (EPD_RQSRC_ADDR 0)) = false) ∧
    (∃ (s : State) (m : Master) (v : Word) (n p : Nat), s.por = false ∧ s.reaches m 0x4000C090 1 v.toNat = true ∧ n = v.toNat % 16 ∧ p = masterTag s m ∧ mayUpdate s n p = true ∧ s.on EPD_STAT_STATELOST = false ∧ s.on EPD_STAT_INITBUSY = false ∧ s.on EPD_CFG_EN = true ∧ requestFits s 0 n (s.get (EPD_RQPOS_X 0)) (s.get (EPD_RQPOS_Y 0)) (s.get (EPD_RQSIZE_W 0)) (s.get (EPD_RQSIZE_H 0)) (s.get (EPD_RQSRC_ADDR 0)) = true ∧ 16 ≤ s.disp.upd.length) ∧
    (∃ (s : State) (tdie : Int) (_raw : Nat) (u : Upd) (e : Nat), s.por = false ∧ tdieOk tdie = true ∧ s.disp.upd = [u] ∧ u.place = none ∧ u.staged = 0 ∧ u.running = false ∧ u.evwait = false ∧ s.disp.part = none ∧ s.disp.blank = false ∧ Sparse.look 0 s.disp.newest u.region = u.id + 1 ∧ bindTicket 0 u.tag u.id s.led.res = none ∧ decide81 s 0 (s.get (HRV_CLSAMT_AMOUNT 0)) = (stOk, e) ∧ s.on EPD_CFG_THSEL = false) ∧
    (∃ (s : State) (tdie : Int) (_raw : Nat) (u : Upd) (r e : Nat), s.por = false ∧ tdieOk tdie = true ∧ s.disp.upd = [u] ∧ u.place = none ∧ u.staged = 0 ∧ u.running = false ∧ u.evwait = false ∧ s.disp.part = none ∧ s.disp.blank = false ∧ Sparse.look 0 s.disp.newest u.region = u.id + 1 ∧ bindTicket 0 u.tag u.id s.led.res = none ∧ decide81 s 0 (s.get (HRV_CLSAMT_AMOUNT 0)) = (r, e) ∧ r ≠ stOk) ∧
    (∃ (s : State) (tdie : Int) (_raw : Nat) (x u : Upd), s.por = false ∧ tdieOk tdie = true ∧ s.disp.upd = [x, u] ∧ s.disp.part = none ∧ x.running = true ∧ u.running = false ∧ (u.evwait = true ∨ (u.queue = true ∧ x.id < u.id ∧ updMeet u x = true) ∨ (u.queue = false ∧ x.id ≠ u.id ∧ updMeet u x = true ∧ x.band ≠ s.get EPD_STAT_BAND))) ∧
    (∃ (s : State) (tdie : Int) (_raw k : Nat) (l : List Nat), s.por = false ∧ tdieOk tdie = true ∧ s.disp.part = some (k, l) ∧ s.get DRM_STAT_UNWIPED = 0) ∧
    (∃ (s : State) (m : Master) (v : Word), s.por = false ∧ s.reaches m 0x4000C030 1 v.toNat = true ∧ bitOf v.toNat 8 = true ∧ s.disp.upd = []) ∧
    (∃ (s : State), s.por = false ∧ s.on EPD_STAT_INITBUSY = true) ∧
    (∃ (s : State) (m : Master) (v : Word), s.por = false ∧ s.reaches m 0x4000C034 1 v.toNat = true ∧ bitOf v.toNat 0 = true ∧ s.on EPD_STAT_INITBUSY = false) ∧
    (∃ (s : State) (n : Nat), s.por = false ∧ n < 16 ∧ bitOf s.disp.lockDue n = true) ∧
    (∃ (s : State) (p : Nat) (pl : Place) (n : Byte), s.por = false ∧ s.opReady p 0x50 pl = true ∧ (pPay pl.pkt) = [n, 0, 0, 0] ∧ n.toNat < 16 ∧ right s .display pl.prin false = true) ∧
    (∃ (s : State) (p : Nat) (pl : Place) (n : Nat), s.por = false ∧ s.opReady p 0x4F pl = true ∧ n = imgBytes (pf (pPay pl.pkt) 8 2) (pf (pPay pl.pkt) 10 2) ∧ n ≤ 1000 ∧ (pPay pl.pkt).length = 20 + n ∧ pf (pPay pl.pkt) 1 3 = 0 ∧ pf (pPay pl.pkt) 0 1 < 16 ∧ pf (pPay pl.pkt) 4 2 < 2048 ∧ pf (pPay pl.pkt) 6 2 < 1024 ∧ pf (pPay pl.pkt) 8 2 < 2048 ∧ pf (pPay pl.pkt) 10 2 < 1024 ∧ s.disp.upd = [] ∧ mayUpdate s (pf (pPay pl.pkt) 0 1) pl.prin = true ∧ s.on EPD_STAT_STATELOST = false ∧ s.on EPD_STAT_INITBUSY = false ∧ s.on EPD_CFG_EN = true ∧ requestFits s 1 (pf (pPay pl.pkt) 0 1) (pf (pPay pl.pkt) 4 2) (pf (pPay pl.pkt) 6 2) (pf (pPay pl.pkt) 8 2) (pf (pPay pl.pkt) 10 2) 0x1037C000 = true ∧ s.ms.wipeQ = [] ∧ s.ms.sramErr = []) ∧
    (∃ (s : State) (p : Nat) (pl : Place) (n : Nat), s.por = false ∧ s.opReady p 0x4F pl = true ∧ n = imgBytes (pf (pPay pl.pkt) 8 2) (pf (pPay pl.pkt) 10 2) ∧ n ≤ 1000 ∧ (pPay pl.pkt).length = 20 ∧ pf (pPay pl.pkt) 1 1 / 2 = 1 ∧ pf (pPay pl.pkt) 2 2 = 0 ∧ pf (pPay pl.pkt) 0 1 < 16 ∧ pf (pPay pl.pkt) 4 2 < 2048 ∧ pf (pPay pl.pkt) 6 2 < 1024 ∧ pf (pPay pl.pkt) 8 2 < 2048 ∧ pf (pPay pl.pkt) 10 2 < 1024 ∧ s.disp.upd = [] ∧ mayUpdate s (pf (pPay pl.pkt) 0 1) pl.prin = true ∧ s.on EPD_STAT_STATELOST = false ∧ s.on EPD_STAT_INITBUSY = false ∧ s.on EPD_CFG_EN = true ∧ requestFits s 1 (pf (pPay pl.pkt) 0 1) (pf (pPay pl.pkt) 4 2) (pf (pPay pl.pkt) 6 2) (pf (pPay pl.pkt) 8 2) (pf (pPay pl.pkt) 10 2) 0x1037C000 = true ∧ s.ms.wipeQ = [] ∧ s.ms.sramErr = [] ∧ nvAsset (pf (pPay pl.pkt) 16 4) = .recipes ∧ nvAsset (pf (pPay pl.pkt) 16 4 + n - 1) = .recipes ∧ right s .recipes pl.prin false = true ∧ s.nvs.moving = none ∧ s.ms.nvErr = [] ∧ (s.dx.stores = [] ∨ s.on NVS_STAT_HOLDRDY = true) ∧ s.nvs.yielded = false) ∧
    (∃ (s : State) (p : Nat) (pl : Place) (n c a : Nat), s.por = false ∧ s.opReady p 0x4F pl = true ∧ n = imgBytes (pf (pPay pl.pkt) 8 2) (pf (pPay pl.pkt) 10 2) ∧ n ≤ 1000 ∧ (pPay pl.pkt).length = 20 ∧ pf (pPay pl.pkt) 1 1 / 2 = 2 ∧ pf (pPay pl.pkt) 2 2 = 0 ∧ pf (pPay pl.pkt) 0 1 < 16 ∧ pf (pPay pl.pkt) 4 2 < 2048 ∧ pf (pPay pl.pkt) 6 2 < 1024 ∧ pf (pPay pl.pkt) 8 2 < 2048 ∧ pf (pPay pl.pkt) 10 2 < 1024 ∧ s.disp.upd = [] ∧ mayUpdate s (pf (pPay pl.pkt) 0 1) pl.prin = true ∧ s.on EPD_STAT_STATELOST = false ∧ s.on EPD_STAT_INITBUSY = false ∧ s.on EPD_CFG_EN = true ∧ requestFits s 1 (pf (pPay pl.pkt) 0 1) (pf (pPay pl.pkt) 4 2) (pf (pPay pl.pkt) 6 2) (pf (pPay pl.pkt) 8 2) (pf (pPay pl.pkt) 10 2) 0x1037C000 = true ∧ s.ms.wipeQ = [] ∧ s.ms.sramErr = [] ∧ pf (pPay pl.pkt) 16 4 < 128 ∧ right s (recAsset (pf (pPay pl.pkt) 16 4)) pl.prin false = true ∧ currentCopy s (pf (pPay pl.pkt) 16 4) = some c ∧ a = copyAt (pf (pPay pl.pkt) 16 4) c ∧ n ≤ s.rd (a + 8) 4 ∧ s.ms.nvErr = []) :=
  ⟨⟨((((((((((((((w0.put EPD_PANEL_WIDTH 8).put EPD_PANEL_HEIGHT 2).put EPD_TIM0_LINE 20).put EPD_TIM0_GPW 1)).put (EPD_RGNOWN_EN 2) 1).put (EPD_RGNHI_X1 2) 7).put (EPD_RGNHI_Y1 2) 1).put EPD_STAT_STATELOST 0).put EPD_CFG_EN 1).put (EPD_RQSIZE_W 0) 2).put (EPD_RQSIZE_H 0) 1).put (EPD_RQSRC_ADDR 0) 0x10341000)), .core, 0x42, 2, 8, by decide +kernel⟩,
   ⟨((((((((((((((w0.put EPD_PANEL_WIDTH 8).put EPD_PANEL_HEIGHT 2).put EPD_TIM0_LINE 20).put EPD_TIM0_GPW 1)).put (EPD_RGNOWN_EN 2) 1).put (EPD_RGNHI_X1 2) 7).put (EPD_RGNHI_Y1 2) 1).put EPD_STAT_STATELOST 0).put EPD_CFG_EN 1).put (EPD_RQSIZE_W 0) 2).put (EPD_RQSIZE_H 0) 1).put (EPD_RQSRC_ADDR 0) 0x10341000).put (EPD_RGNOWN_PRIN 2) 3), .core, 0x42, 2, 8, by decide +kernel⟩,
   ⟨((((((((((((((w0.put EPD_PANEL_WIDTH 8).put EPD_PANEL_HEIGHT 2).put EPD_TIM0_LINE 20).put EPD_TIM0_GPW 1)).put (EPD_RGNOWN_EN 2) 1).put (EPD_RGNHI_X1 2) 7).put (EPD_RGNHI_Y1 2) 1).put EPD_STAT_STATELOST 0).put EPD_CFG_EN 1).put (EPD_RQSIZE_W 0) 2).put (EPD_RQSIZE_H 0) 1).put (EPD_RQSRC_ADDR 0) 0x10341000).put EPD_CFG_EN 0), .core, 0x42, 2, 8, by decide +kernel⟩,
   ⟨((((((((((((((w0.put EPD_PANEL_WIDTH 8).put EPD_PANEL_HEIGHT 2).put EPD_TIM0_LINE 20).put EPD_TIM0_GPW 1)).put (EPD_RGNOWN_EN 2) 1).put (EPD_RGNHI_X1 2) 7).put (EPD_RGNHI_Y1 2) 1).put EPD_STAT_STATELOST 0).put EPD_CFG_EN 1).put (EPD_RQSIZE_W 0) 2).put (EPD_RQSIZE_H 0) 1).put (EPD_RQSRC_ADDR 0) 0x10341000).put (EPD_RQSIZE_W 0) 9), .core, 0x42, 2, 8, by decide +kernel⟩,
   ⟨dk (((((((((((((((w0.put EPD_PANEL_WIDTH 8).put EPD_PANEL_HEIGHT 2).put EPD_TIM0_LINE 20).put EPD_TIM0_GPW 1)).put (EPD_RGNOWN_EN 2) 1).put (EPD_RGNHI_X1 2) 7).put (EPD_RGNHI_Y1 2) 1).put EPD_STAT_STATELOST 0).put EPD_CFG_EN 1).put (EPD_RQSIZE_W 0) 2).put (EPD_RQSIZE_H 0) 1).put (EPD_RQSRC_ADDR 0) 0x10341000))) fun d => { d with upd := List.replicate 16 { id := 4, region := 2, x := 0, y := 0, w := 2, h := 1, src := 0x10341000, exp := 0, queue := false, force := false, chk := false, evwait := false, staged := 0, place := none, set := 0, tag := 8, running := false, band := 0, ptr := 0, crc := 0xFFFFFFFF, young := 0, bad := [], floored := false, drift := false } }, .core, 0x42, 2, 8, by decide +kernel⟩,
   ⟨dk ((w0.put HRV_EAVAIL_EAVAIL 1000000).put DRM_STAT_UNWIPED 0) fun d => { d with upd := [{ id := 4, region := 2, x := 0, y := 0, w := 2, h := 1, src := 0x10341000, exp := 0, queue := false, force := false, chk := false, evwait := false, staged := 0, place := none, set := 0, tag := 8, running := false, band := 0, ptr := 0, crc := 0xFFFFFFFF, young := 0, bad := [], floored := false, drift := false }], newest := [(2, 5)] }, 20, 0, { id := 4, region := 2, x := 0, y := 0, w := 2, h := 1, src := 0x10341000, exp := 0, queue := false, force := false, chk := false, evwait := false, staged := 0, place := none, set := 0, tag := 8, running := false, band := 0, ptr := 0, crc := 0xFFFFFFFF, young := 0, bad := [], floored := false, drift := false }, 80000, by decide +kernel⟩,
   ⟨dk ((w0).put DRM_STAT_UNWIPED 0) fun d => { d with upd := [{ id := 4, region := 2, x := 0, y := 0, w := 2, h := 1, src := 0x10341000, exp := 0, queue := false, force := false, chk := false, evwait := false, staged := 0, place := none, set := 0, tag := 8, running := false, band := 0, ptr := 0, crc := 0xFFFFFFFF, young := 0, bad := [], floored := false, drift := false }], newest := [(2, 5)] }, 20, 0, { id := 4, region := 2, x := 0, y := 0, w := 2, h := 1, src := 0x10341000, exp := 0, queue := false, force := false, chk := false, evwait := false, staged := 0, place := none, set := 0, tag := 8, running := false, band := 0, ptr := 0, crc := 0xFFFFFFFF, young := 0, bad := [], floored := false, drift := false }, 9, 0, by decide +kernel⟩,
   ⟨dk w0 fun d => { d with upd := [{ id := 4, region := 2, x := 0, y := 0, w := 2, h := 1, src := 0x10341000, exp := 0, queue := false, force := false, chk := false, evwait := false, staged := 0, place := none, set := 0, tag := 8, running := true, band := 0, ptr := 0, crc := 0xFFFFFFFF, young := 0, bad := [], floored := false, drift := false }, { id := 5, region := 2, x := 0, y := 0, w := 2, h := 1, src := 0x10341000, exp := 0, queue := true, force := false, chk := false, evwait := false, staged := 0, place := none, set := 0, tag := 8, running := false, band := 0, ptr := 0, crc := 0xFFFFFFFF, young := 0, bad := [], floored := false, drift := false }] }, 20, 0, { id := 4, region := 2, x := 0, y := 0, w := 2, h := 1, src := 0x10341000, exp := 0, queue := false, force := false, chk := false, evwait := false, staged := 0, place := none, set := 0, tag := 8, running := true, band := 0, ptr := 0, crc := 0xFFFFFFFF, young := 0, bad := [], floored := false, drift := false }, { id := 5, region := 2, x := 0, y := 0, w := 2, h := 1, src := 0x10341000, exp := 0, queue := true, force := false, chk := false, evwait := false, staged := 0, place := none, set := 0, tag := 8, running := false, band := 0, ptr := 0, crc := 0xFFFFFFFF, young := 0, bad := [], floored := false, drift := false }, by decide +kernel⟩,
   ⟨dk ((((((w0.put EPD_PANEL_WIDTH 8).put EPD_PANEL_HEIGHT 2).put EPD_TIM0_LINE 20).put EPD_TIM0_GPW 1)).put DRM_STAT_UNWIPED 0) fun d => { d with part := some (1, []) }, 20, 0, 1, [], by decide +kernel⟩,
   ⟨w0, .core, 0x105, by decide +kernel⟩,
   ⟨(((((w0.put EPD_PANEL_WIDTH 8).put EPD_PANEL_HEIGHT 2).put EPD_TIM0_LINE 20).put EPD_TIM0_GPW 1).put EPD_STAT_INITBUSY 1).put EPD_INIT_LEVEL 5, by decide +kernel⟩,
   ⟨w0, .core, 1, by decide +kernel⟩,
   ⟨dk w0 fun d => { d with lockDue := 8 }, 3, by decide +kernel⟩,
   ⟨wCmd (plc 0x50 2 3 [2, 0, 0, 0]), 0, plc 0x50 2 3 [2, 0, 0, 0], 2, by decide +kernel⟩,
   ⟨(((((((((((wCmd (plc 0x4F 2 3 [2, 0, 0, 0, 0, 0, 0, 0, 2, 0, 1, 0, 0, 0, 0, 0, 0, 0, 0, 0, 7]))).put EPD_PANEL_WIDTH 8).put EPD_PANEL_HEIGHT 2).put EPD_TIM0_LINE 20).put EPD_TIM0_GPW 1).put (EPD_RGNOWN_EN 2) 1).put (EPD_RGNHI_X1 2) 7).put (EPD_RGNHI_Y1 2) 1).put EPD_STAT_STATELOST 0).put EPD_CFG_EN 1).put (EPD_RGNOWN_PRIN 2) 3, 0, plc 0x4F 2 3 [2, 0, 0, 0, 0, 0, 0, 0, 2, 0, 1, 0, 0, 0, 0, 0, 0, 0, 0, 0, 7], 1, by decide +kernel⟩,
   ⟨((((((((((((wCmd (plc 0x4F 2 3 ([2, 2, 0, 0, 0, 0, 0, 0, 2, 0, 1, 0, 0, 0, 0, 0] ++ leBytes 4 0x200E0005)))).put EPD_PANEL_WIDTH 8).put EPD_PANEL_HEIGHT 2).put EPD_TIM0_LINE 20).put EPD_TIM0_GPW 1).put (EPD_RGNOWN_EN 2) 1).put (EPD_RGNHI_X1 2) 7).put (EPD_RGNHI_Y1 2) 1).put EPD_STAT_STATELOST 0).put EPD_CFG_EN 1).put (EPD_RGNOWN_PRIN 2) 3).wr 0x200E0004 4 0x12345678, 0, plc 0x4F 2 3 ([2, 2, 0, 0, 0, 0, 0, 0, 2, 0, 1, 0, 0, 0, 0, 0] ++ leBytes 4 0x200E0005), 1, by decide +kernel⟩,
   ⟨(((((((((((((((wCmd (plc 0x4F 2 3 [2, 4, 0, 0, 0, 0, 0, 0, 2, 0, 1, 0, 0, 0, 0, 0, 7, 0, 0, 0]))).put EPD_PANEL_WIDTH 8).put EPD_PANEL_HEIGHT 2).put EPD_TIM0_LINE 20).put EPD_TIM0_GPW 1).put (EPD_RGNOWN_EN 2) 1).put (EPD_RGNHI_X1 2) 7).put (EPD_RGNHI_Y1 2) 1).put EPD_STAT_STATELOST 0).put EPD_CFG_EN 1).put (EPD_RGNOWN_PRIN 2) 3).wr (0x201A0000 + 2048 * 7) 4 9).wr (0x201A0004 + 2048 * 7) 4 7).wr (0x201A0008 + 2048 * 7) 4 2).wr (0x201A03FC + 2048 * 7) 4 (9 ^^^ 0xC3C3C3C3), 0, plc 0x4F 2 3 [2, 4, 0, 0, 0, 0, 0, 0, 2, 0, 1, 0, 0, 0, 0, 0, 7, 0, 0, 0], 1, 0, 0x201A3800, by decide +kernel⟩⟩

theorem wit_labelRuns :
    (∃ (s : State), s.por = false ∧ s.on EPD_STAT_HVON = true ∧ s.disp.hvpg = false ∧ bitOf s.vio 2 = true) ∧
    (∃ (s : State) (u : Upd), s.por = false ∧ s.disp.upd = [u] ∧ u.place = none ∧ u.staged = 0 ∧ s.on EPD_STAT_HVON = true ∧ s.disp.hvpg = false ∧ u.running = true) ∧
    (∃ (s : State) (_late : List Nat), s.por = false ∧ s.on EPD_STAT_HVON = true ∧ s.disp.hvpg = true ∧ s.disp.quiet = true ∧ s.disp.part = none) ∧
    (∃ (s : State) (late : List Nat) (u : Upd), s.por = false ∧ s.disp.upd = [u] ∧ u.place = none ∧ u.staged = 0 ∧ s.on EPD_STAT_HVON = true ∧ s.disp.hvpg = true ∧ s.disp.quiet = false ∧ s.disp.part = none ∧ u.running = true ∧ u.ptr = 0 ∧ 0 < u.h ∧ u.y < epdHeight s ∧ s.get DRM_STAT_UNWIPED = 0 ∧ (∀ j, j < u.h → u.y + j ∈ late)) ∧
    (∃ (s : State) (_late : List Nat), s.por = false ∧ s.on EPD_STAT_HVON = true ∧ s.disp.hvpg = true ∧ s.disp.quiet = false ∧ s.disp.part = none ∧ s.get DRM_STAT_UNWIPED = 0 ∧ s.ms.wipeQ = [] ∧ s.ms.sramErr = [] ∧ (∀ u ∈ s.disp.upd, u.place = none ∧ u.staged = 0 ∧ u.floored = false)) ∧
    (∃ (s : State) (_late : List Nat) (_k : Nat), s.por = false ∧ s.on EPD_STAT_HVON = true ∧ s.disp.hvpg = true ∧ s.disp.quiet = false ∧ s.disp.part = none ∧ s.get DRM_STAT_UNWIPED = 0 ∧ s.ms.wipeQ = [] ∧ s.ms.sramErr = []) ∧
    (∃ (s : State) (tdie : Int) (_raw : Nat) (u : Upd) (l : List Nat), s.por = false ∧ tdieOk tdie = true ∧ s.disp.upd = [u] ∧ u.place = none ∧ u.staged = 0 ∧ u.running = true ∧ u.floored = false ∧ s.disp.part = some (epdHeight s, l) ∧ s.disp.dead = [] ∧ u.x + u.w ≤ epdWidth s ∧ u.y + u.h ≤ epdHeight s ∧ u.region < 16 ∧ u.h ≤ u.ptr ∧ (((List.range u.w).all fun i => (List.range u.h).all fun j => pixelIdle s (u.x + i) (u.y + j)) = true)) ∧
    (∃ (s : State) (tdie : Int) (_raw : Nat) (u v : Upd) (l : List Nat), s.por = false ∧ tdieOk tdie = true ∧ s.disp.upd = [u, v] ∧ u.place = none ∧ u.staged = 0 ∧ u.running = true ∧ v.running = true ∧ u.floored = false ∧ u.id ≠ v.id ∧ s.disp.part = some (epdHeight s, l) ∧ s.disp.dead = [] ∧ u.h ≤ u.ptr ∧ v.ptr < v.h ∧ v.y + v.h ≤ epdHeight s ∧ u.young < v.young ∧ v.x ≤ u.x ∧ u.x + u.w ≤ v.x + v.w ∧ v.y ≤ u.y ∧ u.y + u.h ≤ v.y + v.h) ∧
    (∃ (s : State) (tdie : Int) (_raw : Nat) (u : Upd) (l : List Nat), s.por = false ∧ tdieOk tdie = true ∧ s.disp.upd = [u] ∧ u.place = none ∧ u.staged = 0 ∧ u.running = true ∧ u.floored = false ∧ s.disp.part = some (epdHeight s, l) ∧ s.disp.dead = [] ∧ u.x + u.w ≤ epdWidth s ∧ u.y + u.h ≤ epdHeight s ∧ u.region < 16 ∧ (u.ptr < u.h ∨ ((List.range u.w).any fun i => (List.range u.h).any fun j => pixelMoves s (u.x + i) (u.y + j)) = true)) ∧
    (∃ (s : State), s.por = false ∧ s.disp.quiet = true ∧ s.disp.blank = true) ∧
    (∃ (s : State), s.por = false ∧ (s.disp.quiet = false ∨ s.disp.blank = false)) ∧
    (∃ (s : State), s.por = false ∧ s.disp.upd ≠ [] ∧ (∀ u ∈ s.disp.upd, u.place = none ∧ u.staged = 0) ∧ s.on EPD_STAT_SCAN = true) ∧
    ((((dk (dk (((((((w0.put EPD_PANEL_WIDTH 8).put EPD_PANEL_HEIGHT 2).put EPD_TIM0_LINE 20).put EPD_TIM0_GPW 1)).put EPD_STAT_HVON 1).put DRM_STAT_UNWIPED 0) fun d => { d with upd := [{ ({ id := 4, region := 2, x := 0, y := 0, w := 2, h := 1, src := 0x10341000, exp := 0, queue := false, force := false, chk := false, evwait := false, staged := 0, place := none, set := 0, tag := 8, running := true, band := 0, ptr := 0, crc := 0xFFFFFFFF, young := 0, bad := [], floored := false, drift := false } : Upd) with w := 3, force := true }] }) fun d => { d with hvpg := true }).wr 0x10341000 4 0x321)).por = false ∧ (((dk (dk (((((((w0.put EPD_PANEL_WIDTH 8).put EPD_PANEL_HEIGHT 2).put EPD_TIM0_LINE 20).put EPD_TIM0_GPW 1)).put EPD_STAT_HVON 1).put DRM_STAT_UNWIPED 0) fun d => { d with upd := [{ ({ id := 4, region := 2, x := 0, y := 0, w := 2, h := 1, src := 0x10341000, exp := 0, queue := false, force := false, chk := false, evwait := false, staged := 0, place := none, set := 0, tag := 8, running := true, band := 0, ptr := 0, crc := 0xFFFFFFFF, young := 0, bad := [], floored := false, drift := false } : Upd) with w := 3, force := true }] }) fun d => { d with hvpg := true }).wr 0x10341000 4 0x321)).on EPD_STAT_HVON = true ∧ (((dk (dk (((((((w0.put EPD_PANEL_WIDTH 8).put EPD_PANEL_HEIGHT 2).put EPD_TIM0_LINE 20).put EPD_TIM0_GPW 1)).put EPD_STAT_HVON 1).put DRM_STAT_UNWIPED 0) fun d => { d with upd := [{ ({ id := 4, region := 2, x := 0, y := 0, w := 2, h := 1, src := 0x10341000, exp := 0, queue := false, force := false, chk := false, evwait := false, staged := 0, place := none, set := 0, tag := 8, running := true, band := 0, ptr := 0, crc := 0xFFFFFFFF, young := 0, bad := [], floored := false, drift := false } : Upd) with w := 3, force := true }] }) fun d => { d with hvpg := true }).wr 0x10341000 4 0x321)).disp.hvpg = true ∧ (((dk (dk (((((((w0.put EPD_PANEL_WIDTH 8).put EPD_PANEL_HEIGHT 2).put EPD_TIM0_LINE 20).put EPD_TIM0_GPW 1)).put EPD_STAT_HVON 1).put DRM_STAT_UNWIPED 0) fun d => { d with upd := [{ ({ id := 4, region := 2, x := 0, y := 0, w := 2, h := 1, src := 0x10341000, exp := 0, queue := false, force := false, chk := false, evwait := false, staged := 0, place := none, set := 0, tag := 8, running := true, band := 0, ptr := 0, crc := 0xFFFFFFFF, young := 0, bad := [], floored := false, drift := false } : Upd) with w := 3, force := true }] }) fun d => { d with hvpg := true }).wr 0x10341000 4 0x321)).disp.quiet = false ∧ (((dk (dk (((((((w0.put EPD_PANEL_WIDTH 8).put EPD_PANEL_HEIGHT 2).put EPD_TIM0_LINE 20).put EPD_TIM0_GPW 1)).put EPD_STAT_HVON 1).put DRM_STAT_UNWIPED 0) fun d => { d with upd := [{ ({ id := 4, region := 2, x := 0, y := 0, w := 2, h := 1, src := 0x10341000, exp := 0, queue := false, force := false, chk := false, evwait := false, staged := 0, place := none, set := 0, tag := 8, running := true, band := 0, ptr := 0, crc := 0xFFFFFFFF, young := 0, bad := [], floored := false, drift := false } : Upd) with w := 3, force := true }] }) fun d => { d with hvpg := true }).wr 0x10341000 4 0x321)).disp.part = none ∧ (((dk (dk (((((((w0.put EPD_PANEL_WIDTH 8).put EPD_PANEL_HEIGHT 2).put EPD_TIM0_LINE 20).put EPD_TIM0_GPW 1)).put EPD_STAT_HVON 1).put DRM_STAT_UNWIPED 0) fun d => { d with upd := [{ ({ id := 4, region := 2, x := 0, y := 0, w := 2, h := 1, src := 0x10341000, exp := 0, queue := false, force := false, chk := false, evwait := false, staged := 0, place := none, set := 0, tag := 8, running := true, band := 0, ptr := 0, crc := 0xFFFFFFFF, young := 0, bad := [], floored := false, drift := false } : Upd) with w := 3, force := true }] }) fun d => { d with hvpg := true }).wr 0x10341000 4 0x321)).get DRM_STAT_UNWIPED = 0) ∧
    ((((dk (dk (((((((w0.put EPD_PANEL_WIDTH 8).put EPD_PANEL_HEIGHT 2).put EPD_TIM0_LINE 20).put EPD_TIM0_GPW 1)).put EPD_STAT_HVON 1).put DRM_STAT_UNWIPED 0) fun d => { d with upd := [{ ({ id := 4, region := 2, x := 0, y := 0, w := 2, h := 1, src := 0x10341000, exp := 0, queue := false, force := false, chk := false, evwait := false, staged := 0, place := none, set := 0, tag := 8, running := true, band := 0, ptr := 0, crc := 0xFFFFFFFF, young := 0, bad := [], floored := false, drift := false } : Upd) with w := 3, force := true }] }) fun d => { d with hvpg := true }).wr 0x10341000 4 0x321)).bankCalm = true ∧ rowOf (((dk (dk (((((((w0.put EPD_PANEL_WIDTH 8).put EPD_PANEL_HEIGHT 2).put EPD_TIM0_LINE 20).put EPD_TIM0_GPW 1)).put EPD_STAT_HVON 1).put DRM_STAT_UNWIPED 0) fun d => { d with upd := [{ ({ id := 4, region := 2, x := 0, y := 0, w := 2, h := 1, src := 0x10341000, exp := 0, queue := false, force := false, chk := false, evwait := false, staged := 0, place := none, set := 0, tag := 8, running := true, band := 0, ptr := 0, crc := 0xFFFFFFFF, young := 0, bad := [], floored := false, drift := false } : Upd) with w := 3, force := true }] }) fun d => { d with hvpg := true }).wr 0x10341000 4 0x321)) 0 ≠ [] ∧ (∀ e ∈ rowOf (((dk (dk (((((((w0.put EPD_PANEL_WIDTH 8).put EPD_PANEL_HEIGHT 2).put EPD_TIM0_LINE 20).put EPD_TIM0_GPW 1)).put EPD_STAT_HVON 1).put DRM_STAT_UNWIPED 0) fun d => { d with upd := [{ ({ id := 4, region := 2, x := 0, y := 0, w := 2, h := 1, src := 0x10341000, exp := 0, queue := false, force := false, chk := false, evwait := false, staged := 0, place := none, set := 0, tag := 8, running := true, band := 0, ptr := 0, crc := 0xFFFFFFFF, young := 0, bad := [], floored := false, drift := false } : Upd) with w := 3, force := true }] }) fun d => { d with hvpg := true }).wr 0x10341000 4 0x321)) 0, e.1.bad.contains 0 = false ∧ 0x10341000 ≤ sourceAt e.1 0 ∧ sourceAt e.1 0 + (e.1.w + 1) / 2 ≤ 0x10380000) ∧ ((((dk (dk (((((((w0.put EPD_PANEL_WIDTH 8).put EPD_PANEL_HEIGHT 2).put EPD_TIM0_LINE 20).put EPD_TIM0_GPW 1)).put EPD_STAT_HVON 1).put DRM_STAT_UNWIPED 0) fun d => { d with upd := [{ ({ id := 4, region := 2, x := 0, y := 0, w := 2, h := 1, src := 0x10341000, exp := 0, queue := false, force := false, chk := false, evwait := false, staged := 0, place := none, set := 0, tag := 8, running := true, band := 0, ptr := 0, crc := 0xFFFFFFFF, young := 0, bad := [], floored := false, drift := false } : Upd) with w := 3, force := true }] }) fun d => { d with hvpg := true }).wr 0x10341000 4 0x321)).disp.upd.map (·.id)).Nodup) ∧
    ({ ({ id := 4, region := 2, x := 0, y := 0, w := 2, h := 1, src := 0x10341000, exp := 0, queue := false, force := false, chk := false, evwait := false, staged := 0, place := none, set := 0, tag := 8, running := true, band := 0, ptr := 0, crc := 0xFFFFFFFF, young := 0, bad := [], floored := false, drift := false } : Upd) with w := 3, force := true } ∈ (((dk (dk (((((((w0.put EPD_PANEL_WIDTH 8).put EPD_PANEL_HEIGHT 2).put EPD_TIM0_LINE 20).put EPD_TIM0_GPW 1)).put EPD_STAT_HVON 1).put DRM_STAT_UNWIPED 0) fun d => { d with upd := [{ ({ id := 4, region := 2, x := 0, y := 0, w := 2, h := 1, src := 0x10341000, exp := 0, queue := false, force := false, chk := false, evwait := false, staged := 0, place := none, set := 0, tag := 8, running := true, band := 0, ptr := 0, crc := 0xFFFFFFFF, young := 0, bad := [], floored := false, drift := false } : Upd) with w := 3, force := true }] }) fun d => { d with hvpg := true }).wr 0x10341000 4 0x321)).disp.upd ∧ ({ ({ id := 4, region := 2, x := 0, y := 0, w := 2, h := 1, src := 0x10341000, exp := 0, queue := false, force := false, chk := false, evwait := false, staged := 0, place := none, set := 0, tag := 8, running := true, band := 0, ptr := 0, crc := 0xFFFFFFFF, young := 0, bad := [], floored := false, drift := false } : Upd) with w := 3, force := true }).running = true ∧ ({ ({ id := 4, region := 2, x := 0, y := 0, w := 2, h := 1, src := 0x10341000, exp := 0, queue := false, force := false, chk := false, evwait := false, staged := 0, place := none, set := 0, tag := 8, running := true, band := 0, ptr := 0, crc := 0xFFFFFFFF, young := 0, bad := [], floored := false, drift := false } : Upd) with w := 3, force := true }).y ≤ 0 ∧ 0 < ({ ({ id := 4, region := 2, x := 0, y := 0, w := 2, h := 1, src := 0x10341000, exp := 0, queue := false, force := false, chk := false, evwait := false, staged := 0, place := none, set := 0, tag := 8, running := true, band := 0, ptr := 0, crc := 0xFFFFFFFF, young := 0, bad := [], floored := false, drift := false } : Upd) with w := 3, force := true }).y + ({ ({ id := 4, region := 2, x := 0, y := 0, w := 2, h := 1, src := 0x10341000, exp := 0, queue := false, force := false, chk := false, evwait := false, staged := 0, place := none, set := 0, tag := 8, running := true, band := 0, ptr := 0, crc := 0xFFFFFFFF, young := 0, bad := [], floored := false, drift := false } : Upd) with w := 3, force := true }).h) ∧
    ((((dk (dk (((((((w0.put EPD_PANEL_WIDTH 8).put EPD_PANEL_HEIGHT 2).put EPD_TIM0_LINE 20).put EPD_TIM0_GPW 1)).put EPD_STAT_HVON 1).put DRM_STAT_UNWIPED 0) fun d => { d with upd := [{ ({ id := 4, region := 2, x := 0, y := 0, w := 2, h := 1, src := 0x10341000, exp := 0, queue := false, force := false, chk := false, evwait := false, staged := 0, place := none, set := 0, tag := 8, running := true, band := 0, ptr := 0, crc := 0xFFFFFFFF, young := 0, bad := [], floored := false, drift := false } : Upd) with w := 3, force := true }] }) fun d => { d with hvpg := true }).wr 0x10341000 4 0x321)).ms.ckl.length < 64 ∧ inDram (epdBase (((dk (dk (((((((w0.put EPD_PANEL_WIDTH 8).put EPD_PANEL_HEIGHT 2).put EPD_TIM0_LINE 20).put EPD_TIM0_GPW 1)).put EPD_STAT_HVON 1).put DRM_STAT_UNWIPED 0) fun d => { d with upd := [{ ({ id := 4, region := 2, x := 0, y := 0, w := 2, h := 1, src := 0x10341000, exp := 0, queue := false, force := false, chk := false, evwait := false, staged := 0, place := none, set := 0, tag := 8, running := true, band := 0, ptr := 0, crc := 0xFFFFFFFF, young := 0, bad := [], floored := false, drift := false } : Upd) with w := 3, force := true }] }) fun d => { d with hvpg := true }).wr 0x10341000 4 0x321)) + 2) = true ∧ (epdBase (((dk (dk (((((((w0.put EPD_PANEL_WIDTH 8).put EPD_PANEL_HEIGHT 2).put EPD_TIM0_LINE 20).put EPD_TIM0_GPW 1)).put EPD_STAT_HVON 1).put DRM_STAT_UNWIPED 0) fun d => { d with upd := [{ ({ id := 4, region := 2, x := 0, y := 0, w := 2, h := 1, src := 0x10341000, exp := 0, queue := false, force := false, chk := false, evwait := false, staged := 0, place := none, set := 0, tag := 8, running := true, band := 0, ptr := 0, crc := 0xFFFFFFFF, young := 0, bad := [], floored := false, drift := false } : Upd) with w := 3, force := true }] }) fun d => { d with hvpg := true }).wr 0x10341000 4 0x321)) + 2 - 0x80000000) % 0x400000 < 0x3C0000 ∧ (((dk (dk (((((((w0.put EPD_PANEL_WIDTH 8).put EPD_PANEL_HEIGHT 2).put EPD_TIM0_LINE 20).put EPD_TIM0_GPW 1)).put EPD_STAT_HVON 1).put DRM_STAT_UNWIPED 0) fun d => { d with upd := [{ ({ id := 4, region := 2, x := 0, y := 0, w := 2, h := 1, src := 0x10341000, exp := 0, queue := false, force := false, chk := false, evwait := false, staged := 0, place := none, set := 0, tag := 8, running := true, band := 0, ptr := 0, crc := 0xFFFFFFFF, young := 0, bad := [], floored := false, drift := false } : Upd) with w := 3, force := true }] }) fun d => { d with hvpg := true }).wr 0x10341000 4 0x321)).disp.dead.contains (epdBase (((dk (dk (((((((w0.put EPD_PANEL_WIDTH 8).put EPD_PANEL_HEIGHT 2).put EPD_TIM0_LINE 20).put EPD_TIM0_GPW 1)).put EPD_STAT_HVON 1).put DRM_STAT_UNWIPED 0) fun d => { d with upd := [{ ({ id := 4, region := 2, x := 0, y := 0, w := 2, h := 1, src := 0x10341000, exp := 0, queue := false, force := false, chk := false, evwait := false, staged := 0, place := none, set := 0, tag := 8, running := true, band := 0, ptr := 0, crc := 0xFFFFFFFF, young := 0, bad := [], floored := false, drift := false } : Upd) with w := 3, force := true }] }) fun d => { d with hvpg := true }).wr 0x10341000 4 0x321))) = false ∧ ({ ({ id := 4, region := 2, x := 0, y := 0, w := 2, h := 1, src := 0x10341000, exp := 0, queue := false, force := false, chk := false, evwait := false, staged := 0, place := none, set := 0, tag := 8, running := true, band := 0, ptr := 0, crc := 0xFFFFFFFF, young := 0, bad := [], floored := false, drift := false } : Upd) with w := 3, force := true }, [0x21, 3]) ∈ rowOf (((dk (dk (((((((w0.put EPD_PANEL_WIDTH 8).put EPD_PANEL_HEIGHT 2).put EPD_TIM0_LINE 20).put EPD_TIM0_GPW 1)).put EPD_STAT_HVON 1).put DRM_STAT_UNWIPED 0) fun d => { d with upd := [{ ({ id := 4, region := 2, x := 0, y := 0, w := 2, h := 1, src := 0x10341000, exp := 0, queue := false, force := false, chk := false, evwait := false, staged := 0, place := none, set := 0, tag := 8, running := true, band := 0, ptr := 0, crc := 0xFFFFFFFF, young := 0, bad := [], floored := false, drift := false } : Upd) with w := 3, force := true }] }) fun d => { d with hvpg := true }).wr 0x10341000 4 0x321)) 0 ∧ holdsPixel ({ ({ id := 4, region := 2, x := 0, y := 0, w := 2, h := 1, src := 0x10341000, exp := 0, queue := false, force := false, chk := false, evwait := false, staged := 0, place := none, set := 0, tag := 8, running := true, band := 0, ptr := 0, crc := 0xFFFFFFFF, young := 0, bad := [], floored := false, drift := false } : Upd) with w := 3, force := true }) 1 0 = true ∧ (∀ e ∈ rowOf (((dk (dk (((((((w0.put EPD_PANEL_WIDTH 8).put EPD_PANEL_HEIGHT 2).put EPD_TIM0_LINE 20).put EPD_TIM0_GPW 1)).put EPD_STAT_HVON 1).put DRM_STAT_UNWIPED 0) fun d => { d with upd := [{ ({ id := 4, region := 2, x := 0, y := 0, w := 2, h := 1, src := 0x10341000, exp := 0, queue := false, force := false, chk := false, evwait := false, staged := 0, place := none, set := 0, tag := 8, running := true, band := 0, ptr := 0, crc := 0xFFFFFFFF, young := 0, bad := [], floored := false, drift := false } : Upd) with w := 3, force := true }] }) fun d => { d with hvpg := true }).wr 0x10341000 4 0x321)) 0, e = ({ ({ id := 4, region := 2, x := 0, y := 0, w := 2, h := 1, src := 0x10341000, exp := 0, queue := false, force := false, chk := false, evwait := false, staged := 0, place := none, set := 0, tag := 8, running := true, band := 0, ptr := 0, crc := 0xFFFFFFFF, young := 0, bad := [], floored := false, drift := false } : Upd) with w := 3, force := true }, [0x21, 3])) ∧ rsDecode (burstOf (((dk (dk (((((((w0.put EPD_PANEL_WIDTH 8).put EPD_PANEL_HEIGHT 2).put EPD_TIM0_LINE 20).put EPD_TIM0_GPW 1)).put EPD_STAT_HVON 1).put DRM_STAT_UNWIPED 0) fun d => { d with upd := [{ ({ id := 4, region := 2, x := 0, y := 0, w := 2, h := 1, src := 0x10341000, exp := 0, queue := false, force := false, chk := false, evwait := false, staged := 0, place := none, set := 0, tag := 8, running := true, band := 0, ptr := 0, crc := 0xFFFFFFFF, young := 0, bad := [], floored := false, drift := false } : Upd) with w := 3, force := true }] }) fun d => { d with hvpg := true }).wr 0x10341000 4 0x321)) (epdBase (((dk (dk (((((((w0.put EPD_PANEL_WIDTH 8).put EPD_PANEL_HEIGHT 2).put EPD_TIM0_LINE 20).put EPD_TIM0_GPW 1)).put EPD_STAT_HVON 1).put DRM_STAT_UNWIPED 0) fun d => { d with upd := [{ ({ id := 4, region := 2, x := 0, y := 0, w := 2, h := 1, src := 0x10341000, exp := 0, queue := false, force := false, chk := false, evwait := false, staged := 0, place := none, set := 0, tag := 8, running := true, band := 0, ptr := 0, crc := 0xFFFFFFFF, young := 0, bad := [], floored := false, drift := false } : Upd) with w := 3, force := true }] }) fun d => { d with hvpg := true }).wr 0x10341000 4 0x321)))) = some (List.replicate 32 0, false) ∧ pixelWord (((dk (dk (((((((w0.put EPD_PANEL_WIDTH 8).put EPD_PANEL_HEIGHT 2).put EPD_TIM0_LINE 20).put EPD_TIM0_GPW 1)).put EPD_STAT_HVON 1).put DRM_STAT_UNWIPED 0) fun d => { d with upd := [{ ({ id := 4, region := 2, x := 0, y := 0, w := 2, h := 1, src := 0x10341000, exp := 0, queue := false, force := false, chk := false, evwait := false, staged := 0, place := none, set := 0, tag := 8, running := true, band := 0, ptr := 0, crc := 0xFFFFFFFF, young := 0, bad := [], floored := false, drift := false } : Upd) with w := 3, force := true }] }) fun d => { d with hvpg := true }).wr 0x10341000 4 0x321)) 1 0 = some 0) ∧
    (∀ e ∈ rowOf (((dk (dk (((((((w0.put EPD_PANEL_WIDTH 8).put EPD_PANEL_HEIGHT 2).put EPD_TIM0_LINE 20).put EPD_TIM0_GPW 1)).put EPD_STAT_HVON 1).put DRM_STAT_UNWIPED 0) fun d => { d with upd := [{ ({ id := 4, region := 2, x := 0, y := 0, w := 2, h := 1, src := 0x10341000, exp := 0, queue := false, force := false, chk := false, evwait := false, staged := 0, place := none, set := 0, tag := 8, running := true, band := 0, ptr := 0, crc := 0xFFFFFFFF, young := 0, bad := [], floored := false, drift := false } : Upd) with w := 3, force := true }] }) fun d => { d with hvpg := true }).wr 0x10341000 4 0x321)) 0, 5 < e.1.x ∨ e.1.x + e.1.w ≤ 5) ∧
    (rsDecode (burstOf (((((dk (dk (((((((w0.put EPD_PANEL_WIDTH 8).put EPD_PANEL_HEIGHT 2).put EPD_TIM0_LINE 20).put EPD_TIM0_GPW 1)).put EPD_STAT_HVON 1).put DRM_STAT_UNWIPED 0) fun d => { d with upd := [{ ({ id := 4, region := 2, x := 0, y := 0, w := 2, h := 1, src := 0x10341000, exp := 0, queue := false, force := false, chk := false, evwait := false, staged := 0, place := none, set := 0, tag := 8, running := true, band := 0, ptr := 0, crc := 0xFFFFFFFF, young := 0, bad := [], floored := false, drift := false } : Upd) with w := 3, force := true }] }) fun d => { d with hvpg := true }).wr 0x10341000 4 0x321)).putByte 0x80000000 9).putByte 0x80000005 7) 0x80000000) = none ∧ epdBase (((dk (dk (((((((w0.put EPD_PANEL_WIDTH 8).put EPD_PANEL_HEIGHT 2).put EPD_TIM0_LINE 20).put EPD_TIM0_GPW 1)).put EPD_STAT_HVON 1).put DRM_STAT_UNWIPED 0) fun d => { d with upd := [{ ({ id := 4, region := 2, x := 0, y := 0, w := 2, h := 1, src := 0x10341000, exp := 0, queue := false, force := false, chk := false, evwait := false, staged := 0, place := none, set := 0, tag := 8, running := true, band := 0, ptr := 0, crc := 0xFFFFFFFF, young := 0, bad := [], floored := false, drift := false } : Upd) with w := 3, force := true }] }) fun d => { d with hvpg := true }).wr 0x10341000 4 0x321)) = 0x80000000) :=
  ⟨⟨{ w0.put EPD_STAT_HVON 1 with vio := 7 }, by decide +kernel⟩,
   ⟨dk ((w0.put EPD_STAT_HVON 1).put DRM_STAT_UNWIPED 0) fun d => { d with upd := [{ id := 4, region := 2, x := 0, y := 0, w := 2, h := 1, src := 0x10341000, exp := 0, queue := false, force := false, chk := false, evwait := false, staged := 0, place := none, set := 0, tag := 8, running := true, band := 0, ptr := 0, crc := 0xFFFFFFFF, young := 0, bad := [], floored := false, drift := false }] }, { id := 4, region := 2, x := 0, y := 0, w := 2, h := 1, src := 0x10341000, exp := 0, queue := false, force := false, chk := false, evwait := false, staged := 0, place := none, set := 0, tag := 8, running := true, band := 0, ptr := 0, crc := 0xFFFFFFFF, young := 0, bad := [], floored := false, drift := false }, by decide +kernel⟩,
   ⟨dk (((((w0.put EPD_PANEL_WIDTH 8).put EPD_PANEL_HEIGHT 2).put EPD_TIM0_LINE 20).put EPD_TIM0_GPW 1).put EPD_STAT_HVON 1) fun d => { d with hvpg := true, quiet := true }, [], by decide +kernel⟩,
   ⟨dk (dk ((((((w0.put EPD_PANEL_WIDTH 8).put EPD_PANEL_HEIGHT 2).put EPD_TIM0_LINE 20).put EPD_TIM0_GPW 1).put EPD_STAT_HVON 1).put DRM_STAT_UNWIPED 0) fun d => { d with upd := [{ id := 4, region := 2, x := 0, y := 0, w := 2, h := 1, src := 0x10341000, exp := 0, queue := false, force := false, chk := false, evwait := false, staged := 0, place := none, set := 0, tag := 8, running := true, band := 0, ptr := 0, crc := 0xFFFFFFFF, young := 0, bad := [], floored := false, drift := false }] }) fun d => { d with hvpg := true }, [0], { id := 4, region := 2, x := 0, y := 0, w := 2, h := 1, src := 0x10341000, exp := 0, queue := false, force := false, chk := false, evwait := false, staged := 0, place := none, set := 0, tag := 8, running := true, band := 0, ptr := 0, crc := 0xFFFFFFFF, young := 0, bad := [], floored := false, drift := false }, by decide +kernel⟩,
   ⟨dk (dk ((((((w0.put EPD_PANEL_WIDTH 8).put EPD_PANEL_HEIGHT 2).put EPD_TIM0_LINE 20).put EPD_TIM0_GPW 1).put EPD_STAT_HVON 1).put DRM_STAT_UNWIPED 0) fun d => { d with upd := [{ id := 4, region := 2, x := 0, y := 0, w := 2, h := 1, src := 0x10341000, exp := 0, queue := false, force := false, chk := false, evwait := false, staged := 0, place := none, set := 0, tag := 8, running := true, band := 0, ptr := 0, crc := 0xFFFFFFFF, young := 0, bad := [], floored := false, drift := false }] }) fun d => { d with hvpg := true }, [], by decide +kernel⟩,
   ⟨dk (dk ((((((w0.put EPD_PANEL_WIDTH 8).put EPD_PANEL_HEIGHT 2).put EPD_TIM0_LINE 20).put EPD_TIM0_GPW 1).put EPD_STAT_HVON 1).put DRM_STAT_UNWIPED 0) fun d => { d with upd := [{ id := 4, region := 2, x := 0, y := 0, w := 2, h := 1, src := 0x10341000, exp := 0, queue := false, force := false, chk := false, evwait := false, staged := 0, place := none, set := 0, tag := 8, running := true, band := 0, ptr := 0, crc := 0xFFFFFFFF, young := 0, bad := [], floored := false, drift := false }] }) fun d => { d with hvpg := true }, [], 0, by decide +kernel⟩,
   ⟨dk (dk ((((((w0.put EPD_PANEL_WIDTH 8).put EPD_PANEL_HEIGHT 2).put EPD_TIM0_LINE 20).put EPD_TIM0_GPW 1)).put DRM_STAT_UNWIPED 0) fun d => { d with upd := [{ ({ id := 4, region := 2, x := 0, y := 0, w := 2, h := 1, src := 0x10341000, exp := 0, queue := false, force := false, chk := false, evwait := false, staged := 0, place := none, set := 0, tag := 8, running := true, band := 0, ptr := 0, crc := 0xFFFFFFFF, young := 0, bad := [], floored := false, drift := false } : Upd) with ptr := 1, chk := true }] }) fun d => { d with part := some (2, []), newest := [(2, 5)] }, 20, 0, { ({ id := 4, region := 2, x := 0, y := 0, w := 2, h := 1, src := 0x10341000, exp := 0, queue := false, force := false, chk := false, evwait := false, staged := 0, place := none, set := 0, tag := 8, running := true, band := 0, ptr := 0, crc := 0xFFFFFFFF, young := 0, bad := [], floored := false, drift := false } : Upd) with ptr := 1, chk := true }, [], by decide +kernel⟩,
   ⟨dk ((((((w0.put EPD_PANEL_WIDTH 8).put EPD_PANEL_HEIGHT 2).put EPD_TIM0_LINE 20).put EPD_TIM0_GPW 1)).put DRM_STAT_UNWIPED 0) fun d => { d with upd := [{ ({ id := 4, region := 2, x := 0, y := 0, w := 2, h := 1, src := 0x10341000, exp := 0, queue := false, force := false, chk := false, evwait := false, staged := 0, place := none, set := 0, tag := 8, running := true, band := 0, ptr := 0, crc := 0xFFFFFFFF, young := 0, bad := [], floored := false, drift := false } : Upd) with ptr := 1 }, { ({ id := 4, region := 2, x := 0, y := 0, w := 2, h := 1, src := 0x10341000, exp := 0, queue := false, force := false, chk := false, evwait := false, staged := 0, place := none, set := 0, tag := 8, running := true, band := 0, ptr := 0, crc := 0xFFFFFFFF, young := 0, bad := [], floored := false, drift := false } : Upd) with id := 5, young := 1 }], part := some (2, []) }, 20, 0, { ({ id := 4, region := 2, x := 0, y := 0, w := 2, h := 1, src := 0x10341000, exp := 0, queue := false, force := false, chk := false, evwait := false, staged := 0, place := none, set := 0, tag := 8, running := true, band := 0, ptr := 0, crc := 0xFFFFFFFF, young := 0, bad := [], floored := false, drift := false } : Upd) with ptr := 1 }, { ({ id := 4, region := 2, x := 0, y := 0, w := 2, h := 1, src := 0x10341000, exp := 0, queue := false, force := false, chk := false, evwait := false, staged := 0, place := none, set := 0, tag := 8, running := true, band := 0, ptr := 0, crc := 0xFFFFFFFF, young := 0, bad := [], floored := false, drift := false } : Upd) with id := 5, young := 1 }, [], by decide +kernel⟩,
   ⟨dk (dk ((((((w0.put EPD_PANEL_WIDTH 8).put EPD_PANEL_HEIGHT 2).put EPD_TIM0_LINE 20).put EPD_TIM0_GPW 1)).put DRM_STAT_UNWIPED 0) fun d => { d with upd := [{ ({ id := 4, region := 2, x := 0, y := 0, w := 2, h := 1, src := 0x10341000, exp := 0, queue := false, force := false, chk := false, evwait := false, staged := 0, place := none, set := 0, tag := 8, running := true, band := 0, ptr := 0, crc := 0xFFFFFFFF, young := 0, bad := [], floored := false, drift := false } : Upd) with ptr := 0 }] }) fun d => { d with part := some (2, []), newest := [(2, 5)] }, 20, 0, { ({ id := 4, region := 2, x := 0, y := 0, w := 2, h := 1, src := 0x10341000, exp := 0, queue := false, force := false, chk := false, evwait := false, staged := 0, place := none, set := 0, tag := 8, running := true, band := 0, ptr := 0, crc := 0xFFFFFFFF, young := 0, bad := [], floored := false, drift := false } : Upd) with ptr := 0 }, [], by decide +kernel⟩,
   ⟨dk (w0.put EPD_STAT_HVON 1) fun d => { d with quiet := true, blank := true }, by decide +kernel⟩,
   ⟨dk (w0.put EPD_STAT_HVON 1) fun d => { d with quiet := true }, by decide +kernel⟩,
   ⟨dk (dk ((w0.put EPD_STAT_SCAN 1).put DRM_STAT_UNWIPED 0) fun d => { d with upd := [{ id := 4, region := 2, x := 0, y := 0, w := 2, h := 1, src := 0x10341000, exp := 0, queue := false, force := false, chk := false, evwait := false, staged := 0, place := none, set := 0, tag := 8, running := true, band := 0, ptr := 0, crc := 0xFFFFFFFF, young := 0, bad := [], floored := false, drift := false }] }) fun d => { d with part := some (1, []) }, by decide +kernel⟩,
   by decide +kernel,
   by decide +kernel,
   by decide +kernel,
   by decide +kernel,
   by decide +kernel,
   by decide +kernel⟩

theorem wit_touch :
    (∃ (s : State) (m : Master) (v : Word) (_sc _mc : List Nat), s.por = false ∧ s.reaches m 0x4000D000 1 v.toNat = true ∧ bitOf v.toNat 0 = true ∧ s.on TCH_CFG_EN = false ∧ s.tch.halted = false ∧ s.tch.starting = false ∧ s.tch.ch.length = 16 ∧ s.rd 0x200DFF00 4 ≠ 0x54424C31 ∧ s.ms.nvErr = [] ∧ s.nvs.moving = none) ∧
    (∃ (s : State) (m : Master) (v : Word) (_sc _mc : List Nat), s.por = false ∧ s.reaches m 0x4000D000 1 v.toNat = true ∧ bitOf v.toNat 0 = true ∧ s.on TCH_CFG_EN = false ∧ s.tch.halted = true) ∧
    (∃ (s : State) (m : Master) (v : Word) (_sc _mc : List Nat), s.por = false ∧ s.reaches m 0x4000D000 1 v.toNat = true ∧ bitOf v.toNat 0 = false ∧ s.on TCH_CFG_EN = true) ∧
    (∃ (s : State), s.por = false ∧ pairsRun s = true ∧ s.tch.pair = false ∧ (s.get TCH_CFG_MODE ≠ 2 ∨ s.tch.queued = true)) ∧
    (∃ (s : State) (_b : Bool), s.por = false ∧ tchHeld s = true) ∧
    (∃ (s : State), s.por = false ∧ s.tch.pair = true ∧ s.tch.mutPass = false ∧ tchHeld s = false) ∧
    (∃ (s : State) (_sc _mc : List Nat) (_ms : Nat), s.por = false ∧ s.tch.pair = true ∧ s.tch.starting = false ∧ s.tch.ch.length = 16) ∧
    (∃ (s : State) (_sc : List Nat), s.por = false ∧ s.on TCH_STAT_WSCAN = true ∧ s.tch.ch.length = 16) ∧
    (∃ (s : State) (sc : List Nat) (n : Nat), s.por = false ∧ s.on TCH_STAT_WSCAN = true ∧ s.tch.ch.length = 16 ∧ n < 16 ∧ scanned s n = true ∧ (tchAt s n).hit ≠ 0 ∧ (tchAt s n).wbase + max 1 (s.get TCH_WAKE_TH) ≤ sc.getD n 0 % 65536) :=
  ⟨⟨(((w0.put (TCH_PINCFG_ROLE 0) 3).put (TCH_PINCFG_ROLE 1) 1).put (TCH_PINCFG_ROLE 2) 2), .core, 1, [100, 200], [7], by decide +kernel⟩,
   ⟨uk (w0) fun t => { t with halted := true }, .core, 1, [], [], by decide +kernel⟩,
   ⟨w0.put TCH_CFG_EN 1, .core, 0, [], [], by decide +kernel⟩,
   ⟨w0.put TCH_CFG_EN 1, by decide +kernel⟩,
   ⟨{ (uk (w0.put TCH_CFG_EN 1) fun t => { t with pair := true }) with pwr := { w0.pwr with entry := some ⟨2, false, true, 64, false⟩ } }, true, by decide +kernel⟩,
   ⟨uk (w0) fun t => { t with pair := true }, by decide +kernel⟩,
   ⟨uk ((((((w0.put (TCH_PINCFG_ROLE 0) 3).put (TCH_PINCFG_ROLE 1) 1).put (TCH_PINCFG_ROLE 2) 2).put (TCH_CHST_STATE 0) 2).put (TCH_CHST_STATE 1) 2).put TCH_CFG_DEB 1) fun t => { t with pair := true, ch := t.ch.set 0 { tch0 with last := 1 } }, [1000], [], 5, by decide +kernel⟩,
   ⟨((w0.put TCH_STAT_WSCAN 1).put (TCH_CHST_STATE 0) 2).put TCH_WAKE_SLOTEN 1, [1000], by decide +kernel⟩,
   ⟨uk (((w0.put TCH_STAT_WSCAN 1).put (TCH_CHST_STATE 0) 2).put TCH_WAKE_SLOTEN 1) fun t => { t with ch := t.ch.set 0 { tch0 with hit := 1 } }, [1000], 0, by decide +kernel⟩⟩

theorem wit_debugJtagAndServices :
    (∃ (s : State) (m : Master) (v : Word) (salt : List Byte), s.por = false ∧ s.reaches m 0x4000E080 1 v.toNat = true ∧ bitOf v.toNat 4 = true ∧ bitOf v.toNat 5 = false ∧ bitOf v.toNat 6 = false ∧ s.sec.tampin = false ∧ saltOf s (v.toNat % 16) = some salt ∧ dbgMay s (v.toNat % 16) = true) ∧
    (∃ (s : State) (m : Master) (v : Word) (p : Nat) (cd salt : List Byte), s.por = false ∧ s.reaches m 0x4000E080 1 v.toNat = true ∧ bitOf v.toNat 4 = false ∧ bitOf v.toNat 5 = true ∧ bitOf v.toNat 6 = false ∧ s.sec.dbgChal = some (p, cd) ∧ saltOf s p = some salt ∧ dbgMay s p = true ∧ dbgRsp s = cmac (prinKey s p salt) (proofMsg p 1 zero16 cd)) ∧
    (∃ (s : State) (m : Master) (v : Word), s.por = false ∧ s.reaches m 0x4000E080 1 v.toNat = true ∧ bitOf v.toNat 4 = true ∧ bitOf v.toNat 5 = false ∧ bitOf v.toNat 6 = false ∧ s.sec.tampin = false ∧ (saltOf s (v.toNat % 16) = none ∨ dbgMay s (v.toNat % 16) = false)) ∧
    (∃ (s : State) (m : Master) (v : Word), s.por = false ∧ s.reaches m 0x4000E080 1 v.toNat = true ∧ bitOf v.toNat 4 = true ∧ bitOf v.toNat 5 = false ∧ bitOf v.toNat 6 = false ∧ s.sec.tampin = true) ∧
    (∃ (s : State) (m : Master) (v : Word) (p : Nat) (cd salt : List Byte), s.por = false ∧ s.reaches m 0x4000E080 1 v.toNat = true ∧ bitOf v.toNat 4 = false ∧ bitOf v.toNat 5 = true ∧ bitOf v.toNat 6 = false ∧ s.sec.dbgChal = some (p, cd) ∧ saltOf s p = some salt ∧ dbgRsp s ≠ cmac (prinKey s p salt) (proofMsg p 1 zero16 cd)) ∧
    (∃ (s : State) (m : Master) (v : Word), s.por = false ∧ s.reaches m 0x4000E080 1 v.toNat = true ∧ bitOf v.toNat 4 = false ∧ bitOf v.toNat 5 = false ∧ bitOf v.toNat 6 = true) ∧
    (∃ (s : State) (_x _y : BitVec 171), s.por = false ∧ scanWorks s = true ∧ bitOf s.vio 3 = true) ∧
    (∃ (s : State) (_x _y : BitVec 171), s.por = false ∧ scanWorks s = true ∧ bitOf s.vio 3 = true) ∧
    (∃ (s : State), s.por = false ∧ bitOf s.vio 3 = true) ∧
    (∃ (s : State) (c : BitVec 5) (_b : Bool), s.por = false ∧ bitOf s.vio 3 = true ∧ c.toNat ∉ [0, 1, 2, 8]) ∧
    (∃ (s : State), s.por = false ∧ bitOf s.vio 3 = true) ∧
    (∃ (s : State) (w : BitVec 40) (a : Nat), s.por = false ∧ bitOf s.vio 3 = true ∧ bitOf w.toNat 39 = false ∧ a = 0x4000E000 + 4 * (w.toNat / 2 ^ 32 % 128) ∧ access s .dap (dapTag s) a 4 0 0 = .ok) ∧
    (∃ (s : State) (w : BitVec 40) (a : Word), s.por = false ∧ bitOf s.vio 3 = true ∧ bitOf w.toNat 39 = false ∧ a.toNat % 4 = 0 ∧ inPage a.toNat = false ∧ access s .dap (dapTag s) a.toNat 4 0 0 = .ok) ∧
    (∃ (s : State) (w : BitVec 40) (n : Nat), s.por = false ∧ bitOf s.vio 3 = true ∧ bitOf w.toNat 39 = true ∧ n < 4 ∧ w.toNat / 2 ^ 32 % 128 = 0x28 + n ∧ access s .dap (dapTag s) (0x4000E0A0 + 4 * n) 4 1 (w.toNat % 2 ^ 32) = .ok) ∧
    (∃ (s : State) (q : Nat) (par d : List Byte) (salt out : List Byte), s.por = false ∧ s.svcReady q 1 par d = true ∧ ((s.sec.svcTag.getD q 0 = 8 ∨ s.sec.svcTag.getD q 0 = 9) ∧ (pf par 0 4 = 2 ∨ pf par 0 4 = 3 ∧ s.on SEC_FWSTAT_ACCEPT = true ∧ lcState s = 2)) ∧ saltOf s (pf par 0 4) = some salt ∧ out = ctr (secretKey s (label 0x44 0x58 0x53 0x4C) (pf par 0 4) salt) ((par.drop 4).take 12) d) ∧
    (∃ (s : State) (q : Nat) (par d : List Byte), s.por = false ∧ s.svcReady q 1 par d = true ∧ (¬((s.sec.svcTag.getD q 0 = 8 ∨ s.sec.svcTag.getD q 0 = 9) ∧ (pf par 0 4 = 2 ∨ pf par 0 4 = 3 ∧ s.on SEC_FWSTAT_ACCEPT = true ∧ lcState s = 2)))) ∧
    (∃ (s : State) (q : Nat) (par d : List Byte), s.por = false ∧ s.svcReady q 2 par d = true ∧ s.sec.svcTag.getD q 0 ≠ 10) ∧
    (∃ (s : State) (q : Nat) (par d : List Byte), s.por = false ∧ s.svcReady q 3 par d = true) ∧
    (∃ (s : State) (q : Nat) (par d : List Byte) (key sig : Nat × Nat), s.por = false ∧ s.svcReady q 4 par d = true ∧ 128 ≤ d.length ∧ key = (beNat (d.take 32), beNat ((d.drop 32).take 32)) ∧ sig = (beNat ((d.drop 64).take 32), beNat ((d.drop 96).take 32))) ∧
    (∃ (s : State) (q : Nat) (par d : List Byte), s.por = false ∧ s.svcReady q 5 par d = true) ∧
    (∃ (s : State) (q : Nat) (par d : List Byte), s.por = false ∧ s.svcReady q 6 par d = true) :=
  ⟨⟨sk w0 fun c => { c with fuses := 3, slots := c.slots.set 2 (some (List.replicate 16 5)) }, .dap, 0x13, List.replicate 16 5, by decide +kernel⟩,
   ⟨(List.range 4).foldl (fun s n => s.put (SEC_DBGRSP_DATA n) (leNat (((cmac (prinKey (sk w0 fun c => c) 3 (List.replicate 16 5)) (proofMsg 3 1 zero16 (List.replicate 16 7))).drop (4 * n)).take 4))) (sk w0 fun c => { c with fuses := 3, slots := c.slots.set 2 (some (List.replicate 16 5)), dbgChal := some (3, List.replicate 16 7) }), .dap, 0x23, 3, List.replicate 16 7, List.replicate 16 5, by decide +kernel⟩,
   ⟨sk w0 fun c => { c with slots := c.slots.set 2 (some (List.replicate 16 5)) }, .dap, 0x14, by decide +kernel⟩,
   ⟨sk w0 fun c => { c with slots := c.slots.set 2 (some (List.replicate 16 5)), tampin := true }, .dap, 0x13, by decide +kernel⟩,
   ⟨sk w0 fun c => { c with fuses := 3, slots := c.slots.set 2 (some (List.replicate 16 5)), dbgChal := some (3, List.replicate 16 7) }, .dap, 0x23, 3, List.replicate 16 7, List.replicate 16 5, by decide +kernel⟩,
   ⟨sk w0 fun c => { c with fuses := 3, slots := c.slots.set 2 (some (List.replicate 16 5)), dbgChal := some (3, List.replicate 16 7) }, .dap, 0x43, by decide +kernel⟩,
   ⟨w0, 5, 6, by decide +kernel⟩,
   ⟨w0, 5, 6, by decide +kernel⟩,
   ⟨w0, by decide +kernel⟩,
   ⟨w0, 31, true, by decide +kernel⟩,
   ⟨w0, by decide +kernel⟩,
   ⟨w0, 0x0200000000, 0x4000E008, by decide +kernel⟩,
   ⟨wMem, 0x0200000000, 0x10001000, by decide +kernel⟩,
   ⟨w0, 0xA912345678, 1, by decide +kernel⟩,
   ⟨(sk (((((sk w0 fun c => { c with fuses := 3 }).put SEC_FWSTAT_ACCEPT 1).put MBX_FMDB_RQ 4).fill 0x103E2000 ([1, 0, 0, 0] ++ List.replicate 4 0 ++ leBytes 4 ([1, 2, 3] : List Byte).length ++ List.replicate 4 0 ++ (3 :: List.replicate 15 0 : List Byte))).fill 0x103E2020 ([1, 2, 3] : List Byte)) fun c => { c with svcTag := c.svcTag.set 2 9, slots := c.slots.set 2 (some (List.replicate 16 5)) }), 2, 3 :: List.replicate 15 0, [1, 2, 3], List.replicate 16 5, ctr (secretKey w0 (label 0x44 0x58 0x53 0x4C) 3 (List.replicate 16 5)) (List.replicate 12 0) [1, 2, 3], by decide +kernel⟩,
   ⟨(sk ((((w0).put MBX_FMDB_RQ 4).fill 0x103E2000 ([1, 0, 0, 0] ++ List.replicate 4 0 ++ leBytes 4 ([1, 2, 3] : List Byte).length ++ List.replicate 4 0 ++ (List.replicate 16 0 : List Byte))).fill 0x103E2020 ([1, 2, 3] : List Byte)) fun c => { c with svcTag := c.svcTag.set 2 10, slots := c.slots.set 2 (some (List.replicate 16 5)) }), 2, List.replicate 16 0, [1, 2, 3], by decide +kernel⟩,
   ⟨(sk ((((w0).put MBX_FMDB_RQ 4).fill 0x103E2000 ([2, 0, 0, 0] ++ List.replicate 4 0 ++ leBytes 4 ([1, 2, 3] : List Byte).length ++ List.replicate 4 0 ++ (List.replicate 16 0 : List Byte))).fill 0x103E2020 ([1, 2, 3] : List Byte)) fun c => { c with svcTag := c.svcTag.set 2 8, slots := c.slots.set 2 (some (List.replicate 16 5)) }), 2, List.replicate 16 0, [1, 2, 3], by decide +kernel⟩,
   ⟨(sk ((((w0).put MBX_FMDB_RQ 4).fill 0x103E2000 ([3, 0, 0, 0] ++ List.replicate 4 0 ++ leBytes 4 ([1, 2, 3] : List Byte).length ++ List.replicate 4 0 ++ (List.replicate 16 0 : List Byte))).fill 0x103E2020 ([1, 2, 3] : List Byte)) fun c => { c with svcTag := c.svcTag.set 2 8, slots := c.slots.set 2 (some (List.replicate 16 5)) }), 2, List.replicate 16 0, [1, 2, 3], by decide +kernel⟩,
   ⟨(sk ((((w0).put MBX_FMDB_RQ 4).fill 0x103E2000 ([4, 0, 0, 0] ++ List.replicate 4 0 ++ leBytes 4 (List.replicate 130 0 : List Byte).length ++ List.replicate 4 0 ++ (List.replicate 16 0 : List Byte))).fill 0x103E2020 (List.replicate 130 0 : List Byte)) fun c => { c with svcTag := c.svcTag.set 2 8, slots := c.slots.set 2 (some (List.replicate 16 5)) }), 2, List.replicate 16 0, List.replicate 130 0, (0, 0), (0, 0), by decide +kernel⟩,
   ⟨(sk ((((w0).put MBX_FMDB_RQ 4).fill 0x103E2000 ([5, 0, 0, 0] ++ List.replicate 4 0 ++ leBytes 4 ([1, 2, 3] : List Byte).length ++ List.replicate 4 0 ++ (List.replicate 16 0 : List Byte))).fill 0x103E2020 ([1, 2, 3] : List Byte)) fun c => { c with svcTag := c.svcTag.set 2 8, slots := c.slots.set 2 (some (List.replicate 16 5)) }), 2, List.replicate 16 0, [1, 2, 3], by decide +kernel⟩,
   ⟨(sk ((((w0).put MBX_FMDB_RQ 4).fill 0x103E2000 ([6, 0, 0, 0] ++ List.replicate 4 0 ++ leBytes 4 ([1, 2, 3] : List Byte).length ++ List.replicate 4 0 ++ (List.replicate 16 0 : List Byte))).fill 0x103E2020 ([1, 2, 3] : List Byte)) fun c => { c with svcTag := c.svcTag.set 2 8, slots := c.slots.set 2 (some (List.replicate 16 5)) }), 2, List.replicate 16 0, [1, 2, 3], by decide +kernel⟩⟩

theorem wit_resets :
    (∃ (s : State), s.por = false) ∧
    (∃ (s : State), s.por = true) ∧
    (∃ (s : State) (_n : Nat), s.por = true ∧ markStands s = false) ∧
    (∃ (s : State) (_n l : Nat), s.por = true ∧ s.dx = State.reset.dx ∧ s.get CORE_STATUS_PL = 2 ∧ s.ms.nvErr = [] ∧ s.nvs.moving = none ∧ markStands s = false ∧ fwStates s = true ∧ (imageCheck s (lcState s != 1)).1.auth = 1 ∧ l = (imageCheck s (lcState s != 1)).1.limg) ∧
    (∃ (s : State), s.por = false ∧ wdRuns s = true ∧ s.boot = none ∧ s.pwr.entry = none ∧ s.pwr.withheld = false) ∧
    (∃ (s : State) (c : Nat), s.por = false ∧ 7 ≤ c ∧ c ≤ 9 ∧ s.boot = none ∧ s.pwr.entry = none ∧ s.pwr.withheld = false) ∧
    (∃ (s : State) (c : Nat), s.por = false ∧ 7 ≤ c ∧ c ≤ 9 ∧ s.boot.isSome = true) ∧
    (∃ (s : State), s.por = false ∧ s.boot = none ∧ s.pwr.entry = none ∧ markStands s = false) ∧
    (∃ (s : State) (p : Nat) (rest : List (Nat × Nat × Nat)), s.por = false ∧ s.cmd.resetDev = (2, 0, p) :: rest ∧ s.boot = none ∧ s.pwr.entry = none ∧ markStands s = false) ∧
    (∃ (s : State) (k n p q : Nat) (rest : List (Nat × Nat × Nat)), s.por = false ∧ s.cmd.resetDev = (k, n, p) :: (1, 0, q) :: rest ∧ n ≠ 0 ∧ s.boot = none ∧ s.pwr.entry = none) ∧
    (∃ (s : State), s.por = false ∧ wdRuns s = true ∧ wdWarn s ≠ 0 ∧ 128 * wdWarn s < s.get PWR_WDSTAT_REMAIN) ∧
    (∃ (s : State) (_b : Bool), s.por = false ∧ s.sec.trans = none ∧ s.cmd.places = List.replicate 4 none ∧ s.nvs.ops = [] ∧ s.nvs.own = [] ∧ s.clk.staged = none ∧ s.on NVS_STAT_HOLDRDY = true ∧ s.ms.nvErr = [] ∧ carryPends s 29 = false ∧ tallyCells s 29 + 1 < 2 ^ 64) ∧
    (∃ (s : State) (_b : Bool), s.por = false) :=
  ⟨⟨wMem.wr 0x10001000 4 5, by decide +kernel⟩,
   ⟨State.reset, by decide +kernel⟩,
   ⟨State.reset, 900, by decide +kernel⟩,
   ⟨wImg, 900, 4, by decide +kernel⟩,
   ⟨w0.put PWR_WDCFG_EN 1, by decide +kernel⟩,
   ⟨wMem, 8, by decide +kernel⟩,
   ⟨{ wMem with boot := some (6, 0) }, 8, by decide +kernel⟩,
   ⟨{ wMem with evHeld := 3 }, by decide +kernel⟩,
   ⟨{ wMem with cmd := { w0.cmd with resetDev := [(2, 0, 5), (1, 4, 5)] } }, 5, [(1, 4, 5)], by decide +kernel⟩,
   ⟨{ wMem with cmd := { w0.cmd with resetDev := [(2, 3, 0), (1, 0, 5)] } }, 2, 3, 0, 5, [], by decide +kernel⟩,
   ⟨w0.put PWR_WDCFG_EN 1, by decide +kernel⟩,
   ⟨(sk w0 fun c => { c with sess := some ⟨3, [], [], [], 1⟩ }).put NVS_STAT_HOLDRDY 1, true, by decide +kernel⟩,
   ⟨sk w0 fun c => { c with tampin := true }, false, by decide +kernel⟩⟩

theorem wit_ports :
    (∃ (s : State) (m : Master) (n : Nat) (v : Word), s.por = false ∧ s.reaches m (0x40010008 + 0x1000 * n) 1 v.toNat = true ∧ s.ports.length = 4 ∧ (port s n).tx.length < 16 ∧ n < 2 ∧ s.on (SPI_CFG_EN n) = true) ∧
    (∃ (s : State) (m : Master) (v : Word), s.por = false ∧ s.reaches m 0x40012008 1 v.toNat = true ∧ s.ports.length = 4 ∧ (port s 2).tx.length < 16) ∧
    (∃ (s : State) (m : Master) (v : Word), s.por = false ∧ s.reaches m 0x40013004 1 v.toNat = true ∧ s.ports.length = 4 ∧ (port s 3).tx.length < 16) ∧
    (∃ (s : State) (m : Master) (n : Nat) (v : Word), s.por = false ∧ n < 2 ∧ s.on (SPI_CFG_EN n) = true ∧ s.reaches m (0x40010008 + 0x1000 * n) 1 v.toNat = true ∧ 16 ≤ (port s n).tx.length) ∧
    (∃ (s : State) (m : Master) (v : Word), s.por = false ∧ s.reaches m 0x40012008 1 v.toNat = true ∧ 16 ≤ (port s 2).tx.length) ∧
    (∃ (s : State) (m : Master) (n : Nat), s.por = false ∧ n < 2 ∧ s.reaches m (0x4001000C + 0x1000 * n) 0 0 = true ∧ (port s n).rx = []) ∧
    (∃ (s : State) (m : Master), s.por = false ∧ s.reaches m 0x4001200C 0 0 = true ∧ (port s 2).rx = []) ∧
    (∃ (s : State) (m : Master) (v : Word), s.por = false ∧ s.reaches m 0x40013004 1 v.toNat = true ∧ 16 ≤ (port s 3).tx.length) ∧
    (∃ (s : State) (m : Master) (n e : Nat) (l : List Nat), s.por = false ∧ n < 2 ∧ s.reaches m (0x4001000C + 0x1000 * n) 0 0 = true ∧ s.ports.length = 4 ∧ (port s n).rx = e :: l) ∧
    (∃ (s : State) (m : Master) (e : Nat) (l : List Nat), s.por = false ∧ s.reaches m 0x4001200C 0 0 = true ∧ s.ports.length = 4 ∧ (port s 2).rx = e :: l) ∧
    (∃ (s : State) (m : Master) (e : Nat) (l : List Nat), s.por = false ∧ s.reaches m 0x40013008 0 0 = true ∧ s.ports.length = 4 ∧ (port s 3).rx = e :: l) ∧
    (∃ (s : State) (m : Master), s.por = false ∧ s.reaches m 0x40013008 0 0 = true ∧ (port s 3).rx = []) ∧
    (∃ (s : State) (m : Master) (n : Nat) (v : Word), s.por = false ∧ n < 2 ∧ s.reaches m (0x40010004 + 0x1000 * n) 1 v.toNat = true ∧ s.on (SPI_CFG_EN n) = true ∧ s.on (SPI_STAT_BUSY n) = false ∧ s.on (SPI_CFG_QUAD n) = false ∧ v.toNat % 65536 ≠ 0) ∧
    (∃ (s : State) (m : Master) (n : Nat) (v : Word), s.por = false ∧ n < 2 ∧ s.reaches m (0x40010004 + 0x1000 * n) 1 v.toNat = true ∧ s.on (SPI_CFG_EN n) = true ∧ s.on (SPI_STAT_BUSY n) = true) ∧
    (∃ (s : State) (n : Nat) (r : List Byte), s.por = false ∧ n < 2 ∧ s.on (SPI_STAT_BUSY n) = true ∧ sysRuns s = true ∧ s.ports.length = 4 ∧ bitOf s.vio 0 = true ∧ spiMoves (port s n) r.length = (port s n).len) ∧
    (∃ (s : State) (m : Master) (v : Word), s.por = false ∧ s.reaches m 0x40012004 1 v.toNat = true ∧ s.on I2C_CFG_EN = true ∧ s.on I2C_STAT_BUSY = false) ∧
    (∃ (s : State) (m : Master) (v : Word), s.por = false ∧ s.reaches m 0x40012004 1 v.toNat = true ∧ s.on I2C_CFG_EN = true ∧ s.on I2C_STAT_BUSY = true) ∧
    (∃ (s : State) (_r : List Byte), s.por = false ∧ s.on I2C_STAT_BUSY = true ∧ sysRuns s = true ∧ bitOf s.vio 1 = true ∧ s.ports.length = 4 ∧ (port s 2).dir = 0 ∧ (port s 2).len ≤ (port s 2).tx.length) ∧
    (∃ (s : State) (r : List Byte), s.por = false ∧ s.on I2C_STAT_BUSY = true ∧ sysRuns s = true ∧ bitOf s.vio 1 = true ∧ s.ports.length = 4 ∧ (port s 2).dir = 1 ∧ (port s 2).len ≤ r.length ∧ (port s 2).rx.length + (port s 2).len ≤ 16) ∧
    (∃ (s : State) (_b : Bool) (_r : List Byte), s.por = false ∧ s.on I2C_STAT_BUSY = true ∧ sysRuns s = true ∧ bitOf s.vio 1 = true) ∧
    (∃ (s : State), s.por = false ∧ s.on I2C_STAT_BUSY = true ∧ sysRuns s = true) ∧
    (∃ (s : State) (_b : Byte) (pe _fe par : Bool), s.por = false ∧ s.on UART_CFG_RXEN = true ∧ sysRuns s = true ∧ bitOf s.vio 1 = true ∧ s.ports.length = 4 ∧ (port s 3).rx.length < 16 ∧ par = (pe && (s.get UART_CFG_PARITY == 1 || s.get UART_CFG_PARITY == 2))) ∧
    (∃ (s : State) (_b : Byte) (_pe _fe : Bool), s.por = false ∧ s.on UART_CFG_RXEN = true ∧ sysRuns s = true) ∧
    (∃ (s : State) (k : Nat), s.por = false ∧ s.on UART_CFG_TXEN = true ∧ sysRuns s = true ∧ 0 < k ∧ k ≤ (port s 3).tx.length) ∧
    (∃ (s : State), s.por = false ∧ s.on UART_CFG_TXEN = true ∧ sysRuns s = true ∧ ((port s 3).tx ≠ [] ∨ (port s 3).len ≠ 0)) ∧
    (∃ (s : State) (n : Nat), s.por = false ∧ n < 8 ∧ bitOf s.vio 1 = true ∧ s.get (GPIO_FUNC_FUNC n) = 0 ∧ s.get EVF_ASYNC_ASYNC = 0) ∧
    (∃ (s : State) (n : Nat), s.por = false ∧ n < 8 ∧ bitOf s.vio 1 = true ∧ s.get (GPIO_FUNC_FUNC n) = 1) ∧
    (∃ (s : State) (n : Nat), s.por = false ∧ n < 8 ∧ bitOf s.vio 1 = true ∧ s.get (GPIO_FUNC_FUNC n) = 0 ∧ s.get EVF_ASYNC_ASYNC = 0) :=
  ⟨⟨w0.put (SPI_CFG_EN 1) 1, .core, 1, 0x155, by decide +kernel⟩,
   ⟨w0, .core, 0x155, by decide +kernel⟩,
   ⟨w0, .core, 0x155, by decide +kernel⟩,
   ⟨{ w0.put (SPI_CFG_EN 1) 1 with ports := w0.ports.set 1 ⟨List.replicate 16 7, [], 0, 0, false, 0⟩ }, .core, 1, 5, by decide +kernel⟩,
   ⟨{ w0 with ports := w0.ports.set 2 ⟨List.replicate 16 7, [], 0, 0, false, 0⟩ }, .core, 5, by decide +kernel⟩,
   ⟨w0, .core, 1, by decide +kernel⟩,
   ⟨w0, .core, by decide +kernel⟩,
   ⟨{ w0 with ports := w0.ports.set 3 ⟨List.replicate 16 7, [], 0, 0, false, 0⟩ }, .core, 5, by decide +kernel⟩,
   ⟨{ w0 with ports := w0.ports.set 1 ⟨[], [7, 8], 0, 0, false, 0⟩ }, .core, 1, 7, [8], by decide +kernel⟩,
   ⟨{ w0 with ports := w0.ports.set 2 ⟨[], [7, 8], 0, 0, false, 0⟩ }, .core, 7, [8], by decide +kernel⟩,
   ⟨{ w0 with ports := w0.ports.set 3 ⟨[], [7 + 512, 8], 0, 0, false, 0⟩ }, .core, 519, [8], by decide +kernel⟩,
   ⟨w0, .core, by decide +kernel⟩,
   ⟨w0.put (SPI_CFG_EN 1) 1, .core, 1, 0x10003, by decide +kernel⟩,
   ⟨(w0.put (SPI_CFG_EN 1) 1).put (SPI_STAT_BUSY 1) 1, .core, 1, 0x10003, by decide +kernel⟩,
   ⟨{ w0.put (SPI_STAT_BUSY 1) 1 with vio := 15, ports := w0.ports.set 1 ⟨[1, 2, 3], [9], 2, 0, false, 0⟩ }, 1, [5, 6], by decide +kernel⟩,
   ⟨w0.put I2C_CFG_EN 1, .core, 0x1023C, by decide +kernel⟩,
   ⟨(w0.put I2C_CFG_EN 1).put I2C_STAT_BUSY 1, .core, 0x1023C, by decide +kernel⟩,
   ⟨{ w0.put I2C_STAT_BUSY 1 with vio := 15, ports := w0.ports.set 2 ⟨[1, 2, 3], [9], 2, 0, true, 0⟩ }, [], by decide +kernel⟩,
   ⟨{ w0.put I2C_STAT_BUSY 1 with vio := 15, ports := w0.ports.set 2 ⟨[], [9], 2, 1, true, 0⟩ }, [5, 6], by decide +kernel⟩,
   ⟨{ w0.put I2C_STAT_BUSY 1 with vio := 15 }, false, [], by decide +kernel⟩,
   ⟨w0.put I2C_STAT_BUSY 1, by decide +kernel⟩,
   ⟨{ (w0.put UART_CFG_RXEN 1).put UART_CFG_PARITY 1 with vio := 15 }, 65, true, false, true, by decide +kernel⟩,
   ⟨w0.put UART_CFG_RXEN 1, 65, true, false, by decide +kernel⟩,
   ⟨{ w0.put UART_CFG_TXEN 1 with ports := w0.ports.set 3 ⟨[7, 8], [], 0, 0, false, 0⟩ }, 1, by decide +kernel⟩,
   ⟨{ w0.put UART_CFG_TXEN 1 with ports := w0.ports.set 3 ⟨[7], [], 0, 0, false, 0⟩ }, by decide +kernel⟩,
   ⟨{ (w0.put GPIO_IN_IN 0x20).put EVF_ASYNC_ASYNC 0 with vio := 2 }, 5, by decide +kernel⟩,
   ⟨{ w0.put (GPIO_FUNC_FUNC 5) 1 with vio := 2 }, 5, by decide +kernel⟩,
   ⟨{ w0.put EVF_ASYNC_ASYNC 0 with vio := 2 }, 5, by decide +kernel⟩⟩

end Sys2Proof.Tests
end

