-- ==== Sys2Proof/Tests/Slice0.lean ====
section
/-! SUPPORT. Tests. The expected values are the spec's: its worked examples, its tables and its check values. -/

namespace Sys2Proof.Tests

open Sys2Proof Sys2Proof.Machine

set_option Elab.async false

/-! ### WellFormed refuses an ill-formed term of each check -/

/-- A syllable. -/
def s0 : Syl := sy 0 0 0

/-- A slot header. -/
def h0 : SlotHdr := shdr 0

theorem test_wf_accepts : ([.agentHoldAck 9 none, .sleepAgentAnswers (some (11, 3)), .wakeEvent 11, .laneLock 2 1, .ping 3,
    .seal 7, .softwareReset 9, .bypass 16 true, .custom 15 s0, .powerOnRelease 0] : List Instr).all Instr.wf = true := by decide
theorem test_wf_agent : (Instr.agentHoldAck 10 none).wf = false := by decide
theorem test_wf_abort_point : (Instr.sleepAgentAnswers (some (4, 1))).wf = false := by decide
theorem test_wf_abort_source : (Instr.sleepAgentAnswers (some (12, 2))).wf = false := by decide
theorem test_wf_mid_event : ([.sleepAgentAnswers (some (22, 2)), .agentHoldAck 0 (some (0x8001E780, 3))] : List Instr).all Instr.wf = true := by
  decide
theorem test_wf_overrun_agent : (Instr.agentHoldOverrun 10).wf = false := by decide
theorem test_wf_wake_source : (Instr.wakeEvent 12).wf = false := by decide
theorem test_wf_domain : (Instr.domainDemandStart 3).wf = false := by decide
theorem test_wf_domain_timeout : (Instr.domainDemandTimeout 3).wf = false := by decide
theorem test_wf_harvester : (Instr.harvestSample 4 0 0).wf = false := by decide
theorem test_wf_ticket : (Instr.prereservationTimeout 8).wf = false := by decide
theorem test_wf_custom : (Instr.custom 16 s0).wf = false := by decide
theorem test_wf_row : (Instr.sramRowMove 0 65536).wf = false := by decide
theorem test_wf_row_bank : (Instr.sramRowMove 8 0).wf = false := by decide
theorem test_wf_column : (Instr.sramColumnReplace 0 64).wf = false := by decide
theorem test_wf_wipe : (Instr.bankWipe 12).wf = false := by decide
theorem test_wf_channel : (Instr.moverStart .core 4 1).wf = false := by decide
theorem test_wf_lane : (Instr.laneLock 0 2).wf = false := by decide
theorem test_wf_lane_port : (Instr.laneLoss 3 0 false).wf = false := by decide
theorem test_wf_port : (Instr.portUp 3 true).wf = false := by decide
theorem test_wf_header_length : (Instr.cycleHeader [] 0 0 []).wf = false := by decide
theorem test_wf_header_lane : (Instr.cycleHeader (List.replicate 16 0) 0 0 [(2, 0)]).wf = false := by decide
theorem test_wf_slot_lane : (Instr.statusSlot h0 0 [] 0 [(2, 0)]).wf = false := by decide
theorem test_wf_place : (Instr.ping 4).wf = false := by decide
theorem test_wf_consumer : (Instr.eventDelivery 23).wf = false := by decide
theorem test_wf_capture : (Instr.captureRead .core 4).wf = false := by decide
theorem test_wf_event_channel : (Instr.channelOwnerWrite .core 32 0).wf = false := by decide
theorem test_wf_page : (Instr.nvPageMove 8192).wf = false := by decide
theorem test_wf_label_set : (Instr.epdRequest .core 4 0).wf = false := by decide
theorem test_wf_label_region : (Instr.regionLock 16).wf = false := by decide
theorem test_wf_service_slot : (Instr.seal 8).wf = false := by decide
theorem test_wf_cause : (Instr.softwareReset 10).wf = false := by decide
theorem test_wf_spi : (Instr.spiTransfer .core 2 0).wf = false := by decide
theorem test_wf_gpio : (Instr.gpioEdge 8).wf = false := by decide
theorem test_wf_bypass : (Instr.bypass 1 false).wf = false := by decide

/-! ### No word spells a command: the table gives no row bits -/

theorem test_decode_none : decodeTableWord 32 0 = none ∧ decodeTableWord 0 0 = none := by decide

/-! ### Check values and worked examples -/

set_option maxRecDepth 4000 in
/-- spec/13 R340: the CRC-32 of "123456789". -/
theorem test_crc32 : crc32 [0x31, 0x32, 0x33, 0x34, 0x35, 0x36, 0x37, 0x38, 0x39] = 0xCBF43926 := by decide

/-- spec/01, "locating segment 9": the last usable byte, and the hole. -/
theorem test_segment9 : inHole 0x827BFFFF = false ∧ inHole 0x827C0000 = true ∧ inHole 0x827FFFFF = true ∧ inHole 0x82800000 = false := by
  decide

/-- spec/17, "one UART rate across every level": D at P0, P1 and P5. -/
def wUart (l : Nat) : State := (w0.put UART_CFG_RATE 115200).put PWR_LVLSTAT_CUR l
theorem test_uart_p0 : uartDiv (wUart 0) = 13 := by decide
theorem test_uart_p1 : uartDiv (wUart 1) = 43 := by decide
theorem test_uart_p5 : uartDiv (wUart 5) = 174 := by decide

/-- spec/12 R326: the years 2000, 2024 and 2100. -/
theorem test_leap : leap 0 = true ∧ leap 24 = true ∧ leap 100 = false ∧ monthLen 2 100 = 28 := by decide

/-- spec/12, "a clock set that jumps an alarm": 01:59:50 with SUBSEC 129 to 03:00:00 on DAY 14, alarm 0 at 02:00:00. -/
def wAlarm : State := (((w0.put (RTC_ALMCFG_MSEC 0) 1).put (RTC_ALMCFG_MMIN 0) 1).put (RTC_ALMCFG_MHOUR 0) 1).put (RTC_ALMT0_HOUR 0) 2
theorem test_jump : jumpedOver (wAlarm.put (RTC_ALMCFG_ARM 0) 1) 0 ⟨129, 50, 59, 1, 6, 14, 3, 25⟩ ⟨0, 0, 0, 3, 6, 14, 3, 25⟩ = true := by
  decide

/-- spec/11, "a carry interrupted": tly7 and an add of 0x20 make the writes of the table, in its order. -/
theorem test_tally_add : tlyAdd 7 0x00000002FFFFFFF0 0x20 = some [(0x201E00E8, 0x10), (0x201E00EC, 3), (0x201E00F0, 0xA5C35A3C),
    (0x201E00E4, 3), (0x201E00E0, 0x10), (0x201E00F0, 0)] := by decide

/-- spec/04 R118's example, word by word: the first two words are MOVI g6 with its LIMM, then LDWP, ACLR with S=1, and BR to its own bundle
under p1. -/
theorem test_word_movi : decodeSyllable 0x01098008 (some 0x7000003E) = some (.movi false ⟨false, 0, 6, 0, 0, 8, some 0x3E⟩) := by decide
theorem test_word_ldwp : decodeSyllable 0x20A10401 = some (.ldwp ⟨false, 0, 4, 2, 0, 1, none⟩) := by decide
theorem test_word_aclr : decodeSyllable 0xB0A00000 = some (.aclr false ⟨true, 0, 0, 0, 0, 0, none⟩) := by decide
theorem test_word_cmpeqi : decodeSyllable 0x01804000 = some (.cmpeqi false ⟨false, 0, 1, 0, 0, 0, none⟩) := by decide
theorem test_word_cmpnei : decodeSyllable 0x11884C02 = some (.cmpnei true ⟨false, 0, 1, 6, 0, 2, none⟩) := by decide
theorem test_word_macd : decodeSyllable 0x30400850 = some (.macd false ⟨false, 0, 0, 4, 5, 0, none⟩) := by decide
theorem test_word_br : decodeSyllable 0xD2000000 = some (.br ⟨true, 1, 0, 0, 0, 0, none⟩) := by decide
theorem test_word_rep : decodeSyllable 0xE09801F3 = some (.rep ⟨true, 0, 0, 0, 31, 3, none⟩) := by decide
theorem test_word_limm : decodeSyllable 0x7000003E = none := by decide

/-- An ADD that wraps sets its destination to the sum modulo 2^32 (spec/04 R107), and the pc moves past the bundle. -/
def wAdd : State := xk w0 fun d => { d with g := (d.g.set 4 0xFFFFFFFF).set 5 2 }
def gAfter (o : Host.Outcome State Fault Refusal) (n : Fin 32) : Option Word :=
  match o with
  | .next t => some t.dx.g[n]
  | _ => none
theorem test_add_wraps : gAfter (exec (.add false (sy 3 4 5)) wAdd) 3 = some 1 := by decide +kernel

/-- spec/00 R8: a store to CORE_CBASE0 is in the register when the next bundle issues. -/
def wMirror : State := xk w0 fun d => { d with g := (d.g.set 4 0x40002220).set 5 0x77 }
theorem test_core_page_store : (match exec (.stw (sy 5 4 0)) wMirror with
    | .next t => decide (t.dx.stores = [] ∧ t.get (CORE_CBASE_BASE 0) = 0x77)
    | _ => false) = true := by decide +kernel

/-- spec/04 R96: LOADM writes g6 and g7, and MVFS later in the bundle writes g6: g6 is what MVFS alone gives it, not the word read. -/
def wLoadm : State := (wMem.wr 0x10001000 4 0x11).wr 0x10001004 4 0x22
theorem test_later_write_stands : (match exec (.loadm { sy 6 4 7 with stop := false }) wLoadm with
    | .next t => gAfter (exec (.mvfs (sy 6 0 2)) t) 6 == gAfter (exec (.mvfs (sy 6 0 2)) wLoadm) 6 &&
        gAfter (exec (.mvfs (sy 6 0 2)) t) 6 != some 0x11 && gAfter (exec (.mvfs (sy 6 0 2)) t) 7 == some 0x22
    | _ => false) = true := by decide +kernel

/-- spec/10 R286, R296: two EVI levels that one write raises together are one event of their asynchronous channel. -/
def wEvi : State :=
  ((((({ w0 with vio := 15 }.put EVF_ASYNC_ASYNC 1).put (EVF_CHPMHI_MASK 0) 0xC).put (GPIO_FUNC_FUNC 0) 2).put (GPIO_FUNC_FUNC 1) 2).put
    (EVF_CSEL_EN 12) 1).put (EVF_CSEL_CH 12) 0
theorem test_two_levels : (writeGpio wEvi fun s => s.put GPIO_POL_INV 3).evHeld = 0x1000 := by decide +kernel

/-- FIPS 180-4: the SHA-256 of "abc" begins ba7816bf 8f01cfea. -/
theorem test_sha256 : (sha256 [0x61, 0x62, 0x63]).take 8 = [0xba, 0x78, 0x16, 0xbf, 0x8f, 0x01, 0xcf, 0xea] := by decide +kernel

/-- RFC 4493: AES-CMAC of the empty message under the key of its examples begins bb1d6929. -/
theorem test_cmac : (cmac [0x2b, 0x7e, 0x15, 0x16, 0x28, 0xae, 0xd2, 0xa6, 0xab, 0xf7, 0x15, 0x88, 0x09, 0xcf, 0x4f, 0x3c] []).take 4 =
    [0xbb, 0x1d, 0x69, 0x29] := by decide +kernel

/-- A command is taken from the front of the queue, and the rest stays. -/
theorem test_front : (match step { wAdd with pending := [.add false (sy 3 4 5), .gpioEdge 0] } with
    | .next t => decide (t.pending = [.gpioEdge 0])
    | _ => false) = true := by decide +kernel

/-- An empty queue idles (log entry 1); a queued command is taken. -/
theorem test_idle : step w0 = .next w0 := rfl

end Sys2Proof.Tests
end

section
/-! Levels: what a transition and the release of a level change and leave alone (R44 to R46). -/

namespace Sys2Proof.Machine.PowerStates

open Sys2Proof Sys2Proof.Machine

/-! ### Register pages -/

/-- A field of another page keeps its value. -/
theorem get_put_page (s : State) (f g : Fld) (v : Nat) (h : pageOf g ≠ pageOf f) : (s.put f v).get g = s.get g := by
  refine get_put_ne s f g v fun e => h ?_
  unfold pageOf
  rw [e]

theorem sameRegs_refl (pages : List Nat) (s : State) : sameRegs pages s s := fun _ _ => rfl

/-- A write inside the pages of the list changes no field outside them. -/
theorem sameRegs_put {pages : List Nat} {s t : State} (f : Fld) (v : Nat) (hf : pageOf f ∈ pages) (h : sameRegs pages s t) :
    sameRegs pages s (t.put f v) := by
  intro g hg
  have hne : pageOf g ≠ pageOf f := by rintro e; rw [e] at hg; exact hg hf
  rw [get_put_page t f g v hne, h g hg]

theorem sameRegs_trans {pages : List Nat} {s t u : State} (h : sameRegs pages s t) (k : sameRegs pages t u) :
    sameRegs pages s u := fun g hg => (k g hg).trans (h g hg)

/-! ### The release of the level in force (R80) -/

/-- The ledger's fields that follow the reservations lie in the HRV_ page. -/
theorem sameRegs_setRes {pages : List Nat} (s : State) (l : List Resv) (h : 1 ∈ pages) : sameRegs pages s (setRes s l) := by
  have hp : ∀ f : Fld, pageOf f = 1 → pageOf f ∈ pages := fun f e => e ▸ h
  have base : sameRegs pages s { s with led := { s.led with res := l } } := sameRegs_refl pages s
  unfold setRes ledgerRefresh
  dsimp only
  split
  · exact sameRegs_put _ _ (hp _ rfl) (sameRegs_put _ _ (hp _ rfl) base)
  · exact sameRegs_put _ _ (hp _ rfl) (sameRegs_put _ _ (hp _ rfl) (sameRegs_put _ _ (hp _ rfl) base))

theorem sameRegs_releaseLevel {pages : List Nat} (s : State) (h : 1 ∈ pages) : sameRegs pages s (releaseLevel s) :=
  sameRegs_setRes s _ h

/-- Releasing the level in force leaves every register outside the HRV_ page. -/
theorem releaseLevel_get (s : State) (f : Fld) (h : pageOf f ≠ 1) : (releaseLevel s).get f = s.get f :=
  sameRegs_releaseLevel (pages := [1]) s (by simp) f (by simpa using h)

/-! ### A transition (R45) -/

/-- The fields that a transition writes: TARGET, BUSY, CUR and the dividers that follow CUR. -/
def transitionKeys : List Nat :=
  [PWR_LVLSTAT_TARGET.key, PWR_LVLSTAT_BUSY.key, PWR_LVLSTAT_CUR.key, (SPI_DIV_N 0).key, (SPI_DIV_N 1).key]

/-- A transition leaves every other field. -/
theorem transition_get (s : State) (lvl : Nat) (f : Fld) (h : f.key ∉ transitionKeys) : (transition s lvl).get f = s.get f := by
  simp only [transitionKeys, List.mem_cons, List.not_mem_nil, or_false, not_or] at h
  obtain ⟨ht, hb, hc, h0, h1⟩ := h
  unfold transition switchTo spiDivs
  dsimp only
  split
  · rw [get_put_ne _ _ _ _ h1, get_put_ne _ _ _ _ h0, get_put_ne _ _ _ _ hc, get_put_ne _ _ _ _ hb, get_put_ne _ _ _ _ ht]
  · rw [get_put_ne _ _ _ _ hb, get_put_ne _ _ _ _ ht]

/-- TARGET is the level, within the field's three bits. -/
theorem transition_target (s : State) (lvl : Nat) : (transition s lvl).get PWR_LVLSTAT_TARGET = lvl % 8 := by
  unfold transition switchTo spiDivs
  dsimp only
  split <;> simp (disch := decide) only [get_put_ne, get_put_self] <;> rfl

theorem transition_busy (s : State) (lvl : Nat) : (transition s lvl).get PWR_LVLSTAT_BUSY = 1 := by
  unfold transition switchTo spiDivs
  dsimp only
  split <;> simp (disch := decide) only [get_put_ne, get_put_self] <;> rfl

/-- A lower level is in force at once (R45). -/
theorem transition_cur_of_lower (s : State) (lvl : Nat) (h : lvl < s.get PWR_LVLSTAT_CUR) :
    (transition s lvl).get PWR_LVLSTAT_CUR = lvl % 8 := by
  unfold transition switchTo spiDivs
  simp (disch := decide) only [get_put_ne, get_put_self, if_pos h]
  rfl

/-- A transition writes the PWR_ page and the two SPI dividers. -/
theorem sameRegs_transition {pages : List Nat} (s : State) (lvl : Nat) (h0 : 0 ∈ pages) (h16 : 16 ∈ pages) (h17 : 17 ∈ pages) :
    sameRegs pages s (transition s lvl) := by
  have hp : ∀ f : Fld, pageOf f ∈ [0, 16, 17] → pageOf f ∈ pages := by
    intro f hf
    simp only [List.mem_cons, List.not_mem_nil, or_false] at hf
    rcases hf with e | e | e <;> exact e ▸ ‹_›
  have base := sameRegs_put PWR_LVLSTAT_BUSY 1 (hp _ (by decide))
    (sameRegs_put PWR_LVLSTAT_TARGET lvl (hp _ (by decide)) (sameRegs_refl pages s))
  unfold transition switchTo spiDivs
  dsimp only
  split
  · exact sameRegs_put _ _ (hp _ (by decide)) (sameRegs_put _ _ (hp _ (by decide)) (sameRegs_put _ _ (hp _ (by decide)) base))
  · exact base

/-! ### What changes beside registers -/

/-- `t` differs from `s` in registers, the ledger and the power controller alone. -/
def OnlyPower (s t : State) : Prop := { s with regs := t.regs, led := t.led, pwr := t.pwr } = t

theorem OnlyPower.trans {s t u : State} (h : OnlyPower s t) (k : OnlyPower t u) : OnlyPower s u := by
  unfold OnlyPower at *
  calc { s with regs := u.regs, led := u.led, pwr := u.pwr }
      = { ({ s with regs := t.regs, led := t.led, pwr := t.pwr } : State) with regs := u.regs, led := u.led, pwr := u.pwr } := rfl
    _ = { t with regs := u.regs, led := u.led, pwr := u.pwr } := by rw [h]
    _ = u := k

theorem onlyPower_put (s : State) (f : Fld) (v : Nat) : OnlyPower s (s.put f v) := rfl

theorem onlyPower_releaseLevel (s : State) : OnlyPower s (releaseLevel s) := by
  unfold OnlyPower releaseLevel releaseBurst setRes ledgerRefresh
  dsimp only
  split <;> rfl

theorem onlyPower_transition (s : State) (lvl : Nat) : OnlyPower s (transition s lvl) := by
  unfold OnlyPower transition
  dsimp only
  split <;> rfl

theorem transition_pwr (s : State) (lvl : Nat) : (transition s lvl).pwr = s.pwr := by
  unfold transition
  dsimp only
  split <;> rfl

/-! ### The end of a DURATION (R44) -/

/-- The level in force is given back and its end is noted in PWR_LVLSTAT and PWR_EVT. -/
def durationEnds (s : State) : State := ((releaseLevel s).put PWR_LVLSTAT_EXPIRED 1).put PWR_EVT_EXPIRED 1

/-- Bit 2 of PWR_EVT is the field EXPIRED. -/
theorem setFlag_expired (s : State) : s.setFlag 0x40000030 2 = s.put PWR_EVT_EXPIRED 1 := rfl

/-- With no DURATION running, or with a new request waiting, nothing happens. -/
theorem levelExpiry_idle (s : State) (h : s.pwr.durOn = false ∨ s.pwr.lvlQueue.isSome = true) : levelExpiry s = s := by
  rcases h with h | h <;> simp [levelExpiry, h]

theorem durationEnds_get (s : State) (f : Fld) (hp : pageOf f ≠ 1) (he : f.key ≠ PWR_LVLSTAT_EXPIRED.key)
    (hv : f.key ≠ PWR_EVT_EXPIRED.key) : (durationEnds s).get f = s.get f := by
  unfold durationEnds
  rw [get_put_ne _ _ _ _ hv, get_put_ne _ _ _ _ he, releaseLevel_get s f hp]

theorem durationEnds_expired (s : State) : (durationEnds s).get PWR_LVLSTAT_EXPIRED = 1 := by
  unfold durationEnds
  rw [get_put_ne _ _ _ _ (by decide), get_put_self]
  rfl

theorem durationEnds_event (s : State) : (durationEnds s).get PWR_EVT_EXPIRED = 1 :=
  get_put_self ((releaseLevel s).put PWR_LVLSTAT_EXPIRED 1) PWR_EVT_EXPIRED 1

theorem onlyPower_durationEnds (s : State) : OnlyPower s (durationEnds s) :=
  ((onlyPower_releaseLevel s).trans (onlyPower_put _ _ _)).trans (onlyPower_put _ _ _)

theorem sameRegs_durationEnds {pages : List Nat} (s : State) (h0 : 0 ∈ pages) (h1 : 1 ∈ pages) :
    sameRegs pages s (durationEnds s) :=
  sameRegs_put _ _ h0 (sameRegs_put _ _ h0 (sameRegs_releaseLevel s h1))

/-- With no transition running, the one to BASE starts (0b11 acts as P2). -/
theorem levelExpiry_starts (s : State) (hd : s.pwr.durOn = true) (hq : s.pwr.lvlQueue = none)
    (hb : s.on PWR_LVLSTAT_BUSY = false) :
    levelExpiry s = transition (durationEnds s) (min (s.get PWR_LVLCFG_BASE) 2) := by
  have hbusy : (durationEnds s).on PWR_LVLSTAT_BUSY = false := by
    rw [← hb]; unfold State.on; rw [durationEnds_get s _ (by decide) (by decide) (by decide)]
  have hbase := durationEnds_get s PWR_LVLCFG_BASE (by decide) (by decide) (by decide)
  unfold durationEnds at hbusy hbase ⊢
  simp [levelExpiry, setFlag_expired, hd, hq, hbusy, hbase]

/-- While a transition runs, the level BASE waits behind it (R46). -/
theorem levelExpiry_queues (s : State) (hd : s.pwr.durOn = true) (hq : s.pwr.lvlQueue = none)
    (hb : s.on PWR_LVLSTAT_BUSY = true) :
    levelExpiry s = (pk (durationEnds s) fun p => { p with lvlQueue := some (min (s.get PWR_LVLCFG_BASE) 2, 0) }).put
      PWR_LVLSTAT_QUEUED 1 := by
  have hbusy : (durationEnds s).on PWR_LVLSTAT_BUSY = true := by
    rw [← hb]; unfold State.on; rw [durationEnds_get s _ (by decide) (by decide) (by decide)]
  have hbase := durationEnds_get s PWR_LVLCFG_BASE (by decide) (by decide) (by decide)
  unfold durationEnds at hbusy hbase ⊢
  simp [levelExpiry, setFlag_expired, hd, hq, hbusy, hbase, pk]

/-- Settles O29: the end of a DURATION is `durationEnds`, followed by the transition to BASE or by its wait. -/
theorem levelDurationExpiry : Obligations.LevelDurationExpiry := by
  refine ⟨fun s hpor hd hq hb => ?_, fun s hpor hd hq hb => ?_, fun s hpor h => ?_⟩
  · have hx : exec .levelDurationExpiry s = .next (transition (durationEnds s) (min (s.get PWR_LVLCFG_BASE) 2)) := by
      rw [← levelExpiry_starts s hd hq hb]; exact live_run s _ hpor
    have hlvl : min (s.get PWR_LVLCFG_BASE) 2 % 8 = min (s.get PWR_LVLCFG_BASE) 2 := Nat.mod_eq_of_lt (by omega)
    refine ⟨_, hx, ?_, ?_, ?_, ?_, transition_busy _ _, fun hlow => ?_, ?_, ?_⟩
    · rw [transition_get _ _ _ (by decide), durationEnds_expired]
    · rw [transition_get _ _ _ (by decide), durationEnds_event]
    · rw [transition_pwr]; rfl
    · rw [transition_target, hlvl]
    · rw [transition_cur_of_lower _ _ (by
        rwa [durationEnds_get s PWR_LVLSTAT_CUR (by decide) (by decide) (by decide)]), hlvl]
    · exact (onlyPower_durationEnds s).trans (onlyPower_transition _ _)
    · exact sameRegs_trans (sameRegs_durationEnds s (by simp) (by simp))
        (sameRegs_transition _ _ (by simp) (by simp) (by simp))
  · have hx : exec .levelDurationExpiry s = .next (levelExpiry s) := live_run s _ hpor
    rw [levelExpiry_queues s hd hq hb] at hx
    refine ⟨_, hx, ?_, rfl, get_put_self _ _ _⟩
    rw [get_put_ne _ _ _ _ (by decide), pk_get, durationEnds_expired]
  · exact ⟨_, live_run s _ hpor, levelExpiry_idle s h⟩

end Sys2Proof.Machine.PowerStates
end

section
/-! What a forced Basalt does to a store that waits at the head of the store buffer (R60, R301, R434). -/

namespace Sys2Proof.Machine.PowerStates

open Sys2Proof Sys2Proof.Machine

/-! ### Operations that touch neither the core nor the hold capacitor -/

/-- The core, the power controller's own state, the NV engines and the hold capacitor stand in `t` as in `s`. -/
structure CoreKept (s t : State) : Prop where
  dx : t.dx = s.dx
  pwr : t.pwr = s.pwr
  nvs : t.nvs = s.nvs
  hold : holdReady t = holdReady s

theorem CoreKept.refl (s : State) : CoreKept s s := ⟨rfl, rfl, rfl, rfl⟩

theorem CoreKept.trans {s t u : State} (h : CoreKept s t) (k : CoreKept t u) : CoreKept s u :=
  ⟨k.dx.trans h.dx, k.pwr.trans h.pwr, k.nvs.trans h.nvs, k.hold.trans h.hold⟩

theorem CoreKept.put {s t : State} (h : CoreKept s t) (f : Fld) (v : Nat) (hf : NVS_STAT_HOLDRDY.key ≠ f.key) :
    CoreKept s (t.put f v) :=
  h.trans ⟨rfl, rfl, rfl, by unfold holdReady State.on; rw [get_put_ne _ _ _ _ hf]⟩

theorem CoreKept.foldl {α : Type} (f : State → α → State) (hf : ∀ s x, CoreKept s (f s x)) (l : List α) :
    ∀ s, CoreKept s (l.foldl f s) := by
  induction l with
  | nil => exact CoreKept.refl
  | cons x l ih => exact fun s => (hf s x).trans (ih (f s x))

theorem coreKept_carry (s : State) (chans : Nat) (ex lvl : Bool) : CoreKept s (carry s chans ex lvl) := by
  have hrise : CoreKept s (if lvl then evoRise s chans else s) := by
    unfold evoRise
    dsimp only
    split
    · split
      · exact .refl s
      · exact (CoreKept.refl s).put _ _ (by decide)
    · exact .refl s
  exact hrise.trans ⟨rfl, rfl, rfl, rfl⟩

/-- An event of the fabric. -/
theorem coreKept_yieldEv (s : State) (p : Nat) : CoreKept s (yieldEv s p) := by
  have hwin : ∀ s : State, CoreKept s (windows s) := by
    intro s; unfold windows; split <;> exact ⟨rfl, rfl, rfl, rfl⟩
  unfold yieldEv yieldAt
  dsimp only
  have hpulse : ∀ (s : State) (c : Nat) (b : Bool), CoreKept s (if b then s else addPulses s c) := by
    intro s c b; split <;> exact ⟨rfl, rfl, rfl, rfl⟩
  split
  · exact (hwin s).trans (hpulse _ _ _)
  · exact ((hwin s).trans (hpulse _ _ _)).trans (coreKept_carry _ _ _ _)

theorem coreKept_wrBytes (l : List Byte) : ∀ (s : State) (a : Nat), CoreKept s (s.wrBytes a l) := by
  induction l with
  | nil => exact fun s _ => .refl s
  | cons b l ih => exact fun s a => CoreKept.trans (t := s.putByte a b) ⟨rfl, rfl, rfl, rfl⟩ (ih _ _)

theorem coreKept_dieRests (s : State) (v : Nat) : CoreKept s (dieRests s v) := by
  have hback : ∀ (s : State) (l : CkLine), CoreKept s (ckBack s l) := by
    intro s l; unfold ckBack; split
    · exact coreKept_wrBytes _ _ _
    · exact .refl s
  have hflush : CoreKept s (ckFlush s) := (CoreKept.foldl ckBack hback s.ms.ckl s).trans ⟨rfl, rfl, rfl, rfl⟩
  exact hflush.put _ _ (by decide)

theorem coreKept_setRes (s : State) (l : List Resv) : CoreKept s (setRes s l) := by
  have base : CoreKept s { s with led := { s.led with res := l } } := ⟨rfl, rfl, rfl, rfl⟩
  unfold setRes ledgerRefresh
  dsimp only
  split
  · exact (base.put _ _ (by decide)).put _ _ (by decide)
  · exact ((base.put _ _ (by decide)).put _ _ (by decide)).put _ _ (by decide)

theorem coreKept_sessCut (s : State) : CoreKept s (sessCut s) := by
  have hclose : CoreKept s (sessClose s) := by
    unfold sessClose
    split
    · exact (((CoreKept.refl s).put _ _ (by decide)).trans (coreKept_setRes _ _)).trans ⟨rfl, rfl, rfl, rfl⟩
    · exact .refl s
  have hrest := hclose.trans (coreKept_dieRests (sessClose s) 1)
  exact (hrest.put DRM_SESS_CUT 1 (by decide)).put DRM_EVT_SESSCUT 1 (by decide)

theorem coreKept_dieSleeps (s : State) (d : Nat) : CoreKept s (dieSleeps s d) := by
  unfold dieSleeps
  split
  · exact coreKept_dieRests _ _
  · refine ((coreKept_dieRests s _).trans (CoreKept.foldl _ (fun t n => ?_) _ _)).put _ _ (by decide)
    split <;> exact ⟨rfl, rfl, rfl, rfl⟩

theorem coreKept_tchHold (s : State) (b : Bool) : CoreKept s (tchHold s b) := by
  have huk : ∀ (t : State) (f : Touch → Touch), CoreKept t (uk t f) := fun _ _ => ⟨rfl, rfl, rfl, rfl⟩
  have hpass : ∀ t : State, CoreKept t (passBound t) := fun t => huk t _
  unfold tchHold
  dsimp only
  split
  · exact (huk s _).trans (hpass _)
  · exact ((((huk s _).trans (hpass _)).trans (huk _ _)).put TCH_STAT_RUN _ (by decide)).put TCH_STAT_WSCAN _ (by decide)

theorem coreKept_pwrStat (s : State) (a r f : Bool) (p q n : Nat) : CoreKept s (pwrStat s a r f p q n) :=
  ((((((CoreKept.refl s).put _ _ (by decide)).put _ _ (by decide)).put _ _ (by decide)).put _ _ (by decide)).put _ _
    (by decide)).put _ _ (by decide)

/-- With no operation under way or waiting, a cut has nothing to stop (R306). -/
theorem coreKept_nvCut (s : State) (ho : s.nvs.ops = []) (hw : s.nvs.own = []) : CoreKept s (nvCut s) := by
  have hidle : nvCut s = s := by simp [nvCut, opsStop, ho, hw, pumpFuel, pump, feedOwn, engineHead]
  rw [hidle]
  exact .refl s

/-! ### The label's abrupt stop (R368) -/

/-- A field from the EPD_ page on is not HOLDRDY. -/
theorem holdrdy_key_ne (f : Fld) (h : 0x4000C000 ≤ f.addr) : NVS_STAT_HOLDRDY.key ≠ f.key := by
  simp only [Fld.key, NVS_STAT_HOLDRDY]
  omega

/-- An update that has not run, owes no reply and has no staged bytes ends. -/
theorem coreKept_updEnd (s : State) (u : Upd) (r : Nat) (hp : u.place = none) (hs : u.staged = 0) (hr : u.running = false) :
    CoreKept s (updEnd (noSum s u.region) u r) := by
  have hsum : CoreKept s (noSum s u.region) :=
    (((CoreKept.refl s).put _ _ (holdrdy_key_ne _ (Nat.le_add_right_of_le (by decide)))).put _ _
      (holdrdy_key_ne _ (Nat.le_add_right_of_le (by decide)))).trans ⟨rfl, rfl, rfl, rfl⟩
  have hstate : ∀ t : State, CoreKept t (rgnState t u 0) := by
    intro t; unfold rgnState; split
    · exact (CoreKept.refl t).put _ _ (holdrdy_key_ne _ (Nat.le_add_right_of_le (by decide)))
    · exact .refl t
  have hwait : ∀ t : State, CoreKept t (if newestOfSet t u then t.put (EPD_RQSTAT_WAIT u.set) 0 else t) := by
    intro t; split
    · exact (CoreKept.refl t).put _ _ (holdrdy_key_ne _ (Nat.le_add_right_of_le (by decide)))
    · exact .refl t
  have hleave : ∀ t : State, CoreKept t (updLeave t u r) := by
    intro t
    unfold updLeave updReply
    simp only [hp, hs, if_true]
    exact ((((hstate t).trans (hwait _)).put _ _ (holdrdy_key_ne _ (Nat.le_add_right_of_le (by decide)))).put _ _
      (holdrdy_key_ne _ (Nat.le_add_right_of_le (by decide)))).trans ⟨rfl, rfl, rfl, rfl⟩
  unfold updEnd
  simp only [hr, Bool.false_eq_true, if_false]
  exact ((hsum.trans (hleave _)).put _ _ (by decide)).trans (coreKept_yieldEv _ _)

theorem coreKept_railsOff (s : State) : CoreKept s (railsOff s) := by
  have hoff : ∀ f : Disp → Disp, CoreKept s (dk s f) := fun _ => ⟨rfl, rfl, rfl, rfl⟩
  unfold railsOff
  exact (((hoff _).put _ _ (by decide)).put _ _ (by decide)).put _ _ (by decide)

theorem coreKept_stateLost (s : State) : CoreKept s (stateLost s) :=
  ((CoreKept.refl s).put _ _ (by decide)).put _ _ (by decide)

/-- Whether the head of the store buffer waits follows the core and the hold capacitor. -/
theorem CoreKept.headWaits_eq {s t : State} (h : CoreKept s t) : headWaits t = headWaits s := by
  unfold headWaits
  rw [h.dx, h.hold]

theorem CoreKept.headMoves_eq {s t : State} (h : CoreKept s t) : headMoves t = headMoves s := by
  unfold headMoves
  rw [h.dx, h.nvs]

/-! ### A log entry takes its turn after the store at the head (R301, R433) -/

theorem coreKept_nvWords (l : List (Nat × Nat)) (s : State) : CoreKept s (nvWords s l) :=
  CoreKept.foldl (fun (s : State) (w : Nat × Nat) =>
      { s.wr w.1 4 w.2 with ms := { (s.wr w.1 4 w.2).ms with nvErr := Sparse.set 0 (s.wr w.1 4 w.2).ms.nvErr w.1 0 } })
    (fun s w => (coreKept_wrBytes (leBytes 4 w.2) s w.1).trans ⟨rfl, rfl, rfl, rfl⟩) l s

theorem coreKept_demandStart (s : State) (d : Nat) : CoreKept s (demandStart s d) := by
  unfold demandStart
  split
  · split
    · exact (CoreKept.refl s).put _ _ (by decide)
    · exact .refl s
  · exact (CoreKept.refl s).put _ _ (by decide)
  · exact (CoreKept.refl s).put _ _ (by decide)

theorem coreKept_nvFetch (s : State) (a : Nat) : CoreKept s (nvFetch s a).2 := by
  unfold nvFetch
  dsimp only
  split
  · exact coreKept_demandStart s 0
  · split
    · exact ((coreKept_demandStart s 0).put _ _ (by decide)).put _ _ (by decide)
    · exact ((coreKept_demandStart s 0).put _ _ (by decide)).put _ _ (by decide)

theorem coreKept_nvBegin (s : State) (a n v : Nat) : CoreKept s (nvBegin s a n v).2 := by
  unfold nvBegin
  split
  · exact coreKept_nvWords _ s
  · dsimp only
    split
    · rename_i x u h
      have hf := coreKept_nvFetch s (a - a % 4)
      rw [h] at hf
      exact hf.trans (coreKept_nvWords _ u)
    · rename_i u h
      have hf := coreKept_nvFetch s (a - a % 4)
      rwa [h] at hf

theorem coreKept_noteLater (s : State) : CoreKept s (noteLater s) := by
  unfold noteLater
  split
  · exact (CoreKept.refl s).put _ _ (by decide)
  · exact .refl s

/-- The wait for the hold capacitor leaves the core's state, the power controller's and the engines'. -/
theorem holdWait_keeps (s : State) : (holdWait s).2.dx = s.dx ∧ (holdWait s).2.pwr = s.pwr ∧ (holdWait s).2.nvs = s.nvs := by
  obtain ⟨hdx, hpwr, hnvs, -⟩ := coreKept_demandStart s 0
  unfold holdWait
  dsimp only
  split <;> exact ⟨hdx, hpwr, hnvs⟩

/-- In `t` the store at the head of the buffer of `s` is gone; the power controller's and the engines' state stands. -/
structure HeadGone (s t : State) : Prop where
  stores : t.dx.stores = s.dx.stores.tail
  pwr : t.pwr = s.pwr
  nvs : t.nvs = s.nvs

theorem HeadGone.trans {s t u : State} (h : HeadGone s t) (k : CoreKept t u) : HeadGone s u :=
  ⟨by rw [k.dx, h.stores], k.pwr.trans h.pwr, k.nvs.trans h.nvs⟩

theorem HeadGone.of_keeps {s t u : State} (h : t.dx = s.dx ∧ t.pwr = s.pwr ∧ t.nvs = s.nvs) (k : HeadGone t u) :
    HeadGone s u := by
  obtain ⟨hdx, hpwr, hnvs⟩ := h
  exact ⟨by rw [k.stores, hdx], k.pwr.trans hpwr, k.nvs.trans hnvs⟩

/-- A late error is noted in the registers and in the core's pending machine check. -/
theorem headGone_lateError {s t : State} (h : HeadGone s t) (st : Store) : HeadGone s (lateError t st) := by
  unfold lateError
  split <;> exact ⟨h.stores, h.pwr, h.nvs⟩

theorem headGone_setStores {s : State} {st : Store} {l : List Store} (h : s.dx.stores = st :: l) :
    HeadGone s (setStores s l) := ⟨by rw [h]; rfl, rfl, rfl⟩

theorem headGone_failHead (s : State) (st : Store) (l : List Store) (h : s.dx.stores = st :: l) :
    HeadGone s (failHead s) := by
  unfold failHead
  simp only [h]
  exact headGone_lateError (headGone_setStores h) st

theorem headGone_nvHead (s : State) (st : Store) (l : List Store) (h : s.dx.stores = st :: l) : HeadGone s (nvHead s) := by
  have hgone := headGone_setStores h
  unfold nvHead
  simp only [h]
  split
  · exact ((hgone.trans (coreKept_nvWords _ _)).trans (coreKept_nvWords _ _)).trans (coreKept_noteLater _)
  · have hbegin := hgone.trans (coreKept_nvBegin (setStores s l) st.addr st.size st.val)
    split
    · exact hbegin.trans (coreKept_noteLater _)
    · exact headGone_lateError hbegin st

/-- A log entry's words come after a store that waits at the head, which is written or fails first, whatever the hold capacitor
does. -/
theorem headGone_log (s : State) (code arg data : Nat) (hw : headWaits s = true) (hm : headMoves s = false) :
    HeadGone s (s.log code arg data) := by
  obtain ⟨st, l, hst⟩ : ∃ st l, s.dx.stores = st :: l := by
    unfold headWaits at hw
    split at hw
    · exact ⟨_, _, ‹_›⟩
    · cases hw
  have hkeeps := holdWait_keeps s
  have hst' : (holdWait s).2.dx.stores = st :: l := by rw [hkeeps.1, hst]
  have hturn : HeadGone s (holdTurn s).2 := by
    unfold holdTurn
    simp only [hw, hm, Bool.not_false, Bool.and_self, Bool.not_true, Bool.false_eq_true, if_false]
    split
    · exact .of_keeps hkeeps (headGone_nvHead _ st l hst')
    · exact .of_keeps hkeeps (headGone_failHead _ st l hst')
  unfold State.log
  split
  · rename_i t h; rw [h] at hturn; exact hturn.trans (coreKept_nvWords _ t)
  · rename_i t h; rw [h] at hturn; exact hturn

/-- The abrupt stop of a label with one update, which waits, is logged, and takes the waiting store out of the buffer. -/
theorem headGone_epdAbrupt (s : State) (u : Upd) (hu : s.disp.upd = [u]) (hp : u.place = none) (hs : u.staged = 0)
    (hr : u.running = false) (hw : headWaits s = true) (hm : headMoves s = false) : HeadGone s (epdAbrupt s) := by
  have hstop : CoreKept s (stateLost (railsOff (updEnd (noSum s u.region) u 0x41))) :=
    ((coreKept_updEnd s u _ hp hs hr).trans (coreKept_railsOff _)).trans (coreKept_stateLost _)
  have hlog := headGone_log _ 0xB 1 0 (hstop.headWaits_eq.trans hw) (hstop.headMoves_eq.trans hm)
  have heq : epdAbrupt s = (stateLost (railsOff (updEnd (noSum s u.region) u 0x41))).log 0xB 1 0 := by
    simp [epdAbrupt, hu]
  rw [heq]
  exact .of_keeps ⟨hstop.dx, hstop.pwr, hstop.nvs⟩ hlog

/-! ### Forced Basalt around the label's stop (R60) -/

/-- What is forced before the label stops: the entry ends, the mover is cut, the link leaves. -/
def forcedBefore (s : State) : State :=
  let old := if 3 ≤ s.get PWR_DOMSTAT_STATE then s.pwr.keepLat else 0xFFFF
  let keep := s.get PWR_KEEPSEG_KEEP &&& old
  linkForced (moverCut (linkRelease (pk s fun p => { p with entry := none, keepLat := keep, withheld := true, raised := false })))

/-- What is forced after it: the session, the NV engines, touch, the DRAM die and the domains. -/
def forcedAfter (s : State) : State :=
  let s := if s.on DRM_SESS_OPENST then sessCut s else s
  let s := tchHold (nvCut s) true
  let s := (dieSleeps (s.put DRM_STAT_WIPING 0) 4).put PWR_DOMSTAT_SYS 0
  pwrStat ((s.put PWR_DOMSTAT_STATE 4).put PWR_DOMSTAT_PIX 0) false false true 0 4 0

theorem coreKept_forcedAfter (s : State) (ho : s.nvs.ops = []) (hn : s.nvs.own = []) : CoreKept s (forcedAfter s) := by
  have hcut : CoreKept s (if s.on DRM_SESS_OPENST then sessCut s else s) := by
    split
    · exact coreKept_sessCut s
    · exact .refl s
  have hnv : CoreKept s (nvCut (if s.on DRM_SESS_OPENST then sessCut s else s)) :=
    hcut.trans (coreKept_nvCut _ (by rw [hcut.nvs, ho]) (by rw [hcut.nvs, hn]))
  have hdie := (((hnv.trans (coreKept_tchHold _ true)).put DRM_STAT_WIPING 0 (by decide)).trans (coreKept_dieSleeps _ 4)).put
    PWR_DOMSTAT_SYS 0 (by decide)
  exact ((hdie.put _ _ (by decide)).put _ _ (by decide)).trans (coreKept_pwrStat _ _ _ _ _ _ _)

/-- With no entry under way and no reset waiting, a forced Basalt is the label's stop between these two. -/
theorem forceBasalt_eq (s : State) (he : s.pwr.entry = none)
    (hr : (forcedAfter (epdAbrupt (forcedBefore s))).pwr.pendReset = none) :
    forceBasalt s = forcedAfter (epdAbrupt (forcedBefore s)) := by
  unfold forcedAfter forcedBefore at *
  unfold forceBasalt
  simp only [he, Option.isSome_none, Bool.false_eq_true, if_false, hr]

/-! ### The counterexample -/

/-- A label update that has been accepted and waits for its admission. -/
def waitingUpdate : Upd :=
  { id := 0, region := 0, x := 0, y := 0, w := 1, h := 1, src := 0, exp := 0, queue := false, force := false, chk := false
    evwait := false, staged := 0, place := none, set := 0, tag := 3, running := false, band := 0, ptr := 0, crc := 0, young := 0
    bad := [], floored := false, drift := false }

/-- The part in Run with the load on the store: a word store to the NV store is buffered, and a label update waits. -/
def storeAndUpdateWait : State :=
  { State.reset.put NVS_STAT_HOLDRDY 1 with
    por := false
    dx := { State.reset.dx with running := true, stores := [⟨0x20020000, 4, 5, 0, 8⟩] }
    disp := { State.reset.disp with upd := [waitingUpdate], nextId := 1 } }

/-- The brown-out as it reaches the power controller: HOLDRDY has fallen and BROWN is set. -/
def brownOut : State := hrvEvt (storeAndUpdateWait.put NVS_STAT_HOLDRDY 0) 5

/-- The forced Basalt of this state empties the store buffer, whether the word is written or fails. -/
theorem brownOut_stores : (forceBasalt brownOut).dx.stores = [] := by
  have hstop := headGone_epdAbrupt (forcedBefore brownOut) waitingUpdate (by decide +kernel) rfl rfl rfl
    (by decide +kernel) (by decide +kernel)
  have hst : (forcedBefore brownOut).dx.stores.tail = [] := by decide +kernel
  have hops : (forcedBefore brownOut).nvs.ops = [] := by decide +kernel
  have hown : (forcedBefore brownOut).nvs.own = [] := by decide +kernel
  have hreset : (forcedBefore brownOut).pwr.pendReset = none := by decide +kernel
  have hall := hstop.trans (coreKept_forcedAfter _ (by rw [hstop.nvs, hops]) (by rw [hstop.nvs, hown]))
  rw [forceBasalt_eq brownOut (by decide +kernel) (by rw [hall.pwr, hreset]), hall.stores, hst]

/-- Refutes O33: where a label update is cut by the forced Basalt, the log entry of the cut waits for the hold capacitor behind
a store that waits at the head of the store buffer, and that store leaves the buffer. -/
theorem not_supplyFailures : ¬ Obligations.SupplyFailures := by
  rintro ⟨hbrown, -⟩
  obtain ⟨t, ht, -, -, -, -, -, -, -, -, -, -, hdx, -⟩ :=
    hbrown storeAndUpdateWait rfl (by decide +kernel) rfl rfl
  have hx : exec .vstoBrown storeAndUpdateWait = .next (forceBasalt brownOut) := by
    have hsrc : storeAndUpdateWait.on HRV_STAT_SRC = false := by decide +kernel
    have hfree : storeAndUpdateWait.pwr.withheld = false := rfl
    change execVstoBrown storeAndUpdateWait = _
    simp only [execVstoBrown, hsrc, hfree, Bool.or_self, Bool.false_eq_true, if_false]
    exact live_run storeAndUpdateWait _ rfl
  obtain rfl := Host.Outcome.next.inj (hx.symm.trans ht)
  have hst := congrArg Dx.stores hdx
  rw [brownOut_stores] at hst
  exact absurd hst (by decide)

end Sys2Proof.Machine.PowerStates
end

section
/-! Counterexamples that the model runs: SLEEP beside a channel held for a cut, a transition's end, the sleep handshake, and link
activity in Basalt. -/

namespace Sys2Proof.Machine.PowerStates

open Sys2Proof Sys2Proof.Machine

/-- What a field reads after a command; none where the command stops the model. -/
def readsAfter (i : Instr) (s : State) (f : Fld) : Option Nat :=
  match exec i s with
  | .next t => some (t.get f)
  | _ => none

theorem readsAfter_of_next {i : Instr} {s t : State} (h : exec i s = .next t) (f : Fld) : readsAfter i s f = some (t.get f) := by
  unfold readsAfter
  rw [h]

/-- The part in Run at level M with the core released and no wiper running. -/
def inRun : State := { State.reset.put DRM_STAT_WIPING 0 with por := false, dx := { State.reset.dx with running := true } }

/-! ### SLEEP aborted at A0 while a mover channel is held (R57, R194, R209) -/

/-- Channel 0 is held because a session waits for its cut, and the wake source TAMPER is latched. -/
def channelHeld : State :=
  { (((inRun.put PWR_WAKESRC_SRC 256).put DRM_SESS_OPENST 1).put (MOV_CHSTAT_STATE 0) chHeld) with
    ms := { inRun.ms with cutWait := true } }

/-- SLEEP for Granite, with predicate p0, alone in its bundle. -/
def sleepGranite : Syl := ⟨true, 0, 0, 0, 0, 2, none⟩

/-- Refutes O18: the second clause keeps every page but PWR_, yet the abandoned entry releases the mover, and a channel that was
held before goes from HELD to FETCH in the MOV_ page. -/
theorem not_sleepRepeatAndCustom : ¬ Obligations.SleepRepeatAndCustom := by
  rintro ⟨-, haborted, -⟩
  obtain ⟨t, ht, -, -, -, -, -, -, -, -, hregs⟩ := haborted channelHeld sleepGranite (by decide +kernel) (by decide +kernel)
    (by decide +kernel) (by decide +kernel) rfl rfl rfl ⟨8, by decide +kernel⟩
  have hfetch : readsAfter (.sleep sleepGranite) channelHeld (MOV_CHSTAT_STATE 0) = some chFetch := by decide +kernel
  have hheld : channelHeld.get (MOV_CHSTAT_STATE 0) = chHeld := by decide +kernel
  rw [readsAfter_of_next ht, hregs (MOV_CHSTAT_STATE 0) (by decide), hheld] at hfetch
  exact absurd hfetch (by decide)

/-! ### The end of a transition to the level in force (R45) -/

/-- A transition runs to the level in force, and both fields hold a number that does not fit their three bits. No command puts such a
number there: State.put keeps a field's width, but State itself does not ask for it. -/
def levelTooWide : State :=
  { inRun.put PWR_LVLSTAT_BUSY 1 with
    regs := (PWR_LVLSTAT_CUR.key, 9) :: (PWR_LVLSTAT_TARGET.key, 9) :: (inRun.put PWR_LVLSTAT_BUSY 1).regs }

/-- Refutes O28: the last clause says that CUR becomes TARGET modulo 8, but where CUR equals TARGET already there is no frequency
switch, and CUR stays 9. -/
theorem not_levelRequestsAndTransitions : ¬ Obligations.LevelRequestsAndTransitions := by
  rintro ⟨-, -, -, -, -, hdone⟩
  obtain ⟨t, ht, hcur, -⟩ := hdone levelTooWide rfl (by decide +kernel) rfl rfl
  have hstays : readsAfter .levelTransitionDone levelTooWide PWR_LVLSTAT_CUR = some 9 := by decide +kernel
  have htarget : levelTooWide.get PWR_LVLSTAT_TARGET = 9 := by decide +kernel
  rw [readsAfter_of_next ht, hcur, htarget] at hstays
  exact absurd hstays (by decide)

/-! ### An alarm's wake source within the sleep entry (R57, R62, R334) -/

/-- SLEEP for Granite has been issued with every wake source enabled, and no alarm is armed. -/
def alarmUnarmed : State :=
  { inRun.put PWR_WAKEEN_EN0 255 with pwr := { inRun.pwr with entry := some ⟨2, false, false, 0, false⟩ } }

/-- Refutes O30: the fourth clause has source 3 abandon the entry, but that source is alarm 0, which fires only while it is armed;
with ARM 0 nothing happens within the entry and the part goes to sleep. -/
theorem not_sleepHandshake : ¬ Obligations.SleepHandshake := by
  rintro ⟨-, -, -, hmid, -⟩
  obtain ⟨t, ht, -, habort, -⟩ := hmid alarmUnarmed 3 2 ⟨2, false, false, 0, false⟩ rfl rfl rfl rfl (by decide +kernel)
    (by decide +kernel) rfl rfl (by decide +kernel) (by decide +kernel) (by decide) (by decide) (by decide) (by decide)
    (by decide +kernel) (by decide +kernel)
  have hasleep : readsAfter (.sleepAgentAnswers (some (3, 2))) alarmUnarmed PWR_STAT_ABORTED = some 0 := by decide +kernel
  rw [readsAfter_of_next ht, habort] at hasleep
  exact absurd hasleep (by decide)

/-! ### Link activity in Basalt with SYS on demand (R39, R64, R286, R464) -/

/-- The part in Basalt with SYS started on demand, the listener on and energy in the store. Channel 0 is asynchronous, carries the
activity of producer 38, and drives EVO0 on ball 4. -/
def evoFollowsActivity : State :=
  let s := (((inRun.put PWR_DOMSTAT_STATE 4).put PWR_DOMSTAT_SYS 2).put PWR_CFG_LISTEN 1).put LNK_STAT_STATE 1
  let s := (s.put HRV_EAVAIL_EAVAIL 1000000).put (EVF_CHPMHI_MASK 0) (2 ^ 6)
  ((s.put EVF_ASYNC_ASYNC 1).put (EVF_CSEL_EN 18) 1).put (GPIO_FUNC_FUNC 4) 2

/-- Refutes O31: the last clause keeps every page but PWR_, HRV_ and LNK_, but the activity's level raises EVO0, and while SYS is
clocked GPIO_EDGE of the GPIO page latches that rise. -/
theorem not_wakesAndDomains : ¬ Obligations.WakesAndDomains := by
  rintro ⟨-, -, -, -, -, -, -, -, -, -, -, hraise⟩
  obtain ⟨t, ht, -, -, -, -, -, hregs⟩ := hraise evoFollowsActivity rfl (by decide +kernel) rfl rfl (by decide +kernel)
    (by decide +kernel) (by decide +kernel) (by decide +kernel) (by decide +kernel)
  have hrise : readsAfter .linkActivityRaise evoFollowsActivity GPIO_EDGE_EDGE = some (2 ^ 4) := by decide +kernel
  have hlow : evoFollowsActivity.get GPIO_EDGE_EDGE = 0 := by decide +kernel
  rw [readsAfter_of_next ht, hregs GPIO_EDGE_EDGE (by decide), hlow] at hrise
  exact absurd hrise (by decide)

end Sys2Proof.Machine.PowerStates
end

section
/-! The energy ledger: pre-reservations of a principal, their release and the end of their binding time (R80 to R82, R84). -/

namespace Sys2Proof.Machine.EnergyStore

open Sys2Proof Sys2Proof.Machine Sys2Proof.Machine.PowerStates

/-! ### A write that reaches a page whose domain always runs (R8, R13) -/

/-- The state in which the bus has answered a write with OK. -/
def writeOk (s : State) : State := { s with bus := .ok 0 }

theorem writeOk_get (s : State) (f : Fld) : (writeOk s).get f = s.get f := rfl

theorem sameRegs_writeOk {pages : List Nat} {s t : State} (h : sameRegs pages s t) : sameRegs pages s (writeOk t) := h

/-- With no store buffered an access of the core follows nothing. -/
theorem ordered_of_reaches {s : State} {m : Master} {a k v : Nat} (h : s.reaches m a k v = true) : ordered s m = s := by
  simp only [State.reaches, Bool.and_eq_true, List.isEmpty_iff] at h
  obtain ⟨⟨⟨-, hempty⟩, -⟩, -⟩ := h
  simp [ordered, drainStores, hempty, completeStores]

/-- A write that reaches a register of such a page does what the register does and answers OK. -/
theorem rowWriteBy_reaches {f : State → State} {s : State} {m : Master} {a v : Nat} (h : s.reaches m a 1 v = true)
    (halign : a % 4 = 0) (hpage : inPage a = true) (hwake : busWake s m a = s) (hdx : (f s).dx = s.dx) :
    rowWriteBy f m a v s = writeOk (f s) := by
  have hordered := ordered_of_reaches h
  simp only [State.reaches, Bool.and_eq_true, Bool.not_eq_true', decide_eq_true_eq] at h
  obtain ⟨⟨⟨⟨-, hacts⟩, -⟩, hmc⟩, hguard⟩ := h
  have hwrite : busWriteBy f s m (masterTag s m) a v = writeOk (f s) := by
    simp [busWriteBy, writeOk, halign, hguard, hpage, hwake]
  simp only [rowWriteBy, hordered, hacts, Bool.not_true, Bool.false_eq_true, if_false, hwrite]
  split
  · next hcore =>
    have hnone : s.dx.mcPend = false := by simpa [hcore] using hmc
    simp [coreTakes, noteLater, writeOk, hdx, hnone]
  · rfl

/-- The HRV_ page is always served: an access starts no domain. -/
theorem busWake_hrv (s : State) (m : Master) (a : Nat) (h : a / 4096 = 0x40001) : busWake s m a = s := by
  have hpage : inPage a = true := by simp [inPage]; omega
  have hlow : ¬ 0x40010000 ≤ a := by omega
  simp [busWake, hpage, pageWake, h, hlow]

/-- A write that reaches a register of the HRV_ page. -/
theorem rowWrite_hrv {s : State} {m : Master} {a v : Nat} (h : s.reaches m a 1 v = true) (hpage : a / 4096 = 0x40001)
    (halign : a % 4 = 0) (hdx : (hrvWrite s (masterTag s m) a v).dx = s.dx) :
    rowWrite m a v s = writeOk (hrvWrite s (masterTag s m) a v) := by
  have hreg : regWrite s (masterTag s m) a v = hrvWrite s (masterTag s m) a v := by simp [regWrite, hpage]
  have hin : inPage a = true := by simp [inPage]; omega
  unfold rowWrite
  rw [ordered_of_reaches h, rowWriteBy_reaches h halign hin (busWake_hrv s m a hpage) (by rw [hreg, hdx]), hreg]

/-! ### The list of reservations (R80) -/

theorem dropFirst_eq_eraseP (p : Resv → Bool) (l : List Resv) : dropFirst p l = l.eraseP p := by
  induction l with
  | nil => rfl
  | cons r t ih => simp [dropFirst, List.eraseP_cons, ih, Bool.cond_eq_ite]

/-- One reservation fewer stands once one that the test picks has been dropped. -/
theorem length_dropFirst {p : Resv → Bool} {l : List Resv} {r : Resv} (hr : r ∈ l) (hp : p r = true) :
    (dropFirst p l).length + 1 = l.length := by
  have hpos := List.length_pos_of_mem hr
  rw [dropFirst_eq_eraseP, List.length_eraseP_of_mem hr hp]
  omega

theorem freeTicket_lt (l : List Resv) : freeTicket l < 8 := by
  unfold freeTicket
  cases h : (List.range 8).find? fun t => !l.any fun r => r.ticket == some t with
  | none => decide
  | some t => exact List.mem_range.mp (List.mem_of_find?_eq_some h)

/-- Beside the HRV_ figures, the ledger's list is what is replaced. -/
theorem setRes_eq (s : State) (l : List Resv) :
    setRes s l = { s with regs := (setRes s l).regs, led := { s.led with res := l } } := by
  unfold setRes ledgerRefresh
  dsimp only
  split <;> rfl

theorem setRes_dx (s : State) (l : List Resv) : (setRes s l).dx = s.dx := by rw [setRes_eq]

theorem setRes_res (s : State) (l : List Resv) : (setRes s l).led.res = l := by rw [setRes_eq]

/-- HRV_ERESV is the sum of what is reserved (R81). -/
theorem setRes_eresv (s : State) (l : List Resv) :
    (setRes s l).get HRV_ERESV_ERESV = (l.map (·.amount)).sum % 2 ^ 24 := by
  have hsum : l.foldl (fun a r => a + r.amount) 0 = (l.map (·.amount)).sum := by
    rw [List.sum_eq_foldl, List.foldl_map]
  unfold setRes ledgerRefresh
  dsimp only
  rw [← hsum]
  split <;> simp (disch := decide) only [get_put_ne, get_put_self] <;> rfl

/-! ### The ledger's decision (R81, R84) -/

/-- The decision rests on the reservations and on these fields. -/
def decisionFields : List Fld :=
  [HRV_EAVAIL_EAVAIL, HRV_ERESV_ERESV, HRV_STAT_FLOOR, HRV_POLICY_PRIMADMIT, HRV_STAT_PRIMOK]

theorem decide81_congr {s t : State} (hled : t.led = s.led) (hget : ∀ f ∈ decisionFields, t.get f = s.get f)
    (cls amount : Nat) : decide81 t cls amount = decide81 s cls amount := by
  simp only [decisionFields, List.forall_mem_cons, List.not_mem_nil, false_imp_iff, implies_true, and_true] at hget
  obtain ⟨havail, hresv, hfloor, hadmit, hprim⟩ := hget
  unfold decide81 freeEnergy State.on State.bit
  rw [hled, havail, hresv, hfloor, hadmit, hprim]

/-- The free energy covers the amount and the floor has not tripped (R81, R83). -/
def Covered (s : State) (amount : Nat) : Prop := (amount : Int) ≤ freeEnergy s ∧ s.on HRV_STAT_FLOOR = false

/-- The primary cell carries the class (R84). -/
def CellAdmits (s : State) (cls : Nat) : Prop := s.bit HRV_POLICY_PRIMADMIT cls = true ∧ s.on HRV_STAT_PRIMOK = true

theorem covered_iff (s : State) (amount : Nat) :
    (decide ((amount : Int) ≤ freeEnergy s) && !s.on HRV_STAT_FLOOR) = true ↔ Covered s amount := by
  rw [Bool.and_eq_true, decide_eq_true_eq, Bool.not_eq_true', Covered]

theorem cellAdmits_iff (s : State) (cls : Nat) :
    (s.bit HRV_POLICY_PRIMADMIT cls && s.on HRV_STAT_PRIMOK) = true ↔ CellAdmits s cls := by
  rw [Bool.and_eq_true, CellAdmits]

theorem decide81_full {s : State} (cls amount : Nat) (h : 8 ≤ s.led.res.length) : decide81 s cls amount = (stBusy, 0) :=
  if_pos h

section
variable {s : State} {cls amount : Nat} (hroom : s.led.res.length < 8)
include hroom

theorem decide81_covered (hc : Covered s amount) : decide81 s cls amount = (stOk, amount) := by
  rw [decide81, if_neg (by omega), if_pos ((covered_iff s amount).mpr hc)]

theorem decide81_cell (hc : ¬Covered s amount) (hcell : CellAdmits s cls) : decide81 s cls amount = (stOk, 0) := by
  rw [decide81, if_neg (by omega), if_neg (mt (covered_iff s amount).mp hc), if_pos ((cellAdmits_iff s cls).mpr hcell)]

theorem decide81_noEnergy (hc : ¬Covered s amount) (hcell : ¬CellAdmits s cls) :
    decide81 s cls amount = (stNoEnergy, 0) := by
  rw [decide81, if_neg (by omega), if_neg (mt (covered_iff s amount).mp hc), if_neg (mt (cellAdmits_iff s cls).mp hcell)]

end

/-! ### A write of HRV_RESREQ (R82) -/

/-- HRV_RESREQ holds the request. -/
def requested (s : State) (v : Nat) : State := (s.put HRV_RESREQ_AMOUNT v).put HRV_RESREQ_CLASS (v / 2 ^ 20)

theorem requested_get (s : State) (v : Nat) (f : Fld) (ha : f.key ≠ HRV_RESREQ_AMOUNT.key)
    (hc : f.key ≠ HRV_RESREQ_CLASS.key) : (requested s v).get f = s.get f := by
  unfold requested
  rw [get_put_ne _ _ _ _ hc, get_put_ne _ _ _ _ ha]

theorem sameRegs_requested (s : State) (v : Nat) : sameRegs [1] s (requested s v) :=
  sameRegs_put _ _ (by decide) (sameRegs_put _ _ (by decide) (sameRegs_refl _ s))

theorem decide81_requested (s : State) (v cls amount : Nat) : decide81 (requested s v) cls amount = decide81 s cls amount := by
  refine decide81_congr (s := s) (t := requested s v) rfl (fun f hf => requested_get s v f ?_ ?_) cls amount
  all_goals revert f; decide

/-- What an admitted pre-reservation adds to the ledger (R82). -/
def newTicket (s : State) (cls a tag : Nat) : Resv :=
  ⟨cls, a, tag, some (freeTicket s.led.res), false, if s.get HRV_POLICY_BINDTO = 0 then 16 else s.get HRV_POLICY_BINDTO⟩

/-- A class or an amount that no pre-reservation can have. -/
theorem resReq_badParam (s : State) (tag v : Nat)
    (h : bitsOf v 20 3 = 2 ∨ 4 < bitsOf v 20 3 ∨ bitsOf v 0 20 = 0) :
    resReq s tag v = (requested s v).put HRV_RESSTAT_RESULT stBadParam := by
  have hbad : preReserve (requested s v) (bitsOf v 20 3) (bitsOf v 0 20) tag = (stBadParam, 0, requested s v) := by
    simp only [preReserve, Bool.or_eq_true, decide_eq_true_eq, or_assoc, h, if_true]
  unfold resReq
  rw [← requested]
  simp only [hbad]
  rfl

section
variable {s : State} {tag v r a : Nat} (hcls : bitsOf v 20 3 ≠ 2) (hmax : bitsOf v 20 3 ≤ 4) (hamt : bitsOf v 0 20 ≠ 0)
  (hdec : decide81 s (bitsOf v 20 3) (bitsOf v 0 20) = (r, a))
include hcls hmax hamt hdec

/-- The ledger's refusal stands in RESULT and changes nothing else. -/
theorem resReq_refused (hr : r ≠ stOk) : resReq s tag v = (requested s v).put HRV_RESSTAT_RESULT r := by
  have hno : preReserve (requested s v) (bitsOf v 20 3) (bitsOf v 0 20) tag = (r, 0, requested s v) := by
    simp [preReserve, hcls, hmax, hamt, decide81_requested, hdec, hr]
  unfold resReq
  rw [← requested]
  simp only [hno, if_neg hr]

/-- An admitted request is held unbound under the lowest free ticket. -/
theorem resReq_admitted (hr : r = stOk) :
    resReq s tag v = (((setRes (requested s v) (s.led.res ++ [newTicket s (bitsOf v 20 3) a tag])).put
      HRV_RESSTAT_RESULT stOk).put HRV_RESSTAT_TICKET (freeTicket s.led.res)).put HRV_RESSTAT_PEND 1 := by
  have hled : (requested s v).led = s.led := rfl
  have hbind : (requested s v).get HRV_POLICY_BINDTO = s.get HRV_POLICY_BINDTO :=
    requested_get s v _ (by decide) (by decide)
  have hok : preReserve (requested s v) (bitsOf v 20 3) (bitsOf v 0 20) tag = (stOk, freeTicket s.led.res,
      setRes (requested s v) (s.led.res ++ [newTicket s (bitsOf v 20 3) a tag])) := by
    simp [preReserve, hcls, hmax, hamt, decide81_requested, hdec, hr, hled, hbind, newTicket]
  unfold resReq
  rw [← requested]
  simp only [hok, if_true]

end

/-- A request touches neither the core nor what lies outside the ledger. -/
theorem resReq_dx (s : State) (tag v : Nat) : (resReq s tag v).dx = s.dx := by
  have hpre : (preReserve (requested s v) (bitsOf v 20 3) (bitsOf v 0 20) tag).2.2.dx = s.dx := by
    unfold preReserve
    dsimp only
    split
    · rfl
    · split
      · exact setRes_dx _ _
      · rfl
  unfold resReq
  rw [← requested]
  dsimp only
  split <;> exact hpre

/-- RESERVATION_PREREQUEST that reaches HRV_RESREQ. -/
theorem exec_prerequest {s : State} {m : Master} {v : Word} (hpor : s.por = false)
    (h : s.reaches m 0x40001050 1 v.toNat = true) :
    exec (.reservationPrerequest m v) s = .next (writeOk (resReq s (masterTag s m) v.toNat)) := by
  have hrow : rowWrite m 0x40001050 v.toNat s = writeOk (resReq s (masterTag s m) v.toNat) :=
    rowWrite_hrv h rfl rfl (resReq_dx s _ _)
  rw [← hrow]
  exact live_run s _ hpor

/-! ### A write of HRV_RESREL, and the end of the binding time (R82) -/

theorem dropTicket_eq (s : State) (t : Nat) :
    dropTicket s t = { s with regs := (dropTicket s t).regs, led := (dropTicket s t).led } := by
  unfold dropTicket
  rw [setRes_eq]

theorem dropTicket_dx (s : State) (t : Nat) : (dropTicket s t).dx = s.dx := setRes_dx _ _

/-- An unbound ticket's reservation is the one that is dropped. -/
theorem length_dropTicket {s : State} {t : Nat} {r : Resv} (hr : ticketOf s t = some r) (hb : r.bound = false) :
    (dropTicket s t).led.res.length + 1 = s.led.res.length := by
  have hfind : s.led.res.find? (fun r => r.ticket == some t) = some r := hr
  unfold dropTicket
  rw [setRes_res]
  exact length_dropFirst (List.mem_of_find?_eq_some hfind) (by simpa [hb] using List.find?_some hfind)

/-- The holder's release of an unbound ticket. -/
theorem resRel_holder {s : State} {tag v : Nat} {r : Resv} (hr : ticketOf s (v % 8) = some r) (htag : r.tag = tag)
    (hb : r.bound = false) : resRel s tag v = dropTicket s (v % 8) := by
  simp [resRel, hr, htag, hb]

/-- Another's write, or one of a bound ticket, is ignored. -/
theorem resRel_ignored {s : State} {tag v : Nat} {r : Resv} (hr : ticketOf s (v % 8) = some r)
    (h : r.tag ≠ tag ∨ r.bound = true) : resRel s tag v = s := by
  rcases h with h | h <;> simp [resRel, hr, h]

theorem resRel_dx (s : State) (tag v : Nat) : (resRel s tag v).dx = s.dx := by
  unfold resRel
  split
  · split
    · exact dropTicket_dx _ _
    · rfl
  · rfl

/-- RESERVATION_RELEASE that reaches HRV_RESREL. -/
theorem exec_release {s : State} {m : Master} {v : Word} (hpor : s.por = false)
    (h : s.reaches m 0x40001058 1 v.toNat = true) :
    exec (.reservationRelease m v) s = .next (writeOk (resRel s (masterTag s m) v.toNat)) := by
  have hrow : rowWrite m 0x40001058 v.toNat s = writeOk (resRel s (masterTag s m) v.toNat) :=
    rowWrite_hrv h rfl rfl (resRel_dx s _ _)
  rw [← hrow]
  exact live_run s _ hpor

/-- PRERESERVATION_TIMEOUT drops an unbound ticket with no tick left. -/
theorem exec_timeout_due {s : State} {k : Nat} {r : Resv} (hpor : s.por = false) (hr : ticketOf s k = some r)
    (hb : r.bound = false) (hleft : r.left = 0) : exec (.prereservationTimeout k) s = .next (dropTicket s k) := by
  change execPrereservationTimeout k s = _
  simp [execPrereservationTimeout, live_run s _ hpor, hr, hb, hleft]

/-- It changes nothing where the ticket is bound or has ticks left. -/
theorem exec_timeout_early {s : State} {k : Nat} {r : Resv} (hpor : s.por = false) (hr : ticketOf s k = some r)
    (h : r.bound = true ∨ r.left ≠ 0) : exec (.prereservationTimeout k) s = .next s := by
  change execPrereservationTimeout k s = _
  rcases h with h | h <;> simp [execPrereservationTimeout, live_run s _ hpor, hr, h]

/-- Settles O36: a request is `resReq_admitted`, `resReq_refused` or `resReq_badParam`, a release `resRel_holder` or
`resRel_ignored`, and the ledger answers by `decide81_full`, `decide81_covered`, `decide81_cell` or `decide81_noEnergy`. -/
theorem reservations : Obligations.Reservations := by
  refine ⟨?ledger, ?admitted, ?refused, ?badParam, ?released, ?ignored, ?due, ?early⟩
  case ledger =>
    intro s cls amount
    exact ⟨fun h => congrArg Prod.fst (decide81_full cls amount h), decide81_covered, decide81_cell,
      fun h hc hcell => congrArg Prod.fst (decide81_noEnergy h hc hcell)⟩
  case admitted =>
    rintro s m v cls a hpor hreach rfl hcls hmax hamt hdec
    have hx := exec_prerequest hpor hreach
    rw [resReq_admitted hcls hmax hamt hdec rfl] at hx
    refine ⟨_, hx, ?_, ?_, ?_, setRes_res _ _, ?_, rfl, ?_, ?_⟩
    · simp (disch := decide) only [writeOk_get, get_put_ne, get_put_self]; rfl
    · simp (disch := decide) only [writeOk_get, get_put_ne, get_put_self]
      exact Nat.mod_eq_of_lt (freeTicket_lt _)
    · simp (disch := decide) only [writeOk_get, get_put_self]; rfl
    · simp (disch := decide) only [writeOk_get, get_put_ne, setRes_eresv, List.map_append, List.sum_append]; rfl
    · rw [setRes_eq]; rfl
    · exact sameRegs_writeOk (sameRegs_put _ _ (by decide) (sameRegs_put _ _ (by decide) (sameRegs_put _ _ (by decide)
        (sameRegs_trans (sameRegs_requested s _) (sameRegs_setRes _ _ (by decide))))))
  case refused =>
    rintro s m v cls r a hpor hreach rfl hcls hmax hamt hdec hr
    have hx := exec_prerequest hpor hreach
    rw [resReq_refused hcls hmax hamt hdec hr] at hx
    refine ⟨_, hx, ?_, ?_, ?_, rfl, rfl, sameRegs_writeOk (sameRegs_put _ _ (by decide) (sameRegs_requested s _))⟩
    · simp only [writeOk_get, get_put_self]; rfl
    · simp (disch := decide) only [writeOk_get, get_put_ne, requested_get]
    · simp (disch := decide) only [writeOk_get, get_put_ne, requested_get]
  case badParam =>
    intro s m v hpor hreach hbad
    have hx := exec_prerequest hpor hreach
    rw [resReq_badParam s _ _ hbad] at hx
    refine ⟨_, hx, ?_, rfl, sameRegs_writeOk (sameRegs_put _ _ (by decide) (sameRegs_requested s _))⟩
    simp only [writeOk_get, get_put_self]; rfl
  case released =>
    intro s m v r hpor hreach hr htag hb
    have hx := exec_release hpor hreach
    rw [resRel_holder hr htag hb] at hx
    refine ⟨_, hx, setRes_res _ _, length_dropTicket hr hb, ?_, sameRegs_writeOk (sameRegs_setRes s _ (by decide))⟩
    rw [dropTicket_eq]; rfl
  case ignored =>
    intro s m v r hpor hreach hr hno
    have hx := exec_release hpor hreach
    rw [resRel_ignored hr hno] at hx
    exact ⟨_, hx, rfl⟩
  case due =>
    intro s k r hpor hr hb hleft
    exact ⟨_, exec_timeout_due hpor hr hb hleft, setRes_res _ _, length_dropTicket hr hb, (dropTicket_eq s k).symm,
      sameRegs_setRes s _ (by decide)⟩
  case early => exact fun s k r hpor hr h => ⟨s, exec_timeout_early hpor hr h, rfl⟩

end Sys2Proof.Machine.EnergyStore
end

section
/-! Counterexamples of the supply's crossings, the harvester's samples and the ledger's tick. -/

namespace Sys2Proof.Machine.EnergyStore

open Sys2Proof Sys2Proof.Machine Sys2Proof.Machine.PowerStates

/-! ### The label's stop while a store waits for the hold capacitor (R60, R73, R301, R434) -/

/-- A forced Basalt that stops a label whose one update waits takes the store that waits at the head out of the buffer: the log
entry of the stop comes after that store. -/
theorem forceBasalt_stores {s : State} {u : Upd} (hentry : s.pwr.entry = none) (hreset : (forcedBefore s).pwr.pendReset = none)
    (hupd : (forcedBefore s).disp.upd = [u]) (hplace : u.place = none) (hstaged : u.staged = 0) (hrun : u.running = false)
    (hwaits : headWaits (forcedBefore s) = true) (hmoves : headMoves (forcedBefore s) = false)
    (hops : (forcedBefore s).nvs.ops = []) (hown : (forcedBefore s).nvs.own = []) :
    (forceBasalt s).dx.stores = (forcedBefore s).dx.stores.tail := by
  have hstop := headGone_epdAbrupt (forcedBefore s) u hupd hplace hstaged hrun hwaits hmoves
  have hall := hstop.trans (coreKept_forcedAfter _ (by rw [hstop.nvs, hops]) (by rw [hstop.nvs, hown]))
  rw [forceBasalt_eq s hentry (by rw [hall.pwr, hreset]), hall.stores]

/-- The part in Run with the load on the cell and the store below 1.78 V: a word store to the NV store waits for the hold capacitor,
and a label update waits. -/
def cellFails : State := storeAndUpdateWait.put HRV_STAT_SRC 1

/-- The cell's loss as it reaches the power controller: the load is on the store, HOLDRDY has fallen and BROWN is set. -/
def cellLost (s : State) : State := hrvEvt (setHold (toStore (s.put HRV_STAT_PRIMOK 0)) false) 5

theorem toStore_pwr (s : State) : (toStore s).pwr = s.pwr := by
  unfold toStore
  split
  · exact (coreKept_yieldEv _ _).pwr
  · rfl

/-- The loss of the cell that carries the load forces Basalt where the store is below 1.78 V (R73). -/
theorem primaryLost_forced {s : State} {vsto : Nat} (hsrc : s.on HRV_STAT_SRC = true) (hlow : vsto < 1780)
    (hfree : s.pwr.withheld = false) : primaryLost s vsto = forceBasalt (cellLost s) := by
  have hdown : decide (1800 ≤ vsto) = false := by simp; omega
  have hstill : (setHold (toStore (s.put HRV_STAT_PRIMOK 0)) false).pwr.withheld = false := by
    rw [setHold_down, put_pwr, toStore_pwr, put_pwr, hfree]
  simp [primaryLost, cellLost, hsrc, hdown, hlow, hstill]

theorem exec_primokLost {s : State} (hpor : s.por = false) :
    exec (.primokChange false) s = .next (primaryLost s (s.get HRV_SUPPLY_VSTO)) := live_run s _ hpor

/-- Refutes O32: where PRIMOK_CHANGE forces Basalt and the label has an update, the core's state does not stay: the log entry of the
label's stop waits for the hold capacitor behind a store that waits at the head of the store buffer, and that store leaves the
buffer, written or failed. -/
theorem not_supplyCrossings : ¬ Obligations.SupplyCrossings := by
  rintro ⟨-, -, -, -, -, -, -, -, hforced, -⟩
  obtain ⟨t, ht, -, -, -, -, -, -, -, hdx, -⟩ :=
    hforced cellFails rfl (by decide +kernel) (by decide +kernel) rfl rfl
  have hx := exec_primokLost (s := cellFails) rfl
  rw [primaryLost_forced (by decide +kernel) (by decide +kernel) rfl] at hx
  obtain rfl := Host.Outcome.next.inj (hx.symm.trans ht)
  have hst := congrArg Dx.stores hdx
  rw [forceBasalt_stores (u := waitingUpdate) (by decide +kernel) (by decide +kernel) (by decide +kernel)
    rfl rfl rfl (by decide +kernel) (by decide +kernel) (by decide +kernel) (by decide +kernel)] at hst
  exact absurd hst (by decide +kernel)

/-! ### A fraction above 16/16 (R67) -/

/-- FRAC0 holds 40, which does not fit its four bits. No command puts such a number there: State.put keeps a field's width, but
State itself does not ask for it. -/
def fracTooWide : State := { inRun with regs := ((HRV_CHCFG_FRAC 0).key, 40) :: inRun.regs }

/-- Refutes O34: the second clause has the operating point between the fraction of Voc, at most 400 mV, and Voc; where FRAC holds 40
and Voc is 160 mV the fraction's point is 400 mV, and no point lies between. -/
theorem not_harvestSamples : ¬ Obligations.HarvestSamples := by
  rintro ⟨-, hlimited, -⟩
  have hfrac : fracTooWide.get (HRV_CHCFG_FRAC 0) = 40 := by decide +kernel
  obtain ⟨t, -, -, hlow, hhigh, -⟩ := hlimited fracTooWide 0 160 30000 rfl (by decide) (by decide +kernel) (by decide +kernel)
    (by decide +kernel) (by decide +kernel) (by decide) (by decide) rfl (.inl rfl) (by rw [hfrac]; decide) (by rw [hfrac]; decide)
  rw [hfrac] at hlow
  exact absurd (hlow.trans hhigh) (by decide)

/-! ### VIO1 comes back (R444, R464) -/

/-- The part in Run without VIO1, with ball 0 an output that the part drives high. -/
def outputWithoutVio : State := { (inRun.put (GPIO_FUNC_FUNC 0) 1).put GPIO_OUT_OUT 1 with vio := 13 }

/-- Refutes O35: the first clause keeps every page but PWR_, HRV_ and NVS_, but where the tick brings VIO1 back the output rises
again, and GPIO_EDGE of the GPIO page latches that rise. -/
theorem not_tickAndCapacitance : ¬ Obligations.TickAndCapacitance := by
  rintro ⟨htick, -⟩
  obtain ⟨t, ht, -, -, -, -, -, -, -, -, -, -, -, hregs⟩ := htick outputWithoutVio 3000 3000 0 15 rfl (by decide +kernel)
    (by decide +kernel) (by decide) (by decide) (by decide) (.inl rfl)
  have hrise : readsAfter (.ledgerTick 3000 3000 0 15) outputWithoutVio GPIO_EDGE_EDGE = some 1 := by decide +kernel
  have hlow : outputWithoutVio.get GPIO_EDGE_EDGE = 0 := by decide +kernel
  rw [readsAfter_of_next ht, hregs (by decide +kernel) GPIO_EDGE_EDGE (by decide), hlow] at hrise
  exact absurd hrise (by decide)

end Sys2Proof.Machine.EnergyStore
end

section
/-! What a bundle of the DX core does, from the row of its last syllable to its completion: the checks it passes, the effects of its
syllables, and what is left of them (R92 to R98, R154). -/

namespace Sys2Proof.Machine.InstructionSet

open Sys2Proof Sys2Proof.Machine

/-! ### The row of a syllable -/

/-- Every syllable's row issues it with its class and opcode (R89). -/
theorem exec_syllable {s : State} {i : Instr} {cls op : Nat} {x : Syl} (hpor : s.por = false)
    (h : coreSyl i = some (cls, op, x)) : exec i s = .next (syllable s cls op x) := by
  rw [← live_run s _ hpor]
  cases i <;> cases h <;> rfl

/-! ### What does not depend on the core's own state -/

theorem coreTag_xk (s : State) (f : Dx → Dx) : coreTag (xk s f) = coreTag s := rfl

theorem fetchRefused_xk (s : State) (f : Dx → Dx) (pc n : Nat) : fetchRefused (xk s f) pc n = fetchRefused s pc n := by
  unfold fetchRefused guard
  rw [coreTag_xk]
  simp only [xk_guard1]

theorem accGuard_xk (s : State) (f : Dx → Dx) (p : Axs) : accGuard (xk s f) p = accGuard s p := by
  unfold accGuard access guard
  rw [coreTag_xk]
  simp only [xk_guard1]

/-- The asynchronous entry to take rests on register fields and on the requests that pend. -/
theorem asyncKind_xk (s : State) (f : Dx → Dx) (hmc : (f s.dx).mcPend = s.dx.mcPend) (hwd : (f s.dx).nmiWd = s.dx.nmiWd)
    (htamper : (f s.dx).nmiTamper = s.dx.nmiTamper) : asyncKind (xk s f) = asyncKind s := by
  unfold asyncKind linePri
  simp only [xk_bestLine, xk_get, xk_on, xk_dx, hmc, hwd, htamper]

/-! ### A core with nothing pending -/

/-- The core issues bundles with no store buffered, no repeat, record or progress taken up, no entry to take and no memory error
stored. Syllables may be gathered and loads in flight. -/
structure Calm (s : State) : Prop where
  runs : coreRuns s = true
  stores : s.dx.stores = []
  rep : s.dx.rep = none
  drain : s.dx.drainDue = false
  shadow : s.dx.armShadow = false
  prog : s.dx.armProg = false
  async : asyncKind s = none
  errors : s.ms.sramErr = []
  wipes : s.ms.wipeQ = []

/-- The state with these syllables gathered. -/
def gather (s : State) (b : List BSyl) : State := xk s fun d => { d with bundle := b }

theorem Calm.gather {s : State} (h : Calm s) (b : List BSyl) : Calm (gather s b) :=
  { h with async := (asyncKind_xk s _ rfl rfl rfl).trans h.async }

theorem Calm.setLoads {s : State} {l : List (Nat × Nat)} (h : Calm (xk s fun d => { d with loads := l })) : Calm s :=
  { h with async := (asyncKind_xk s (fun d => { d with loads := l }) rfl rfl rfl).symm.trans h.async }

/-- The words of the bundle at hand lie in banks 0 and 1 and the guard lets them be fetched (R94, R181). -/
structure Fetches (s : State) (n : Nat) : Prop where
  low : 0x10000000 ≤ s.dx.pc
  high : s.dx.pc + 4 * n ≤ 0x10200000
  guard : fetchRefused s s.dx.pc n = none

theorem Fetches.gather {s : State} {n : Nat} (h : Fetches s n) (b : List BSyl) : Fetches (gather s b) n :=
  { h with guard := (fetchRefused_xk s _ _ _).trans h.guard }

/-- The parts of quiet. -/
theorem quiet_parts {s : State} (h : s.quiet = true) :
    Calm s ∧ s.por = false ∧ s.dx.bundle = [] ∧ s.dx.loads = [] ∧ s.dx.usHeld = none := by
  simp only [State.quiet, Bool.and_eq_true, Bool.not_eq_true', List.isEmpty_iff, Option.isNone_iff_eq_none] at h
  obtain ⟨⟨⟨⟨⟨⟨⟨⟨⟨⟨⟨⟨hpor, hruns⟩, hbundle⟩, hloads⟩, hstores⟩, hrep⟩, hdrain⟩, hshadow⟩, hprog⟩, hasync⟩, herrors⟩, hwipes⟩, hheld⟩ := h
  exact ⟨⟨hruns, hstores, hrep, hdrain, hshadow, hprog, hasync, herrors, hwipes⟩, hpor, hbundle, hloads, hheld⟩

/-- The parts of canFetch. -/
theorem canFetch_parts {s : State} {x : Syl} (h : s.canFetch x = true) :
    s.quiet = true ∧ x.stop = true ∧ Fetches s (wordsOf x) := by
  simp only [State.canFetch, Bool.and_eq_true, decide_eq_true_eq, Option.isNone_iff_eq_none] at h
  obtain ⟨⟨⟨⟨hquiet, hstop⟩, hlow⟩, hhigh⟩, hguard⟩ := h
  exact ⟨hquiet, hstop, hlow, hhigh, hguard⟩

theorem canIssue_split {s : State} {cls op : Nat} {x : Syl} (h : s.canIssue cls op x = true) :
    s.canFetch x = true ∧ sylLegal cls op x = true := by
  rwa [State.canIssue, Bool.and_eq_true] at h

theorem quiet_of_canIssue {s : State} {cls op : Nat} {x : Syl} (h : s.canIssue cls op x = true) : s.quiet = true :=
  (canFetch_parts (canIssue_split h).1).1

theorem calm_of_canIssue {s : State} {cls op : Nat} {x : Syl} (h : s.canIssue cls op x = true) : Calm s :=
  (quiet_parts (quiet_of_canIssue h)).1

/-! ### Gathering (R92) -/

theorem Calm.boundary_eq {s : State} (h : Calm s) : boundary s = s := boundary_empty s h.stores h.drain

theorem Calm.dueEntry_eq {s : State} (h : Calm s) : dueEntry s = none := by
  unfold dueEntry
  split
  · exact h.async
  · rfl

/-- A syllable joins the bundle, and the one that stops it runs it. -/
theorem syllable_gathers {s : State} (h : Calm s) (cls op : Nat) (x : Syl) :
    syllable s cls op x =
      if x.stop || 7 ≤ words (s.dx.bundle ++ [⟨cls, op, x⟩]) then runBundle (gather s (s.dx.bundle ++ [⟨cls, op, x⟩]))
      else gather s (s.dx.bundle ++ [⟨cls, op, x⟩]) := by
  unfold syllable
  simp only [h.boundary_eq, ite_self, h.runs, h.dueEntry_eq, Option.isSome_none, Bool.not_true, Bool.or_self, Bool.false_eq_true, if_false]
  rfl

/-- With nothing to drain, nothing is drained before the bundle (R51, R165). -/
theorem Calm.preDrain_eq {s : State} (h : Calm s) (ys : List Sy) : preDrain s ys = s := by
  have hdrained : xk (drainWait s) (fun d => { d with drainDue := false }) = s := by
    simp only [drainWait, h.stores, List.isEmpty_nil, if_true, xk_drainDue s h.drain]
  unfold preDrain
  simp only [hdrained, h.async, ite_self]

/-- A whole bundle is fetched and judged: an illegal one raises slot 3 at the position that decides, a legal one runs (R92, R154). -/
theorem runBundle_calm {s : State} {b : List BSyl} {y : BSyl} (h : Calm s) (hb : s.dx.bundle = b) (hlast : b.getLast? = some y)
    (hstop : y.x.stop = true) (hwords : words b ≤ 7) (hfetch : Fetches s (words b)) :
    runBundle s = (illegalAt s (place 0 b) (words b) true false).elim
      (runOne s s.dx.pc ((s.dx.pc + 4 * words b) % 2 ^ 32) (words b) (place 0 b) false)
      fun i => raiseExc s (excAt 3 i) s.dx.pc none none := by
  have hne : b ≠ [] := by rintro rfl; cases hlast
  have hgone : gone s = false := by simp [gone, hb, hne]
  have hread : fetchAll s.dx.pc (min (words b) 7) s = (none, s) := by
    unfold fetchAll
    rw [Nat.min_eq_left hwords, hfetch.guard]
    exact fetchBundle_core s.dx.pc (words b) 0 s hfetch.low (by have := hfetch.high; omega) h.errors h.wipes
  unfold runBundle
  simp only [hb, hlast, hstop, h.rep, h.async, h.preDrain_eq, hgone, hread, Option.isSome_none, Bool.false_and,
    Bool.false_eq_true, if_false]
  cases illegalAt s (place 0 b) (words b) true false <;> rfl

/-! ### A bundle of one syllable -/

theorem words_single (cls op : Nat) (x : Syl) : words [⟨cls, op, x⟩] = wordsOf x := by simp [words, bwords, wordsOf]

/-- Alone in its bundle a syllable is illegal exactly where its own form is (R92, R93). -/
theorem illegalAt_only {s : State} (hprog : s.dx.armProg = false) (cls op : Nat) (x : Syl) :
    illegalAt s [only cls op x] (wordsOf x) true false = if sylLegal cls op x then none else some 0 := by
  have hblocked : customBlocked s [only cls op x] (only cls op x) = false := by simp [customBlocked]
  have hmisses : progMisses s [only cls op x] = false := by simp [progMisses, hprog]
  have hlimm : (limms [only cls op x]).drop 1 = [] := by
    simp only [limms, List.filterMap_cons, List.filterMap_nil]
    split <;> rfl
  have hfew : ¬ 7 < wordsOf x := by have := wordsOf_le x; omega
  unfold illegalAt
  simp only [hmisses, hlimm, List.filter_cons, List.filter_nil, hblocked, orderBad]
  have hsyl : sylLegal (only cls op x).cls (only cls op x).op (only cls op x).x = sylLegal cls op x := rfl
  rw [hsyl]
  cases sylLegal cls op x <;> simp [hfew, only]

/-- The last syllable of a bundle that holds nothing else. -/
theorem syllable_single {s : State} {x : Syl} (h : Calm s) (hbundle : s.dx.bundle = []) (hstop : x.stop = true)
    (hfetch : Fetches s (wordsOf x)) (cls op : Nat) :
    syllable s cls op x =
      if sylLegal cls op x then runOne (gathered s cls op x) s.dx.pc (s.nextPc x) (wordsOf x) [only cls op x] false
      else raiseExc (gathered s cls op x) (excAt 3 0) s.dx.pc none none := by
  have hg : gather s (s.dx.bundle ++ [⟨cls, op, x⟩]) = gathered s cls op x := by rw [hbundle]; rfl
  have hw := words_single cls op x
  have hrun := runBundle_calm (b := [⟨cls, op, x⟩]) (y := ⟨cls, op, x⟩) (h.gather [⟨cls, op, x⟩]) rfl rfl hstop
    (by rw [hw]; have := wordsOf_le x; omega) (by rw [hw]; exact hfetch.gather _)
  rw [syllable_gathers h, hstop, Bool.true_or, if_pos rfl, hg]
  change runBundle (gathered s cls op x) = _ at hrun
  rw [hrun, hw]
  have hplace : place 0 [⟨cls, op, x⟩] = [only cls op x] := rfl
  rw [hplace, illegalAt_only (s := gather s [⟨cls, op, x⟩]) h.prog]
  cases sylLegal cls op x <;> rfl

end Sys2Proof.Machine.InstructionSet
end

section
/-! The completion of a bundle: effects that change registers alone, the issue of a bundle with no long instruction, and the bundle's
own advance (R96 to R98, R102). -/

namespace Sys2Proof.Machine.InstructionSet

open Sys2Proof Sys2Proof.Machine

/-! ### Effects on registers (R96) -/

/-- An effect on a general register, a predicate, an accumulator, a sticky condition or the return stack. -/
def isResult : Wr → Bool
  | .g _ _ | .p _ _ | .acc _ _ | .satf | .ovf | .call _ | .ret => true
  | _ => false

theorem isMvts_of_isResult {w : Wr} (h : isResult w = true) : isMvts w = false := by
  cases w with
  | mvts => cases h
  | _ => rfl

/-- `t` differs from `s` in register fields, general registers and accumulators alone. -/
def OnlyRegs (s t : State) : Prop := { s with regs := t.regs, dx := { s.dx with g := t.dx.g, acc := t.dx.acc } } = t

theorem OnlyRegs.refl (s : State) : OnlyRegs s s := rfl

theorem OnlyRegs.trans {s t u : State} (h : OnlyRegs s t) (k : OnlyRegs t u) : OnlyRegs s u := by
  unfold OnlyRegs at *
  rw [← h] at k
  exact k

theorem onlyRegs_wg (s : State) (r : Nat) (v : Word) : OnlyRegs s (wg s r v) := by
  unfold wg
  split
  · rfl
  · split <;> rfl

theorem onlyRegs_wp (s : State) (i : Nat) (v : Bool) : OnlyRegs s (wp s i v) := by
  unfold wp
  split
  · rfl
  · split <;> rfl

theorem onlyRegs_apply {w : Wr} (hw : isResult w = true) (s : State) : OnlyRegs s (apply s w) := by
  unfold apply
  split
  · rfl
  · cases w with
    | g r v =>
      dsimp only
      split
      · rfl
      · exact onlyRegs_wg s r v
    | p r v => exact onlyRegs_wp s r v
    | acc | satf | ovf | call | ret => rfl
    | fence | mvfs | mvts => cases hw

theorem onlyRegs_applyAll {ws : List Wr} (hws : ∀ w ∈ ws, isResult w = true) : ∀ s, OnlyRegs s (ws.foldl apply s) := by
  induction ws with
  | nil => exact OnlyRegs.refl
  | cons w ws ih =>
    intro s
    have hrest := ih fun v hv => hws v (List.mem_cons_of_mem w hv)
    exact (onlyRegs_apply (hws w List.mem_cons_self) s).trans (hrest _)

/-- What else the core holds stands. -/
theorem OnlyRegs.dx_eq {s t : State} (h : OnlyRegs s t) : t.dx = { s.dx with g := t.dx.g, acc := t.dx.acc } :=
  (congrArg State.dx h).symm

theorem OnlyRegs.bundle {s t : State} (h : OnlyRegs s t) : t.dx.bundle = s.dx.bundle := by rw [h.dx_eq]
theorem OnlyRegs.loads {s t : State} (h : OnlyRegs s t) : t.dx.loads = s.dx.loads := by rw [h.dx_eq]
theorem OnlyRegs.stores {s t : State} (h : OnlyRegs s t) : t.dx.stores = s.dx.stores := by rw [h.dx_eq]
theorem OnlyRegs.shadow {s t : State} (h : OnlyRegs s t) : t.dx.armShadow = s.dx.armShadow := by rw [h.dx_eq]
theorem OnlyRegs.drain {s t : State} (h : OnlyRegs s t) : t.dx.drainDue = s.dx.drainDue := by rw [h.dx_eq]
theorem OnlyRegs.mem {s t : State} (h : OnlyRegs s t) : t.mem = s.mem := by rw [← h]
theorem OnlyRegs.byte {s t : State} (h : OnlyRegs s t) (a : Nat) : t.byte a = s.byte a := by unfold State.byte; rw [h.mem]

theorem OnlyRegs.gone {s t : State} (h : OnlyRegs s t) : gone t = gone s := by unfold Machine.gone; rw [h.bundle]

/-! ### Completion -/

theorem landLoads_none {s : State} (h : s.dx.loads = []) : landLoads s = s := by
  have hdx : { s.dx with loads := [] } = s.dx := by rw [← h]
  unfold landLoads
  rw [h]
  exact congrArg (fun d => { s with dx := d }) hdx

/-- Effects on registers first, then the loads in flight land over them (R98). -/
theorem complete_results {s : State} {ws : List Wr} (hws : ∀ w ∈ ws, isResult w = true) (l : List (Nat × Nat))
    (hgone : gone s = false) (hshadow : s.dx.armShadow = false) :
    complete s ws l false = xk (landLoads (ws.foldl apply s)) fun d => { d with loads := l } := by
  have hmvts : ∀ w ∈ ws, isMvts w = false := fun w hw => isMvts_of_isResult (hws w hw)
  have hall : ws.filter (fun w => !isMvts w) = ws := List.filter_eq_self.mpr fun w hw => by simp [hmvts w hw]
  have hnone : ws.filter isMvts = [] := List.filter_eq_nil_iff.mpr fun w hw => by simp [hmvts w hw]
  have hregs := onlyRegs_applyAll hws s
  have hland : (landLoads (ws.foldl apply s)).dx.armShadow = false := by
    have hfold : ∀ (l : List (Nat × Nat)) (t : State),
        (l.foldl (fun s e => wg s e.1 (BitVec.ofNat 32 e.2)) t).dx.armShadow = t.dx.armShadow := by
      intro l
      induction l with
      | nil => exact fun _ => rfl
      | cons e l ih => exact fun t => (ih _).trans (onlyRegs_wg t e.1 _).shadow
    unfold landLoads
    rw [hfold]
    exact hregs.shadow.trans hshadow
  unfold complete
  simp only [hall, hnone, hregs.gone, hgone, Bool.false_eq_true, if_false, xk_dx, hland]

/-! ### Issue without a long instruction -/

theorem runLongs_short {act : List Sy} (h : hasLong act = false) (epc kind : Nat) (s : State) :
    runLongs epc kind act s = ([], s) := by
  induction act with
  | nil => rfl
  | cons y act ih =>
    simp only [hasLong, List.any_cons, Bool.or_eq_false_iff, bne_eq_false_iff_eq] at h ih
    obtain ⟨hy, hrest⟩ := h
    rw [runLongs, if_pos hy]
    exact ih hrest

theorem tryAccess_short {act : List Sy} (h : hasLong act = false) (s : State) (ax : Option Axs) :
    tryAccess s act ax = (none, s) := by
  cases ax <;> simp [tryAccess, h]

section
variable {s : State} {pc next n : Nat} {ys act : List Sy} {rem : Option Nat} (hpre : preExc s pc n ys = none)
  (hact : ys.filter (active s) = act) (hlong : hasLong act = false) (hgone : gone s = false) (hprog : s.dx.armProg = false)
include hpre hact hlong hgone hprog

/-- With no access a bundle completes with what its active syllables write. -/
theorem issue_short (hacc : act.findSome? (accOf s) = none) :
    issue s pc next n ys rem = complete s (act.flatMap (writes s next)) [] false := by
  unfold issue
  simp only [hpre, hact, tryAccess_short hlong, runLongs_short hlong, hlong, hacc, hgone, hprog, Bool.false_eq_true, if_false,
    List.any_nil, Bool.not_false, List.filter_true, List.map_flatMap, List.map_map, Function.comp_def, List.map_id']

/-- With an access that its target answers it completes with what that loads in flight. -/
theorem issue_access {p : Axs} {l : List (Nat × Nat)} {t : State} (hacc : act.findSome? (accOf s) = some p)
    (hdo : doAccess s p = (some l, t)) (ht : gone t = false) :
    issue s pc next n ys rem = complete t (act.flatMap (writes s next)) l false := by
  unfold issue
  simp only [hpre, hact, tryAccess_short hlong, runLongs_short hlong, hlong, hacc, hdo, ht, hgone, hprog, Bool.false_eq_true,
    if_false, List.any_nil, Bool.not_false, List.filter_true, List.map_flatMap, List.map_map, Function.comp_def, List.map_id']

end

/-! ### The bundle's own advance (R102) -/

/-- The bundle has completed: its cycles have passed and the next one stands at `next`. -/
def advanced (s : State) (next cost : Nat) (stall : Option Nat) : State :=
  xk (bundleTick s cost stall) fun d => { d with deferred := false, pc := next % 2 ^ 32, bundle := [] }

/-- An advance moves the counter of free values, the cycle counter and the place of the next bundle alone. -/
theorem advanced_only (s : State) (next cost : Nat) (stall : Option Nat) :
    { s with
      free := (advanced s next cost stall).free
      dx := { s.dx with
        cyc := (advanced s next cost stall).dx.cyc, deferred := false, pc := next % 2 ^ 32, bundle := [] } } =
      advanced s next cost stall := by
  cases stall <;> rfl

section
variable (s : State) (next cost : Nat) (stall : Option Nat)

@[simp] theorem advanced_get (f : Fld) : (advanced s next cost stall).get f = s.get f := by cases stall <;> rfl
@[simp] theorem advanced_regs : (advanced s next cost stall).regs = s.regs := by cases stall <;> rfl
@[simp] theorem advanced_byte (a : Nat) : (advanced s next cost stall).byte a = s.byte a := by cases stall <;> rfl
@[simp] theorem advanced_rd (r : Nat) : Machine.rd (advanced s next cost stall) r = Machine.rd s r := by cases stall <;> rfl
@[simp] theorem advanced_loads : (advanced s next cost stall).dx.loads = s.dx.loads := by cases stall <;> rfl

end

/-- What stands between the effects of a bundle and what it asked for: its cycles, and the next address. Nothing lands at the
boundary with the store buffer empty (R8, R165). -/
theorem finish_advances {s : State} (hgone : gone s = false) (hstores : s.dx.stores = []) (hdrain : s.dx.drainDue = false)
    (f : After) (cost : Nat) (stall : Option Nat) (el : Bool) (hsleep : f.sleep = none) :
    finish s f cost stall false el =
      match f.trap with
      | some (n, i) =>
        let t := advanced s f.next (cost + f.cost) stall
        if el then doubleFault t (64 + n) else takeIn t ⟨64 + n, f.next % 2 ^ 32, i, false, none, none⟩ none none
      | none =>
        if f.rete then doRete (advanced s f.next (cost + f.cost) stall) else advanced s f.next (cost + f.cost) stall := by
  have hbound : boundary (xk (bundleTick s (cost + f.cost) stall) fun d => { d with deferred := false }) =
      xk (bundleTick s (cost + f.cost) stall) fun d => { d with deferred := false } := by
    refine boundary_empty _ ?_ ?_ <;> cases stall <;> assumption
  have hrun : gone (xk (bundleTick s (cost + f.cost) stall) fun d => { d with deferred := false }) = false := by
    cases stall <;> exact hgone
  unfold finish
  simp only [hgone, hbound, hsleep, Option.isSome_none, hrun, Bool.false_eq_true, if_false]
  rcases f.trap with _ | ⟨n, i⟩ <;> rfl

end Sys2Proof.Machine.InstructionSet
end

section
/-! A bundle of one syllable that only writes registers: its effects, and the frame of what it leaves alone (R95, R96). -/

namespace Sys2Proof.Machine.InstructionSet

open Sys2Proof Sys2Proof.Machine

/-! ### Reads after writes (R95) -/

/-- Nothing else stands in for a general register while no shadow record is taken up (R100). -/
theorem rd_plain {s : State} {r : Nat} (hr : r < 32) (hshadow : s.dx.armShadow = false) :
    rd s r = if r = 0 then 0 else s.dx.g[r]?.getD 0 := by
  have hhigh : ¬ 32 ≤ r := by omega
  simp [rd, shadowed, hshadow, hhigh]

theorem wg_armShadow (s : State) (r : Nat) (v : Word) : (wg s r v).dx.armShadow = s.dx.armShadow := (onlyRegs_wg s r v).shadow

/-- A register reads what was written to it; g0 reads 0. -/
theorem rd_wg_same {s : State} {r : Nat} (v : Word) (hr : r < 32) (hshadow : s.dx.armShadow = false) :
    rd (wg s r v) r = if r = 0 then 0 else v := by
  have hhigh : ¬ 32 ≤ r := by omega
  rw [rd_plain hr ((wg_armShadow s r v).trans hshadow)]
  split
  · rfl
  · next h => simp [wg, h, hhigh, hr]

/-- Another register keeps its value. -/
theorem rd_wg_ne {s : State} {r d : Nat} (v : Word) (hne : r ≠ d) (hr : r < 32) (hd : d < 32)
    (hshadow : s.dx.armShadow = false) : rd (wg s d v) r = rd s r := by
  have hhigh : ¬ 32 ≤ d := by omega
  rw [rd_plain hr ((wg_armShadow s d v).trans hshadow), rd_plain hr hshadow]
  by_cases h : d = 0
  · simp [wg, h]
  · simp [wg, h, hhigh, hne.symm]

/-- A write of a general register leaves the register fields. -/
theorem wg_regs {s : State} {d : Nat} (v : Word) (hd : d < 32) : (wg s d v).regs = s.regs := by
  have hhigh : ¬ 32 ≤ d := by omega
  unfold wg
  rw [if_neg hhigh]
  split <;> rfl

theorem wg_acc (s : State) (d : Nat) (v : Word) : (wg s d v).dx.acc = s.dx.acc := by
  unfold wg
  split
  · rfl
  · split <;> rfl

theorem ac_wa_same {s : State} {i : Nat} (v : BitVec 40) (hi : i < 4) : ac (wa s i v) i = v := by simp [ac, wa, hi]

theorem ac_wa_ne (s : State) {i j : Nat} (v : BitVec 40) (h : j ≠ i) : ac (wa s i v) j = ac s j := by simp [ac, wa, h.symm]

/-! ### One effect of a bundle whose core is not restarted -/

theorem gathered_running (s : State) (cls op : Nat) (x : Syl) : gone (gathered s cls op x) = false := rfl

theorem apply_g {s : State} (r : Nat) (v : Word) (hgone : gone s = false) (hshadow : s.dx.armShadow = false) :
    apply s (.g r v) = wg s r v := by
  simp [apply, hgone, shadowed, hshadow]

theorem apply_p {s : State} (i : Nat) (v : Bool) (hgone : gone s = false) : apply s (.p i v) = wp s i v := by
  simp [apply, hgone]

theorem apply_acc {s : State} (i : Nat) (v : BitVec 40) (hgone : gone s = false) : apply s (.acc i v) = wa s i v := by
  simp [apply, hgone]

theorem apply_satf {s : State} (hgone : gone s = false) : apply s .satf = s.put CORE_DSPSTAT_SATF 1 := by
  simp [apply, hgone]

/-! ### The state after the bundle -/

/-- `s` with the registers of `u`, where the next bundle stands at `pc`. -/
def completed (s u : State) (pc free cyc : Nat) : State :=
  { s with
    free := free, regs := u.regs
    dx := { s.dx with g := u.dx.g, acc := u.dx.acc, pc := pc, cyc := cyc, deferred := false } }

/-- With nothing gathered before, an advance over register effects leaves nothing else changed. -/
theorem advanced_eq_completed {s u : State} {cls op : Nat} {x : Syl} (hbundle : s.dx.bundle = [])
    (hu : OnlyRegs (gathered s cls op x) u) (next cost : Nat) (stall : Option Nat) :
    ∃ free cyc, advanced u next cost stall = completed s u (next % 2 ^ 32) free cyc := by
  have hempty : { s.dx with bundle := [] } = s.dx := by rw [← hbundle]
  have hdx : ({ s.dx with bundle := [], g := u.dx.g, acc := u.dx.acc } : Dx) = { s.dx with g := u.dx.g, acc := u.dx.acc } :=
    congrArg (fun d : Dx => { d with g := u.dx.g, acc := u.dx.acc }) hempty
  refine ⟨(advanced u next cost stall).free, (advanced u next cost stall).dx.cyc, ?_⟩
  rw [← advanced_only u next cost stall]
  generalize (advanced u next cost stall).free = free, (advanced u next cost stall).dx.cyc = cyc
  rw [← hu]
  exact congrArg (fun d : Dx => { s with
    free := free, regs := u.regs, dx := { d with pc := next % 2 ^ 32, cyc := cyc, deferred := false } }) hdx

theorem nextPc_mod (s : State) (x : Syl) : s.nextPc x % 2 ^ 32 = s.nextPc x := by simp [State.nextPc]

/-! ### From the row to the completion -/

/-- What a bundle asks for when it has no branch and no SLEEP. -/
def goesOn (next : Nat) : After := ⟨next, false, none, none, 0⟩

/-- The effects of a syllable's bundle on registers. -/
def effects (s : State) (cls op : Nat) (x : Syl) (act : List Sy) : State :=
  (act.flatMap (writes (gathered s cls op x) (s.nextPc x))).foldl apply (gathered s cls op x)

section
variable {s : State} {cls op : Nat} {x : Syl} {act : List Sy} (h : s.canIssue cls op x = true)
  (hact : [only cls op x].filter (active (gathered s cls op x)) = act) (hrep : isRep (only cls op x) = false)
  (hpre : preExc (gathered s cls op x) s.dx.pc (wordsOf x) [only cls op x] = none) (hlong : hasLong act = false)
  (hacc : act.findSome? (accOf (gathered s cls op x)) = none)
  (hres : ∀ w ∈ act.flatMap (writes (gathered s cls op x) (s.nextPc x)), isResult w = true)
include h hact hrep hpre hlong hacc hres

/-- A bundle of one legal syllable that raises nothing, makes no access and writes registers alone. -/
theorem syllable_effects :
    syllable s cls op x =
      finish (effects s cls op x act) (act.foldl (afterOne (gathered s cls op x) s.dx.pc) (goesOn (s.nextPc x)))
        (1 + crossing s.dx.pc (wordsOf x)) (stallOf (gathered s cls op x) act) false (s.on CORE_STATUS_EL) := by
  obtain ⟨hcalm, -, -, hloads, -⟩ := quiet_parts (quiet_of_canIssue h)
  have hland : xk (landLoads (effects s cls op x act)) (fun d => { d with loads := [] }) = effects s cls op x act := by
    have hnone : (effects s cls op x act).dx.loads = [] := (onlyRegs_applyAll hres _).loads.trans hloads
    have hdx : { (effects s cls op x act).dx with loads := [] } = (effects s cls op x act).dx := by rw [← hnone]
    rw [landLoads_none hnone]
    exact congrArg (fun d => { effects s cls op x act with dx := d }) hdx
  have hissue : issue (gathered s cls op x) s.dx.pc (s.nextPc x) (wordsOf x) [only cls op x] none =
      effects s cls op x act := by
    rw [issue_short hpre hact hlong rfl hcalm.prog hacc, complete_results (s := gathered s cls op x) hres [] rfl hcalm.shadow]
    exact hland
  rw [syllable_only s cls op x h]
  unfold runOne
  simp only [List.find?_cons, hrep, List.find?_nil, hact, hissue, hlong, Bool.false_eq_true, if_false]
  rfl

/-- Where it neither traps nor returns nor sleeps, it completes with its effects and goes to the address asked for. -/
theorem exec_effects {i : Instr} (hi : coreSyl i = some (cls, op, x)) {f : After}
    (hf : act.foldl (afterOne (gathered s cls op x) s.dx.pc) (goesOn (s.nextPc x)) = f) (htrap : f.trap = none)
    (hrete : f.rete = false) (hsleep : f.sleep = none) :
    ∃ free cyc, exec i s = .next (completed s (effects s cls op x act) (f.next % 2 ^ 32) free cyc) := by
  obtain ⟨hcalm, hpor, hbundle, -⟩ := quiet_parts (quiet_of_canIssue h)
  have hregs : OnlyRegs (gathered s cls op x) (effects s cls op x act) := onlyRegs_applyAll hres _
  obtain ⟨free, cyc, hadv⟩ := advanced_eq_completed hbundle hregs f.next (1 + crossing s.dx.pc (wordsOf x) + f.cost)
    (stallOf (gathered s cls op x) act)
  refine ⟨free, cyc, ?_⟩
  rw [exec_syllable hpor hi, syllable_effects h hact hrep hpre hlong hacc hres, hf,
    finish_advances hregs.gone (hregs.stores.trans hcalm.stores) (hregs.drain.trans hcalm.drain) _ _ _ _ hsleep]
  simp only [htrap, hrete, Bool.false_eq_true, if_false, hadv]

end

/-- The same for a syllable whose predicate holds. -/
theorem filter_active {s : State} {x : Syl} (hg : s.guarded x = true) (cls op : Nat) :
    [only cls op x].filter (active (gathered s cls op x)) = [only cls op x] :=
  List.filter_eq_self.mpr fun y hy => by
    obtain rfl := List.mem_singleton.mp hy
    exact hg

/-- A syllable of the ALU or MAC classes with its predicate 1 completes with what it writes (R107, R115). -/
theorem exec_unit {s : State} {i : Instr} {cls op : Nat} {x : Syl} (hi : coreSyl i = some (cls, op, x))
    (hcls : cls ∈ [0, 1, 3, 4]) (h : s.canIssue cls op x = true) (hg : s.guarded x = true)
    (hres : ∀ w ∈ writes (gathered s cls op x) (s.nextPc x) (only cls op x), isResult w = true) :
    ∃ free cyc, exec i s = .next (completed s
      ((writes (gathered s cls op x) (s.nextPc x) (only cls op x)).foldl apply (gathered s cls op x)) (s.nextPc x) free cyc) := by
  obtain ⟨-, -, hfetch⟩ := canFetch_parts (canIssue_split h).1
  have hother : cls ≠ 2 ∧ cls ≠ 5 ∧ cls ≠ 6 := by
    simp only [List.mem_cons, List.not_mem_nil, or_false] at hcls
    omega
  obtain ⟨h2, h5, h6⟩ := hother
  have hpre := preExc_plain (gathered s cls op x) cls op x s.dx.pc (wordsOf x) hcls ((fetchRefused_xk s _ _ _).trans hfetch.guard)
  have hrep : isRep (only cls op x) = false := by simp [isRep, only, h6]
  have hlong : hasLong [only cls op x] = false := by simp [hasLong, longKind, isCustom, only, h2, h6]
  have hacc : [only cls op x].findSome? (accOf (gathered s cls op x)) = none := by simp [accOf, only, h2]
  have hf : [only cls op x].foldl (afterOne (gathered s cls op x) s.dx.pc) (goesOn (s.nextPc x)) = goesOn (s.nextPc x) := by
    simp [afterOne, isSleep, only, h5, h6]
  obtain ⟨free, cyc, hexec⟩ := exec_effects h (filter_active hg cls op) hrep hpre hlong hacc (by simpa using hres) hi hf rfl rfl rfl
  refine ⟨free, cyc, ?_⟩
  rw [hexec, show (goesOn (s.nextPc x)).next % 2 ^ 32 = s.nextPc x from nextPc_mod s x]
  simp [effects]

end Sys2Proof.Machine.InstructionSet
end

section
/-! The rows of the ALU classes: results, compares and predicate operations (R107 to R109). -/

namespace Sys2Proof.Machine.InstructionSet

open Sys2Proof Sys2Proof.Machine

/-! ### A row that writes one general register -/

/-- A bundle that writes one general register, and whatever register fields, changes nothing else. -/
theorem wroteReg_fields {s u : State} {cls op : Nat} {x : Syl} {d : Nat} {v : Word} (free cyc : Nat) (hd : d < 32)
    (hshadow : s.dx.armShadow = false) (hu : u.dx = (wg (gathered s cls op x) d v).dx) :
    wroteReg { s with regs := u.regs } (completed s u (s.nextPc x) free cyc) x d v := by
  have hgathered : (gathered s cls op x).dx.armShadow = false := hshadow
  have hrd : ∀ r, r < 32 → rd (completed s u (s.nextPc x) free cyc) r = rd (wg (gathered s cls op x) d v) r := fun r hr => by
    rw [rd_plain hr (s := completed s u (s.nextPc x) free cyc) hshadow, rd_plain hr ((wg_armShadow _ d v).trans hgathered), ← hu]
    rfl
  refine ⟨?_, fun r hne hr => ?_, rfl, ?_⟩
  · rw [hrd d hd, rd_wg_same v hd hgathered]
  · rw [hrd r hr, rd_wg_ne v hne hr hd hgathered, rd_plain hr hgathered, rd_plain (s := { s with regs := u.regs }) hr hshadow]
    rfl
  · simp only [completed, hu, wg_acc]
    rfl

/-- One that writes a general register alone. -/
theorem wroteReg_completed {s : State} {cls op : Nat} {x : Syl} {d : Nat} (v : Word) (free cyc : Nat) (hd : d < 32)
    (hshadow : s.dx.armShadow = false) :
    wroteReg s (completed s (wg (gathered s cls op x) d v) (s.nextPc x) free cyc) x d v := by
  have hregs : { s with regs := (wg (gathered s cls op x) d v).regs } = s := by rw [wg_regs v hd]; rfl
  have hwrote := wroteReg_fields (x := x) free cyc hd hshadow (rfl : (wg (gathered s cls op x) d v).dx = _)
  rwa [hregs] at hwrote

/-- A row whose legal forms write g[D] alone. -/
theorem regGives_of_writes {i : Bool → Syl → Instr} {cls : Bool → Nat} {op : Nat} {v : State → Syl → Word}
    (hi : ∀ u x, coreSyl (i u x) = some (cls u, op, x)) (hcls : ∀ u, cls u ∈ [0, 1, 3, 4])
    (hw : ∀ (s : State) (u : Bool) (x : Syl) (next : Nat), sylLegal (cls u) op x = true →
      writes (gathered s (cls u) op x) next (only (cls u) op x) = [.g x.d.toNat (v s x)]) : regGives i cls op v := by
  intro s u x h hg
  have hwrites := hw s u x (s.nextPc x) (canIssue_split h).2
  have hshadow : (gathered s (cls u) op x).dx.armShadow = false := (calm_of_canIssue h).shadow
  obtain ⟨free, cyc, hexec⟩ := exec_unit (hi u x) (hcls u) h hg (by simp [hwrites, isResult])
  refine ⟨_, hexec, ?_⟩
  rw [hwrites, List.foldl_cons, List.foldl_nil, apply_g _ _ rfl hshadow]
  exact wroteReg_completed (v s x) free cyc x.d.isLt hshadow

/-! ### Operands and results of the ALU (R90, R107) -/

/-- The right operand of an ALU row: its immediate, or g[B]. -/
def aluRhs (s : State) (op : Nat) (x : Syl) : Word := if aluImm op then immI x else gB s x

theorem aluCls_mem (u : Bool) : aluCls u ∈ [0, 1, 3, 4] := by cases u <;> decide

theorem sylLegal_aluCls (u : Bool) (op : Nat) (x : Syl) : sylLegal (aluCls u) op x = sylLegal 0 op x := by cases u <;> rfl

theorem writes_aluCls (s : State) (next : Nat) (u : Bool) (op : Nat) (x : Syl) :
    writes s next (only (aluCls u) op x) = aluWrites s (only (aluCls u) op x) := by cases u <;> rfl

/-- A legal ALU syllable: no LIMM where its row has none, and the fields as the row asks. -/
theorem sylLegal_alu {op : Nat} {x : Syl} (h : sylLegal 0 op x = true) :
    (limmOk 0 op = false → x.limm = none) ∧ aluLegal op x = true := by
  simp only [sylLegal, Bool.and_eq_true, Bool.or_eq_true, Option.isNone_iff_eq_none] at h
  obtain ⟨hlimm, hfields⟩ := h
  exact ⟨fun hno => hlimm.resolve_right (by simp [hno]), hfields⟩

/-- A row below 0x28 gives g[D] the result of `aluOf`. -/
theorem regGives_alu {i : Bool → Syl → Instr} {op : Nat} {v : State → Syl → Word}
    (hi : ∀ u x, coreSyl (i u x) = some (aluCls u, op, x)) (hop : op < 0x28)
    (hv : ∀ (s : State) (x : Syl), sylLegal 0 op x = true →
      aluOf op x.mod.toNat (pd s (x.mod.toNat % 8)) (gA s x) (aluRhs s op x) = v s x) : regGives i aluCls op v := by
  refine regGives_of_writes hi aluCls_mem fun s u x next hlegal => ?_
  rw [sylLegal_aluCls] at hlegal
  rw [writes_aluCls, ← hv s x hlegal]
  have hres : ∀ y : Sy, y.op < 0x28 → aluWrites s y = [.g y.d (aluOf y.op (fM y.x) (pd s (fM y.x % 8)) (rd s y.a)
      (if aluImm y.op then immOf 9 y.x (imm9 y.x) else rd s y.b))] := fun y hy => by simp [aluWrites, hy]
  exact hres (only (aluCls u) op x) hop

/-- The model's clamp is the nearest value of the range (R109). -/
theorem ofInt_clamp32 (i : Int) : BitVec.ofInt 32 (clamp32 i) = satWord i := by
  unfold clamp32 satWord
  split
  · next h =>
    have hmax : max (-(2 ^ 31 : Int)) (min i (2 ^ 31 - 1)) = 2 ^ 31 - 1 := by omega
    rw [hmax]
    rfl
  · split
    · next h =>
      have hmin : max (-(2 ^ 31 : Int)) (min i (2 ^ 31 - 1)) = -(2 ^ 31) := by omega
      rw [hmin]
      rfl
    · next h =>
      have hin : max (-(2 ^ 31 : Int)) (min i (2 ^ 31 - 1)) = i := by omega
      rw [hin]

theorem sum32_eq (sat : Bool) (i : Int) : sum32 sat i = if sat then satWord i else BitVec.ofInt 32 i := by
  cases sat
  · rfl
  · exact ofInt_clamp32 i

theorem ofInt_sub_toInt (x y : Word) : BitVec.ofInt 32 (x.toInt - y.toInt) = x - y := by
  rw [Int.sub_eq_add_neg, BitVec.ofInt_add, BitVec.ofInt_neg, BitVec.ofInt_toInt, BitVec.ofInt_toInt, BitVec.sub_eq_add_neg]

/-- A shift left is the product with the power of two, wrapped. -/
theorem ofInt_mul_two_pow (x : Word) (n : Nat) : BitVec.ofInt 32 (x.toInt * (2 ^ n : Nat)) = x <<< n := by
  rw [BitVec.ofInt_mul, BitVec.ofInt_toInt, BitVec.shiftLeft_eq_mul_twoPow, BitVec.ofInt_natCast]
  congr 1
  apply BitVec.eq_of_toNat_eq
  rw [BitVec.toNat_twoPow, BitVec.toNat_ofNat]

/-! ### Fields of numbers (R90) -/

/-- The two's complement reading of the low bits is that of the bit vector. -/
theorem sgn_eq_toInt {w : Nat} (hw : 0 < w) (v : Nat) : sgn w v = (BitVec.ofNat w v).toInt := by
  obtain ⟨k, rfl⟩ : ∃ k, w = k + 1 := ⟨w - 1, by omega⟩
  have hpow : 2 ^ (k + 1) = 2 * 2 ^ k := by rw [Nat.pow_succ, Nat.mul_comm]
  unfold sgn
  rw [BitVec.toInt_eq_toNat_cond, BitVec.toNat_ofNat, Nat.add_sub_cancel]
  dsimp only
  split <;> split <;> omega

theorem imm9_lt (x : Syl) : imm9 x < 512 := by
  have hb := x.b.isLt
  have hm := x.mod.isLt
  unfold imm9 fB fM
  omega

/-- Without a LIMM the immediate is the nine-bit field, sign-extended: its low nine bits are the field's. -/
theorem immI_mod {x : Syl} (h : x.limm = none) : (immI x).toNat % 512 = imm9 x := by
  have hlt := imm9_lt x
  unfold immI immOf sgn
  rw [h]
  simp only [BitVec.toNat_ofInt, Nat.mod_eq_of_lt (show imm9 x < 2 ^ 9 from hlt)]
  split <;> omega

/-- The shift amount of the immediate shifts. -/
theorem shiftAmount {x : Syl} (h : x.limm = none) (hlt : imm9 x < 32) : (immI x).toNat % 32 = imm9 x := by
  have hmod := immI_mod h
  omega

end Sys2Proof.Machine.InstructionSet
end

section
/-! The results of the ALU rows, one by one. -/

namespace Sys2Proof.Machine.InstructionSet

open Sys2Proof Sys2Proof.Machine

/-- The amount of an immediate shift is its field: a legal form has no LIMM and an amount below 32 (R107). -/
theorem immShift {op : Nat} {x : Syl} (hop : op ∈ [0x11, 0x13, 0x15, 0x17]) (h : sylLegal 0 op x = true) :
    (immI x).toNat % 32 = imm9 x := by
  obtain ⟨hlimm, hfields⟩ := sylLegal_alu h
  simp only [List.mem_cons, List.not_mem_nil, or_false] at hop
  have hlt : imm9 x < 32 := by rcases hop with rfl | rfl | rfl | rfl <;> simpa [aluLegal] using hfields
  refine shiftAmount (hlimm ?_) hlt
  rcases hop with rfl | rfl | rfl | rfl <;> rfl

/-- Settles O6: each row is `regGives_alu`; the sums saturate by `sum32_eq` and wrap as BitVec does, the immediate shifts have
`immShift`, and the other results are the model's own. -/
theorem aluResults : Obligations.AluResults := by
  refine ⟨⟨?add, ?sub, ?addi, ?addis, ?rsubi, ?neg, ?abs⟩, ?and, ?andi, ?or, ?ori, ?xor, ?xori, ?andn, ?not, ?shl, ?shli, ?shr,
    ?shri, ?sar, ?sari, ?ror, ?rori⟩
  case add =>
    refine regGives_alu (fun _ _ => rfl) (by decide) fun s x _ => ?_
    change sum32 (satBit x) ((gA s x).toInt + (gB s x).toInt) = _
    rw [sum32_eq, BitVec.ofInt_add, BitVec.ofInt_toInt, BitVec.ofInt_toInt]
  case sub =>
    refine regGives_alu (fun _ _ => rfl) (by decide) fun s x _ => ?_
    change sum32 (satBit x) ((gA s x).toInt - (gB s x).toInt) = _
    rw [sum32_eq, ofInt_sub_toInt]
  case addi => exact regGives_alu (fun _ _ => rfl) (by decide) fun s x _ => rfl
  case addis =>
    refine regGives_alu (fun _ _ => rfl) (by decide) fun s x _ => ?_
    exact sum32_eq true ((gA s x).toInt + (immI x).toInt)
  case rsubi => exact regGives_alu (fun _ _ => rfl) (by decide) fun s x _ => rfl
  case neg =>
    refine regGives_alu (fun _ _ => rfl) (by decide) fun s x _ => ?_
    change sum32 (satBit x) (-(gA s x).toInt) = _
    rw [sum32_eq, BitVec.ofInt_neg, BitVec.ofInt_toInt]
  case abs =>
    refine regGives_alu (fun _ _ => rfl) (by decide) fun s x _ => ?_
    change sum32 (satBit x) (if (gA s x).toInt < 0 then -(gA s x).toInt else (gA s x).toInt) = _
    rw [sum32_eq, apply_ite (BitVec.ofInt 32), BitVec.ofInt_neg, BitVec.ofInt_toInt]
  case shl =>
    refine regGives_alu (fun _ _ => rfl) (by decide) fun s x _ => ?_
    change sum32 (satBit x) ((gA s x).toInt * (2 ^ shB s x : Nat)) = _
    rw [sum32_eq, ofInt_mul_two_pow]
    simp
  case shli =>
    refine regGives_alu (fun _ _ => rfl) (by decide) fun s x hlegal => ?_
    exact congrArg (gA s x <<< ·) (immShift (by decide) hlegal)
  case shri =>
    refine regGives_alu (fun _ _ => rfl) (by decide) fun s x hlegal => ?_
    exact congrArg (gA s x >>> ·) (immShift (by decide) hlegal)
  case sari =>
    refine regGives_alu (fun _ _ => rfl) (by decide) fun s x hlegal => ?_
    exact congrArg (gA s x).sshiftRight (immShift (by decide) hlegal)
  case rori =>
    refine regGives_alu (fun _ _ => rfl) (by decide) fun s x hlegal => ?_
    exact congrArg (gA s x).rotateRight (immShift (by decide) hlegal)
  all_goals exact regGives_alu (fun _ _ => rfl) (by decide) fun s x _ => rfl

/-! ### Minimum and maximum, fields and leading zeros (R107) -/

theorem ofInt_min (x y : Word) : (if x.toInt ≤ y.toInt then x else y) = BitVec.ofInt 32 (min x.toInt y.toInt) := by
  split
  · next h => rw [min_eq_left h, BitVec.ofInt_toInt]
  · next h => rw [min_eq_right (by omega), BitVec.ofInt_toInt]

theorem ofInt_max (x y : Word) : (if x.toInt ≤ y.toInt then y else x) = BitVec.ofInt 32 (max x.toInt y.toInt) := by
  split
  · next h => rw [max_eq_right h, BitVec.ofInt_toInt]
  · next h => rw [max_eq_left (by omega), BitVec.ofInt_toInt]

theorem ofNat_min (x y : Word) : (if x ≤ y then x else y) = BitVec.ofNat 32 (min x.toNat y.toNat) := by
  split
  · next h => rw [min_eq_left (BitVec.le_def.mp h), BitVec.ofNat_toNat, BitVec.setWidth_eq]
  · next h => rw [min_eq_right (by rw [BitVec.le_def] at h; omega), BitVec.ofNat_toNat, BitVec.setWidth_eq]

theorem ofNat_max (x y : Word) : (if x ≤ y then y else x) = BitVec.ofNat 32 (max x.toNat y.toNat) := by
  split
  · next h => rw [max_eq_right (BitVec.le_def.mp h), BitVec.ofNat_toNat, BitVec.setWidth_eq]
  · next h => rw [max_eq_left (by rw [BitVec.le_def] at h; omega), BitVec.ofNat_toNat, BitVec.setWidth_eq]

/-- The number of leading zeros. -/
def leadingZeros (x : Word) : Nat := if x = 0 then 32 else 31 - topBit x.toNat

/-- A word with `n` leading zeros lies below 2^(32-n), and from 2^(31-n) where `n` is below 32. -/
theorem leadingZeros_spec (x : Word) :
    leadingZeros x ≤ 32 ∧ x.toNat < 2 ^ (32 - leadingZeros x) ∧
      (leadingZeros x < 32 → 2 ^ (31 - leadingZeros x) ≤ x.toNat) := by
  unfold leadingZeros
  split
  · next h => subst h; decide
  · next h =>
    have hne : x.toNat ≠ 0 := fun e => h (BitVec.eq_of_toNat_eq e)
    have htop : topBit x.toNat ≤ 31 := by
      have hlog : Nat.log2 x.toNat < 32 := (Nat.log2_lt hne).mpr x.isLt
      unfold topBit
      omega
    have hhigh : 32 - (31 - topBit x.toNat) = topBit x.toNat + 1 := by omega
    have hlow : 31 - (31 - topBit x.toNat) = topBit x.toNat := by omega
    rw [hhigh, hlow]
    exact ⟨by omega, Nat.lt_log2_self, fun _ => Nat.log2_self_le hne⟩

/-- The immediate of EXTU and EXTS gives the position and the width less one (R107). -/
theorem fieldPlace {op : Nat} {x : Syl} (hop : op = 0x1E ∨ op = 0x1F) (h : sylLegal 0 op x = true) :
    (immI x).toNat / 16 % 32 = imm9 x / 16 ∧ (immI x).toNat % 16 = imm9 x % 16 := by
  have hlimm : x.limm = none := (sylLegal_alu h).1 (by rcases hop with rfl | rfl <;> rfl)
  have hmod := immI_mod hlimm
  omega

theorem extuOf_eq (pos n : Nat) (x : Word) : extuOf pos n x = ((x >>> pos).setWidth n).setWidth 32 := by
  apply BitVec.eq_of_toNat_eq
  simp [extuOf, Nat.shiftRight_eq_div_pow]

theorem extsOf_eq {n : Nat} (pos : Nat) (hn : 0 < n) (x : Word) : extsOf pos n x = ((x >>> pos).setWidth n).signExtend 32 := by
  have hfield : BitVec.ofNat n (x.toNat / 2 ^ pos % 2 ^ n) = (x >>> pos).setWidth n := by
    apply BitVec.eq_of_toNat_eq
    simp [Nat.shiftRight_eq_div_pow]
  unfold extsOf
  rw [sgn_eq_toInt hn, hfield]
  rfl

/-- XTN by MOD[1:0], the zero extensions as masks. -/
theorem xtnOf_eq {m : Nat} (hm : m < 4) (x : Word) :
    xtnOf m x = if m = 0 then (x.setWidth 8).signExtend 32 else if m = 1 then (x.setWidth 16).signExtend 32
      else if m = 2 then x &&& 0xFF else x &&& 0xFFFF := by
  interval_cases m
  · rfl
  · rfl
  · apply BitVec.eq_of_toNat_eq
    have hmask : x.toNat &&& 255 = x.toNat % 2 ^ 8 := Nat.and_two_pow_sub_one_eq_mod x.toNat 8
    have hlt := x.isLt
    simp [xtnOf, hmask]
    omega
  · apply BitVec.eq_of_toNat_eq
    have hmask : x.toNat &&& 65535 = x.toNat % 2 ^ 16 := Nat.and_two_pow_sub_one_eq_mod x.toNat 16
    have hlt := x.isLt
    simp [xtnOf, hmask]
    omega

/-- Settles O7: each row is `regGives_alu`, with `leadingZeros_spec` for CLZ. -/
theorem aluSelections : Obligations.AluSelections := by
  refine ⟨?min, ?max, ?minu, ?maxu, ?clz, ?xtn, ?extu, ?exts, ?mov, ?movi, ?sel⟩
  case min => exact regGives_alu (fun _ _ => rfl) (by decide) fun s x _ => ofInt_min (gA s x) (gB s x)
  case max => exact regGives_alu (fun _ _ => rfl) (by decide) fun s x _ => ofInt_max (gA s x) (gB s x)
  case minu => exact regGives_alu (fun _ _ => rfl) (by decide) fun s x _ => ofNat_min (gA s x) (gB s x)
  case maxu => exact regGives_alu (fun _ _ => rfl) (by decide) fun s x _ => ofNat_max (gA s x) (gB s x)
  case clz =>
    intro s u x h hg
    have hgives : regGives .clz aluCls 0x1C fun s x => BitVec.ofNat 32 (leadingZeros (gA s x)) :=
      regGives_alu (fun _ _ => rfl) (by decide) fun s x _ => rfl
    obtain ⟨t, hexec, hwrote⟩ := hgives s u x h hg
    obtain ⟨hle, hlow, hhigh⟩ := leadingZeros_spec (gA s x)
    exact ⟨t, leadingZeros (gA s x), hexec, hle, hlow, hhigh, hwrote⟩
  case xtn => exact regGives_alu (fun _ _ => rfl) (by decide) fun s x _ => xtnOf_eq (Nat.mod_lt _ (by decide)) (gA s x)
  case extu =>
    refine regGives_alu (fun _ _ => rfl) (by decide) fun s x hlegal => ?_
    obtain ⟨hpos, hwidth⟩ := fieldPlace (.inl rfl) hlegal
    change extuOf ((immI x).toNat / 16 % 32) ((immI x).toNat % 16 + 1) (gA s x) = _
    rw [hpos, hwidth, extuOf_eq]
  case exts =>
    refine regGives_alu (fun _ _ => rfl) (by decide) fun s x hlegal => ?_
    obtain ⟨hpos, hwidth⟩ := fieldPlace (.inr rfl) hlegal
    change extsOf ((immI x).toNat / 16 % 32) ((immI x).toNat % 16 + 1) (gA s x) = _
    rw [hpos, hwidth, extsOf_eq _ (Nat.succ_pos _)]
  case sel =>
    refine regGives_alu (fun _ _ => rfl) (by decide) fun s x hlegal => ?_
    have hlt : x.mod.toNat < 8 := of_decide_eq_true (sylLegal_alu hlegal).2
    rw [Nat.mod_eq_of_lt hlt]
    rfl
  all_goals exact regGives_alu (fun _ _ => rfl) (by decide) fun s x _ => rfl

end Sys2Proof.Machine.InstructionSet
end

section
/-! Compares and predicate operations (R95, R107, R108). -/

namespace Sys2Proof.Machine.InstructionSet

open Sys2Proof Sys2Proof.Machine

/-! ### Bits of a register field -/

theorem bitOf_eq_testBit (v i : Nat) : bitOf v i = v.testBit i := by
  rw [bitOf, Nat.testBit_eq_decide_div_mod_eq]
  rfl

/-- Taking out the bits two numbers share leaves the other bits of the first. -/
theorem testBit_sub_and (v m i : Nat) : (v - (v &&& m)).testBit i = (v.testBit i && !m.testBit i) := by
  have hparity : ∀ v m : Nat, (v &&& m) % 2 = 1 ↔ v % 2 = 1 ∧ m % 2 = 1 := fun v m => by
    simp
  induction i generalizing v m with
  | zero =>
    have hle : v &&& m ≤ v := Nat.and_le_left
    have hbit := hparity v m
    rw [Nat.testBit_zero, Nat.testBit_zero, Nat.testBit_zero, ← decide_not, ← Bool.decide_and, decide_eq_decide]
    omega
  | succ i ih =>
    have hle : v &&& m ≤ v := Nat.and_le_left
    have hbit := hparity v m
    have hhalf : (v - (v &&& m)) / 2 = v / 2 - (v / 2 &&& m / 2) := by
      rw [← Nat.and_div_two]
      omega
    rw [Nat.testBit_add_one, hhalf, ih, ← Nat.testBit_add_one, ← Nat.testBit_add_one]

theorem bit_eq_testBit (s : State) (f : Fld) (i : Nat) : s.bit f i = (s.get f).testBit i := bitOf_eq_testBit _ _

/-- A bit of a field after a write. -/
theorem bit_put_same (s : State) (f : Fld) (v i : Nat) : (s.put f v).bit f i = (decide (i < f.w) && v.testBit i) := by
  rw [bit_eq_testBit, get_put_self, Nat.testBit_mod_two_pow]

/-- Bit `j` of CORE_PRED's writable predicates after a write of predicate `i`. -/
theorem bit_wp (s : State) {i j : Nat} (v : Bool) (hi : i ≠ 0) (hj : j < 7) :
    (wp s i v).bit CORE_PRED_P1_P7 j = if j = i - 1 then v else s.bit CORE_PRED_P1_P7 j := by
  have hwidth : decide (j < CORE_PRED_P1_P7.w) = true := decide_eq_true hj
  have hpow : (2 ^ (i - 1)).testBit j = decide (j = i - 1) := by
    rw [Nat.testBit_two_pow, decide_eq_decide]
    exact eq_comm
  unfold wp State.setBit State.clrBits
  rw [if_neg hi]
  cases v
  · simp only [Bool.false_eq_true, if_false, bit_put_same, hwidth, testBit_sub_and, hpow, bit_eq_testBit s]
    split <;> simp_all
  · simp only [if_true, bit_put_same, hwidth, Nat.testBit_or, hpow, bit_eq_testBit s]
    split <;> simp_all

/-- A predicate reads what was written to it; p0 reads 1. -/
theorem pd_wp_same (s : State) {i : Nat} (v : Bool) (hi : i < 8) : pd (wp s i v) i = (i == 0 || v) := by
  by_cases h : i = 0
  · simp [pd, h]
  · simp [pd, bit_wp s v h (show i - 1 < 7 by omega)]

/-- Another predicate keeps its value. -/
theorem pd_wp_ne (s : State) {i j : Nat} (v : Bool) (hne : j ≠ i) (hj : j < 8) : pd (wp s i v) j = pd s j := by
  by_cases hi : i = 0
  · simp [wp, hi]
  · by_cases h : j = 0
    · simp [pd, h]
    · have hplace : ¬ j - 1 = i - 1 := by omega
      simp [pd, bit_wp s v hi (show j - 1 < 7 by omega), hplace]

/-- A write of a predicate leaves every other register field. -/
theorem wp_get (s : State) (i : Nat) (v : Bool) {f : Fld} (h : f.key ≠ CORE_PRED_P1_P7.key) : (wp s i v).get f = s.get f := by
  unfold wp
  split
  · rfl
  · split <;> exact get_put_ne _ _ _ _ h

theorem wp_dx (s : State) (i : Nat) (v : Bool) : (wp s i v).dx = s.dx := by
  unfold wp
  split
  · rfl
  · split <;> rfl

/-- A bundle that writes one predicate changes nothing else. -/
theorem wrotePred_completed {s : State} {cls op : Nat} {x : Syl} {i : Nat} (v : Bool) (free cyc : Nat) (hi : i < 8) :
    wrotePred s (completed s (wp (gathered s cls op x) i v) (s.nextPc x) free cyc) x i v := by
  refine ⟨?_, fun j hne hj => ?_, rfl, fun f hf => ?_, ?_⟩
  · exact pd_wp_same (gathered s cls op x) v hi
  · exact pd_wp_ne (gathered s cls op x) v hne hj
  · exact wp_get (gathered s cls op x) i v hf
  · simp only [completed, wp_dx]
    rfl

/-- A row whose legal forms write predicate `i` alone completes so. -/
theorem exec_pred {i : Bool → Syl → Instr} {op : Nat} {s : State} {u : Bool} {x : Syl} {k : Nat} {v : Bool}
    (hi : coreSyl (i u x) = some (aluCls u, op, x)) (h : s.canIssue (aluCls u) op x = true) (hg : s.guarded x = true)
    (hk : k < 8) (hw : aluWrites s (only (aluCls u) op x) = [.p k v]) :
    ∃ t, exec (i u x) s = .next t ∧ wrotePred s t x k v := by
  have hwrites : writes (gathered s (aluCls u) op x) (s.nextPc x) (only (aluCls u) op x) = [.p k v] :=
    (writes_aluCls _ _ u op x).trans hw
  obtain ⟨free, cyc, hexec⟩ := exec_unit hi (aluCls_mem u) h hg (by simp [hwrites, isResult])
  refine ⟨_, hexec, ?_⟩
  rw [hwrites, List.foldl_cons, List.foldl_nil, apply_p _ _ rfl]
  exact wrotePred_completed v free cyc hk

/-- The combine modes (R108). -/
theorem combine_eq (m : Nat) (p c : Bool) :
    combine m p c = if m = 0 then c else if m = 1 then p && c else p || c := by
  match m with
  | 0 => rfl
  | 1 => rfl
  | _ + 2 => rfl

/-- A compare row. -/
theorem cmpGives_alu {i : Bool → Syl → Instr} {op : Nat} {c : State → Syl → Bool}
    (hi : ∀ u x, coreSyl (i u x) = some (aluCls u, op, x)) (hlow : 0x28 ≤ op) (hhigh : op < 0x38)
    (hc : ∀ (s : State) (x : Syl), cmpOf op (gA s x) (aluRhs s op x) = c s x) : cmpGives i op c := by
  intro s u x h hg
  have hwrites : ∀ y : Sy, 0x28 ≤ y.op → y.op < 0x38 → aluWrites s y = [.p (fD y.x % 8)
      (combine (fD y.x / 8) (pd s (fD y.x % 8))
        (cmpOf y.op (rd s y.a) (if aluImm y.op then immOf 9 y.x (imm9 y.x) else rd s y.b)))] := by
    intro y h1 h2
    simp [aluWrites, Nat.not_lt.mpr h1, h2]
  refine exec_pred (hi u x) h hg (Nat.mod_lt _ (by decide)) ((hwrites _ hlow hhigh).trans ?_)
  rw [← hc s x, ← combine_eq]
  rfl

/-- A predicate operation. -/
theorem predGives_alu {i : Bool → Syl → Instr} {op : Nat} {v : Bool → Bool → Bool}
    (hi : ∀ u x, coreSyl (i u x) = some (aluCls u, op, x)) (hlow : 0x38 ≤ op)
    (hd : ∀ x, sylLegal 0 op x = true → x.d.toNat < 8) (hv : ∀ a b, predOf op a b = v a b) : predGives i op v := by
  intro s u x h hg
  have hlegal := (canIssue_split h).2
  rw [sylLegal_aluCls] at hlegal
  have hwrites : ∀ y : Sy, 0x38 ≤ y.op → aluWrites s y = [.p (fD y.x) (predOf y.op (pd s (fA y.x)) (pd s (fB y.x)))] := by
    intro y h1
    have h2 : ¬ y.op < 0x28 := by omega
    simp [aluWrites, Nat.not_lt.mpr h1, h2]
  refine exec_pred (hi u x) h hg (hd x hlegal) ((hwrites _ hlow).trans ?_)
  rw [← hv]
  rfl

/-- Settles O8: a compare is `cmpGives_alu` and a predicate operation `predGives_alu`, whose legal forms name p0 to p7. -/
theorem comparesAndPredicates : Obligations.ComparesAndPredicates := by
  have hsmall : ∀ {op : Nat} {x : Syl}, op ∈ [0x38, 0x39, 0x3A, 0x3B, 0x3C] → sylLegal 0 op x = true → x.d.toNat < 8 := by
    intro op x hop h
    have hfields := (sylLegal_alu h).2
    simp only [List.mem_cons, List.not_mem_nil, or_false] at hop
    change fD x < 8
    rcases hop with rfl | rfl | rfl | rfl | rfl <;> simp [aluLegal] at hfields <;> omega
  refine ⟨?eq, ?ne, ?lt, ?le, ?ltu, ?leu, ?eqi, ?nei, ?lti, ?lei, ?ltui, ?leui, ?pand, ?por, ?pxor, ?pandn, ?pnot⟩
  case pand | por | pxor | pandn | pnot =>
    exact predGives_alu (fun _ _ => rfl) (by decide) (fun x => hsmall (by decide)) fun _ _ => rfl
  all_goals exact cmpGives_alu (fun _ _ => rfl) (by decide) (by decide) fun _ _ => rfl

end Sys2Proof.Machine.InstructionSet
end

section
/-! The rows of the MAC classes that multiply and move accumulators (R115, R121, R123, R125). -/

namespace Sys2Proof.Machine.InstructionSet

open Sys2Proof Sys2Proof.Machine

theorem macCls_mem (u : Bool) : macCls u ∈ [0, 1, 3, 4] := by cases u <;> decide

theorem sylLegal_macCls (u : Bool) (op : Nat) (x : Syl) : sylLegal (macCls u) op x = sylLegal 3 op x := by cases u <;> rfl

theorem writes_macCls (s : State) (next : Nat) (u : Bool) (op : Nat) (x : Syl) :
    writes s next (only (macCls u) op x) = macWrites s (only (macCls u) op x) := by cases u <;> rfl

theorem macLegal_of_sylLegal {op : Nat} {x : Syl} (h : sylLegal 3 op x = true) : macLegal op x = true :=
  (Bool.and_eq_true _ _ ▸ h).2

/-! ### Rows that write g[D] -/

/-- A MAC row that writes g[D] alone. -/
theorem regGives_mac {i : Bool → Syl → Instr} {op : Nat} {v : State → Syl → Word}
    (hi : ∀ u x, coreSyl (i u x) = some (macCls u, op, x))
    (hw : ∀ (s : State) (cls : Nat) (x : Syl), macWrites s (only cls op x) = [.g x.d.toNat (v s x)]) : regGives i macCls op v :=
  regGives_of_writes hi macCls_mem fun s u x next _ => (writes_macCls _ next u op x).trans (hw s (macCls u) x)

/-! ### Rows that set an accumulator -/

/-- Nothing sticky was met and no register field changed. -/
theorem sticky_none (s : State) {t : State} (h : t.regs = s.regs) : sticky s t false false := by
  have hget : ∀ f : Fld, t.get f = s.get f := fun f => by unfold State.get; rw [h]
  refine ⟨?_, ?_, fun f _ _ => hget f⟩ <;> simp [State.on, hget]

/-- A bundle that sets one accumulator changes nothing else. -/
theorem wroteAcc_completed {s : State} {cls op : Nat} {x : Syl} {d : Nat} (v : BitVec 40) (free cyc : Nat) (hd : d < 4) :
    wroteAcc s (completed s (wa (gathered s cls op x) d v) (s.nextPc x) free cyc) x d v false false :=
  ⟨ac_wa_same (s := gathered s cls op x) v hd, fun _ hne => ac_wa_ne (gathered s cls op x) v hne, rfl, sticky_none s rfl, rfl⟩

/-- A row that sets acc[D] to bits as they are. -/
theorem accSets_mac {i : Bool → Syl → Instr} {op : Nat} {v : State → Syl → BitVec 40}
    (hi : ∀ u x, coreSyl (i u x) = some (macCls u, op, x)) (hd : ∀ x, sylLegal 3 op x = true → x.d.toNat < 4)
    (hw : ∀ (s : State) (cls : Nat) (x : Syl), macWrites s (only cls op x) = [.acc x.d.toNat (v s x)]) : accSets i op v := by
  intro s u x h hg
  have hlegal := (canIssue_split h).2
  rw [sylLegal_macCls] at hlegal
  have hwrites : writes (gathered s (macCls u) op x) (s.nextPc x) (only (macCls u) op x) = [.acc x.d.toNat (v s x)] :=
    (writes_macCls _ _ u op x).trans (hw s (macCls u) x)
  obtain ⟨free, cyc, hexec⟩ := exec_unit (hi u x) (macCls_mem u) h hg (by simp [hwrites, isResult])
  refine ⟨_, hexec, ?_⟩
  rw [hwrites, List.foldl_cons, List.foldl_nil, apply_acc _ _ rfl]
  exact wroteAcc_completed (v s x) free cyc (hd x hlegal)

/-! ### MVA (R123, R125) -/

/-- A clamp changes exactly the values outside the signed 32-bit range. -/
theorem clamp32_ne (i : Int) : (clamp32 i != i) = out32 i := by
  unfold clamp32 out32
  rw [← Bool.decide_or, bne, Bool.beq_eq_decide_eq, ← decide_not, decide_eq_decide]
  omega

/-- SATF set, and nothing else. -/
theorem sticky_satf {s t u : State} (hu : u.regs = s.regs) (ht : t.regs = (u.put CORE_DSPSTAT_SATF 1).regs) :
    sticky s t true false := by
  have hget : ∀ f : Fld, t.get f = (s.put CORE_DSPSTAT_SATF 1).get f := fun f => by
    unfold State.get State.put at *
    rw [ht, hu]
  refine ⟨?_, ?_, fun f hf _ => ?_⟩
  · simp only [State.on, hget, get_put_self, Bool.or_true]
    rfl
  · simp only [State.on, hget, get_put_ne _ _ _ _ (show CORE_DSPSTAT_OVF40.key ≠ CORE_DSPSTAT_SATF.key by decide), Bool.or_false]
  · rw [hget, get_put_ne _ _ _ _ hf]

/-- A bundle that writes g[D], and sets SATF where its value was clamped. -/
theorem wroteReg_satf {s : State} {cls op : Nat} {x : Syl} {d : Nat} (v : Word) (c : Bool) (free cyc : Nat)
    (hd : d < 32) (hshadow : s.dx.armShadow = false) :
    let u := ([Wr.g d v] ++ if c then [Wr.satf] else []).foldl apply (gathered s cls op x)
    wroteReg { s with regs := u.regs } (completed s u (s.nextPc x) free cyc) x d v ∧
      sticky s (completed s u (s.nextPc x) free cyc) c false := by
  have hg := apply_g (s := gathered s cls op x) d v rfl hshadow
  have hgone : gone (wg (gathered s cls op x) d v) = false := (onlyRegs_wg _ d v).gone
  have hregs : (wg (gathered s cls op x) d v).regs = s.regs := wg_regs v hd
  cases c
  · simp only [Bool.false_eq_true, if_false, List.append_nil, List.foldl_cons, List.foldl_nil, hg]
    exact ⟨wroteReg_fields free cyc hd hshadow rfl, sticky_none s hregs⟩
  · simp only [if_true, List.foldl_append, List.foldl_cons, List.foldl_nil, hg, apply_satf hgone]
    exact ⟨wroteReg_fields free cyc hd hshadow rfl, sticky_satf hregs rfl⟩

/-- What MVA moves and whether a clamp changed it (R121, R123). -/
theorem mvaOf_eq (guard sat : Bool) (a : BitVec 40) (n : Nat) :
    mvaOf guard sat a n = (if sat && !guard then satWord (a.toInt / 2 ^ n) else BitVec.ofInt 32 (a.toInt / 2 ^ n),
      sat && !guard && out32 (a.toInt / 2 ^ n)) := by
  have hpow : ((2 ^ n : Nat) : Int) = 2 ^ n := by norm_cast
  unfold mvaOf
  rw [hpow]
  cases sat && !guard
  · rfl
  · simp [ofInt_clamp32, clamp32_ne]

/-- Settles O9: the rows that write g[D] are `regGives_mac`, those that set acc[D] `accSets_mac`, and MVA moves `mvaOf_eq` with SATF
by `wroteReg_satf`. -/
theorem multiplyAndMoveAccumulators : Obligations.MultiplyAndMoveAccumulators := by
  refine ⟨?mul, ?mulh, ?mulhu, ?muli, ?mvag, ?mvta, ?mvtag, ?aclr, ?mva⟩
  case mul | mulh | mulhu | muli | mvag => exact regGives_mac (fun _ _ => rfl) fun s cls x => rfl
  case mvta | mvtag | aclr =>
    refine accSets_mac (fun _ _ => rfl) (fun x h => ?_) fun s cls x => rfl
    have hfields := macLegal_of_sylLegal h
    change fD x < 4
    simp [macLegal] at hfields
    omega
  case mva =>
    intro s u x h hg e clamps
    have hwrites : writes (gathered s (macCls u) 0x10 x) (s.nextPc x) (only (macCls u) 0x10 x) =
        [.g x.d.toNat (if clamps then satWord e else BitVec.ofInt 32 e)] ++ if clamps && out32 e then [.satf] else [] := by
      have hmva := mvaOf_eq (s.on CORE_DSPCFG_GUARD) (satBit x) (ac s x.a.toNat) x.b.toNat
      rw [writes_macCls]
      change [Wr.g x.d.toNat (mvaOf (s.on CORE_DSPCFG_GUARD) (satBit x) (ac s x.a.toNat) x.b.toNat).1] ++
        (if (mvaOf (s.on CORE_DSPCFG_GUARD) (satBit x) (ac s x.a.toNat) x.b.toNat).2 then [Wr.satf] else []) = _
      rw [hmva]
    have hres : ∀ w ∈ writes (gathered s (macCls u) 0x10 x) (s.nextPc x) (only (macCls u) 0x10 x), isResult w = true := by
      rw [hwrites]
      cases clamps && out32 e <;> simp [isResult]
    obtain ⟨free, cyc, hexec⟩ := exec_unit (i := .mva u x) rfl (macCls_mem u) h hg hres
    rw [hwrites] at hexec
    exact ⟨_, hexec, wroteReg_satf _ _ free cyc x.d.isLt (calm_of_canIssue h).shadow⟩

end Sys2Proof.Machine.InstructionSet
end

section
/-! A syllable whose predicate is 0 (R96). -/

namespace Sys2Proof.Machine.InstructionSet

open Sys2Proof Sys2Proof.Machine

/-- With its predicate 0 no syllable of the bundle is active. -/
theorem filter_inactive {s : State} {x : Syl} (hg : s.guarded x = false) (cls op : Nat) :
    [only cls op x].filter (active (gathered s cls op x)) = [] := by
  have hoff : active (gathered s cls op x) (only cls op x) = false := hg
  simp [hoff]

/-- A bundle without an active syllable, whose words may be fetched, raises nothing (R154). -/
theorem preExc_inactive {s : State} {pc n : Nat} {ys : List Sy} (hact : ys.filter (active s) = [])
    (hfetch : fetchRefused s pc n = none) : preExc s pc n ys = none := by
  simp [preExc, hact, hfetch]

/-- Settles O19: without an active syllable the bundle writes nothing, makes no access and asks for nothing. -/
theorem falsePredicateHasNoEffect : Obligations.FalsePredicateHasNoEffect := by
  intro s i cls op x hi h hg hother
  obtain ⟨-, -, hfetch⟩ := canFetch_parts (canIssue_split h).1
  have hact := filter_inactive hg cls op
  have hrep : isRep (only cls op x) = false := by
    simp only [isRep, only, Bool.and_eq_false_imp, beq_iff_eq, Bool.or_eq_false_iff, beq_eq_false_iff_ne]
    intro hcls
    exact ⟨fun hop => hother ⟨hcls, .inl hop⟩, fun hop => hother ⟨hcls, .inr hop⟩⟩
  have hpre := preExc_inactive hact ((fetchRefused_xk s _ s.dx.pc (wordsOf x)).trans hfetch.guard)
  obtain ⟨free, cyc, hexec⟩ := exec_effects h hact hrep hpre rfl rfl (by simp) hi (f := goesOn (s.nextPc x)) rfl rfl rfl rfl
  exact ⟨_, hexec, nextPc_mod s x, rfl⟩

end Sys2Proof.Machine.InstructionSet
end

section
/-! An entry with nothing in flight, no shadow record taken up, no progress and no repeat (R151): what it leaves in the core's
registers, and what it leaves alone. -/

namespace Sys2Proof.Machine.InstructionSet

open Sys2Proof Sys2Proof.Machine Sys2Proof.Machine.PowerStates

/-! ### Writes of several fields -/

/-- The writes, in order. -/
def putAll (s : State) (ws : List (Fld × Nat)) : State := ws.foldl (fun s w => s.put w.1 w.2) s

/-- A field that none of the writes names keeps its value. -/
theorem get_putAll_ne (ws : List (Fld × Nat)) (s : State) (f : Fld) (h : f.key ∉ ws.map (·.1.key)) :
    (putAll s ws).get f = s.get f := by
  induction ws generalizing s with
  | nil => rfl
  | cons w ws ih =>
    simp only [List.map_cons, List.mem_cons, not_or] at h
    obtain ⟨hw, hrest⟩ := h
    exact (ih _ hrest).trans (get_put_ne s w.1 f w.2 hw)

/-- One that is named once reads what was written. -/
theorem get_putAll_mem {ws : List (Fld × Nat)} {f : Fld} {v : Nat} (hmem : (f, v) ∈ ws) (hone : (ws.map (·.1.key)).Nodup)
    (s : State) : (putAll s ws).get f = v % 2 ^ f.w := by
  induction ws generalizing s with
  | nil => cases hmem
  | cons w ws ih =>
    obtain ⟨hw, hrest⟩ := List.nodup_cons.mp hone
    rcases List.mem_cons.mp hmem with rfl | hmem
    · exact (get_putAll_ne ws _ f hw).trans (get_put_self s f v)
    · exact ih hmem hrest _

theorem putAll_dx (s : State) (ws : List (Fld × Nat)) : (putAll s ws).dx = s.dx := by
  induction ws generalizing s with
  | nil => rfl
  | cons w ws ih => exact ih (s.put w.1 w.2)

/-- Writes of fields change nothing else. -/
theorem putAll_only (s : State) (ws : List (Fld × Nat)) : { s with regs := (putAll s ws).regs } = putAll s ws := by
  induction ws generalizing s with
  | nil => rfl
  | cons w ws ih => exact ih (s.put w.1 w.2)

/-! ### The entry -/

/-- The entry of a precise exception or a trap: its slot, return address, position and faulting address. -/
def plainEnt (slot epc sylix : Nat) (faddr : Option Nat) : Ent := ⟨slot, epc, sylix, false, faddr, none⟩

/-- The fields that steps 2 and 3 of R151 write, in order. -/
def statusWrites (s : State) (slot epc sylix : Nat) (faddr : Option Nat) : List (Fld × Nat) :=
  [(CORE_EPC_ADDR, epc / 4), (CORE_ECAUSE_SLOT, slot), (CORE_ECAUSE_SYLIX, sylix), (CORE_ECAUSE_FETCH, 0),
    (CORE_ECAUSE_HLVL, handleLevel s slot)] ++ faddr.toList.map (fun a => (CORE_FADDR_ADDR, a)) ++
  [(CORE_STATUS_PPL, coreLvl s), (CORE_STATUS_PIE, s.get CORE_STATUS_IE), (CORE_STATUS_PTHR, s.get CORE_STATUS_THR),
    (CORE_STATUS_PL, handleLevel s slot), (CORE_STATUS_IE, 0), (CORE_STATUS_EL, 1)]

/-- All that the entry writes: no shadow record, no progress, no repeat. -/
def entryWrites (s : State) (slot epc sylix : Nat) (faddr : Option Nat) : List (Fld × Nat) :=
  statusWrites s slot epc sylix faddr ++ [(CORE_LSHAD_VALID, 0), (CORE_PROG_VALID, 0), (CORE_REPST_VALID, 0)]

/-- The places of those fields; CORE_FADDR is among them where the slot has an address. -/
def entryKeys (addr : Bool) : List Nat :=
  ([CORE_EPC_ADDR, CORE_ECAUSE_SLOT, CORE_ECAUSE_SYLIX, CORE_ECAUSE_FETCH, CORE_ECAUSE_HLVL] ++
    (if addr then [CORE_FADDR_ADDR] else []) ++
    [CORE_STATUS_PPL, CORE_STATUS_PIE, CORE_STATUS_PTHR, CORE_STATUS_PL, CORE_STATUS_IE, CORE_STATUS_EL, CORE_LSHAD_VALID,
      CORE_PROG_VALID, CORE_REPST_VALID]).map Fld.key

/-- The state in the handler. -/
def inHandler (s : State) (slot epc sylix : Nat) (faddr : Option Nat) : State :=
  { putAll s (entryWrites s slot epc sylix faddr) with
    dx := { s.dx with
      pc := vector slot % 2 ^ 32, bundle := [], rep := none, loads := [], armShadow := false, armProg := false, deferred := false
      cyc := (s.dx.cyc + 4) % 2 ^ 64 } }

theorem entryWrites_keys (s : State) (slot epc sylix : Nat) (faddr : Option Nat) :
    (entryWrites s slot epc sylix faddr).map (·.1.key) = entryKeys faddr.isSome := by
  cases faddr <;> rfl

theorem entryKeys_nodup : ∀ addr, (entryKeys addr).Nodup := by decide

theorem statusAtEntry_plain (s : State) (slot epc sylix : Nat) (faddr : Option Nat) :
    statusAtEntry s (plainEnt slot epc sylix faddr) = putAll s (statusWrites s slot epc sylix faddr) := by
  cases faddr <;> simp (disch := decide) only [statusAtEntry, plainEnt, coreLvl, get_put_ne] <;> rfl

/-- The entry of R151, in one step. -/
theorem takeIn_plain {s : State} (hloads : s.dx.loads = []) (hshadow : s.dx.armShadow = false) (slot epc sylix : Nat)
    (faddr : Option Nat) :
    takeIn s (plainEnt slot epc sylix faddr) none none = inHandler s slot epc sylix faddr := by
  have hwrites : putAll s (entryWrites s slot epc sylix faddr) =
      (((putAll s (statusWrites s slot epc sylix faddr)).put CORE_LSHAD_VALID 0).put CORE_PROG_VALID 0).put CORE_REPST_VALID 0 :=
    List.foldl_append ..
  have hdx := putAll_dx s (entryWrites s slot epc sylix faddr)
  unfold takeIn shadowAtEntry inHandler
  rw [statusAtEntry_plain]
  simp only [putAll_dx, hloads, hshadow, Bool.false_eq_true, if_false, progAtEntry, repAtEntry, ← hwrites]
  simp only [tick, goTo, xk, hdx]
  rfl

section
variable (s : State) (slot epc sylix : Nat) (faddr : Option Nat)

/-- A field that the entry does not write keeps its value. -/
theorem inHandler_get_ne (f : Fld) (h : f.key ∉ entryKeys faddr.isSome) :
    (inHandler s slot epc sylix faddr).get f = s.get f :=
  get_putAll_ne _ s f (by rwa [entryWrites_keys])

/-- All of them lie in the CORE_ page. -/
theorem inHandler_sameRegs : sameRegs [2] s (inHandler s slot epc sylix faddr) := by
  have hpage : ∀ addr, ∀ k ∈ entryKeys addr, k / 131072 - 0x40000 = 2 := by decide
  exact fun f hf => inHandler_get_ne s slot epc sylix faddr f fun hmem => hf (List.mem_singleton.mpr (hpage _ _ hmem))

theorem inHandler_byte (a : Nat) : (inHandler s slot epc sylix faddr).byte a = s.byte a := by
  unfold inHandler State.byte
  rw [← putAll_only]

theorem inHandler_pwr : (inHandler s slot epc sylix faddr).pwr = s.pwr := by
  unfold inHandler
  rw [← putAll_only]

theorem inHandler_pd (i : Nat) : pd (inHandler s slot epc sylix faddr) i = pd s i := by
  have hother : ∀ addr, CORE_PRED_P1_P7.key ∉ entryKeys addr := by decide
  have hpred : (inHandler s slot epc sylix faddr).get CORE_PRED_P1_P7 = s.get CORE_PRED_P1_P7 :=
    inHandler_get_ne s slot epc sylix faddr _ (hother _)
  unfold pd State.bit
  rw [hpred]

theorem handleLevel_le : handleLevel s slot ≤ 2 := by
  unfold handleLevel
  split_ifs <;> omega

end

/-- What the handler finds (R149, R151). -/
theorem inHandler_entered {s : State} {slot epc sylix : Nat} {faddr : Option Nat} (hslot : slot < 128) (hsylix : sylix < 8)
    (hfaddr : ∀ a, faddr = some a → a < 2 ^ 32) :
    entered s (inHandler s slot epc sylix faddr) slot epc sylix (handleLevel s slot) faddr (s.get CORE_STATUS_THR) := by
  have hwritten : ∀ w ∈ entryWrites s slot epc sylix faddr, (inHandler s slot epc sylix faddr).get w.1 = w.2 % 2 ^ w.1.w :=
    fun w hw => get_putAll_mem (f := w.1) (v := w.2) hw (by rw [entryWrites_keys]; exact entryKeys_nodup _) s
  have haddr : (inHandler s slot epc sylix faddr).get CORE_FADDR_ADDR = faddr.getD (s.get CORE_FADDR_ADDR) := by
    cases faddr with
    | none => exact inHandler_get_ne s slot epc sylix none _ (by decide)
    | some a =>
      have hmem : (CORE_FADDR_ADDR, a) ∈ entryWrites s slot epc sylix (some a) := by simp [entryWrites, statusWrites]
      exact (hwritten _ hmem).trans (Nat.mod_eq_of_lt (hfaddr a rfl))
  have hother : ∀ addr, CORE_STATUS_THR.key ∉ entryKeys addr := by decide
  have hthr := inHandler_get_ne s slot epc sylix faddr _ (hother _)
  simp only [entryWrites, statusWrites, List.forall_mem_append, List.forall_mem_cons] at hwritten
  obtain ⟨⟨⟨⟨hepc, hcause, hsyl, -, hhandled, -⟩, -⟩, hppl, hpie, hpthr, hpl, hie, hel, -⟩, hshadow, hprog, hrep, -⟩ := hwritten
  have hlevel : handleLevel s slot % 2 ^ 2 = handleLevel s slot :=
    Nat.mod_eq_of_lt (by have := handleLevel_le s slot; omega)
  have hcore : coreLvl s % 2 ^ 2 = coreLvl s := Nat.mod_eq_of_lt (Nat.lt_of_le_of_lt (Nat.min_le_right _ 2) (by decide))
  have hpc : vector slot % 2 ^ 32 = 0x10000000 + 32 * slot := Nat.mod_eq_of_lt (by unfold vector; omega)
  exact ⟨hepc, hcause.trans (Nat.mod_eq_of_lt hslot), hsyl.trans (Nat.mod_eq_of_lt hsylix), hhandled.trans hlevel, haddr,
    hppl.trans hcore, hpie, hpthr, hpl.trans hlevel, hie, hel, hthr, hshadow, hprog, hrep, hpc, rfl⟩

end Sys2Proof.Machine.InstructionSet
end

section
/-! The precise exceptions of a bundle of one syllable: which one it raises, and the entry that follows (R97, R112, R152, R154). -/

namespace Sys2Proof.Machine.InstructionSet

open Sys2Proof Sys2Proof.Machine

/-! ### Which exception -/

/-- The exception of one active syllable whose words may be fetched: the first of R154's order. -/
theorem preExc_single {s : State} {pc n : Nat} {y : Sy} (hact : active s y = true) (hfetch : fetchRefused s pc n = none) :
    preExc s pc n [y] =
      (invalidExc s y <|> (if lacksLevel s y then some (excAt 4 y.pos) else none) <|>
        ((misaligned s pc y).map fun a => { excAt 5 y.pos with faddr := some a }) <|> (stackSlot s y).map (excAt · y.pos) <|>
        (accOf s y).bind (dataExc s)) := by
  have hfilter : [y].filter (active s) = [y] := by simp [hact]
  have hone : ∀ {β : Type} (f : Sy → Option β), [y].findSome? f = f y := fun f => by
    rw [List.findSome?_cons, List.findSome?_nil]
    cases f y <;> rfl
  unfold preExc
  simp only [hfilter, hone, hfetch, List.find?_cons, List.find?_nil]
  cases lacksLevel s y <;> rfl

/-- A syllable that is no CUSTOM is not invalid. -/
theorem invalidExc_other {s : State} {y : Sy} (h : isCustom y = false) : invalidExc s y = none := by simp [invalidExc, h]

/-- A level too low comes before all but an invalid custom instruction (R154). -/
theorem preExc_level {s : State} {pc n : Nat} {y : Sy} (hact : active s y = true) (hfetch : fetchRefused s pc n = none)
    (hvalid : invalidExc s y = none) (hlevel : lacksLevel s y = true) : preExc s pc n [y] = some (excAt 4 y.pos) := by
  rw [preExc_single hact hfetch, hvalid, hlevel]
  rfl

/-! ### The entry -/

/-- With EL=0 an exception without a record is entered (R152). -/
theorem raiseExc_plain {s : State} (hloads : s.dx.loads = []) (hshadow : s.dx.armShadow = false) (hel : s.on CORE_STATUS_EL = false)
    (slot pos epc : Nat) (faddr : Option Nat) :
    raiseExc s { excAt slot pos with faddr := faddr } epc none none = inHandler s slot epc pos faddr := by
  rw [← takeIn_plain hloads hshadow]
  unfold raiseExc raise
  cases faddr <;> exact if_neg (by simp [excAt, hel])

section
variable {s : State} {cls op : Nat} {x : Syl}

/-- A bundle whose one syllable raises an exception is left for the handler, with none of its effects (R97). -/
theorem exec_raises {i : Instr} {slot pos : Nat} {faddr : Option Nat} (hi : coreSyl i = some (cls, op, x))
    (h : s.canIssue cls op x = true) (hel : s.on CORE_STATUS_EL = false)
    (hpre : preExc (gathered s cls op x) s.dx.pc (wordsOf x) [only cls op x] = some { excAt slot pos with faddr := faddr }) :
    exec i s = .next (inHandler (gathered s cls op x) slot s.dx.pc pos faddr) := by
  obtain ⟨hcalm, hpor, -, hloads, -⟩ := quiet_parts (quiet_of_canIssue h)
  have hraise := raiseExc_plain (s := gathered s cls op x) hloads hcalm.shadow hel slot pos s.dx.pc faddr
  have hissue : issue (gathered s cls op x) s.dx.pc (s.nextPc x) (wordsOf x) [only cls op x] none =
      inHandler (gathered s cls op x) slot s.dx.pc pos faddr := by
    unfold issue
    rw [hpre]
    exact hraise
  rw [exec_syllable hpor hi, syllable_only s cls op x h]
  unfold runOne
  cases hrep : isRep (only cls op x) with
  | true =>
    simp only [List.find?_cons, hrep, hpre]
    exact congrArg Host.Outcome.next hraise
  | false =>
    simp only [List.find?_cons, hrep, List.find?_nil, hissue]
    rfl

/-- An illegal syllable alone in its bundle enters slot 3, whatever its predicate (R93). -/
theorem exec_illegal {i : Instr} (hi : coreSyl i = some (cls, op, x)) (h : s.canFetch x = true) (hel : s.on CORE_STATUS_EL = false)
    (hillegal : sylLegal cls op x = false) :
    exec i s = .next (inHandler (gathered s cls op x) 3 s.dx.pc 0 none) := by
  obtain ⟨hquiet, hstop, hfetch⟩ := canFetch_parts h
  obtain ⟨hcalm, hpor, hbundle, hloads, -⟩ := quiet_parts hquiet
  rw [exec_syllable hpor hi, syllable_single hcalm hbundle hstop hfetch, hillegal, if_neg Bool.false_ne_true]
  exact congrArg Host.Outcome.next (raiseExc_plain (s := gathered s cls op x) hloads hcalm.shadow hel 3 0 s.dx.pc none)

/-- The handler finds what R151 lays down, of the state before the bundle. -/
theorem raised_entered {slot epc : Nat} {faddr : Option Nat} (hslot : slot < 128) (hfaddr : ∀ a, faddr = some a → a < 2 ^ 32) :
    entered s (inHandler (gathered s cls op x) slot epc 0 faddr) slot epc 0 (handleLevel s slot) faddr (s.get CORE_STATUS_THR) :=
  inHandler_entered (s := gathered s cls op x) hslot (by decide) hfaddr

/-- Registers, predicates, accumulators, memory and power management are as before the bundle, and so is every other page. -/
theorem raised_keeps (slot epc pos : Nat) (faddr : Option Nat) :
    (inHandler (gathered s cls op x) slot epc pos faddr).dx.g = s.dx.g ∧
    (inHandler (gathered s cls op x) slot epc pos faddr).dx.acc = s.dx.acc ∧
    (∀ k, pd (inHandler (gathered s cls op x) slot epc pos faddr) k = pd s k) ∧
    (inHandler (gathered s cls op x) slot epc pos faddr).pwr = s.pwr ∧
    (∀ a, (inHandler (gathered s cls op x) slot epc pos faddr).byte a = s.byte a) ∧
    sameRegs [2] s (inHandler (gathered s cls op x) slot epc pos faddr) :=
  ⟨rfl, rfl, inHandler_pd (gathered s cls op x) slot epc pos faddr, inHandler_pwr (gathered s cls op x) slot epc pos faddr,
    inHandler_byte (gathered s cls op x) slot epc pos faddr, inHandler_sameRegs (gathered s cls op x) slot epc pos faddr⟩

end

/-! ### The obligation -/

/-- A level that the syllable lacks takes it to slot 4. -/
theorem enters_slot_four {s : State} {i : Instr} {cls op : Nat} {x : Syl} (hi : coreSyl i = some (cls, op, x))
    (h : s.canIssue cls op x = true) (hg : s.guarded x = true) (hel : s.on CORE_STATUS_EL = false)
    (hvalid : invalidExc s (only cls op x) = none) (hlevel : lacksLevel s (only cls op x) = true) :
    ∃ t, exec i s = .next t ∧ entered s t 4 s.dx.pc 0 (handleLevel s 4) none (s.get CORE_STATUS_THR) ∧
      t.dx.g = s.dx.g ∧ t.dx.acc = s.dx.acc ∧ (∀ k, pd t k = pd s k) ∧ t.pwr = s.pwr ∧ (∀ a, t.byte a = s.byte a) ∧
      sameRegs [2] s t := by
  obtain ⟨-, -, hfetch⟩ := canFetch_parts (canIssue_split h).1
  have hpre := preExc_level (s := gathered s cls op x) (y := only cls op x) hg ((fetchRefused_xk s _ _ _).trans hfetch.guard)
    hvalid hlevel
  exact ⟨_, exec_raises hi h hel hpre, raised_entered (by decide) (by simp), raised_keeps ..⟩

/-- Settles O23: of the exceptions in R154's order each is the first that its syllable can raise, and an entry writes the CORE_ page
alone. -/
theorem preciseExceptionsAreTaken : Obligations.PreciseExceptionsAreTaken := by
  refine ⟨?_, ?_, ?_, ?_⟩
  · intro s i cls op x hi h hillegal hel
    obtain ⟨hg, hacc, hpd, -, hbyte, hregs⟩ := raised_keeps (s := s) (cls := cls) (op := op) (x := x) 3 s.dx.pc 0 none
    exact ⟨_, exec_illegal hi h hel hillegal, raised_entered (by decide) (by simp), hg, hacc, hpd, hbyte, hregs⟩
  · intro s x h hg hlvl hel
    have hlevel : lacksLevel s (only 6 0x12 x) = true := by simp [lacksLevel, only, hlvl]
    exact enters_slot_four rfl h hg hel (invalidExc_other rfl) hlevel
  · intro s i cls op x hi h hg hel hcase
    rcases hcase with ⟨rfl, rfl, hlow⟩ | ⟨rfl, hop, k, hk, hthree, hlow⟩ | ⟨rfl, hop, hvalid, hpriv, hlow⟩
    · have hlevel : lacksLevel s (only 5 5 x) = true := by
        rcases hlow with hlow | ⟨hlow, hppl⟩ <;> simp [lacksLevel, only, hlow]
        exact hppl
      exact enters_slot_four hi h hg hel (invalidExc_other rfl) hlevel
    · have hother : invalidExc s (only 6 op x) = none := invalidExc_other (by rcases hop with rfl | rfl <;> rfl)
      have hlevel : lacksLevel s (only 6 op x) = true := by
        rcases hop with rfl | rfl
        · have hread : coreLevel (imm9 x) false = some k := hk
          simp [lacksLevel, only, hread, hthree, hlow]
        · have hwrite : coreLevel (imm9 x) true = some k := hk
          simp [lacksLevel, only, hwrite, hthree, hlow]
      exact enters_slot_four hi h hg hel hother hlevel
    · have hother : invalidExc s (only 6 op x) = none := by simp [invalidExc, only, hvalid]
      have hlevel : lacksLevel s (only 6 op x) = true := by
        simp only [lacksLevel, only, hop]
        simp
        omega
      exact enters_slot_four hi h hg hel hother hlevel
  · intro s i op x p hi h hg hp hodd hsmall hel
    obtain ⟨-, -, hfetch⟩ := canFetch_parts (canIssue_split h).1
    have hbad : misaligned (gathered s 2 op x) s.dx.pc (only 2 op x) = some p.addr := by
      have hacc : accOf (gathered s 2 op x) (only 2 op x) = some p := hp
      simp [misaligned, hacc, hodd, show (only 2 op x).cls = 2 from rfl]
    have hpre : preExc (gathered s 2 op x) s.dx.pc (wordsOf x) [only 2 op x] = some { excAt 5 0 with faddr := some p.addr } := by
      rw [preExc_single (s := gathered s 2 op x) (y := only 2 op x) hg ((fetchRefused_xk s _ _ _).trans hfetch.guard),
        invalidExc_other rfl, hbad]
      rfl
    obtain ⟨hregs, hacc, hpd, -, hbyte, hpages⟩ := raised_keeps (s := s) (cls := 2) (op := op) (x := x) 5 s.dx.pc 0 (some p.addr)
    exact ⟨_, exec_raises hi h hel hpre, raised_entered (by decide) (by simpa using hsmall), hregs, hacc, hpd,
      (calm_of_canIssue h).stores, rfl, hbyte, hpages⟩

end Sys2Proof.Machine.InstructionSet
end

section
/-! Branches, the return stack, RETE and TRAP (R103, R116, R151, R153, R155). -/

namespace Sys2Proof.Machine.InstructionSet

open Sys2Proof Sys2Proof.Machine

/-! ### The checks of a BRU syllable (R104, R154) -/

section
variable {s : State} {op : Nat} {x : Syl}

/-- Past its level and its target a BRU syllable raises what the return stack gives it alone. -/
theorem preExc_bru (h : s.canIssue 5 op x = true) (hg : s.guarded x = true)
    (hlevel : lacksLevel (gathered s 5 op x) (only 5 op x) = false)
    (haligned : op ≤ 3 → target s s.dx.pc (only 5 op x) % 4 = 0) :
    preExc (gathered s 5 op x) s.dx.pc (wordsOf x) [only 5 op x] = (stackSlot s (only 5 op x)).map (excAt · 0) := by
  obtain ⟨-, -, hfetch⟩ := canFetch_parts (canIssue_split h).1
  have hplace : misaligned (gathered s 5 op x) s.dx.pc (only 5 op x) = none := by
    have htarget : target (gathered s 5 op x) s.dx.pc (only 5 op x) = target s s.dx.pc (only 5 op x) := rfl
    by_cases hop : op ≤ 3 <;> simp [misaligned, show (only 5 op x).cls = 5 from rfl, show (only 5 op x).op = op from rfl, hop]
    rw [htarget, haligned hop]
  have hslot : stackSlot (gathered s 5 op x) (only 5 op x) = stackSlot s (only 5 op x) := rfl
  rw [preExc_single (s := gathered s 5 op x) (y := only 5 op x) hg ((fetchRefused_xk s _ _ _).trans hfetch.guard),
    invalidExc_other rfl, hlevel, hplace, hslot]
  cases stackSlot s (only 5 op x) <;> rfl

theorem stallOf_bru (s : State) (op : Nat) (x : Syl) : stallOf s [only 5 op x] = some 0 := by simp [stallOf, accOf, only]

/-- Only RETE asks for a level (R153). -/
theorem lacksLevel_bru (s : State) (x : Syl) (hop : op ≠ 5) : lacksLevel s (only 5 op x) = false := by
  simp [lacksLevel, only, hop]

theorem isResult_bru (y : Sy) (next : Nat) : ∀ w ∈ bruWrites y next, isResult w = true := by
  unfold bruWrites
  split_ifs <;> simp [isResult]

theorem flatMap_bru (s : State) (next op : Nat) (x : Syl) :
    [only 5 op x].flatMap (writes s next) = bruWrites (only 5 op x) next := List.append_nil _

/-- What BR, BRR, CALL, CALLR and RET ask for: their target, with the cycles of a branch (R116). -/
theorem afterOne_branch (s : State) (x : Syl) (pc : Nat) (f : After) (hop : op ≤ 4) :
    afterOne s pc f (only 5 op x) =
      { f with next := target s pc (only 5 op x), cost := f.cost + if op = 1 || op = 3 then 2 else 1 } :=
  if_pos hop

/-- BR, BRR, CALL, CALLR and RET complete with their effect on the return stack and go to their target. -/
theorem exec_branch {i : Instr} (hi : coreSyl i = some (5, op, x)) (hop : op ≤ 4) (h : s.canIssue 5 op x = true)
    (hg : s.guarded x = true) (haligned : op ≤ 3 → target s s.dx.pc (only 5 op x) % 4 = 0)
    (hstack : stackSlot s (only 5 op x) = none) :
    ∃ free cyc, exec i s = .next (completed s ((bruWrites (only 5 op x) (s.nextPc x)).foldl apply (gathered s 5 op x))
      (target s s.dx.pc (only 5 op x) % 2 ^ 32) free cyc) := by
  have hpre := preExc_bru h hg (lacksLevel_bru _ x (by omega)) haligned
  rw [hstack] at hpre
  have hafter : [only 5 op x].foldl (afterOne (gathered s 5 op x) s.dx.pc) (goesOn (s.nextPc x)) = _ :=
    afterOne_branch (gathered s 5 op x) x s.dx.pc (goesOn (s.nextPc x)) hop
  obtain ⟨free, cyc, hexec⟩ := exec_effects h (filter_active hg 5 op) rfl hpre rfl rfl
    (by rw [flatMap_bru]; exact isResult_bru _ _) hi hafter rfl rfl rfl
  refine ⟨free, cyc, ?_⟩
  rw [hexec, effects, flatMap_bru]
  rfl

end

/-! ### The return stack (R103) -/

theorem key_rsw {j k : Nat} (h : j ≠ k) : (CORE_RSW_ADDR j).key ≠ (CORE_RSW_ADDR k).key := by
  simp only [Fld.key, CORE_RSW_ADDR]
  omega

theorem key_rsw_top (k : Nat) : (CORE_RSW_ADDR k).key ≠ CORE_RSP_TOP.key := by
  simp only [Fld.key, CORE_RSW_ADDR, CORE_RSP_TOP]
  omega

theorem key_rsw_depth (k : Nat) : (CORE_RSW_ADDR k).key ≠ CORE_RSP_DEPTH.key := by
  simp only [Fld.key, CORE_RSW_ADDR, CORE_RSP_DEPTH]
  omega

theorem key_depth_top : CORE_RSP_DEPTH.key ≠ CORE_RSP_TOP.key := by decide

section
variable (s : State) (ret : Nat)

theorem rsPush_top : (rsPush s ret).get CORE_RSP_TOP = (s.get CORE_RSP_TOP + 1) % 16 := by
  simp only [rsPush, get_put_ne _ _ _ _ key_depth_top.symm, get_put_ne _ _ _ _ (key_rsw_top _).symm, get_put_self]
  exact Nat.mod_mod _ 16

theorem rsPush_entry : (rsPush s ret).get (CORE_RSW_ADDR ((s.get CORE_RSP_TOP + 1) % 16)) = ret / 4 % 2 ^ 30 := by
  simp only [rsPush, get_put_ne _ _ _ _ (key_rsw_depth _), get_put_self]
  rfl

theorem rsPush_entry_ne {k : Nat} (h : k ≠ (s.get CORE_RSP_TOP + 1) % 16) :
    (rsPush s ret).get (CORE_RSW_ADDR k) = s.get (CORE_RSW_ADDR k) := by
  simp only [rsPush, get_put_ne _ _ _ _ (key_rsw_depth _), get_put_ne _ _ _ _ (key_rsw h), get_put_ne _ _ _ _ (key_rsw_top _)]

theorem rsPush_depth : (rsPush s ret).get CORE_RSP_DEPTH = min (rsDepth s + 1) 16 := by
  have hwidth : min (rsDepth s + 1) 16 < 2 ^ 5 := by omega
  exact (get_put_self _ _ _).trans (Nat.mod_eq_of_lt hwidth)

theorem rsPop_top : (rsPop s).get CORE_RSP_TOP = (s.get CORE_RSP_TOP + 15) % 16 := by
  simp only [rsPop, get_put_ne _ _ _ _ key_depth_top.symm, get_put_self]
  exact Nat.mod_mod _ 16

theorem rsPop_entry (k : Nat) : (rsPop s).get (CORE_RSW_ADDR k) = s.get (CORE_RSW_ADDR k) := by
  simp only [rsPop, get_put_ne _ _ _ _ (key_rsw_depth _), get_put_ne _ _ _ _ (key_rsw_top _)]

theorem rsPop_depth : (rsPop s).get CORE_RSP_DEPTH = rsDepth s - 1 := by
  have hwidth : rsDepth s - 1 < 2 ^ 5 := by unfold rsDepth; omega
  exact (get_put_self _ _ _).trans (Nat.mod_eq_of_lt hwidth)

/-- A call overflows a full stack with OVF=0, and a return finds an empty one (R104). -/
theorem stackSlot_call {op : Nat} (x : Syl) (hop : op = 2 ∨ op = 3) :
    stackSlot s (only 5 op x) = if s.on CORE_RSCFG_OVF = false ∧ rsDepth s = 16 then some 6 else none := by
  rcases hop with rfl | rfl <;> cases hovf : s.on CORE_RSCFG_OVF <;> simp [stackSlot, only, hovf]

theorem stackSlot_ret (x : Syl) :
    stackSlot s (only 5 4 x) = if s.on CORE_RSCFG_OVF = false ∧ rsDepth s = 0 then some 7 else none := by
  cases hovf : s.on CORE_RSCFG_OVF <;> simp [stackSlot, only, hovf]

end

/-- The return stack lies outside what an entry writes. -/
theorem raised_stack {s : State} {cls op : Nat} {x : Syl} (slot epc pos : Nat) :
    let t := inHandler (gathered s cls op x) slot epc pos none
    t.get CORE_RSP_TOP = s.get CORE_RSP_TOP ∧ t.get CORE_RSP_DEPTH = s.get CORE_RSP_DEPTH ∧
      ∀ k, k < 16 → t.get (CORE_RSW_ADDR k) = s.get (CORE_RSW_ADDR k) := by
  have hentries : ∀ k, k < 16 → (CORE_RSW_ADDR k).key ∉ entryKeys false := by decide
  exact ⟨inHandler_get_ne _ _ _ _ _ _ (by decide), inHandler_get_ne _ _ _ _ _ _ (by decide),
    fun k hk => inHandler_get_ne _ _ _ _ _ _ (hentries k hk)⟩

/-- With no shadow record taken up a general register reads as before where the register file stands. -/
theorem rd_kept {s t : State} {r : Nat} (hshadow : s.dx.armShadow = false) (hr : r < 32) (hrecord : t.dx.armShadow = s.dx.armShadow)
    (hg : t.dx.g = s.dx.g) : rd t r = rd s r := by
  rw [rd_plain hr hshadow, rd_plain hr (hrecord.trans hshadow), hg]

/-- Settles O15: the effect of the one BRU syllable on the return stack, or the entry at its limits. -/
theorem callAndReturnStack : Obligations.CallAndReturnStack := by
  refine ⟨?_, ?_, ?_⟩
  · intro s i op x hi hop h hg haligned hroom
    have hshadow := (calm_of_canIssue h).shadow
    have hstack : stackSlot s (only 5 op x) = none := by
      rw [stackSlot_call s x hop, if_neg]
      rintro ⟨hovf, hfull⟩
      rw [hroom hfull] at hovf
      cases hovf
    obtain ⟨free, cyc, hexec⟩ := exec_branch hi (by omega) h hg (fun _ => haligned) hstack
    have hpush : (bruWrites (only 5 op x) (s.nextPc x)).foldl apply (gathered s 5 op x) =
        rsPush (gathered s 5 op x) (s.nextPc x) := by
      rcases hop with rfl | rfl <;> rfl
    rw [hpush] at hexec
    have hnext : s.nextPc x / 4 % 2 ^ 30 = s.nextPc x / 4 := by have := nextPc_mod s x; omega
    exact ⟨_, hexec, rsPush_top (gathered s 5 op x) _, (rsPush_entry (gathered s 5 op x) _).trans hnext,
      rsPush_depth (gathered s 5 op x) _, rfl, fun k _ hk => rsPush_entry_ne (gathered s 5 op x) _ hk,
      fun r hr => rd_kept hshadow hr rfl rfl, fun _ => rfl⟩
  · intro s x h hg hfilled
    have hshadow := (calm_of_canIssue h).shadow
    have hstack : stackSlot s (only 5 4 x) = none := by
      rw [stackSlot_ret s x, if_neg]
      rintro ⟨hovf, hempty⟩
      rw [hfilled hempty] at hovf
      cases hovf
    obtain ⟨free, cyc, hexec⟩ := exec_branch (i := .ret x) rfl (by omega) h hg (by omega) hstack
    exact ⟨_, hexec, rfl, rsPop_top (gathered s 5 4 x), rsPop_depth (gathered s 5 4 x),
      fun k _ => rsPop_entry (gathered s 5 4 x) k, fun r hr => rd_kept hshadow hr rfl rfl, fun _ => rfl⟩
  · intro s i op x hi hop h hg haligned hdepth hovf hel
    have hshadow := (calm_of_canIssue h).shadow
    have hslot : stackSlot s (only 5 op x) = some (if op = 4 then 7 else 6) := by
      rcases hop with rfl | rfl | rfl
      · exact (stackSlot_call s x (.inl rfl)).trans (if_pos ⟨hovf, hdepth⟩)
      · exact (stackSlot_call s x (.inr rfl)).trans (if_pos ⟨hovf, hdepth⟩)
      · exact (stackSlot_ret s x).trans (if_pos ⟨hovf, hdepth⟩)
    have hpre := preExc_bru h hg (lacksLevel_bru _ x (by omega)) fun hbelow => haligned (by omega)
    rw [hslot] at hpre
    have hsmall : (if op = 4 then 7 else 6) < 128 := by split <;> decide
    obtain ⟨htop, hkept, hentries⟩ := raised_stack (s := s) (cls := 5) (op := op) (x := x) (if op = 4 then 7 else 6) s.dx.pc 0
    exact ⟨_, exec_raises (faddr := none) hi h hel hpre, raised_entered hsmall (by simp), htop, hkept, hentries,
      fun r hr => rd_kept hshadow hr hshadow.symm rfl⟩

/-! ### RETE (R153) -/

/-- The status that RETE brings back. -/
def reteWrites (s : State) : List (Fld × Nat) :=
  [(CORE_STATUS_PL, min (s.get CORE_STATUS_PPL) 2), (CORE_STATUS_IE, s.get CORE_STATUS_PIE),
    (CORE_STATUS_THR, s.get CORE_STATUS_PTHR), (CORE_STATUS_EL, 0)]

/-- The repeat that RETE goes on with (R134). -/
def repeatLeft (s : State) : Option Rep :=
  if s.on CORE_REPST_VALID then some ⟨min (s.get CORE_REPST_REMAIN) 1024, s.get CORE_EPC_ADDR * 4, 1⟩ else none

/-- The core after RETE: the fetch goes on at CORE_EPC, and the records that stand are taken up. -/
def returned (s : State) : Dx :=
  { s.dx with
    pc := s.get CORE_EPC_ADDR * 4, rep := repeatLeft s, armShadow := s.on CORE_LSHAD_VALID, armProg := s.on CORE_PROG_VALID
    deferred := s.dx.deferred && (repeatLeft s).isNone }

theorem doRete_eq (s : State) : doRete s = xk (putAll s (reteWrites s)) fun _ => returned s := by
  simp (disch := decide) only [doRete, State.on, get_put_ne]
  rfl

theorem doRete_dx (s : State) : (doRete s).dx = returned s := by rw [doRete_eq, xk_dx]

/-- Writes of fields in some pages leave the other pages. -/
theorem sameRegs_putAll {pages : List Nat} {ws : List (Fld × Nat)} (hws : ∀ w ∈ ws, pageOf w.1 ∈ pages) (s : State) :
    sameRegs pages s (putAll s ws) := by
  refine fun f hf => get_putAll_ne ws s f fun hmem => ?_
  obtain ⟨w, hw, hkey⟩ := List.mem_map.mp hmem
  have hsame : pageOf w.1 = pageOf f := congrArg (fun k => k / 131072 - 0x40000) hkey
  exact hf (hsame ▸ hws w hw)

section
variable {s : State} {op : Nat} {x : Syl}

/-- BR and BRR do nothing with the return stack. -/
theorem stackSlot_plain (s : State) (x : Syl) (hop : op < 2 ∨ 4 < op) : stackSlot s (only 5 op x) = none := by
  have hother : op ≠ 2 ∧ op ≠ 3 ∧ op ≠ 4 := by omega
  simp [stackSlot, only, hother]

theorem bruWrites_plain (x : Syl) (next : Nat) (hop : op < 2 ∨ 4 < op) : bruWrites (only 5 op x) next = [] := by
  have hother : op ≠ 2 ∧ op ≠ 3 ∧ op ≠ 4 := by omega
  simp [bruWrites, only, hother]

/-- RETE and TRAP, whose effect follows the bundle, complete with no other effect. -/
theorem exec_plain {i : Instr} (hi : coreSyl i = some (5, op, x)) (h : s.canIssue 5 op x = true) (hg : s.guarded x = true)
    (hop : 4 < op) (hlevel : lacksLevel (gathered s 5 op x) (only 5 op x) = false) {f : After}
    (hf : afterOne (gathered s 5 op x) s.dx.pc (goesOn (s.nextPc x)) (only 5 op x) = f) :
    exec i s = .next (finish (gathered s 5 op x) f (1 + crossing s.dx.pc (wordsOf x)) (some 0) false (s.on CORE_STATUS_EL)) := by
  obtain ⟨-, hpor, -⟩ := quiet_parts (quiet_of_canIssue h)
  have hpre := preExc_bru h hg hlevel (by omega)
  rw [stackSlot_plain s x (.inr hop)] at hpre
  have hnone := (flatMap_bru (gathered s 5 op x) (s.nextPc x) op x).trans (bruWrites_plain x _ (.inr hop))
  rw [exec_syllable hpor hi, syllable_effects h (filter_active hg 5 op) rfl hpre rfl rfl (by simp [hnone]), stallOf_bru, effects,
    hnone, ← hf]
  rfl

/-- RETE where the level allows it (R153). -/
theorem exec_rete (h : s.canIssue 5 5 x = true) (hg : s.guarded x = true) (hlvl : 1 ≤ coreLvl s)
    (hppl : coreLvl s = 1 → s.get CORE_STATUS_PPL < 2) :
    ∃ cost, exec (.rete x) s = .next (doRete (advanced (gathered s 5 5 x) (s.nextPc x) cost (some 0))) := by
  have hcalm := calm_of_canIssue h
  have hlevel : lacksLevel (gathered s 5 5 x) (only 5 5 x) = false := by
    have hcore : coreLvl (gathered s 5 5 x) = coreLvl s := rfl
    have hget : (gathered s 5 5 x).get CORE_STATUS_PPL = s.get CORE_STATUS_PPL := rfl
    have hnotU : coreLvl s ≠ 0 := by omega
    simpa [lacksLevel, only, hcore, hget, hnotU] using hppl
  have hafter : afterOne (gathered s 5 5 x) s.dx.pc (goesOn (s.nextPc x)) (only 5 5 x) =
      { goesOn (s.nextPc x) with rete := true, cost := 3 } := rfl
  refine ⟨1 + crossing s.dx.pc (wordsOf x) + 3, (exec_plain (i := .rete x) rfl h hg (by decide) hlevel hafter).trans
    (congrArg _ ?_)⟩
  exact finish_advances (s := gathered s 5 5 x) (gathered_running s 5 5 x) hcalm.stores hcalm.drain _ _ _ _ rfl

/-- TRAP with EL=0 (R155). -/
theorem exec_trap (h : s.canIssue 5 6 x = true) (hg : s.guarded x = true) (hel : s.on CORE_STATUS_EL = false) :
    ∃ cost, exec (.trap x) s =
      .next (inHandler (advanced (gathered s 5 6 x) (s.nextPc x) cost (some 0)) (64 + imm19 x) (s.nextPc x) 0 none) := by
  obtain ⟨hcalm, -, -, hloads, -⟩ := quiet_parts (quiet_of_canIssue h)
  have hafter : afterOne (gathered s 5 6 x) s.dx.pc (goesOn (s.nextPc x)) (only 5 6 x) =
      { goesOn (s.nextPc x) with trap := some (imm19 x, 0) } := rfl
  have hfinish := finish_advances (s := gathered s 5 6 x) (gathered_running s 5 6 x) hcalm.stores hcalm.drain
    { goesOn (s.nextPc x) with trap := some (imm19 x, 0) } (1 + crossing s.dx.pc (wordsOf x)) (some 0) false rfl
  have hentry := takeIn_plain (s := advanced (gathered s 5 6 x) (s.nextPc x) (1 + crossing s.dx.pc (wordsOf x) + 0) (some 0))
    hloads hcalm.shadow (64 + imm19 x) (s.nextPc x) 0 none
  refine ⟨1 + crossing s.dx.pc (wordsOf x) + 0, (exec_plain (i := .trap x) rfl h hg (by decide) (lacksLevel_bru _ x (by decide))
    hafter).trans (congrArg _ ?_)⟩
  rw [hel, hfinish, ← hentry]
  simp only [goesOn, nextPc_mod, plainEnt, Bool.false_eq_true, if_false]

end

/-- A trap below 32 is handled at S, unless it was raised at M (R149). -/
theorem handleLevel_trap (s : State) (n : Nat) : handleLevel s (64 + n) = if n < 32 ∧ coreLvl s < 2 then 1 else 2 := by
  have hbelow : 64 + n < 96 ↔ n < 32 := by omega
  unfold handleLevel
  rw [if_neg (by omega), if_pos (by omega)]
  simp only [hbelow, Bool.and_eq_true, decide_eq_true_eq]

section
variable (s : State)

theorem doRete_get {f : Fld} {v : Nat} (h : (f, v) ∈ reteWrites s) : (doRete s).get f = v % 2 ^ f.w := by
  have hone : ((reteWrites s).map (·.1.key)).Nodup :=
    show [CORE_STATUS_PL.key, CORE_STATUS_IE.key, CORE_STATUS_THR.key, CORE_STATUS_EL.key].Nodup by decide
  rw [doRete_eq, xk_get]
  exact get_putAll_mem h hone s

theorem doRete_sameRegs : sameRegs [2] s (doRete s) := by
  have hpages : ∀ w ∈ reteWrites s, pageOf w.1 ∈ [2] := by simp only [reteWrites, List.forall_mem_cons]; decide
  intro f hf
  rw [doRete_eq, xk_get]
  exact sameRegs_putAll hpages s f hf

theorem doRete_pd (i : Nat) : pd (doRete s) i = pd s i := by
  have hpred : (doRete s).get CORE_PRED_P1_P7 = s.get CORE_PRED_P1_P7 := by
    rw [doRete_eq, xk_get]
    exact get_putAll_ne _ s _
      (show CORE_PRED_P1_P7.key ∉ [CORE_STATUS_PL.key, CORE_STATUS_IE.key, CORE_STATUS_THR.key, CORE_STATUS_EL.key] by decide)
  unfold pd State.bit
  rw [hpred]

theorem doRete_byte (a : Nat) : (doRete s).byte a = s.byte a := by
  rw [doRete_eq, ← putAll_only]
  rfl

end

/-- Settles O16: BR and BRR change the next address alone, RETE's writes are four fields, and TRAP is an entry after the bundle. -/
theorem branchesReturnsAndTraps : Obligations.BranchesReturnsAndTraps := by
  refine ⟨?_, ?_, ?_⟩
  · intro s i op x hi hop h hg haligned
    obtain ⟨free, cyc, hexec⟩ := exec_branch hi (by omega) h hg (fun _ => haligned) (stackSlot_plain s x (.inl hop))
    rw [bruWrites_plain x _ (.inl hop)] at hexec
    exact ⟨_, hexec, rfl, rfl⟩
  · intro s x h hg hlvl hppl
    obtain ⟨cost, hexec⟩ := exec_rete h hg hlvl hppl
    let b := advanced (gathered s 5 5 x) (s.nextPc x) cost (some 0)
    have hlevel : (doRete b).get CORE_STATUS_PL = min (b.get CORE_STATUS_PPL) 2 :=
      (doRete_get b (v := min (b.get CORE_STATUS_PPL) 2) (by simp [reteWrites])).trans
        (Nat.mod_eq_of_lt (Nat.lt_of_le_of_lt (Nat.min_le_right _ 2) (by decide)))
    have henable := doRete_get b (f := CORE_STATUS_IE) (v := b.get CORE_STATUS_PIE) (by simp [reteWrites])
    have hthreshold := doRete_get b (f := CORE_STATUS_THR) (v := b.get CORE_STATUS_PTHR) (by simp [reteWrites])
    have hel := doRete_get b (f := CORE_STATUS_EL) (v := 0) (by simp [reteWrites])
    have hdx := doRete_dx b
    exact ⟨_, hexec, hlevel, henable, hthreshold, hel, (congrArg Dx.pc hdx).trans rfl,
      (congrArg Dx.armShadow hdx).trans rfl, (congrArg Dx.armProg hdx).trans rfl, (congrArg Dx.rep hdx).trans rfl,
      (congrArg Dx.g hdx).trans rfl, (congrArg Dx.acc hdx).trans rfl, doRete_pd b, doRete_byte b, doRete_sameRegs b⟩
  · intro s x h hg hel
    obtain ⟨cost, hexec⟩ := exec_trap h hg hel
    let b := advanced (gathered s 5 6 x) (s.nextPc x) cost (some 0)
    have hlegal : imm19 x < 64 := by
      obtain ⟨-, hlegal⟩ := canIssue_split h
      obtain ⟨-, hfields⟩ := Bool.and_eq_true_iff.mp hlegal
      simpa [bruLegal] using hfields
    have hentered := inHandler_entered (s := b) (slot := 64 + imm19 x) (epc := s.nextPc x) (sylix := 0) (faddr := none) (by omega)
      (by decide) (by simp)
    rw [← handleLevel_trap]
    exact ⟨_, hexec, hentered, rfl, rfl, inHandler_pd b _ _ _ _, inHandler_byte b _ _ _ _, inHandler_sameRegs b _ _ _ _⟩

end Sys2Proof.Machine.InstructionSet
end

section
/-! Bundles of ALU syllables: operands are read before anything is written, results are written in their order, and a load in flight
lands over them (R92, R96, R98). -/

namespace Sys2Proof.Machine.InstructionSet

open Sys2Proof Sys2Proof.Machine

/-! ### A bundle that only writes registers -/

/-- The state with no load in flight. -/
def noLoads (s : State) : State := xk s fun d => { d with loads := [] }

/-- The effects of a bundle, and over them what its predecessor loaded (R98). -/
def landed (s : State) (ws : List Wr) : State := noLoads (landLoads (ws.foldl apply s))

theorem onlyRegs_noLoads {s t : State} (h : OnlyRegs s t) : OnlyRegs (noLoads s) (noLoads t) := by
  unfold OnlyRegs noLoads at *
  rw [← h]
  rfl

/-- Loads land in general registers alone. -/
theorem onlyRegs_landLoads (s : State) : OnlyRegs (noLoads s) (landLoads s) := by
  have hfold : ∀ (l : List (Nat × Nat)) (t : State), OnlyRegs t (l.foldl (fun s e => wg s e.1 (BitVec.ofNat 32 e.2)) t) := by
    intro l
    induction l with
    | nil => exact OnlyRegs.refl
    | cons e l ih => exact fun t => (onlyRegs_wg t e.1 _).trans (ih _)
  exact hfold _ _

theorem landed_only {ws : List Wr} (hws : ∀ w ∈ ws, isResult w = true) (s : State) : OnlyRegs (noLoads s) (landed s ws) := by
  have hland := onlyRegs_noLoads (onlyRegs_landLoads (ws.foldl apply s))
  exact (onlyRegs_noLoads (onlyRegs_applyAll hws s)).trans hland

/-- A legal bundle with no access and no long instruction, whose loads in flight land at its completion. -/
theorem runOne_results {s : State} {pc next n : Nat} {ys act : List Sy} (hact : ys.filter (active s) = act)
    (hrep : ys.find? isRep = none) (hpre : preExc s pc n ys = none) (hlong : hasLong act = false)
    (hacc : act.findSome? (accOf s) = none) (hres : ∀ w ∈ act.flatMap (writes s next), isResult w = true)
    (hgone : gone s = false) (hshadow : s.dx.armShadow = false) (hprog : s.dx.armProg = false) :
    runOne s pc next n ys false =
      finish (landed s (act.flatMap (writes s next)))
        (act.foldl (afterOne s pc) (goesOn next)) (1 + crossing pc n) (stallOf s act) false (s.on CORE_STATUS_EL) := by
  unfold runOne
  simp only [hrep, hact, hlong, Bool.false_eq_true, if_false]
  rw [issue_short hpre hact hlong hgone hprog hacc, complete_results hres [] hgone hshadow]
  rfl

/-! ### ALU syllables -/

/-- An ALU syllable at a position of its bundle. -/
def aluAt (pos cls op : Nat) (x : Syl) : Sy := ⟨cls, op, x, x.d.toNat, x.a.toNat, x.b.toNat, pos⟩

section
variable {s : State} {ys : List Sy} (hcls : ∀ y ∈ ys, y.cls < 2)
include hcls

/-- They raise nothing of their own (R107, R154). -/
theorem preExc_alu {pc n : Nat} (hfetch : fetchRefused s pc n = none) : preExc s pc n ys = none := by
  have hbelow : ∀ y ∈ ys.filter (active s), y.cls ≠ 2 ∧ y.cls ≠ 5 ∧ y.cls ≠ 6 := fun y hy => by
    have := hcls y (List.mem_of_mem_filter hy)
    omega
  have hvalid : (ys.filter (active s)).findSome? (invalidExc s) = none :=
    List.findSome?_eq_none_iff.mpr fun y hy => by simp [invalidExc, isCustom, hbelow y hy]
  have hlevel : (ys.filter (active s)).find? (lacksLevel s) = none :=
    List.find?_eq_none.mpr fun y hy => by simp [lacksLevel, hbelow y hy]
  have hplace : ((ys.filter (active s)).findSome? fun y => (misaligned s pc y).map fun a => { excAt 5 y.pos with faddr := some a }) =
      none := List.findSome?_eq_none_iff.mpr fun y hy => by simp [misaligned, hbelow y hy]
  have hstack : ((ys.filter (active s)).findSome? fun y => (stackSlot s y).map fun k => excAt k y.pos) = none :=
    List.findSome?_eq_none_iff.mpr fun y hy => by simp [stackSlot, hbelow y hy]
  have hacc : (ys.filter (active s)).findSome? (accOf s) = none :=
    List.findSome?_eq_none_iff.mpr fun y hy => by simp [accOf, hbelow y hy]
  unfold preExc
  simp only [hvalid, hlevel, hplace, hstack, hacc, hfetch]
  rfl

/-- They make no access. -/
theorem accOf_alu : ys.findSome? (accOf s) = none :=
  List.findSome?_eq_none_iff.mpr fun y hy => by
    have := hcls y hy
    have hother : y.cls ≠ 2 := by omega
    simp [accOf, hother]

theorem hasLong_alu : hasLong ys = false := by
  refine List.any_eq_false.mpr fun y hy => ?_
  have := hcls y hy
  have hother : y.cls ≠ 2 ∧ y.cls ≠ 6 := by omega
  simp [longKind, isCustom, hother]

theorem isRep_alu : ys.find? isRep = none :=
  List.find?_eq_none.mpr fun y hy => by
    have := hcls y hy
    have hother : y.cls ≠ 6 := by omega
    simp [isRep, hother]

theorem afterOne_alu (pc : Nat) (f : After) : ys.foldl (afterOne s pc) f = f := by
  induction ys with
  | nil => rfl
  | cons y ys ih =>
    have hy := hcls y List.mem_cons_self
    have hother : y.cls ≠ 5 ∧ y.cls ≠ 6 := by omega
    have hone : afterOne s pc f y = f := by simp [afterOne, isSleep, hother]
    rw [List.foldl_cons, hone]
    exact ih fun z hz => hcls z (List.mem_cons_of_mem y hz)

/-- A bundle of active ALU syllables completes with what they write, and then with the loads in flight. -/
theorem runOne_alu {pc next n : Nat} (hact : ∀ y ∈ ys, active s y = true) (hfetch : fetchRefused s pc n = none)
    (hres : ∀ w ∈ ys.flatMap (writes s next), isResult w = true) (hgone : gone s = false) (h : Calm s) :
    runOne s pc next n ys false =
      advanced (landed s (ys.flatMap (writes s next))) next (1 + crossing pc n + 0) (stallOf s ys) := by
  have hregs := landed_only hres s
  rw [runOne_results (List.filter_eq_self.mpr hact) (isRep_alu hcls) (preExc_alu hcls hfetch) (hasLong_alu hcls) (accOf_alu hcls)
    hres hgone h.shadow h.prog, afterOne_alu hcls]
  exact finish_advances (hregs.gone.trans hgone) (hregs.stores.trans h.stores) (hregs.drain.trans h.drain) _ _ _ _ rfl

end

/-! ### General registers and the loads that land (R98) -/

theorem landed_none {s : State} {ws : List Wr} (hws : ∀ w ∈ ws, isResult w = true) (hloads : s.dx.loads = []) :
    landed s ws = noLoads (ws.foldl apply s) := by
  rw [landed, landLoads_none ((onlyRegs_applyAll hws s).loads.trans hloads)]

theorem landed_single {s : State} {ws : List Wr} {d v : Nat} (hws : ∀ w ∈ ws, isResult w = true) (hloads : s.dx.loads = [(d, v)]) :
    landed s ws = noLoads (wg (noLoads (ws.foldl apply s)) d (BitVec.ofNat 32 v)) := by
  have hland : landLoads (ws.foldl apply s) = wg (noLoads (ws.foldl apply s)) d (BitVec.ofNat 32 v) := by
    unfold landLoads
    rw [(onlyRegs_applyAll hws s).loads, hloads]
    rfl
  rw [landed, hland]

/-- No register field changes where the fields are the same. -/
theorem sameRegs_of_regs {s t : State} (h : t.regs = s.regs) : sameRegs [] s t := fun f _ => by unfold State.get; rw [h]

theorem Fetches.setLoads {s : State} {n : Nat} {l : List (Nat × Nat)} (h : Fetches (xk s fun d => { d with loads := l }) n) :
    Fetches s n :=
  ⟨h.low, h.high, (fetchRefused_xk s (fun d => { d with loads := l }) s.dx.pc n).symm.trans h.guard⟩

/-! ### MOV -/

/-- What a MOV writes: the operand it reads at issue. -/
theorem writes_mov (s : State) (next pos : Nat) (u : Bool) (x : Syl) :
    writes s next (aluAt pos (aluCls u) 0x20 x) = [.g x.d.toNat (rd s x.a.toNat)] := by
  cases u <;> rfl

theorem aluAt_cls (pos op : Nat) (u : Bool) (x : Syl) : (aluAt pos (aluCls u) op x).cls < 2 := by
  have hcls : aluCls u < 2 := by cases u <;> decide
  exact hcls

/-- A MOV alone in its bundle, whatever is in flight. -/
theorem exec_mov {s : State} (u : Bool) {x : Syl} (hpor : s.por = false) (hcalm : Calm s) (hbundle : s.dx.bundle = [])
    (hstop : x.stop = true) (hlegal : sylLegal (aluCls u) 0x20 x = true) (hfetch : Fetches s (wordsOf x))
    (hg : s.guarded x = true) :
    ∃ cost stall, exec (.mov u x) s =
      .next (advanced (landed (gathered s (aluCls u) 0x20 x) [.g x.d.toNat (gA s x)]) (s.nextPc x) cost stall) := by
  have hwrites : [aluAt 0 (aluCls u) 0x20 x].flatMap (writes (gathered s (aluCls u) 0x20 x) (s.nextPc x)) =
      [.g x.d.toNat (gA s x)] := (List.append_nil _).trans (writes_mov _ _ 0 u x)
  have hrun := runOne_alu (s := gathered s (aluCls u) 0x20 x) (ys := [aluAt 0 (aluCls u) 0x20 x]) (pc := s.dx.pc)
    (next := s.nextPc x) (n := wordsOf x) (List.forall_mem_singleton.mpr (aluAt_cls 0 0x20 u x)) (List.forall_mem_singleton.mpr hg)
    ((fetchRefused_xk s _ _ _).trans hfetch.guard) (by simp [hwrites, isResult]) rfl (hcalm.gather _)
  rw [hwrites] at hrun
  have hexec := exec_syllable (i := .mov u x) hpor rfl
  rw [syllable_single hcalm hbundle hstop hfetch, if_pos hlegal] at hexec
  exact ⟨_, _, hexec.trans (congrArg _ hrun)⟩

/-- Settles O21: the MOV's write is applied first, and the load lands over it. -/
theorem loadLandsOneBundleLater : Obligations.LoadLandsOneBundleLater := by
  intro s u x d v hd0 hd hv hloads h hg
  obtain ⟨hcalm, hpor, hbundle, -, -⟩ := quiet_parts (quiet_of_canIssue h)
  obtain ⟨hcan, hlegal⟩ := canIssue_split h
  obtain ⟨-, hstop, hfetch⟩ := canFetch_parts hcan
  obtain ⟨cost, stall, hexec⟩ := exec_mov (s := s) u hpor hcalm.setLoads hbundle hstop hlegal hfetch.setLoads hg
  have hshadow : s.dx.armShadow = false := hcalm.shadow
  let b := gathered s (aluCls u) 0x20 x
  have hres : ∀ w ∈ [Wr.g x.d.toNat (gA s x)], isResult w = true := by simp [isResult]
  have hlanded : landed b [.g x.d.toNat (gA s x)] =
      noLoads (wg (noLoads (wg b x.d.toNat (gA s x))) d (BitVec.ofNat 32 v)) := by
    rw [landed_single hres (s := b) hloads, List.foldl_cons, List.foldl_nil, apply_g _ _ rfl (s := b) hshadow]
  have hmov : (wg b x.d.toNat (gA s x)).dx.armShadow = false := (wg_armShadow b _ _).trans hshadow
  have hregs : (landed b [.g x.d.toNat (gA s x)]).regs = s.regs := by
    rw [hlanded]
    exact (wg_regs _ hd).trans (wg_regs (s := b) _ x.d.isLt)
  refine ⟨_, hexec, ?_, fun r hr0 hr hne => ?_, ?_, nextPc_mod s x, fun a => ?_, sameRegs_of_regs ?_⟩
  · rw [advanced_rd, hlanded]
    exact (rd_wg_same (s := noLoads (wg b x.d.toNat (gA s x))) _ hd hmov).trans (if_neg (by omega))
  · rw [advanced_rd, hlanded]
    refine (rd_wg_ne (s := noLoads (wg b x.d.toNat (gA s x))) _ hne hr hd hmov).trans ?_
    change rd (wg b x.d.toNat (gA s x)) r = _
    split
    · next heq =>
      rw [heq]
      exact (rd_wg_same (s := b) _ x.d.isLt hshadow).trans (if_neg (by omega))
    · next hother => exact rd_wg_ne (s := b) _ hother hr x.d.isLt hshadow
  · rw [advanced_loads]
    exact (landed_only hres b).loads
  · rw [advanced_byte]
    exact (landed_only hres b).byte a
  · rw [advanced_regs, hregs]

/-! ### Two MOVs in one bundle (R92, R96) -/

/-- The bundle of a MOV of ALU0 and a MOV of ALU1. -/
def twoMovs (x y : Syl) : List BSyl := [⟨0, 0x20, x⟩, ⟨1, 0x20, y⟩]

theorem place_twoMovs {x : Syl} (hx : x.limm = none) (y : Syl) :
    place 0 (twoMovs x y) = [aluAt 0 0 0x20 x, aluAt 1 1 0x20 y] := by
  simp [place, twoMovs, aluAt, bwords, hx, b2n]

theorem words_twoMovs {x y : Syl} (hx : x.limm = none) (hy : y.limm = none) : words (twoMovs x y) = 2 := by
  simp [words, twoMovs, bwords, hx, hy, b2n]

/-- In the order of their classes, with legal forms and no LIMM, they form a legal bundle (R92, R93). -/
theorem illegalAt_twoMovs {s : State} {x y : Syl} (hprog : s.dx.armProg = false) (hx : x.limm = none) (hy : y.limm = none)
    (hlegalx : aluLegal 0x20 x = true) (hlegaly : aluLegal 0x20 y = true) :
    illegalAt s [aluAt 0 0 0x20 x, aluAt 1 1 0x20 y] 2 true false = none := by
  have hsylx : sylLegal 0 0x20 x = true := by simp [sylLegal, hx, hlegalx]
  have hsyly : sylLegal 1 0x20 y = true := by simp [sylLegal, hy, hlegaly]
  simp [illegalAt, aluAt, hsylx, hsyly, customBlocked, isCustom, isRep, orderBad, limms, hx, hy, progMisses, hprog]

/-- The second MOV's syllable stops the bundle that the first began, and both run. -/
theorem runBundle_twoMovs {s : State} {x y : Syl} (hcalm : Calm s) (hfetch : Fetches s 2) (hx : x.limm = none) (hy : y.limm = none)
    (hlegalx : aluLegal 0x20 x = true) (hlegaly : aluLegal 0x20 y = true) (hgx : s.guarded x = true) (hgy : s.guarded y = true)
    (hstop : y.stop = true) :
    ∃ cost stall, runBundle (gather s (twoMovs x y)) =
      advanced (landed (gather s (twoMovs x y)) [.g x.d.toNat (gA s x), .g y.d.toNat (gA s y)]) (s.dx.pc + 8) cost stall := by
  have hwords := words_twoMovs hx hy
  have hpc : ((gather s (twoMovs x y)).dx.pc + 4 * 2) % 2 ^ 32 = s.dx.pc + 8 :=
    Nat.mod_eq_of_lt (Nat.lt_of_le_of_lt hfetch.high (by decide))
  have hbundle := runBundle_calm (s := gather s (twoMovs x y)) (b := twoMovs x y) (y := ⟨1, 0x20, y⟩) (hcalm.gather _) rfl rfl hstop
    (by omega) (by rw [hwords]; exact hfetch.gather _)
  rw [place_twoMovs hx y, hwords, illegalAt_twoMovs (s := gather s (twoMovs x y)) hcalm.prog hx hy hlegalx hlegaly] at hbundle
  have hwrites : [aluAt 0 0 0x20 x, aluAt 1 1 0x20 y].flatMap (writes (gather s (twoMovs x y)) (s.dx.pc + 8)) =
      [.g x.d.toNat (gA s x), .g y.d.toNat (gA s y)] := rfl
  have hrun := runOne_alu (s := gather s (twoMovs x y)) (ys := [aluAt 0 0 0x20 x, aluAt 1 1 0x20 y]) (pc := s.dx.pc)
    (next := s.dx.pc + 8) (n := 2) (by simp [aluAt]) (by simpa using ⟨hgx, hgy⟩) ((fetchRefused_xk s _ _ _).trans hfetch.guard)
    (by simp [hwrites, isResult]) rfl (hcalm.gather _)
  rw [hwrites] at hrun
  rw [Option.elim_none, hpc] at hbundle
  exact ⟨_, _, hbundle.trans hrun⟩

/-- Settles O20: both operands are read of the state before the bundle, and the writes are applied in order. -/
theorem bundleReadsBeforeItWrites : Obligations.BundleReadsBeforeItWrites := by
  intro s x y h hstopx hx hlegalx hgx hgy hend hguard
  obtain ⟨hcalm, hpor, hbundle, hloads, -⟩ := quiet_parts (quiet_of_canIssue h)
  obtain ⟨hcan, hlegal⟩ := canIssue_split h
  obtain ⟨-, hstop, hone⟩ := canFetch_parts hcan
  obtain ⟨hlimm, hlegaly⟩ := sylLegal_alu (x := y) (op := 0x20) hlegal
  have hfetch : Fetches s 2 := ⟨hone.low, hend, Option.isNone_iff_eq_none.mp hguard⟩
  have hpc : (s.dx.pc + 8) % 2 ^ 32 = s.dx.pc + 8 := by omega
  have hfirst : exec (.mov false x) s = .next (gather s [⟨0, 0x20, x⟩]) := by
    have hwords : words [⟨aluCls false, 0x20, x⟩] = 1 := by simp [words, bwords, hx, b2n]
    rw [exec_syllable (i := .mov false x) hpor rfl, syllable_gathers hcalm, hbundle, List.nil_append, hstopx, hwords]
    rfl
  have hsecond : exec (.mov true y) (gather s [⟨0, 0x20, x⟩]) = .next (runBundle (gather s (twoMovs x y))) := by
    rw [exec_syllable (i := .mov true y) (s := gather s [⟨0, 0x20, x⟩]) hpor rfl, syllable_gathers (hcalm.gather _), hstop]
    rfl
  obtain ⟨cost, stall, hrun⟩ := runBundle_twoMovs hcalm hfetch hx (hlimm rfl) hlegalx hlegaly hgx hgy hstop
  rw [hrun] at hsecond
  let b := gather s (twoMovs x y)
  have hshadow : b.dx.armShadow = false := hcalm.shadow
  have hres : ∀ w ∈ [Wr.g x.d.toNat (gA s x), Wr.g y.d.toNat (gA s y)], isResult w = true := by simp [isResult]
  have hx' : (wg b x.d.toNat (gA s x)).dx.armShadow = false := (wg_armShadow b _ _).trans hshadow
  have hrunning : gone (wg b x.d.toNat (gA s x)) = false := (onlyRegs_wg b _ _).gone
  have hlanded : landed b [.g x.d.toNat (gA s x), .g y.d.toNat (gA s y)] =
      noLoads (wg (wg b x.d.toNat (gA s x)) y.d.toNat (gA s y)) := by
    rw [landed_none hres (s := b) hloads, List.foldl_cons, List.foldl_cons, List.foldl_nil, apply_g _ _ rfl (s := b) hshadow,
      apply_g _ _ hrunning hx']
  have hrd : ∀ r, rd (landed b [.g x.d.toNat (gA s x), .g y.d.toNat (gA s y)]) r =
      rd (wg (wg b x.d.toNat (gA s x)) y.d.toNat (gA s y)) r := fun r => by rw [hlanded]; rfl
  have hregs : (landed b [.g x.d.toNat (gA s x), .g y.d.toNat (gA s y)]).regs = s.regs := by
    rw [hlanded]
    exact (wg_regs _ y.d.isLt).trans (wg_regs (s := b) _ x.d.isLt)
  refine ⟨_, _, hfirst, rfl, rfl, rfl, hsecond, fun r hr0 hr => ?_, ?_, hpc, rfl, fun a => ?_, sameRegs_of_regs ?_⟩
  · rw [advanced_rd, hrd]
    split
    · next heq =>
      rw [heq, rd_wg_same _ y.d.isLt hx', if_neg (by omega)]
    · next hne =>
      rw [rd_wg_ne _ hne hr y.d.isLt hx']
      split
      · next heq =>
        rw [heq, rd_wg_same _ x.d.isLt hshadow, if_neg (by omega)]
      · next hother => exact rd_wg_ne (s := b) _ hother hr x.d.isLt hshadow
  · rfl
  · rw [advanced_byte]
    exact (landed_only hres b).byte a
  · rw [advanced_regs, hregs]

end Sys2Proof.Machine.InstructionSet
end

section
/-! Loads from SRAM: the bytes read, the conflict counter, and the bundle that leaves the value in flight (R98, R110, R111, R171,
R174). -/

namespace Sys2Proof.Machine.InstructionSet

open Sys2Proof Sys2Proof.Machine

/-! ### Little-endian reads (R6) -/

theorem leNat_append (l m : List Byte) : leNat (l ++ m) = leNat l + 256 ^ l.length * leNat m := by
  induction l with
  | nil => simp [leNat]
  | cons b l ih =>
    rw [List.cons_append, leNat, leNat, ih, List.length_cons, pow_succ]
    ring

theorem leNat_lt (l : List Byte) : leNat l < 256 ^ l.length := by
  induction l with
  | nil => decide
  | cons b l ih =>
    have hb : b.toNat < 256 := b.isLt
    rw [leNat, List.length_cons, pow_succ]
    omega

/-- Adjoining bytes read as one number. -/
theorem rd_add (s : State) (a m n : Nat) : s.rd a (m + n) = s.rd a m + 256 ^ m * s.rd (a + m) n := by
  have hlength : ((List.range m).map fun i => s.byte (a + i)).length = m := by simp
  unfold State.rd
  rw [List.range_add, List.map_append, leNat_append, hlength, List.map_map]
  simp only [Function.comp_def, Nat.add_assoc]

theorem rd_lt (s : State) (a n : Nat) : s.rd a n < 256 ^ n := by
  have hlt := leNat_lt ((List.range n).map fun i => s.byte (a + i))
  rwa [List.length_map, List.length_range] at hlt

/-- Bytes inside a longer number. -/
theorem rd_inside (s : State) (a j k n : Nat) : s.rd a (j + (n + k)) / 256 ^ j % 256 ^ n = s.rd (a + j) n := by
  rw [rd_add, rd_add, Nat.add_mul_div_left _ _ (Nat.pow_pos (by decide)), Nat.div_eq_of_lt (rd_lt s a j), Nat.zero_add,
    Nat.add_mul_mod_self_left, Nat.mod_eq_of_lt (rd_lt s _ n)]

/-- An aligned access of 1, 2 or 4 bytes lies in one word. -/
theorem rd_subword (s : State) {a n : Nat} (hn : n = 1 ∨ n = 2 ∨ n = 4) (haligned : a % n = 0) :
    s.rd (a - a % 4) 4 / 2 ^ (8 * (a % 4)) % 2 ^ (8 * n) = s.rd a n := by
  have hfits : a % 4 + n ≤ 4 := by rcases hn with rfl | rfl | rfl <;> omega
  have hword : 4 = a % 4 + (n + (4 - n - a % 4)) := by omega
  have hplace : a - a % 4 + a % 4 = a := by omega
  have hinside := rd_inside s (a - a % 4) (a % 4) (4 - n - a % 4) n
  rw [← hword, hplace] at hinside
  rw [pow_mul, pow_mul]
  exact hinside

theorem rd_eight (s : State) (a : Nat) : s.rd a 8 = s.rd a 4 + s.rd (a + 4) 4 * 2 ^ 32 := by
  rw [show (8 : Nat) = 4 + 4 from rfl, rd_add]
  ring

/-! ### The conflict counter (R174) -/

/-- `t` differs from `s` in the core's conflict counter and in the counter of free values alone. -/
structure Counted (s t : State) : Prop where
  rest : { s with free := t.free, regs := t.regs } = t
  get : ∀ f : Fld, f.key ≠ (MEM_CONF_COUNT 0).key → t.get f = s.get f

theorem Counted.refl (s : State) : Counted s s := ⟨rfl, fun _ _ => rfl⟩

theorem Counted.trans {s t u : State} (h : Counted s t) (k : Counted t u) : Counted s u := by
  refine ⟨?_, fun f hf => (k.get f hf).trans (h.get f hf)⟩
  have hrest := k.rest
  rw [← h.rest] at hrest
  exact hrest

theorem Counted.dx {s t : State} (h : Counted s t) : t.dx = s.dx := (congrArg State.dx h.rest).symm
theorem Counted.mem {s t : State} (h : Counted s t) : t.mem = s.mem := (congrArg State.mem h.rest).symm
theorem Counted.ms {s t : State} (h : Counted s t) : t.ms = s.ms := (congrArg State.ms h.rest).symm
theorem Counted.rd {s t : State} (h : Counted s t) (a n : Nat) : t.rd a n = s.rd a n := by
  unfold State.rd State.byte
  rw [h.mem]

theorem counted_noteConf (s : State) (a : Nat) : Counted s (noteConf s .core a) := by
  unfold noteConf
  split
  · exact Counted.refl s
  · next i hi =>
    cases hi
    split
    · exact Counted.refl s
    · exact ⟨rfl, fun f hf => get_put_ne _ _ _ _ hf⟩

/-! ### The read (R171, R176) -/

section
variable {s : State} {a : Nat} (hsram : inSram a = true) (herrors : s.ms.sramErr = []) (hwipes : s.ms.wipeQ = [])
include hsram herrors hwipes

/-- With no stored error and no wipe a word of SRAM is read as it stands. -/
theorem readWord_sram : readWord s .core a = (some (s.rd a 4), noteConf s .core a) := by
  have hcounted := counted_noteConf s a
  have hwait : sramWait s a = s := by simp [sramWait, hwipes]
  have hnone : Sparse.look 0 (noteConf s .core a).ms.sramErr a = 0 := by rw [hcounted.ms, herrors]; rfl
  have hrange : 0x10000000 ≤ a ∧ a < 0x10400000 := by simpa [inSram] using hsram
  have hplain : unalias a = a := by
    have hset : inSet a = false := by simp [inSet]; omega
    have hclr : inClr a = false := by simp [inClr]; omega
    simp [unalias, hset, hclr]
  have hrom : inRom a = false := by simp [inRom]; omega
  unfold readWord
  simp only [hplain, hrom, hsram, Bool.false_eq_true, if_false, if_true, sramRead, hwait, hnone, hcounted.rd]

/-- An aligned read of SRAM answers its bytes. -/
theorem readMem_sram {n : Nat} (hn : n = 1 ∨ n = 2 ∨ n = 4 ∨ n = 8) (haligned : a % n = 0) :
    ∃ t, Counted s t ∧ readMem s .core a n = (some (s.rd a n), t) := by
  rcases (by omega : n = 8 ∨ (n = 1 ∨ n = 2 ∨ n = 4)) with rfl | hsmall
  · have hcounted := counted_noteConf s a
    have hnext : inSram (a + 4) = true := by simp only [inSram, Bool.and_eq_true, decide_eq_true_eq] at hsram ⊢; omega
    have hlow := readWord_sram hsram herrors hwipes
    have hhigh := readWord_sram (s := noteConf s .core a) hnext (by rw [hcounted.ms, herrors]) (by rw [hcounted.ms, hwipes])
    rw [hcounted.rd] at hhigh
    refine ⟨_, hcounted.trans (counted_noteConf (noteConf s .core a) (a + 4)), ?_⟩
    unfold readMem
    simp only [if_true, hlow, hhigh, ← rd_eight]
  · have hword : inSram (a - a % 4) = true := by
      simp only [inSram, Bool.and_eq_true, decide_eq_true_eq] at hsram ⊢
      omega
    refine ⟨_, counted_noteConf s (a - a % 4), ?_⟩
    unfold readMem
    rw [if_neg (by omega), readWord_sram hword herrors hwipes]
    simp only [Option.map_some, rd_subword s hsmall haligned]

end

/-! ### The value and its destination (R110) -/

/-- The sizes of loads; none of them stores. -/
theorem lsuOp_load {op : Nat} {l : Lsu} (h : lsuOp op = some l) (hload : l.load = true) :
    (l.size = 1 ∨ l.size = 2 ∨ l.size = 4 ∨ l.size = 8) ∧ l.sat = false := by
  have hsmall : ∀ op < 0x27, ∀ l ∈ lsuOp op, l.load = true →
      (l.size = 1 ∨ l.size = 2 ∨ l.size = 4 ∨ l.size = 8) ∧ l.sat = false := by decide
  rcases Nat.lt_or_ge op 0x27 with hop | hop
  · exact hsmall op hop l h hload
  · have hnone : lsuOp op = none := by
      unfold lsuOp
      simp only [Bool.and_eq_true, decide_eq_true_eq]
      repeat rw [if_neg (by omega)]
    rw [hnone] at h
    cases h

/-- What a load delivers of the bytes it read. -/
theorem loadDest_rd (s : State) (p : Axs) (hsize : p.lsu.size = 1 ∨ p.lsu.size = 2 ∨ p.lsu.size = 4 ∨ p.lsu.size = 8) (a : Nat) :
    loadDest p (s.rd a p.lsu.size) =
      if p.lsu.size = 8 then [(p.d, s.rd a 4), (p.d + 1, s.rd (a + 4) 4)]
      else [(p.d, if p.lsu.sx then ((BitVec.ofNat (8 * p.lsu.size) (s.rd a p.lsu.size)).signExtend 32).toNat
                  else s.rd a p.lsu.size)] := by
  unfold loadDest
  split
  · next h8 =>
    have hlt : s.rd a 4 < 2 ^ 32 := rd_lt s a 4
    rw [h8, rd_eight, Nat.add_mul_mod_self_right, Nat.mod_eq_of_lt hlt, Nat.add_mul_div_right _ _ (by decide),
      Nat.div_eq_of_lt hlt, Nat.zero_add]
  · have hwidth : 0 < 8 * p.lsu.size := by omega
    unfold extend
    split
    · rw [sgn_eq_toInt hwidth, BitVec.signExtend, BitVec.toNat_ofInt]
      rfl
    · rfl

/-! ### The bundle of a load (R98, R110, R111) -/

/-- A load with an aligned address that the guard allows raises nothing. -/
theorem preExc_load {s : State} {op : Nat} {x : Syl} {p : Axs} (h : s.canIssue 2 op x = true) (hg : s.guarded x = true)
    (hp : accOf s (only 2 op x) = some p) (haligned : p.addr % p.lsu.size = 0) (hguard : accGuard s p = .ok) :
    preExc (gathered s 2 op x) s.dx.pc (wordsOf x) [only 2 op x] = none := by
  obtain ⟨-, -, hfetch⟩ := canFetch_parts (canIssue_split h).1
  have hacc : accOf (gathered s 2 op x) (only 2 op x) = some p := hp
  have hplace : misaligned (gathered s 2 op x) s.dx.pc (only 2 op x) = none := by
    simp [misaligned, hacc, haligned, show (only 2 op x).cls = 2 from rfl]
  have hdata : dataExc (gathered s 2 op x) p = none := by
    have hallowed : accGuard (gathered s 2 op x) p = .ok := (accGuard_xk s _ p).trans hguard
    simp [dataExc, hallowed]
  have hlevel : lacksLevel (gathered s 2 op x) (only 2 op x) = false := rfl
  have hstack : stackSlot (gathered s 2 op x) (only 2 op x) = none := rfl
  rw [preExc_single (s := gathered s 2 op x) (y := only 2 op x) hg ((fetchRefused_xk s _ _ _).trans hfetch.guard),
    invalidExc_other rfl, hlevel, hplace, hstack, hacc, Option.bind_some, hdata]
  rfl

/-- With the store buffer empty a load reads SRAM at once (R162). -/
theorem doAccess_load {s : State} {p : Axs} (hload : p.lsu.load = true) (hstores : s.dx.stores = []) (hsram : inSram p.addr = true)
    (herrors : s.ms.sramErr = []) (hwipes : s.ms.wipeQ = [])
    (hsize : p.lsu.size = 1 ∨ p.lsu.size = 2 ∨ p.lsu.size = 4 ∨ p.lsu.size = 8) (haligned : p.addr % p.lsu.size = 0) :
    ∃ t, Counted s t ∧ doAccess s p = (some (loadDest p (s.rd p.addr p.lsu.size)), t) := by
  obtain ⟨t, hcounted, hread⟩ := readMem_sram hsram herrors hwipes hsize haligned
  refine ⟨t, hcounted, ?_⟩
  have hrange : 0x10000000 ≤ p.addr ∧ p.addr < 0x10400000 := by simpa [inSram] using hsram
  have hpage : inPage p.addr = false := by simp [inPage]; omega
  have hnv : inNv p.addr = false := by simp [inNv]; omega
  have hbefore : beforeLoad s p.addr p.lsu.size = s := by simp [beforeLoad, hstores, throughLast, completeStores]
  unfold doAccess coreLoad
  simp only [hload, if_true, hbefore, hpage, Bool.false_eq_true, if_false, busTurn_outside s p.addr hnv, hread, Option.map_some]

/-- What a load writes beside its destination: its base, where the mode says so. -/
theorem lsuWrites_load {s : State} {y : Sy} {l : Lsu} (h : lsuOp y.op = some l) (hsat : l.sat = false) :
    lsuWrites s y = (lsuAddr s y l).2.toList.map (.g y.a) := by
  simp only [lsuWrites, h, hsat]
  cases (lsuAddr s y l).2 <;> rfl

/-- The access of a load or store is of its row's kind, for its D. -/
theorem accOf_row {s : State} {op : Nat} {x : Syl} {l : Lsu} {p : Axs} (hl : lsuOp op = some l)
    (hp : accOf s (only 2 op x) = some p) : p.lsu = l ∧ p.d = x.d.toNat := by
  have hrow : lsuOp (only 2 op x).op = some l := hl
  simp only [accOf, hrow, Option.map_some] at hp
  obtain rfl := Option.some.inj hp
  exact ⟨rfl, rfl⟩

/-- A row of a load or store is no long instruction. -/
theorem longKind_row {op : Nat} {x : Syl} {l : Lsu} (hl : lsuOp op = some l) : hasLong [only 2 op x] = false := by
  have hother : op ≠ 0x30 ∧ op ≠ 0x31 ∧ op ≠ 0x32 := by
    refine ⟨?_, ?_, ?_⟩ <;> rintro rfl <;> cases hl
  simp [hasLong, longKind, isCustom, only, hother]

/-- A load's bundle completes with its base written and its value in flight. -/
theorem exec_load {s : State} {i : Instr} {op : Nat} {x : Syl} {l : Lsu} {p : Axs} (hi : coreSyl i = some (2, op, x))
    (hl : lsuOp op = some l) (hload : l.load = true) (h : s.canIssue 2 op x = true) (hg : s.guarded x = true)
    (hp : accOf s (only 2 op x) = some p) (haligned : p.addr % p.lsu.size = 0) (hsram : inSram p.addr = true)
    (hguard : accGuard s p = .ok) :
    ∃ t cost stall, Counted (gathered s 2 op x) t ∧ exec i s = .next (advanced
      (xk (((lsuAddr s (only 2 op x) l).2.toList.map (Wr.g x.a.toNat)).foldl apply t)
        fun d => { d with loads := loadDest p (s.rd p.addr p.lsu.size) }) (s.nextPc x) cost stall) := by
  obtain ⟨hcalm, hpor, -, hloads, -⟩ := quiet_parts (quiet_of_canIssue h)
  obtain ⟨hsize, hsat⟩ := lsuOp_load hl hload
  obtain ⟨hlsu, -⟩ := accOf_row hl hp
  subst hlsu
  obtain ⟨t, hcounted, hdo⟩ := doAccess_load (s := gathered s 2 op x) hload hcalm.stores hsram hcalm.errors hcalm.wipes hsize haligned
  have hdx := hcounted.dx
  have hwrites : [only 2 op x].flatMap (writes (gathered s 2 op x) (s.nextPc x)) =
      (lsuAddr s (only 2 op x) p.lsu).2.toList.map (Wr.g x.a.toNat) :=
    (List.append_nil _).trans (lsuWrites_load (s := gathered s 2 op x) (y := only 2 op x) hl hsat)
  have hres : ∀ w ∈ (lsuAddr s (only 2 op x) p.lsu).2.toList.map (Wr.g x.a.toNat), isResult w = true := by simp [isResult]
  have hgone : gone t = false := by unfold gone; rw [hdx]; rfl
  have hacc : [only 2 op x].findSome? (accOf (gathered s 2 op x)) = some p := by
    have hone : accOf (gathered s 2 op x) (only 2 op x) = some p := hp
    simp [hone]
  have hissue : issue (gathered s 2 op x) s.dx.pc (s.nextPc x) (wordsOf x) [only 2 op x] none =
      complete t ((lsuAddr s (only 2 op x) p.lsu).2.toList.map (Wr.g x.a.toNat)) (loadDest p (s.rd p.addr p.lsu.size)) false := by
    rw [issue_access (preExc_load h hg hp haligned hguard) (filter_active hg 2 op) (longKind_row hl) rfl hcalm.prog hacc hdo hgone,
      hwrites]
    rfl
  have hregs := onlyRegs_applyAll hres t
  rw [complete_results hres _ hgone (by rw [hdx]; exact hcalm.shadow),
    landLoads_none (hregs.loads.trans (by rw [hdx]; exact hloads))] at hissue
  refine ⟨t, 1 + crossing s.dx.pc (wordsOf x) + 0, stallOf (gathered s 2 op x) [only 2 op x], hcounted, ?_⟩
  rw [exec_syllable hpor hi, syllable_only s 2 op x h]
  unfold runOne
  simp only [List.find?_cons, show isRep (only 2 op x) = false from rfl, List.find?_nil, filter_active hg 2 op, hissue,
    longKind_row hl, Bool.false_eq_true, if_false]
  refine congrArg _ ?_
  exact finish_advances (s := xk (((lsuAddr s (only 2 op x) p.lsu).2.toList.map (Wr.g x.a.toNat)).foldl apply t)
    fun d => { d with loads := loadDest p (s.rd p.addr p.lsu.size) }) (hregs.gone.trans hgone) (hregs.stores.trans (by rw [hdx]; exact hcalm.stores))
    (hregs.drain.trans (by rw [hdx]; exact hcalm.drain)) (goesOn (s.nextPc x)) _ _ _ rfl

/-- A write of a general register changes the register file alone. -/
theorem wg_frame {s : State} {d : Nat} (v : Word) (hd : d < 32) : { s with dx := { s.dx with g := (wg s d v).dx.g } } = wg s d v := by
  have hhigh : ¬ 32 ≤ d := by omega
  unfold wg
  rw [if_neg hhigh]
  split <;> rfl

/-- The base after a load. -/
theorem apply_base {t : State} (b : Option Word) (a : Nat) (hgone : gone t = false) (hshadow : t.dx.armShadow = false) :
    (b.toList.map (Wr.g a)).foldl apply t = b.elim t (wg t a) := by
  cases b with
  | none => rfl
  | some v => exact apply_g a v hgone hshadow

theorem base_frame {t : State} (b : Option Word) {a : Nat} (ha : a < 32) :
    { t with dx := { t.dx with g := (b.elim t (wg t a)).dx.g } } = b.elim t (wg t a) := by
  cases b with
  | none => rfl
  | some v => exact wg_frame v ha

theorem base_regs {t : State} (b : Option Word) {a : Nat} (ha : a < 32) : (b.elim t (wg t a)).regs = t.regs := by
  cases b with
  | none => rfl
  | some v => exact wg_regs v ha

theorem base_rd {t : State} (b : Option Word) {a r : Nat} (ha : a < 32) (hr : r < 32) (hshadow : t.dx.armShadow = false) :
    rd (b.elim t (wg t a)) r = match b with
      | some v => if r = a ∧ r ≠ 0 then v else rd t r
      | none => rd t r := by
  cases b with
  | none => rfl
  | some v =>
    change rd (wg t a v) r = if r = a ∧ r ≠ 0 then v else rd t r
    split
    · next h =>
      obtain ⟨rfl, hr0⟩ := h
      exact (rd_wg_same v hr hshadow).trans (if_neg hr0)
    · next h =>
      by_cases hra : r = a
      · subst hra
        have hzero : r = 0 := by omega
        rw [rd_wg_same v hr hshadow, if_pos hzero, rd_plain hr hshadow, if_pos hzero]
      · exact rd_wg_ne v hra hr ha hshadow

/-- Beside the register file, what is in flight and the counters, a load's bundle leaves the state as it was. -/
theorem load_frame {s t u : State} {op : Nat} {x : Syl} (hbundle : s.dx.bundle = []) (hcounted : Counted (gathered s 2 op x) t)
    (hu : { t with dx := { t.dx with g := u.dx.g } } = u) (l : List (Nat × Nat)) (next cost : Nat) (stall : Option Nat) :
    let v := advanced (xk u fun d => { d with loads := l }) next cost stall
    { v with
      free := s.free, regs := s.regs
      dx := { v.dx with g := s.dx.g, loads := s.dx.loads, pc := s.dx.pc, cyc := s.dx.cyc, deferred := s.dx.deferred } } = s := by
  have hempty : { s.dx with bundle := [] } = s.dx := by rw [← hbundle]
  intro v
  have hv : v = advanced (xk u fun d => { d with loads := l }) next cost stall := rfl
  rw [hv, ← advanced_only, ← hu, ← hcounted.rest]
  exact congrArg (fun d => { s with dx := d }) hempty

/-- Settles O11: the bytes read are the value's, the base is the one write, and a wait in a bank the core does not own is counted. -/
theorem loadsDeliver : Obligations.LoadsDeliver := by
  intro s i op x l p hi hl hload h hg hp haligned hsram hguard
  obtain ⟨hcalm, -, hbundle, -⟩ := quiet_parts (quiet_of_canIssue h)
  obtain ⟨hsize, -⟩ := lsuOp_load hl hload
  obtain ⟨rfl, hd⟩ := accOf_row hl hp
  obtain ⟨t, cost, stall, hcounted, hexec⟩ := exec_load hi hl hload h hg hp haligned hsram hguard
  have hdx := hcounted.dx
  have hshadow : t.dx.armShadow = false := by rw [hdx]; exact hcalm.shadow
  have hrunning : gone t = false := by unfold gone; rw [hdx]; rfl
  have hread : ∀ r, r < 32 → rd t r = rd s r := fun r hr => rd_kept hcalm.shadow hr (by rw [hdx]; rfl) (by rw [hdx]; rfl)
  rw [apply_base _ _ hrunning hshadow] at hexec
  have hframe := base_frame (t := t) (lsuAddr s (only 2 op x) p.lsu).2 x.a.isLt
  refine ⟨_, hexec, ?_, fun r hr => ?_, nextPc_mod s x, fun a => ?_, fun f hf => ?_, load_frame hbundle hcounted hframe _ _ _ _⟩
  · rw [advanced_loads, ← hd]
    exact loadDest_rd s p hsize p.addr
  · rw [advanced_rd, ← hread r hr]
    exact base_rd _ x.a.isLt hr hshadow
  · rw [advanced_byte, ← hframe]
    exact congrArg (fun m => Sparse.look 0 m a) hcounted.mem
  · rw [advanced_get]
    refine Eq.trans ?_ (hcounted.get f hf)
    exact congrArg (fun m => Sparse.look f.rst m f.key) (base_regs _ x.a.isLt)

end Sys2Proof.Machine.InstructionSet
end

section
/-! Counterexamples that the model runs: a store beside a pending machine check, the frame of MVTS, and a write of CORE_SWRST that a
custom instruction holds back. -/

namespace Sys2Proof.Machine.InstructionSet

open Sys2Proof Sys2Proof.Machine Sys2Proof.Machine.PowerStates

/-! ### A store while a machine check pends in a handler (R163) -/

/-- The part in Run in state MADE, in a handler (EL=1): a late bus error has left its machine check pending, g1 holds the address of
CORE_CBASE0 and g2 the start of bank 0. -/
def checkInHandler : State :=
  { inRun.put CORE_STATUS_EL 1 with
    sec := { inRun.sec with fuses := 1 }
    dx := { inRun.dx with mcPend := true, g := (inRun.dx.g.set 1 0x40002220).set 2 0x10000000 } }

/-- STW g3, [g1], with predicate p0, alone in its bundle. -/
def storeCbase : Syl := ⟨true, 0, 3, 1, 0, 0, none⟩

/-- Refutes O12: the second clause keeps every field but CORE_CBASE0, yet the store leaves the buffer behind the failed one whose
machine check pends, and CORE_BEINFO.LATER counts it. -/
theorem not_storesReach : ¬ Obligations.StoresReach := by
  rintro ⟨-, hcbase⟩
  obtain ⟨t, ht, -, -, hregs, -⟩ := hcbase checkInHandler (.stw storeCbase) 0x1A storeCbase ⟨false, 4, false, 0, false⟩
    ⟨0, ⟨false, 4, false, 0, false⟩, 0x40002220, 0, 3⟩ 0 rfl rfl rfl rfl rfl (by decide +kernel) (by decide +kernel)
    (by decide +kernel) (by decide) rfl (by decide +kernel) (by decide +kernel)
  have hcounts : readsAfter (.stw storeCbase) checkInHandler CORE_BEINFO_LATER = some 1 := by decide +kernel
  have hnone : checkInHandler.get CORE_BEINFO_LATER = 0 := by decide +kernel
  rw [readsAfter_of_next ht, hregs CORE_BEINFO_LATER (by decide), hnone] at hcounts
  exact absurd hcounts (by decide)

/-- The same with STBUF=0. -/
def checkUnbuffered : State := checkInHandler.put CORE_EXCCFG_STBUF 0

/-- SAVEM of g3 alone to the address in g2. -/
def saveOne : Syl := ⟨true, 0, 3, 2, 3, 0, none⟩

/-- Outside the register pages the guard does not look at the value written. -/
theorem access_value {s : State} {m : Master} {p a k : Nat} (v w : Nat) (h : inPage a = false) :
    access s m p a 4 k v = access s m p a 4 k w := by
  simp [access, guard, guard1, fixedRule, h]

/-- Refutes O14: the second clause keeps every field, yet the word that SAVEM stores completes behind the failed store whose machine
check pends, and CORE_BEINFO.LATER counts it. -/
theorem not_longInstructionsMoveWords : ¬ Obligations.LongInstructionsMoveWords := by
  rintro ⟨-, hsavem, -⟩
  have hone : saveOne.b.toNat + 1 - saveOne.d.toNat = 1 := by decide
  have haddr : (gA checkUnbuffered saveOne).toNat = 0x10000000 := by decide +kernel
  have hguard : access checkUnbuffered .core (coreTag checkUnbuffered) 0x10000000 4 1 0 = .ok := by decide +kernel
  have hclause := hsavem checkUnbuffered saveOne (by decide +kernel) (by decide +kernel) (by decide +kernel)
  simp only [hone, haddr] at hclause
  obtain ⟨t, ht, -, -, -, -, hregs⟩ := hclause (by decide) (by decide) (by decide) fun k v hk => by
    obtain rfl : k = 0 := by omega
    rw [access_value v 0 (by decide), hguard]
  have hcounts : readsAfter (.savem saveOne) checkUnbuffered CORE_BEINFO_LATER = some 1 := by decide +kernel
  have hnone : checkUnbuffered.get CORE_BEINFO_LATER = 0 := by decide +kernel
  rw [readsAfter_of_next ht, hregs CORE_BEINFO_LATER (by decide), hnone] at hcounts
  exact absurd hcounts (by decide)

/-! ### The frame of MVTS (R10, R101) -/

/-- The part in Run with g1 holding CORE_STATUS's bit IE. -/
def enableInG1 : State := { inRun with dx := { inRun.dx with g := inRun.dx.g.set 1 4 } }

/-- MVTS of g1 to CORE_STATUS. -/
def writeStatus : Syl := ⟨true, 0, 0, 1, 2, 0, none⟩

/-- CORE_STATUS.IE under another name: bit 34 counted from the address below. A field is kept by its address times 32 plus its lowest
bit, and State does not ask for a lowest bit below 32. -/
def statusIeAlias : Fld := ⟨0x4000207F, 34, 1, .rw, 0⟩

/-- Refutes O17: the fourth clause keeps every field whose address is another than the register's, but a field named by another
address and a bit beyond 31 can be one of the register: MVTS sets CORE_STATUS.IE, and its other name reads 1 with it. -/
theorem not_specialRegisterMoves : ¬ Obligations.SpecialRegisterMoves := by
  rintro ⟨-, -, -, hstatus⟩
  obtain ⟨t, ht, -, hframe, -⟩ := hstatus enableInG1 writeStatus (by decide +kernel) (by decide +kernel)
    ⟨1, by decide, by decide +kernel⟩ (by decide)
  have hset : readsAfter (.mvts writeStatus) enableInG1 statusIeAlias = some 1 := by decide +kernel
  have hclear : enableInG1.get statusIeAlias = 0 := by decide +kernel
  rw [readsAfter_of_next ht, hframe statusIeAlias (by decide) (by decide), hclear] at hset
  exact absurd hset (by decide)

/-! ### A write of CORE_SWRST that waits (R27, R145) -/

/-- The part in Run where a write of the microstore already waits for the end of a custom instruction. -/
def writeHeld : State := { inRun with dx := { inRun.dx with usHeld := some [(2, 0x93, 0)] } }

/-- Writes held back after a command; none where the command stops the model. -/
def heldAfter (i : Instr) (s : State) : Option Nat :=
  match exec i s with
  | .next t => t.dx.usHeld.map List.length
  | _ => none

/-- Refutes O38: the last clause has no premise on writes held back; where one waits, a write of CORE_SWRST waits behind it, and the
core's state does not stay. -/
theorem not_coreWindows : ¬ Obligations.CoreWindows := by
  rintro ⟨-, -, -, -, -, -, -, -, hother⟩
  obtain ⟨t, ht, -, hsame, -⟩ := hother writeHeld .dap 0 rfl (by decide +kernel) (by decide)
  have hwaits : heldAfter (.coreSoftwareResetWrite .dap 0) writeHeld = some 2 := by decide +kernel
  have hdx : t.dx = writeHeld.dx := (congrArg State.dx hsame).symm
  unfold heldAfter at hwaits
  rw [ht] at hwaits
  simp only [hdx] at hwaits
  exact absurd hwaits (by decide)

end Sys2Proof.Machine.InstructionSet
end

section
/-! The accumulating rows of the MAC classes: the exact value wrapped or clamped by the mode, and the sticky conditions it meets (R115,
R120, R121, R125). -/

namespace Sys2Proof.Machine.SignalDatapath

open Sys2Proof Sys2Proof.Machine Sys2Proof.Machine.InstructionSet

/-! ### The sticky conditions (R125) -/

section
variable {s t : State} {a b : Bool}

/-- A clamp sets SATF beside what was met before. -/
theorem sticky_put_satf (h : sticky s t a b) : sticky s (t.put CORE_DSPSTAT_SATF 1) true b := by
  obtain ⟨-, hovf, hrest⟩ := h
  refine ⟨?_, ?_, fun f hf hother => ?_⟩
  · simp [State.on, get_put_self, CORE_DSPSTAT_SATF]
  · rw [← hovf, State.on, get_put_ne _ _ _ _ (by decide), State.on]
  · rw [get_put_ne _ _ _ _ hf, hrest f hf hother]

/-- A wrapped result sets OVF40 beside what was met before. -/
theorem sticky_put_ovf (h : sticky s t a b) : sticky s (t.put CORE_DSPSTAT_OVF40 1) a true := by
  obtain ⟨hsatf, -, hrest⟩ := h
  refine ⟨?_, ?_, fun f hf hother => ?_⟩
  · rw [← hsatf, State.on, get_put_ne _ _ _ _ (by decide), State.on]
  · simp [State.on, get_put_self, CORE_DSPSTAT_OVF40]
  · rw [get_put_ne _ _ _ _ hother, hrest f hf hother]

end

theorem apply_ovf {s : State} (hgone : gone s = false) : apply s .ovf = s.put CORE_DSPSTAT_OVF40 1 := by
  simp [apply, hgone]

/-- A condition that a result may set. -/
theorem foldl_satf {s : State} (c : Bool) (hgone : gone s = false) :
    (if c then [Wr.satf] else []).foldl apply s = if c then s.put CORE_DSPSTAT_SATF 1 else s := by
  cases c
  · rfl
  · exact apply_satf hgone

theorem foldl_ovf {s : State} (c : Bool) (hgone : gone s = false) :
    (if c then [Wr.ovf] else []).foldl apply s = if c then s.put CORE_DSPSTAT_OVF40 1 else s := by
  cases c
  · rfl
  · exact apply_ovf hgone

/-- What an accumulator result leaves: the accumulator's write, and over it the conditions it sets. -/
def accResult (s : State) (d : Nat) (r : AccRes) : State :=
  let t := wa s d r.val
  let t := if r.satf then t.put CORE_DSPSTAT_SATF 1 else t
  if r.ovf then t.put CORE_DSPSTAT_OVF40 1 else t

theorem foldl_accWrites {s : State} (d : Nat) (r : AccRes) (hgone : gone s = false) :
    (accWrites d r).foldl apply s = accResult s d r := by
  have hacc : gone (wa s d r.val) = false := hgone
  have hclamped : gone (if r.satf then (wa s d r.val).put CORE_DSPSTAT_SATF 1 else wa s d r.val) = false := by
    split <;> exact hgone
  rw [accWrites, List.foldl_append, List.foldl_append, List.foldl_cons, List.foldl_nil, apply_acc _ _ hgone,
    foldl_satf r.satf hacc, foldl_ovf r.ovf hclamped]
  rfl

/-- The conditions that a result sets stand with those before. -/
theorem sticky_accResult {s u : State} (d : Nat) (r : AccRes) (hregs : u.regs = s.regs) :
    sticky s (accResult u d r) r.satf r.ovf := by
  obtain ⟨v, satf, ovf⟩ := r
  have hnone : sticky s (wa u d v) false false := sticky_none s hregs
  have hclamp : sticky s (if satf then (wa u d v).put CORE_DSPSTAT_SATF 1 else wa u d v) satf false := by
    cases satf
    · exact hnone
    · exact sticky_put_satf hnone
  cases ovf
  · exact hclamp
  · exact sticky_put_ovf hclamp

theorem accResult_dx (s : State) (d : Nat) (r : AccRes) : (accResult s d r).dx = (wa s d r.val).dx := by
  unfold accResult
  split <;> split <;> rfl

/-- A bundle whose one result goes to an accumulator changes that, the conditions it meets, and nothing else. -/
theorem wroteAcc_accResult {s : State} {cls op : Nat} {x : Syl} {d : Nat} (r : AccRes) (free cyc : Nat) (hd : d < 4) :
    wroteAcc s (InstructionSet.completed s (accResult (gathered s cls op x) d r) (s.nextPc x) free cyc) x d r.val r.satf r.ovf := by
  have hdx := accResult_dx (gathered s cls op x) d r
  have hac : ∀ k, ac (InstructionSet.completed s (accResult (gathered s cls op x) d r) (s.nextPc x) free cyc) k =
      ac (wa (gathered s cls op x) d r.val) k := fun k => by
    unfold ac
    rw [← hdx]
    rfl
  refine ⟨?_, fun k hk => ?_, rfl, sticky_accResult d r (u := gathered s cls op x) rfl, ?_⟩
  · rw [hac, ac_wa_same r.val hd]
  · rw [hac, ac_wa_ne _ r.val hk]
    rfl
  · simp only [InstructionSet.completed, hdx]
    rfl

/-! ### The value by the mode (R121) -/

/-- A clamped value has the same sign in 32 and in 40 bits. -/
theorem ofInt_clamp40 (i : Int) : BitVec.ofInt 40 (clamp32 i) = (satWord i).signExtend 40 := by
  have hrange : -(2 ^ 31) ≤ clamp32 i ∧ clamp32 i < 2 ^ 31 := by
    unfold clamp32
    omega
  obtain ⟨hlow, hhigh⟩ := hrange
  have hwhole : (BitVec.ofInt 32 (clamp32 i)).toInt = clamp32 i := by
    rw [BitVec.toInt_ofInt]
    exact Int.bmod_eq_of_le (by omega) (by omega)
  rw [← ofInt_clamp32, BitVec.signExtend, hwhole]

/-- The result of an exact value: clamped in native mode with SAT=1, else wrapped, with the condition that each may meet. -/
theorem accWrite_eq (guard sat : Bool) (i : Int) :
    accWrite guard sat i = ⟨if sat && !guard then (satWord i).signExtend 40 else BitVec.ofInt 40 i,
      sat && !guard && out32 i, !(sat && !guard) && out40 i⟩ := by
  have hwraps : (decide (i < -(2 ^ 39)) || decide (2 ^ 39 ≤ i)) = out40 i := by
    unfold out40
    rw [← Bool.decide_or, ← Bool.decide_or, decide_eq_decide]
    omega
  unfold accWrite
  rw [hwraps, ofInt_clamp40, clamp32_ne]
  cases sat && !guard <;> rfl

/-! ### The rows -/

/-- The destination of a row that accumulates is one of the four accumulators. -/
theorem accDest_lt {op : Nat} {x : Syl} (hop : 8 ≤ op ∧ op ≤ 0xF ∨ 0x15 ≤ op) (h : sylLegal 3 op x = true) : x.d.toNat < 4 := by
  have hfields := macLegal_of_sylLegal h
  change fD x < 4
  unfold macLegal at hfields
  rcases hop with ⟨hlow, hhigh⟩ | hlow
  · rw [if_neg (by omega), if_neg (by omega), if_pos (by simp [hlow, hhigh])] at hfields
    simp only [Bool.and_eq_true, decide_eq_true_eq] at hfields
    obtain ⟨hdest, -⟩ := hfields
    exact hdest
  · have hother : ¬ op ≤ 2 ∧ op ≠ 3 ∧ ¬ op ≤ 0xF ∧ op ≠ 0x10 ∧ op ≠ 0x11 ∧ op ≠ 0x12 ∧ op ≠ 0x13 ∧ op ≠ 0x14 := by omega
    simp [hother] at hfields
    split at hfields <;> omega

/-- A row that writes the exact value `e` to acc[D] by the mode. -/
theorem accGives_mac {i : Bool → Syl → Instr} {op : Nat} {e : State → Syl → Int}
    (hi : ∀ u x, coreSyl (i u x) = some (macCls u, op, x)) (hop : 8 ≤ op ∧ op ≤ 0xF ∨ 0x15 ≤ op)
    (hw : ∀ (s : State) (cls : Nat) (x : Syl), macWrites s (only cls op x) =
      accWrites x.d.toNat (accWrite (s.on CORE_DSPCFG_GUARD) (satBit x) (e s x))) : accGives i op e := by
  intro s u x h hg clamps
  have hlegal := (canIssue_split h).2
  rw [sylLegal_macCls] at hlegal
  have hwrites : writes (gathered s (macCls u) op x) (s.nextPc x) (only (macCls u) op x) =
      accWrites x.d.toNat (accWrite (s.on CORE_DSPCFG_GUARD) (satBit x) (e s x)) :=
    (writes_macCls _ _ u op x).trans (hw s (macCls u) x)
  have hres : ∀ w ∈ writes (gathered s (macCls u) op x) (s.nextPc x) (only (macCls u) op x), isResult w = true := by
    rw [hwrites, accWrites]
    split <;> split <;> simp [isResult]
  obtain ⟨free, cyc, hexec⟩ := exec_unit (hi u x) (macCls_mem u) h hg hres
  rw [hwrites, foldl_accWrites _ _ rfl, accWrite_eq] at hexec
  exact ⟨_, hexec, wroteAcc_accResult _ free cyc (accDest_lt hop hlegal)⟩

/-- A power of two of the model's numbers, as an integer. -/
theorem cast_two_pow (n : Nat) : ((2 ^ n : Nat) : Int) = 2 ^ n := by norm_cast

/-- Settles O10: each row writes its exact value (R120) to acc[D] by the mode, `accGives_mac`. -/
theorem accumulate : Obligations.Accumulate := by
  refine ⟨?macd, ?msud, ?macx, ?msux, ?muld, ?macw, ?msuw, ?mulw, ?asar, ?ashl, ?aadd⟩
  case asar | ashl =>
    refine accGives_mac (fun _ _ => rfl) (by omega) fun s cls x => ?_
    rw [← cast_two_pow]
    rfl
  all_goals exact accGives_mac (fun _ _ => rfl) (by omega) fun s cls x => rfl

end Sys2Proof.Machine.SignalDatapath
end

section
/-! Stores into the store buffer, and the clamped word of SATST (R110, R124, R125, R162). -/

namespace Sys2Proof.Machine.SignalDatapath

open Sys2Proof Sys2Proof.Machine Sys2Proof.Machine.InstructionSet

/-! ### A bundle that leaves stores buffered -/

/-- With no store to the CORE_ page buffered and no drain due, the boundary of two bundles changes nothing (R8, R165). -/
theorem boundary_buffered {s : State} (hmirror : throughLast (fun st => mirror st.addr) s.dx.stores = 0)
    (hdrain : s.dx.drainDue = false) : boundary s = s := by
  simp [boundary, mirrorDrain_none s hmirror, stbufDrain, hdrain]

/-- A bundle that asks for nothing more advances over such a buffer. -/
theorem finish_buffered {s : State} (hgone : gone s = false)
    (hmirror : throughLast (fun st => mirror st.addr) s.dx.stores = 0) (hdrain : s.dx.drainDue = false) (next cost : Nat)
    (stall : Option Nat) (el : Bool) :
    finish s (goesOn next) cost stall false el = advanced s next (cost + 0) stall := by
  have hbound : boundary (xk (bundleTick s (cost + 0) stall) fun d => { d with deferred := false }) =
      xk (bundleTick s (cost + 0) stall) fun d => { d with deferred := false } := by
    refine boundary_buffered ?_ ?_ <;> cases stall <;> assumption
  have hrun : gone (xk (bundleTick s (cost + 0) stall) fun d => { d with deferred := false }) = false := by
    cases stall <;> exact hgone
  unfold finish
  simp only [hgone, goesOn, hbound, hrun, Option.isSome_none, Bool.false_eq_true, if_false]
  rfl

section
variable (s : State) (next cost : Nat) (stall : Option Nat)

@[simp] theorem advanced_stores : (advanced s next cost stall).dx.stores = s.dx.stores := by cases stall <;> rfl
@[simp] theorem advanced_acc : (advanced s next cost stall).dx.acc = s.dx.acc := by cases stall <;> rfl

end

/-- The sticky conditions rest on register fields alone. -/
theorem sticky_of_regs {s t u : State} {a b : Bool} (h : u.regs = t.regs) (k : sticky s t a b) : sticky s u a b := by
  have hget : u.get = t.get := funext fun f => by unfold State.get; rw [h]
  unfold sticky State.on at *
  rwa [hget]

/-! ### The store of a bundle (R162) -/

/-- The store that an access makes. -/
def storeOf (s : State) (p : Axs) : Store :=
  ⟨p.addr, p.lsu.size, p.val, if inSet p.addr then 1 else if inClr p.addr then 2 else 0, coreTag s⟩

/-- The state with this store alone in the buffer. -/
def holding (s : State) (st : Store) : State := xk s fun d => { d with stores := [st] }

/-- With STBUF=1 and an empty buffer a store enters it. -/
theorem doAccess_buffered {s : State} {p : Axs} (hstore : p.lsu.load = false) (hstores : s.dx.stores = [])
    (hbuf : s.on CORE_EXCCFG_STBUF = true) : doAccess s p = (some [], holding s (storeOf s p)) := by
  have hroom : s.dx.stores.length < 4 := by simp [hstores]
  have hone : xk s (fun d => { d with stores := d.stores ++ [storeOf s p] }) = holding s (storeOf s p) := by
    simp [holding, xk, hstores]
  unfold doAccess coreStore issueStore
  simp only [hstore, hbuf, hroom, Bool.false_eq_true, if_false, if_true]
  exact congrArg (Prod.mk (some [])) hone

/-- What a load or store writes beside memory and its destination: its base where the mode says so, and SATF of a clamped word. -/
theorem lsuWrites_row {s : State} {y : Sy} {l : Lsu} (h : lsuOp y.op = some l) :
    lsuWrites s y =
      (lsuAddr s y l).2.toList.map (.g y.a) ++ if l.sat && (satstOf (ac s (fD y.x))).2 then [.satf] else [] := by
  simp only [lsuWrites, h]
  cases (lsuAddr s y l).2 <;> rfl

theorem isResult_lsuWrites (s : State) {y : Sy} {l : Lsu} (h : lsuOp y.op = some l) : ∀ w ∈ lsuWrites s y, isResult w = true := by
  have hbase : ∀ w ∈ (lsuAddr s y l).2.toList.map (Wr.g y.a), isResult w = true := by simp [isResult]
  have hsatf : ∀ w ∈ (if l.sat && (satstOf (ac s (fD y.x))).2 then [Wr.satf] else []), isResult w = true := by
    split <;> simp [isResult]
  rw [lsuWrites_row h]
  exact List.forall_mem_append.mpr ⟨hbase, hsatf⟩

/-- A store that the guard allows, outside the CORE_ page, completes with its base written and waits in the buffer. -/
theorem exec_buffered {s : State} {i : Instr} {op : Nat} {x : Syl} {p : Axs} (hi : coreSyl i = some (2, op, x))
    (hl : lsuOp op = some p.lsu) (hstore : p.lsu.load = false) (h : s.canIssue 2 op x = true) (hg : s.guarded x = true)
    (hp : accOf s (only 2 op x) = some p) (haligned : p.addr % p.lsu.size = 0) (hguard : accGuard s p = .ok)
    (hbuf : s.on CORE_EXCCFG_STBUF = true) (hmirror : mirror p.addr = false) :
    ∃ cost stall, exec i s = .next (advanced
      (landed (holding (gathered s 2 op x) (storeOf s p)) (lsuWrites s (only 2 op x))) (s.nextPc x) cost stall) := by
  obtain ⟨hcalm, hpor, -⟩ := quiet_parts (quiet_of_canIssue h)
  let t := holding (gathered s 2 op x) (storeOf s p)
  have hres : ∀ w ∈ lsuWrites s (only 2 op x), isResult w = true := isResult_lsuWrites s hl
  have hwrites : [only 2 op x].flatMap (writes (gathered s 2 op x) (s.nextPc x)) = lsuWrites s (only 2 op x) := List.append_nil _
  have hacc : [only 2 op x].findSome? (accOf (gathered s 2 op x)) = some p := by
    have hone : accOf (gathered s 2 op x) (only 2 op x) = some p := hp
    simp [hone]
  have hissue : issue (gathered s 2 op x) s.dx.pc (s.nextPc x) (wordsOf x) [only 2 op x] none =
      landed t (lsuWrites s (only 2 op x)) := by
    have hdo := doAccess_buffered (s := gathered s 2 op x) hstore hcalm.stores hbuf
    rw [issue_access (preExc_load h hg hp haligned hguard) (filter_active hg 2 op) (longKind_row hl) rfl hcalm.prog hacc hdo rfl,
      hwrites]
    exact complete_results (s := t) hres [] rfl hcalm.shadow
  have hregs := landed_only hres t
  have hclear : throughLast (fun st => mirror st.addr) (landed t (lsuWrites s (only 2 op x))).dx.stores = 0 := by
    rw [hregs.stores]
    simp [t, noLoads, holding, storeOf, throughLast, hmirror]
  refine ⟨1 + crossing s.dx.pc (wordsOf x) + 0, stallOf (gathered s 2 op x) [only 2 op x], ?_⟩
  rw [exec_syllable hpor hi, syllable_only s 2 op x h]
  unfold runOne
  simp only [List.find?_cons, show isRep (only 2 op x) = false from rfl, List.find?_nil, filter_active hg 2 op, hissue,
    longKind_row hl, Bool.false_eq_true, if_false]
  exact congrArg _ (finish_buffered hregs.gone hclear (hregs.drain.trans hcalm.drain) (s.nextPc x) _ _ _)

/-! ### The word of SATST (R124) -/

/-- The word stored, and whether it was clamped. -/
theorem satstOf_eq (a : BitVec 40) : satstOf a = (satWord a.toInt, out32 a.toInt) := by
  rw [satstOf, ofInt_clamp32, clamp32_ne]

/-- Within the range the word is the accumulator's bits 31:0. -/
theorem satWord_toNat (a : BitVec 40) :
    (satWord a.toInt).toNat =
      if 2 ^ 31 - 1 < a.toInt then 0x7FFFFFFF else if a.toInt < -(2 ^ 31) then 0x80000000 else a.toNat % 2 ^ 32 := by
  have hlow : (BitVec.ofInt 32 a.toInt).toNat = a.toNat % 2 ^ 32 := by
    rw [BitVec.toNat_ofInt, BitVec.toInt_eq_toNat_cond]
    split <;> omega
  unfold satWord
  split
  · rfl
  · split
    · rfl
    · exact hlow

/-- SATST's row, and what its access is. -/
theorem accOf_satst {s : State} {op : Nat} {x : Syl} {p : Axs} (hop : op ∈ [0x24, 0x25, 0x26])
    (hp : accOf s (only 2 op x) = some p) :
    lsuOp op = some p.lsu ∧ p.lsu = ⟨false, 4, false, op - 0x24, true⟩ ∧ p.val = (satWord (ac s x.d.toNat).toInt).toNat := by
  have hl : lsuOp op = some ⟨false, 4, false, op - 0x24, true⟩ := by
    simp only [List.mem_cons, List.not_mem_nil, or_false] at hop
    rcases hop with rfl | rfl | rfl <;> rfl
  have hrow : lsuOp (only 2 op x).op = some ⟨false, 4, false, op - 0x24, true⟩ := hl
  simp only [accOf, hrow, Option.map_some] at hp
  obtain rfl := Option.some.inj hp
  exact ⟨hl, rfl, congrArg (fun r : Word × Bool => r.1.toNat) (satstOf_eq _)⟩

/-- The base and the condition. -/
theorem foldl_baseSatf {t : State} (b : Option Word) (a : Nat) (c : Bool) (hgone : gone t = false)
    (hshadow : t.dx.armShadow = false) :
    (b.toList.map (Wr.g a) ++ if c then [Wr.satf] else []).foldl apply t =
      if c then (b.elim t (wg t a)).put CORE_DSPSTAT_SATF 1 else b.elim t (wg t a) := by
  have hbase : gone (b.elim t (wg t a)) = false := by
    cases b with
    | none => exact hgone
    | some v => exact (onlyRegs_wg t a v).gone.trans hgone
  rw [List.foldl_append, apply_base b a hgone hshadow, foldl_satf c hbase]

theorem base_acc (t : State) (b : Option Word) (a : Nat) : (b.elim t (wg t a)).dx.acc = t.dx.acc := by
  cases b with
  | none => rfl
  | some v => exact wg_acc t a v

/-- Settles O13: the store waits in the buffer with `satWord_toNat`, and the bundle writes its base and SATF alone. -/
theorem satstStoresTheClampedWord : Obligations.SatstStoresTheClampedWord := by
  intro s i op x p hi hop h hg hp haligned hguard hbuf hmirror v
  obtain ⟨hcalm, -, -, hloads, -⟩ := quiet_parts (quiet_of_canIssue h)
  obtain ⟨hl, hlsu, hval⟩ := accOf_satst hop hp
  have hsize : p.lsu.size = 4 := by rw [hlsu]
  obtain ⟨cost, stall, hexec⟩ := exec_buffered hi hl (by rw [hlsu]) h hg hp (by rw [hsize]; exact haligned) hguard hbuf hmirror
  let t := holding (gathered s 2 op x) (storeOf s p)
  let b := (lsuAddr s (only 2 op x) p.lsu).2
  have hres : ∀ w ∈ lsuWrites s (only 2 op x), isResult w = true := isResult_lsuWrites s hl
  have hclamp : (p.lsu.sat && (satstOf (ac s (fD (only 2 op x).x))).2) = out32 v := by rw [hlsu, satstOf_eq]; rfl
  have hwritten : landed t (lsuWrites s (only 2 op x)) = noLoads
      (if out32 v then (b.elim t (wg t x.a.toNat)).put CORE_DSPSTAT_SATF 1 else b.elim t (wg t x.a.toNat)) := by
    rw [landed_none hres (s := t) hloads, lsuWrites_row (y := only 2 op x) hl, hclamp]
    exact congrArg noLoads (foldl_baseSatf b x.a.toNat (out32 v) rfl (t := t) hcalm.shadow)
  have hacc : (landed t (lsuWrites s (only 2 op x))).dx.acc = s.dx.acc := by
    rw [hwritten]
    split <;> exact base_acc t b _
  have hbase : sticky s (b.elim t (wg t x.a.toNat)) false false := sticky_none s (base_regs (t := t) b x.a.isLt)
  have hsticky : sticky s (landed t (lsuWrites s (only 2 op x))) (out32 v) false := by
    rw [hwritten]
    cases out32 v
    · exact hbase
    · exact sticky_put_satf hbase
  refine ⟨_, storeOf s p, hexec, ?_, rfl, hsize, hval.trans (satWord_toNat _), fun k => ?_, ?_⟩
  · rw [advanced_stores]
    exact (landed_only hres t).stores
  · unfold ac
    rw [advanced_acc, hacc]
  · exact sticky_of_regs (advanced_regs _ _ _ _) hsticky

end Sys2Proof.Machine.SignalDatapath
end

section
/-! A repeated bundle of one ALU syllable: the checks it passes, its iterations, and the end of the repeat (R129 to R132). -/

namespace Sys2Proof.Machine.SignalDatapath

open Sys2Proof Sys2Proof.Machine Sys2Proof.Machine.InstructionSet

/-! ### The checks (R130) -/

/-- The state with no repeat armed. -/
def noRepeat (s : State) : State := xk s fun d => { d with rep := none }

/-- A repeat asks for nothing more of syllables that may be repeated. -/
theorem illegalAt_repeated {ys : List Sy} (hys : ∀ y ∈ ys, repBad y = false) (s : State) (n : Nat) (stop : Bool) :
    illegalAt s ys n stop true = illegalAt s ys n stop false := by
  have hsame : (ys.filter fun y => !sylLegal y.cls y.op y.x || customBlocked s ys y || (isRep y && ys.length != 1) ||
      (true && repBad y)) = ys.filter fun y => !sylLegal y.cls y.op y.x || customBlocked s ys y || (isRep y && ys.length != 1) ||
      (false && repBad y) := List.filter_congr fun y hy => by rw [hys y hy]; rfl
  unfold illegalAt
  rw [hsame]

/-- Before a repeated bundle nothing is drained where nothing is buffered, and no entry is taken (R132). -/
theorem preDrain_repeat {s : State} (hrep : s.dx.rep.isSome = true) (hstores : s.dx.stores = []) (hdrain : s.dx.drainDue = false)
    (ys : List Sy) : preDrain s ys = s := by
  have hdrained : xk (drainWait s) (fun d => { d with drainDue := false }) = s := by
    simp only [drainWait, hstores, List.isEmpty_nil, if_true, xk_drainDue s hdrain]
  have hholds : repHolds s = true := hrep
  unfold preDrain
  simp only [hdrained, hholds, Bool.or_true, if_true, ite_self]

/-- Words that may be fetched are fetched without effect. -/
theorem fetchAll_fetches {s : State} {n : Nat} (h : Fetches s n) (hn : n ≤ 7) (herrors : s.ms.sramErr = [])
    (hwipes : s.ms.wipeQ = []) : fetchAll s.dx.pc (min n 7) s = (none, s) := by
  unfold fetchAll
  rw [Nat.min_eq_left hn, h.guard]
  exact fetchBundle_core s.dx.pc n 0 s h.low (by have := h.high; omega) herrors hwipes

section
variable {s : State} {cls op : Nat} {x : Syl} {n e : Nat} (h : (noRepeat s).canIssue cls op x = true)
  (hrep : s.dx.rep = some ⟨n, e, 0⟩)
include h hrep

/-- The one syllable of the repeated bundle stops it, and it runs. -/
theorem syllable_runs_repeat : syllable s cls op x = runBundle (gathered s cls op x) := by
  obtain ⟨hcalm, -, hempty, -, -⟩ := quiet_parts (quiet_of_canIssue h)
  obtain ⟨-, hstop, -⟩ := canFetch_parts (canIssue_split h).1
  have hbundle : s.dx.bundle = [] := hempty
  have hruns : coreRuns s = true := hcalm.runs
  have hboundary : boundary s = s := boundary_empty s hcalm.stores hcalm.drain
  have hdue : dueEntry s = none := dueEntry_rep s (by rw [hrep]; exact Option.some_ne_none _)
  unfold syllable
  simp only [hboundary, ite_self, hruns, hdue, hbundle, hstop, Option.isSome_none, Bool.not_true, Bool.or_self, Bool.false_eq_true,
    if_false, Bool.true_or, if_true]
  rfl

/-- With a repeat of kind 0 armed and otherwise nothing pending, a bundle of one syllable that may be repeated is checked and
fetched once and runs its iterations (R129, R131). -/
theorem syllable_repeats (hok : repBad (only cls op x) = false) :
    syllable s cls op x =
      repDone (iterate s.dx.pc (s.nextPc x) [only cls op x] n (wordsOf x)
        (tick (gathered s cls op x) (crossing s.dx.pc (wordsOf x)))) (s.nextPc x) ⟨n, e, 0⟩ := by
  obtain ⟨hcan, hlegal⟩ := canIssue_split h
  obtain ⟨-, hstop, hwords⟩ := canFetch_parts hcan
  have hcalm := calm_of_canIssue h
  have harmed : (gathered s cls op x).dx.rep = some ⟨n, e, 0⟩ := hrep
  have hnodrain := preDrain_repeat (s := gathered s cls op x) (by rw [harmed]; rfl) hcalm.stores hcalm.drain
  have hfetch : Fetches (gathered s cls op x) (wordsOf x) :=
    ⟨hwords.low, hwords.high, (fetchRefused_xk s _ _ _).trans ((fetchRefused_xk s _ _ _).symm.trans hwords.guard)⟩
  have hread := fetchAll_fetches hfetch (by have := wordsOf_le x; omega) hcalm.errors hcalm.wipes
  have hchecked : illegalAt (gathered s cls op x) [only cls op x] (wordsOf x) true true = none := by
    rw [illegalAt_repeated (List.forall_mem_singleton.mpr hok), illegalAt_only (s := gathered s cls op x) hcalm.prog, hlegal]
    rfl
  have hplace : place 0 (gathered s cls op x).dx.bundle = [only cls op x] := rfl
  have hcount : words (gathered s cls op x).dx.bundle = wordsOf x := words_single cls op x
  have hlast : (gathered s cls op x).dx.bundle.getLast? = some ⟨cls, op, x⟩ := rfl
  rw [syllable_runs_repeat h hrep]
  unfold runBundle
  simp only [hplace, hcount, hlast, harmed, hstop, hnodrain, hread, hchecked, gathered_running, Option.isSome_some,
    Bool.false_eq_true, if_false]
  rfl

end

/-! ### An iteration of an ALU bundle (R131) -/

/-- `t` differs from `s` in the general registers and in the cycle counter alone. -/
def OnlyGeneral (s t : State) : Prop := { s with dx := { s.dx with g := t.dx.g, cyc := t.dx.cyc } } = t

theorem OnlyGeneral.refl (s : State) : OnlyGeneral s s := rfl

theorem OnlyGeneral.trans {s t u : State} (h : OnlyGeneral s t) (k : OnlyGeneral t u) : OnlyGeneral s u := by
  unfold OnlyGeneral at *
  rw [← h] at k
  exact k

theorem onlyGeneral_tick (s : State) (n : Nat) : OnlyGeneral s (tick s n) := rfl

theorem onlyGeneral_wg (s : State) {d : Nat} (v : Word) (hd : d < 32) : OnlyGeneral s (wg s d v) := by
  have hhigh : ¬ 32 ≤ d := by omega
  unfold wg
  rw [if_neg hhigh]
  split <;> rfl

/-- The syllable's iterations start in this state: its predicate holds, the core has it gathered, and nothing is in flight. -/
structure Iterates (s : State) (x : Syl) : Prop where
  running : gone s = false
  guarded : s.guarded x = true
  loads : s.dx.loads = []
  stores : s.dx.stores = []
  drain : s.dx.drainDue = false
  shadow : s.dx.armShadow = false
  prog : s.dx.armProg = false

theorem Iterates.general {s t : State} {x : Syl} (h : Iterates s x) (k : OnlyGeneral s t) : Iterates t x := by
  rw [← k]
  exact ⟨h.running, h.guarded, h.loads, h.stores, h.drain, h.shadow, h.prog⟩

theorem noLoads_none {s : State} (h : s.dx.loads = []) : noLoads s = s := by
  have hdx : { s.dx with loads := [] } = s.dx := by rw [← h]
  exact congrArg (fun d => { s with dx := d }) hdx

/-- What an ADDI writes (R107). -/
theorem writes_addi (s : State) (next : Nat) (u : Bool) (x : Syl) :
    writes s next (only (aluCls u) 0x02 x) = [.g x.d.toNat (gA s x + immI x)] := by
  cases u <;> rfl

/-- The state after one iteration. -/
def added (s : State) (x : Syl) : State := tick (wg s x.d.toNat (gA s x + immI x)) 1

theorem onlyGeneral_added (s : State) (x : Syl) : OnlyGeneral s (added s x) :=
  (onlyGeneral_wg s _ x.d.isLt).trans (onlyGeneral_tick _ 1)

section
variable {s : State} {x : Syl} (h : Iterates s x)
include h

/-- An iteration completes with the sum in its register, a cycle later. -/
theorem iterate_addi {pc n : Nat} (hfetch : fetchRefused s pc n = none) (u : Bool) (next k : Nat) :
    iterate pc next [only (aluCls u) 0x02 x] (k + 1) n s = iterate pc next [only (aluCls u) 0x02 x] k 0 (added s x) := by
  have hact : [only (aluCls u) 0x02 x].filter (active s) = [only (aluCls u) 0x02 x] := by
    have hone : active s (only (aluCls u) 0x02 x) = true := h.guarded
    simp [hone]
  have hcls : ∀ y ∈ [only (aluCls u) 0x02 x], y.cls < 2 := List.forall_mem_singleton.mpr (aluAt_cls 0 0x02 u x)
  have hwrites : [only (aluCls u) 0x02 x].flatMap (writes s next) = [.g x.d.toNat (gA s x + immI x)] :=
    (List.append_nil _).trans (writes_addi s next u x)
  have hres : ∀ w ∈ [Wr.g x.d.toNat (gA s x + immI x)], isResult w = true := by simp [isResult]
  have hsum : landed s [.g x.d.toNat (gA s x + immI x)] = wg s x.d.toNat (gA s x + immI x) := by
    have hloads := (onlyRegs_wg s x.d.toNat (gA s x + immI x)).loads.trans h.loads
    rw [landed_none hres h.loads, List.foldl_cons, List.foldl_nil, apply_g _ _ h.running h.shadow, noLoads_none hloads]
  have hissue : issue s pc next n [only (aluCls u) 0x02 x] (some (k + 1)) = wg s x.d.toNat (gA s x + immI x) := by
    rw [issue_short (preExc_alu hcls hfetch) hact (hasLong_alu hcls) h.running h.prog (accOf_alu hcls), hwrites,
      complete_results hres [] h.running h.shadow]
    exact hsum
  have hgone : gone (wg s x.d.toNat (gA s x + immI x)) = false := (onlyRegs_wg s _ _).gone.trans h.running
  have hstall : stallOf s [only (aluCls u) 0x02 x] = some 0 := by cases u <;> rfl
  rw [iterate]
  simp only [boundary_empty s h.stores h.drain, h.running, hact, hissue, hgone, hstall, Bool.false_eq_true, if_false]
  rfl

/-- The register has the sum, and the others stand. -/
theorem rd_added_same (hd : x.d ≠ 0) : rd (added s x) x.d.toNat = gA s x + immI x := by
  have hne : x.d.toNat ≠ 0 := fun hzero => hd (BitVec.eq_of_toNat_eq hzero)
  exact (rd_wg_same _ x.d.isLt h.shadow).trans (if_neg hne)

theorem rd_added_ne {r : Nat} (hne : r ≠ x.d.toNat) (hr : r < 32) : rd (added s x) r = rd s r :=
  rd_wg_ne _ hne hr x.d.isLt h.shadow

end

/-- One addition more. -/
theorem add_mul_succ (v w : Word) (k : Nat) : v + w + BitVec.ofNat 32 k * w = v + BitVec.ofNat 32 (k + 1) * w := by
  rw [BitVec.ofNat_add, BitVec.add_mul, BitVec.one_mul, BitVec.add_assoc, BitVec.add_comm w]

/-- The iterations of an ADDI into its own register: by induction on their number, each from the state the one before left. -/
theorem iterate_addi_all {x : Syl} (hself : x.a = x.d) (hd : x.d ≠ 0) (u : Bool) (pc next k : Nat) :
    ∀ (n : Nat) (s : State), Iterates s x → fetchRefused s pc n = none →
      OnlyGeneral s (iterate pc next [only (aluCls u) 0x02 x] k n s) ∧
      rd (iterate pc next [only (aluCls u) 0x02 x] k n s) x.d.toNat = gA s x + BitVec.ofNat 32 k * immI x ∧
      ∀ r, r < 32 → r ≠ x.d.toNat → rd (iterate pc next [only (aluCls u) 0x02 x] k n s) r = rd s r := by
  induction k with
  | zero =>
    intro n s h hfetch
    have hread : rd s x.d.toNat = gA s x := by rw [gA, hself]
    exact ⟨OnlyGeneral.refl s, by simp [iterate, hread], fun r _ _ => rfl⟩
  | succ k ih =>
    intro n s h hfetch
    have hstep := onlyGeneral_added s x
    obtain ⟨hrest, hsum, hothers⟩ := ih 0 (added s x) (h.general hstep) rfl
    have hread : gA (added s x) x = gA s x + immI x := by rw [gA, hself]; exact rd_added_same h hd
    rw [iterate_addi h hfetch u next k]
    refine ⟨hstep.trans hrest, ?_, fun r hr hne => (hothers r hr hne).trans (rd_added_ne h hne hr)⟩
    rw [hsum, hread, add_mul_succ]

/-! ### The end of the repeat -/

/-- The repeat is over, and the next bundle stands at `next`. -/
theorem repDone_plain {s : State} (hgone : gone s = false) (next n e : Nat) :
    repDone s next ⟨n, e, 0⟩ =
      xk s fun d => { d with pc := next, bundle := [], rep := none, deferred := false, mcDrain := false } := by
  simp [repDone, hgone]

/-- Settles O22: each iteration adds the immediate once (`iterate_addi_all`), and the end of the repeat changes no register. -/
theorem repeatedBundleRuns : Obligations.RepeatedBundleRuns := by
  intro s u x n e h hrep hg hself hd
  have hready : (noRepeat s).canIssue (aluCls u) 0x02 x = true := h
  obtain ⟨hcalm, hpor, -, hloads, -⟩ := quiet_parts (quiet_of_canIssue hready)
  obtain ⟨-, -, hfetch⟩ := canFetch_parts (canIssue_split hready).1
  let b := tick (gathered s (aluCls u) 0x02 x) (crossing s.dx.pc (wordsOf x))
  have hstart : Iterates b x := ⟨rfl, hg, hloads, hcalm.stores, hcalm.drain, hcalm.shadow, hcalm.prog⟩
  have hguard : fetchRefused b s.dx.pc (wordsOf x) = none :=
    (fetchRefused_xk s (fun _ => b.dx) _ _).trans ((fetchRefused_xk s _ _ _).symm.trans hfetch.guard)
  obtain ⟨hrest, hsum, hothers⟩ := iterate_addi_all hself hd u s.dx.pc (s.nextPc x) n (wordsOf x) b hstart hguard
  have hexec := exec_syllable (s := s) (i := .addi u x) hpor rfl
  rw [syllable_repeats hready hrep (by cases u <;> rfl), repDone_plain (hstart.general hrest).running] at hexec
  refine ⟨_, hexec, hsum, rfl, hothers, rfl, fun a => ?_, sameRegs_of_regs ?_⟩
  · rw [← hrest]
    rfl
  · rw [← hrest]
    rfl

end Sys2Proof.Machine.SignalDatapath
end

section
/-! The level an entry is handled at, and what an entry leaves of it in the handler, whatever it cuts (R149 to R151). -/

namespace Sys2Proof.Machine.Exceptions

open Sys2Proof Sys2Proof.Machine Sys2Proof.Machine.PowerStates Sys2Proof.Machine.InstructionSet

/-! ### The handling level (R150) -/

theorem handleLevel_precise (s : State) {slot : Nat} (hlow : 3 ≤ slot) (hhigh : slot ≤ 10) :
    handleLevel s slot =
      if coreLvl s = 2 then 2 else if bitOf (s.get CORE_EXCDLG_DLG) (slot - 3) then 1 else 2 := by
  unfold handleLevel
  rw [if_neg (by omega), if_neg (by omega), if_neg (by omega)]
  rfl

theorem handleLevel_line (s : State) {n : Nat} (hn : n < 32) :
    handleLevel s (16 + n) = if bitOf (s.get CORE_IRQDLG_LINES) n then 1 else 2 := by
  unfold handleLevel
  rw [if_neg (by omega), if_neg (by omega), if_pos (by omega), Nat.add_sub_cancel_left]
  rfl

theorem coreLvl_le (s : State) : coreLvl s ≤ 2 := Nat.min_le_right _ 2

/-- A precise exception is never handled below the level that raised it. -/
theorem coreLvl_le_precise (s : State) {slot : Nat} (hlow : 3 ≤ slot) (hhigh : slot ≤ 10) : coreLvl s ≤ handleLevel s slot := by
  have hle := coreLvl_le s
  rw [handleLevel_precise s hlow hhigh]
  split_ifs <;> omega

/-! ### What an entry leaves of CORE_ECAUSE and CORE_STATUS, whatever it cuts (R151) -/

/-- The place lies below the microcode's registers u0 to u3, the only fields that loads can land in. -/
def belowTemps (f : Fld) : Prop := f.key < (CORE_UT_VALUE 0).key

section
variable {f : Fld} (hf : belowTemps f)
include hf

theorem wg_get (s : State) (r : Nat) (v : Word) : (wg s r v).get f = s.get f := by
  have hne : f.key ≠ (CORE_UT_VALUE (r - 32)).key := by
    have hbase : f.key < 0x40002260 * 32 := hf
    simp only [CORE_UT_VALUE, Fld.key] at hbase ⊢
    omega
  unfold wg
  split_ifs
  · rfl
  · exact get_put_ne _ _ _ _ hne
  · rfl

theorem landLoads_get (s : State) : (landLoads s).get f = s.get f := by
  have hfold : ∀ (l : List (Nat × Nat)) (t : State), (l.foldl (fun t e => wg t e.1 (BitVec.ofNat 32 e.2)) t).get f = t.get f := by
    intro l
    induction l with
    | nil => exact fun t => rfl
    | cons e l ih => exact fun t => (ih _).trans (wg_get hf t e.1 _)
  exact hfold s.dx.loads (xk s fun d => { d with loads := [] })

end

/-- The fields of the shadow record, the progress and the repeat record, which an entry writes after the status. -/
def recordKeys : List Nat :=
  [CORE_LSHAD_VALID, CORE_LSHAD_REG, CORE_LSHADV_VALUE, CORE_PROG_VALID, CORE_PROG_KIND, CORE_PROG_NEXT, CORE_PROG_LC, CORE_PROG_Z,
    CORE_PROGA_ADDR, CORE_USUSP_SGEN, CORE_REPST_VALID, CORE_REPST_REMAIN].map Fld.key

section
variable {f : Fld} (hrecord : f.key ∉ recordKeys)
include hrecord

theorem shadowAtEntry_get (hf : belowTemps f) (s : State) : (shadowAtEntry s).get f = s.get f := by
  simp only [recordKeys, List.map_cons, List.mem_cons, not_or] at hrecord
  obtain ⟨hvalid, hreg, hvalue, -⟩ := hrecord
  unfold shadowAtEntry
  split
  · rw [landLoads_get hf, get_put_ne _ _ _ _ hvalue, get_put_ne _ _ _ _ hreg, get_put_ne _ _ _ _ hvalid]
  · split_ifs
    · rfl
    · exact get_put_ne _ _ _ _ hvalid

theorem progAtEntry_get (s : State) (p : Option Prog) : (progAtEntry s p).get f = s.get f := by
  simp only [recordKeys, List.map_cons, List.mem_cons, not_or] at hrecord
  obtain ⟨-, -, -, hvalid, hkind, hnext, hlc, hz, haddr, hgen, -⟩ := hrecord
  rcases p with _ | _ | _ | _ <;> simp only [progAtEntry, get_put_ne _ _ _ _ hvalid, get_put_ne _ _ _ _ hkind,
    get_put_ne _ _ _ _ hnext, get_put_ne _ _ _ _ hlc, get_put_ne _ _ _ _ hz, get_put_ne _ _ _ _ haddr, get_put_ne _ _ _ _ hgen]

theorem repAtEntry_get (s : State) (r : Option Nat) : (repAtEntry s r).get f = s.get f := by
  simp only [recordKeys, List.map_cons, List.mem_cons, not_or] at hrecord
  obtain ⟨-, -, -, -, -, -, -, -, -, -, hvalid, hremain, -⟩ := hrecord
  cases r <;> simp only [repAtEntry, get_put_ne _ _ _ _ hvalid, get_put_ne _ _ _ _ hremain]

/-- What steps 2 and 3 of R151 wrote stands in the handler, whatever loads, long instruction and repeat the entry cuts. -/
theorem takeIn_get (hf : belowTemps f) (s : State) (e : Ent) (p : Option Prog) (r : Option Nat) :
    (takeIn s e p r).get f = (statusAtEntry s e).get f :=
  calc (takeIn s e p r).get f = (repAtEntry (progAtEntry (shadowAtEntry (statusAtEntry s e)) p) r).get f := rfl
    _ = (progAtEntry (shadowAtEntry (statusAtEntry s e)) p).get f := repAtEntry_get hrecord _ r
    _ = (shadowAtEntry (statusAtEntry s e)).get f := progAtEntry_get hrecord _ p
    _ = (statusAtEntry s e).get f := shadowAtEntry_get hrecord hf _

end

/-- Both level fields hold the level the entry is handled at. -/
theorem statusAtEntry_level (s : State) (e : Ent) :
    (statusAtEntry s e).get CORE_ECAUSE_HLVL = handleLevel s e.slot ∧
    (statusAtEntry s e).get CORE_STATUS_PL = handleLevel s e.slot := by
  have hwritten : (statusAtEntry s e).get CORE_ECAUSE_HLVL = handleLevel s e.slot % 2 ^ CORE_ECAUSE_HLVL.w ∧
      (statusAtEntry s e).get CORE_STATUS_PL = handleLevel s e.slot % 2 ^ CORE_STATUS_PL.w := by
    obtain ⟨slot, epc, sylix, fetch, faddr, thr⟩ := e
    cases faddr <;> cases thr <;> simp (disch := decide) only [statusAtEntry, get_put_ne, get_put_self, and_self]
  have hlevel : handleLevel s e.slot % 2 ^ 2 = handleLevel s e.slot :=
    Nat.mod_eq_of_lt (by have := handleLevel_le s e.slot; omega)
  exact ⟨hwritten.1.trans hlevel, hwritten.2.trans hlevel⟩

end Sys2Proof.Machine.Exceptions
end

section
/-! The choice among the interrupt lines, and the level of the entry that is decided (R150, R158, R159). -/

namespace Sys2Proof.Machine.Exceptions

open Sys2Proof Sys2Proof.Machine Sys2Proof.Machine.PowerStates Sys2Proof.Machine.InstructionSet

/-! ### The choice among the lines (R158) -/

theorem candidate_iff (s : State) {n : Nat} (hn : n < 32) :
    candidate s n = true ↔
      bitOf (irqLines s) n = true ∧ bitOf (s.get CORE_IRQEN_LINES) n = true ∧
      min (s.get CORE_STATUS_THR) 8 ≤ s.get (CORE_IRQPRI_PRI (n / 8) (n % 8)) ∧
      (coreLvl s < (if bitOf (s.get CORE_IRQDLG_LINES) n then 1 else 2) ∨
        (if bitOf (s.get CORE_IRQDLG_LINES) n then 1 else 2) = coreLvl s ∧ s.on CORE_STATUS_IE = true) := by
  unfold candidate State.bit linePri
  rw [handleLevel_line s hn]
  simp only [Bool.and_eq_true, Bool.or_eq_true, decide_eq_true_eq, beq_iff_eq, and_assoc]

/-- Line `n` is the candidate to take among those below `k`. -/
structure Leads (s : State) (k n : Nat) : Prop where
  below : n < k
  stands : candidate s n = true
  first : ∀ m, m < k → candidate s m = true → linePri s m < linePri s n ∨ linePri s m = linePri s n ∧ n ≤ m

theorem Leads.unique {s : State} {k m n : Nat} (hm : Leads s k m) (hn : Leads s k n) : m = n := by
  have hmn := hm.first n hn.below hn.stands
  have hnm := hn.first m hm.below hm.stands
  omega

/-- The line that leads still does where the next is no candidate or of no higher priority. -/
theorem Leads.keep {s : State} {k n : Nat} (h : Leads s k n) (hnext : candidate s k = true → linePri s k ≤ linePri s n) :
    Leads s (k + 1) n := by
  refine ⟨Nat.lt_succ_of_lt h.below, h.stands, fun m hm hcand => ?_⟩
  rcases Nat.lt_succ_iff_lt_or_eq.mp hm with hlt | rfl
  · exact h.first m hlt hcand
  · have := h.below
    have := hnext hcand
    omega

/-- The next line leads where every candidate before it has a lower priority. -/
theorem Leads.next {s : State} {k : Nat} (hk : candidate s k = true)
    (hbefore : ∀ m, m < k → candidate s m = true → linePri s m < linePri s k) : Leads s (k + 1) k := by
  refine ⟨Nat.lt_succ_self k, hk, fun m hm hcand => ?_⟩
  rcases Nat.lt_succ_iff_lt_or_eq.mp hm with hlt | rfl
  · exact .inl (hbefore m hlt hcand)
  · exact .inr ⟨rfl, Nat.le_refl m⟩

/-- One line more is looked at. -/
def pick (s : State) (best : Option Nat) (n : Nat) : Option Nat :=
  if candidate s n then best.elim (some n) fun m => if linePri s m < linePri s n then some n else best else best

theorem bestLine_eq (s : State) : bestLine s = (List.range 32).foldl (pick s) none := by
  unfold bestLine
  refine congrArg (fun f => (List.range 32).foldl f none) (funext fun b => funext fun n => ?_)
  cases b <;> rfl

/-- The lines below `k`, looked at in order: none is a candidate, or the one that leads has been kept. -/
theorem foldl_pick (s : State) (k : Nat) :
    ((List.range k).foldl (pick s) none = none ∧ ∀ m, m < k → candidate s m = false) ∨
    ∃ n, (List.range k).foldl (pick s) none = some n ∧ Leads s k n := by
  induction k with
  | zero => exact .inl ⟨rfl, fun m hm => absurd hm (Nat.not_lt_zero m)⟩
  | succ k ih =>
    rw [List.range_succ, List.foldl_append, List.foldl_cons, List.foldl_nil]
    rcases ih with ⟨hnone, hclear⟩ | ⟨n, hsome, hleads⟩
    · have hbefore : ∀ m, m < k → candidate s m ≠ true := fun m hm => Bool.eq_false_iff.mp (hclear m hm)
      by_cases hk : candidate s k = true
      · exact .inr ⟨k, by simp [hnone, pick, hk], .next hk fun m hm hcand => absurd hcand (hbefore m hm)⟩
      · refine .inl ⟨by simp [hnone, pick, hk], fun m hm => Bool.eq_false_iff.mpr ?_⟩
        rcases Nat.lt_succ_iff_lt_or_eq.mp hm with hlt | rfl
        · exact hbefore m hlt
        · exact hk
    · by_cases hk : candidate s k = true ∧ linePri s n < linePri s k
      · obtain ⟨hcand, hpri⟩ := hk
        refine .inr ⟨k, by simp [hsome, pick, hcand, hpri], .next hcand fun m hm hcand' => ?_⟩
        have := hleads.first m hm hcand'
        omega
      · refine .inr ⟨n, ?_, hleads.keep fun hcand => by have := not_and.mp hk hcand; omega⟩
        rw [hsome, pick, Option.elim]
        split_ifs with hcand hpri
        · exact absurd ⟨hcand, hpri⟩ hk
        · rfl
        · rfl

theorem leads_of_bestLine {s : State} {n : Nat} (h : bestLine s = some n) : Leads s 32 n := by
  rw [bestLine_eq] at h
  rcases foldl_pick s 32 with ⟨hnone, -⟩ | ⟨m, hsome, hleads⟩
  · rw [hnone] at h
    cases h
  · rw [hsome] at h
    cases h
    exact hleads

theorem bestLine_of_leads {s : State} {n : Nat} (h : Leads s 32 n) : bestLine s = some n := by
  rw [bestLine_eq]
  rcases foldl_pick s 32 with ⟨-, hclear⟩ | ⟨m, hsome, hleads⟩
  · exact absurd h.stands (Bool.eq_false_iff.mp (hclear n h.below))
  · rw [hsome, hleads.unique h]

theorem bestLine_none {s : State} (h : ∀ n, n < 32 → candidate s n = false) : bestLine s = none := by
  cases hbest : bestLine s with
  | none => rfl
  | some n =>
    have hleads := leads_of_bestLine hbest
    exact absurd hleads.stands (Bool.eq_false_iff.mp (h n hleads.below))

/-! ### Which entry is decided (R159, R160) -/

/-- With EL=0: a machine check first, then a non-maskable interrupt, then the line that leads. -/
theorem asyncKind_cases {s : State} {k : Nat × Option Nat} (h : asyncKind s = some k) :
    k.1 = 2 ∨ k.1 = 1 ∨ ∃ n, Leads s 32 n ∧ k.1 = 16 + n := by
  unfold asyncKind at h
  split_ifs at h
  · cases h
    exact .inl rfl
  · cases h
    exact .inr (.inl rfl)
  · obtain ⟨n, hbest, rfl⟩ := Option.map_eq_some_iff.mp h
    exact .inr (.inr ⟨n, leads_of_bestLine hbest, rfl⟩)

/-- A candidate's handling level is not below the core's. -/
theorem coreLvl_le_candidate {s : State} {n : Nat} (h : candidate s n = true) : coreLvl s ≤ handleLevel s (16 + n) := by
  unfold candidate at h
  simp only [Bool.and_eq_true, Bool.or_eq_true, decide_eq_true_eq, beq_iff_eq] at h
  obtain ⟨-, hlt | ⟨heq, -⟩⟩ := h
  · exact Nat.le_of_lt hlt
  · exact Nat.le_of_eq heq.symm

/-- Settles O24: steps 2 and 3 of R151 write the level of R150 to both fields (`statusAtEntry_level`), and nothing of the entry after
them does (`takeIn_get`). -/
theorem handlingLevels : Obligations.HandlingLevels := by
  have hfields : ∀ (s : State) (e : Ent) (p : Option Prog) (r : Option Nat),
      (takeIn s e p r).get CORE_ECAUSE_HLVL = handleLevel s e.slot ∧ (takeIn s e p r).get CORE_STATUS_PL = handleLevel s e.slot := by
    intro s e p r
    rw [takeIn_get (by decide) (by unfold belowTemps; decide), takeIn_get (by decide) (by unfold belowTemps; decide)]
    exact statusAtEntry_level s e
  refine ⟨fun s e p r hlow hhigh => ?_, fun s e p r n hn hslot => ?_, fun s k hk => ?_⟩
  · rw [← handleLevel_precise s hlow hhigh]
    exact ⟨(hfields s e p r).1, (hfields s e p r).2, coreLvl_le_precise s hlow hhigh⟩
  · rw [← handleLevel_line s hn, ← hslot]
    exact hfields s e p r
  · rcases asyncKind_cases hk with hslot | hslot | ⟨n, hleads, hslot⟩ <;> rw [hslot]
    · exact coreLvl_le s
    · exact coreLvl_le s
    · exact coreLvl_le_candidate hleads.stands

end Sys2Proof.Machine.Exceptions
end

section
/-! The asynchronous entries at a boundary of two bundles: a line's, the machine check's and the non-maskable interrupt's (R151, R158 to
R160, R163). -/

namespace Sys2Proof.Machine.Exceptions

open Sys2Proof Sys2Proof.Machine Sys2Proof.Machine.PowerStates Sys2Proof.Machine.InstructionSet

/-! ### A boundary at which asynchronous entries are decided (R99, R132) -/

/-- The core runs and stands between two bundles with no repeat, no load in flight and no shadow record taken up. -/
structure AtBoundary (s : State) : Prop where
  runs : coreRuns s = true
  bundle : s.dx.bundle = []
  rep : s.dx.rep = none
  loads : s.dx.loads = []
  shadow : s.dx.armShadow = false

theorem AtBoundary.dueEntry_eq {s : State} (h : AtBoundary s) : dueEntry s = asyncKind s := by
  simp [dueEntry, repHolds, h.runs, h.bundle, h.rep, h.loads]

theorem AtBoundary.takeEntry_eq {s : State} (h : AtBoundary s) {k : Nat × Option Nat} (hk : asyncKind s = some k) {p : Nat → Bool}
    (hp : p k.1 = true) : takeEntry s p = enterAsync s k s.dx.pc none := by
  simp [takeEntry, h.dueEntry_eq, hk, hp]

/-- While EL is 1 no asynchronous entry is taken (R160). -/
theorem takeEntry_handler {s : State} (p : Nat → Bool) (h : s.on CORE_STATUS_EL = true) : takeEntry s p = s := by
  have hkind : asyncKind s = none := by simp [asyncKind, h]
  simp [takeEntry, dueEntry, hkind]

/-- Each of the three entry commands takes the entry that is due where it is of its kind. -/
theorem exec_entry {s : State} {i : Instr} (hi : i ∈ [.interruptEntry, .nmiEntry, .machineCheckEntry]) :
    ∃ p, exec i s = live s (takeEntry s p) := by
  simp only [List.mem_cons, List.not_mem_nil, or_false] at hi
  rcases hi with rfl | rfl | rfl <;> exact ⟨_, rfl⟩

theorem live_self (s : State) : live s s = .next s := by simp [live]

/-! ### The entry of a line (R151, R158) -/

/-- What a field reads after writes of several depends on what it read before, and on nothing else of the state. -/
theorem get_putAll_congr {f : Fld} (ws : List (Fld × Nat)) {s t : State} (h : s.get f = t.get f) :
    (putAll s ws).get f = (putAll t ws).get f := by
  induction ws generalizing s t with
  | nil => exact h
  | cons w ws ih => exact ih (by rw [get_put, get_put, h])

theorem putAll_append (s : State) (ws vs : List (Fld × Nat)) : putAll s (ws ++ vs) = putAll (putAll s ws) vs :=
  List.foldl_append ..

/-- The records that an entry which cuts nothing clears. -/
def clearedRecords : List (Fld × Nat) := [(CORE_LSHAD_VALID, 0), (CORE_PROG_VALID, 0), (CORE_REPST_VALID, 0)]

/-- The registers after the status of a line's entry: as without a threshold, and then CORE_STATUS.THR. -/
def lineStatus (s : State) (slot epc thr : Nat) : State := (putAll s (statusWrites s slot epc 0 none)).put CORE_STATUS_THR thr

/-- The state in the handler of a line. -/
def inLineHandler (s : State) (slot epc thr : Nat) : State :=
  xk (putAll (lineStatus s slot epc thr) clearedRecords) fun _ => (inHandler s slot epc 0 none).dx

theorem statusAtEntry_line (s : State) (slot epc thr : Nat) :
    statusAtEntry s ⟨slot, epc, 0, false, none, some thr⟩ = lineStatus s slot epc thr := by
  rw [lineStatus, ← statusAtEntry_plain]
  simp only [statusAtEntry, plainEnt, b2n, Bool.false_eq_true, if_false]

theorem put_clearedRecords (u : State) :
    ((u.put CORE_LSHAD_VALID 0).put CORE_PROG_VALID 0).put CORE_REPST_VALID 0 = putAll u clearedRecords := by
  simp only [putAll, clearedRecords, List.foldl_cons, List.foldl_nil]

/-- The entry of a line, in one step. -/
theorem takeIn_line {s : State} (h : AtBoundary s) (slot epc thr : Nat) :
    takeIn s ⟨slot, epc, 0, false, none, some thr⟩ none none = inLineHandler s slot epc thr := by
  have hdx : (lineStatus s slot epc thr).dx = s.dx := (put_dx _ _ _).trans (putAll_dx s _)
  have hend : (putAll (lineStatus s slot epc thr) clearedRecords).dx = s.dx := (putAll_dx _ _).trans hdx
  unfold takeIn shadowAtEntry inLineHandler inHandler
  rw [statusAtEntry_line]
  simp only [hdx, h.loads, h.shadow, Bool.false_eq_true, if_false, progAtEntry, repAtEntry, put_clearedRecords]
  simp only [tick, goTo, xk, hend]

section
variable (s : State) (slot epc thr : Nat)

theorem inLineHandler_thr : (inLineHandler s slot epc thr).get CORE_STATUS_THR = thr % 2 ^ 4 := by
  unfold inLineHandler
  rw [xk_get, get_putAll_ne _ _ _ (by decide)]
  exact get_put_self _ _ _

theorem inHandler_get (f : Fld) : (inHandler s slot epc 0 none).get f = (putAll s (entryWrites s slot epc 0 none)).get f := by
  unfold inHandler
  unfold State.get
  rfl

theorem entryWrites_cleared : entryWrites s slot epc 0 none = statusWrites s slot epc 0 none ++ clearedRecords := by
  simp only [entryWrites, clearedRecords]

/-- CORE_STATUS.THR apart, a line's handler finds what the handler of an entry without a threshold does. -/
theorem inLineHandler_get {f : Fld} (hf : f.key ≠ CORE_STATUS_THR.key) :
    (inLineHandler s slot epc thr).get f = (inHandler s slot epc 0 none).get f := by
  have hline : (inLineHandler s slot epc thr).get f =
      (putAll (putAll s (statusWrites s slot epc 0 none)) clearedRecords).get f := by
    unfold inLineHandler lineStatus
    rw [xk_get]
    exact get_putAll_congr clearedRecords (get_put_ne _ _ _ _ hf)
  rw [hline, inHandler_get, entryWrites_cleared, putAll_append]

theorem inLineHandler_byte (a : Nat) : (inLineHandler s slot epc thr).byte a = s.byte a := by
  unfold inLineHandler lineStatus
  rw [xk_byte, ← putAll_only _ clearedRecords, ← putAll_only s]
  rfl

end

/-- What a line's handler finds (R149, R151). -/
theorem inLineHandler_entered (s : State) {slot : Nat} (hslot : slot < 128) (epc thr : Nat) :
    entered s (inLineHandler s slot epc thr) slot epc 0 (handleLevel s slot) none (thr % 16) := by
  have hplain : entered s (inHandler s slot epc 0 none) slot epc 0 (handleLevel s slot) none (s.get CORE_STATUS_THR) :=
    inHandler_entered hslot (by decide) (fun _ h => nomatch h)
  obtain ⟨hepc, hcause, hsyl, hhandled, haddr, hppl, hpie, hpthr, hpl, hie, hel, -, hshadow, hprog, hrep, hpc, hbundle⟩ := hplain
  unfold entered
  simp only [inLineHandler_thr]
  simp (disch := decide) only [inLineHandler_get]
  exact ⟨hepc, hcause, hsyl, hhandled, haddr, hppl, hpie, hpthr, hpl, hie, hel, rfl, hshadow, hprog, hrep, hpc, hbundle⟩

/-- Settles O25: with nothing above the lines pending the entry decided is that of the line which leads (`bestLine_of_leads`). -/
theorem interruptChoice : Obligations.InterruptChoice := by
  intro s hpor hrun hbundle hrep hloads hshadow _ hel hcheck hwd htamper pri lvl cand
  have hb : AtBoundary s := ⟨hrun, hbundle, hrep, hloads, hshadow⟩
  have hkind : asyncKind s = (bestLine s).map fun n => (16 + n, some (linePri s n + 1)) := by
    simp [asyncKind, hel, hcheck, hwd, htamper]
  have hexec : exec .interruptEntry s = .next (takeEntry s fun k => decide (16 ≤ k)) := live_run s _ hpor
  refine ⟨fun n hn hcand hfirst => ?_, fun hnone => ?_⟩
  · have hleads : Leads s 32 n :=
      ⟨hn, (candidate_iff s hn).mpr hcand, fun m hm hm' => hfirst m hm ((candidate_iff s hm).mp hm')⟩
    rw [bestLine_of_leads hleads] at hkind
    rw [hb.takeEntry_eq hkind (by simp)] at hexec
    have henter : enterAsync s (16 + n, some (linePri s n + 1)) s.dx.pc none =
        inLineHandler s (16 + n) s.dx.pc (linePri s n + 1) := by
      unfold enterAsync
      rw [if_neg (by simp only; omega), if_neg (by simp only; omega)]
      exact takeIn_line hb _ _ _
    rw [henter] at hexec
    refine ⟨_, hexec, ?_, rfl, rfl, inLineHandler_byte s _ _ _⟩
    have hentered := inLineHandler_entered s (slot := 16 + n) (by omega) s.dx.pc (linePri s n + 1)
    rwa [handleLevel_line s hn] at hentered
  · have hclear : bestLine s = none := bestLine_none fun n hn =>
      Bool.eq_false_iff.mpr fun hcand => hnone n hn ((candidate_iff s hn).mp hcand)
    rw [hclear] at hkind
    rw [hexec]
    simp [takeEntry, hb.dueEntry_eq, hkind]

/-! ### The machine check and the non-maskable interrupt (R159, R160, R163) -/

/-- Settles O26: a machine check comes first, then a non-maskable interrupt (`asyncKind`); EL and a repeat leave none due. -/
theorem unrefusableEntries : Obligations.UnrefusableEntries := by
  refine ⟨fun s hpor hrun hbundle hrep hloads hstores hshadow _ hel hcheck => ?_,
    fun s hpor hrun hbundle hrep hloads hshadow _ hel hcheck hnmi => ?_, fun s i hi hel => ?_, fun s i hi hrep => ?_⟩
  · have hkind : asyncKind s = some (2, none) := by simp [asyncKind, hel, hcheck]
    let u := xk s fun d => { d with mcPend := false, mcDrain := false }
    have henter : enterAsync s (2, none) s.dx.pc none = inHandler u 2 s.dx.pc 0 none := by
      have hdrain : drainWait s = s := by simp [drainWait, hstores]
      simp only [enterAsync, if_true, hdrain, hcheck]
      exact takeIn_plain (s := u) hloads hshadow 2 s.dx.pc 0 none
    have hexec : exec .machineCheckEntry s = .next (inHandler u 2 s.dx.pc 0 none) := by
      rw [← henter, ← AtBoundary.takeEntry_eq ⟨hrun, hbundle, hrep, hloads, hshadow⟩ hkind (p := fun k => k == 2) rfl]
      exact live_run s _ hpor
    exact ⟨_, hexec, inHandler_entered (s := u) (by decide) (by decide) (fun _ h => nomatch h), rfl, rfl,
      inHandler_byte u _ _ _ _, inHandler_sameRegs u _ _ _ _⟩
  · have hkind : asyncKind s = some (1, none) := by
      rcases hnmi with h | h <;> simp [asyncKind, hel, hcheck, h]
    let u := xk s fun d => { d with nmiWd := false, nmiTamper := false }
    have henter : enterAsync s (1, none) s.dx.pc none = inHandler u 1 s.dx.pc 0 none := by
      unfold enterAsync
      rw [if_neg (by decide), if_pos rfl]
      exact takeIn_plain (s := u) hloads hshadow 1 s.dx.pc 0 none
    have hexec : exec .nmiEntry s = .next (inHandler u 1 s.dx.pc 0 none) := by
      rw [← henter, ← AtBoundary.takeEntry_eq ⟨hrun, hbundle, hrep, hloads, hshadow⟩ hkind (p := fun k => k == 1) rfl]
      exact live_run s _ hpor
    exact ⟨_, hexec, inHandler_entered (s := u) (by decide) (by decide) (fun _ h => nomatch h), rfl, rfl, rfl,
      inHandler_byte u _ _ _ _, inHandler_sameRegs u _ _ _ _⟩
  · obtain ⟨p, hp⟩ := exec_entry (s := s) hi
    rw [hp, takeEntry_handler p hel, live_self]
  · obtain ⟨p, hp⟩ := exec_entry (s := s) hi
    rw [hp, takeEntry_rep s p hrep, live_self]

end Sys2Proof.Machine.Exceptions
end

section
/-! The store buffer's oldest store and the hold capacitor: a word written to its target, and the late bus error (R162, R163, R301,
R302). -/

namespace Sys2Proof.Machine.Exceptions

open Sys2Proof Sys2Proof.Machine Sys2Proof.Machine.PowerStates Sys2Proof.Machine.InstructionSet

/-! ### Bytes written (R6) -/

theorem wr_succ (s : State) (a n v : Nat) : s.wr a (n + 1) v = (s.putByte a (BitVec.ofNat 8 v)).wr (a + 1) n (v / 256) := rfl

/-- A byte outside the ones written keeps its value. -/
theorem byte_wr_outside {a n c : Nat} (hc : c < a ∨ a + n ≤ c) (s : State) (v : Nat) : (s.wr a n v).byte c = s.byte c := by
  induction n generalizing s a v with
  | zero => rfl
  | succ n ih => rw [wr_succ, ih (by omega), byte_putByte, if_neg (by omega)]

/-- The bytes written read as the number, within their width. -/
theorem rd_wr (s : State) (a n v : Nat) : (s.wr a n v).rd a n = v % 256 ^ n := by
  induction n generalizing s a v with
  | zero => simp [State.rd, leNat, Nat.mod_one]
  | succ n ih =>
    have hfirst : ((s.putByte a (BitVec.ofNat 8 v)).wr (a + 1) n (v / 256)).rd a 1 = v % 256 := by
      have hbyte : ((s.putByte a (BitVec.ofNat 8 v)).wr (a + 1) n (v / 256)).byte a = BitVec.ofNat 8 v := by
        rw [byte_wr_outside (.inl (Nat.lt_succ_self a)), byte_putByte, if_pos rfl]
      simp [State.rd, leNat, hbyte]
    rw [wr_succ, Nat.add_comm n 1, rd_add, hfirst, ih, pow_add, pow_one, Nat.mod_mul]

/-- Nothing but memory is written. -/
theorem wr_only (s : State) (a n v : Nat) : { s with mem := (s.wr a n v).mem } = s.wr a n v := by
  induction n generalizing s a v with
  | zero => rfl
  | succ n ih => exact ih (s.putByte a (BitVec.ofNat 8 v)) (a + 1) (v / 256)

/-- `t` is `s` with the word at `a` written: in memory and in the records of protection alone. -/
structure WordPut (s t : State) (a v : Nat) : Prop where
  word : t.rd a 4 = v % 2 ^ 32
  others : ∀ c, (c < a ∨ a + 4 ≤ c) → t.byte c = s.byte c
  rest : { s with mem := t.mem, ms := t.ms } = t

theorem WordPut.dx {s t : State} {a v : Nat} (h : WordPut s t a v) : t.dx = s.dx := (congrArg State.dx h.rest).symm

theorem WordPut.get {s t : State} {a v : Nat} (h : WordPut s t a v) (f : Fld) : t.get f = s.get f := by
  unfold State.get
  rw [← h.rest]

/-- A word of the SRAM (R178). -/
theorem wordPut_sramPut (s : State) (a v : Nat) : WordPut s (sramPut s a v) a v where
  word := rd_wr s a 4 v
  others := fun _ hc => byte_wr_outside hc s v
  rest := congrArg (fun w : State => { w with ms := (sramPut s a v).ms }) (wr_only s a 4 v)

/-- A word of the NV store (R301). -/
theorem wordPut_nvPut (s : State) (a v : Nat) : WordPut s (nvPut s a v) a v where
  word := rd_wr s a 4 v
  others := fun _ hc => byte_wr_outside hc s v
  rest := congrArg (fun w : State => { w with ms := (nvPut s a v).ms }) (wr_only s a 4 v)

/-! ### A late bus error (R163) -/

/-- The record of the error. -/
def errorWrites (st : Store) : List (Fld × Nat) :=
  [(CORE_BEADDR_ADDR, st.addr), (CORE_BEINFO_VALID, 1), (CORE_BEINFO_SIZE, sizeCode st.size), (CORE_BEINFO_LATER, 0)]

section
variable {s : State} (hfree : s.on CORE_BEINFO_VALID = false) (st : Store)
include hfree

/-- The first error recorded: four fields, and the machine check it calls for. -/
theorem lateError_first : lateError s st =
    xk (putAll s (errorWrites st)) fun d => { d with mcPend := true, mcDrain := d.mcDrain || d.drainDue } := by
  unfold lateError
  rw [hfree, if_neg Bool.false_ne_true]
  simp only [putAll, errorWrites, List.foldl_cons, List.foldl_nil, xk]

theorem lateError_record :
    (lateError s st).get CORE_BEADDR_ADDR = st.addr % 2 ^ 32 ∧ (lateError s st).get CORE_BEINFO_VALID = 1 ∧
    (lateError s st).get CORE_BEINFO_SIZE = sizeCode st.size % 2 ^ 2 ∧ (lateError s st).get CORE_BEINFO_LATER = 0 := by
  have hkeys : (errorWrites st).map (·.1.key) =
      [CORE_BEADDR_ADDR, CORE_BEINFO_VALID, CORE_BEINFO_SIZE, CORE_BEINFO_LATER].map Fld.key := rfl
  have hwritten : ∀ w ∈ errorWrites st, (lateError s st).get w.1 = w.2 % 2 ^ w.1.w := by
    intro w hw
    rw [lateError_first hfree, xk_get]
    exact get_putAll_mem hw (by rw [hkeys]; decide) s
  simp only [errorWrites, List.forall_mem_cons] at hwritten
  obtain ⟨haddr, hvalid, hcode, hlater, -⟩ := hwritten
  exact ⟨haddr, hvalid, hcode, hlater⟩

theorem lateError_only : { s with regs := (lateError s st).regs, dx := (lateError s st).dx } = lateError s st := by
  rw [lateError_first hfree]
  unfold xk
  rw [← putAll_only s (errorWrites st)]

theorem lateError_sameRegs : sameRegs [2] s (lateError s st) := by
  have hpage : ∀ w ∈ errorWrites st, pageOf w.1 ∈ [2] := by
    simp only [errorWrites, List.forall_mem_cons]
    exact ⟨List.mem_singleton.mpr rfl, List.mem_singleton.mpr rfl, List.mem_singleton.mpr rfl, List.mem_singleton.mpr rfl,
      fun _ h => nomatch h⟩
  intro f hf
  rw [lateError_first hfree, xk_get]
  exact sameRegs_putAll hpage s f hf

theorem lateError_dx : (lateError s st).dx = { s.dx with mcPend := true, mcDrain := s.dx.mcDrain || s.dx.drainDue } := by
  rw [lateError_first hfree, xk_dx, putAll_dx]

end

/-! ### The oldest store completes (R162) -/

/-- The store buffer without its oldest store. -/
theorem completeHead_cons {s : State} {st : Store} {rest : List Store} (hstores : s.dx.stores = st :: rest)
    (hnv : inNv st.addr = false) :
    completeHead s = if (performStore (setStores s rest) st).1 then noteLater (performStore (setStores s rest) st).2
      else lateError (performStore (setStores s rest) st).2 st := by
  have hmoved : headMoved s = s := by simp [headMoved, hstores, hnv]
  unfold completeHead
  simp only [hmoved, hstores, Nat.lt_irrefl, if_false]
  rfl

theorem inSram_bounds {a : Nat} (h : inSram a = true) : 0x10000000 ≤ a ∧ a < 0x10400000 := by simpa [inSram] using h

theorem inNv_of_inSram {a : Nat} (h : inSram a = true) : inNv a = false := by
  have := inSram_bounds h
  simp [inNv]
  omega

/-- A word of the SRAM goes to its bank. -/
theorem performStore_sram {s : State} {st : Store} (hsram : inSram st.addr = true) (hsize : st.size = 4) :
    performStore s st = sramWrite s .core st.addr 4 st.val := by
  have hbounds := inSram_bounds hsram
  have hpage : inPage st.addr = false := by simp [inPage]; omega
  have hrom : inRom st.addr = false := by simp [inRom]; omega
  unfold performStore writeMem
  simp [hpage, busTurn_outside _ _ (inNv_of_inSram hsram), hsize, hrom, hsram]

/-- Outside the live copies, with no wipe running, a word is written at once (R171, R186). -/
theorem sramWrite_word {s : State} {a : Nat} (hlive : inLiveCopy s a = false) (hwipes : s.ms.wipeQ = []) (v : Nat) :
    sramWrite s .core a 4 v = (true, sramPut (noteConf s .core a) a v) := by
  have hwait : sramWait s a = s := by simp [sramWait, hwipes]
  simp [sramWrite, hlive, hwait]

theorem sramWrite_live {s : State} {a : Nat} (hlive : inLiveCopy s a = true) (n v : Nat) :
    sramWrite s .core a n v = (false, s) := by
  simp [sramWrite, hlive]

theorem setStores_inLiveCopy (s : State) (l : List Store) (a : Nat) : inLiveCopy (setStores s l) a = inLiveCopy s a :=
  xk_inLiveCopy s (fun d => { d with stores := l }) a

theorem key_ne_of_page {f g : Fld} (h : pageOf f ≠ pageOf g) : f.key ≠ g.key :=
  fun hkey => h (congrArg (fun k => k / 131072 - 0x40000) hkey)

theorem noteLater_none {s : State} (h : s.dx.mcPend = false) : noteLater s = s := by simp [noteLater, h]

/-- With no reset sequence waiting the capacitor's becoming ready goes no further. -/
theorem holdUp_unbooted {s : State} (h : (holdComesNow s).boot = none) : holdUp s = holdComesNow s := by
  unfold holdUp
  simp only [h]

/-! ### The head of the buffer and the hold capacitor (R301) -/

section
variable {s : State} {st : Store} {rest : List Store} (hstores : s.dx.stores = st :: rest)
include hstores

theorem headWaits_of_sram (hsram : inSram st.addr = true) : headWaits s = false := by
  simp [headWaits, hstores, inNv_of_inSram hsram]

/-- BUFFERED_STORE_COMPLETE of a word for the SRAM. -/
theorem exec_bufferedStore (hpor : s.por = false) (hsize : st.size = 4) (hsram : inSram st.addr = true) {ok : Bool} {t : State}
    (hwrite : sramWrite (setStores s rest) .core st.addr 4 st.val = (ok, t)) :
    exec .bufferedStoreComplete s = .next (if ok then noteLater t else lateError t st) := by
  have hexec : exec .bufferedStoreComplete s = .next (if headWaits s then s else completeHead s) := live_run s _ hpor
  rw [hexec, headWaits_of_sram hstores hsram, completeHead_cons hstores (inNv_of_inSram hsram),
    performStore_sram (s := setStores s rest) hsram hsize, hwrite]
  rfl

theorem headWaits_of_nv (hnv : inNv st.addr = true) (hhold : s.on NVS_STAT_HOLDRDY = false) : headWaits s = true := by
  simp [headWaits, hstores, hnv, holdReady, hhold]

/-- A word that waits is written whole as the capacitor becomes ready, with no move of its page and no machine check pending. -/
theorem headGo_word (hsize : st.size = 4) (hmoving : s.nvs.moving = none) (hcheck : s.dx.mcPend = false) :
    headGo s = nvPut (setStores s rest) st.addr st.val := by
  have hput := wordPut_nvPut (setStores s rest) st.addr st.val
  have hlater : (nvPut (setStores s rest) st.addr st.val).dx.mcPend = false := by rw [hput.dx]; exact hcheck
  have hwait : nvWait s st.addr = s := by simp [nvWait, hmoving]
  simp [headGo, nvHead, nvBegin, hstores, hwait, hsize, noteLater_none hlater]

theorem failHead_cons : failHead s = lateError (setStores s rest) st := by simp [failHead, hstores]

end

/-- Settles O27: the head's word is put (`wordPut_sramPut`, `wordPut_nvPut`) or becomes a late bus error (`lateError_first`). -/
theorem storeBufferAndHoldCapacitor : Obligations.StoreBufferAndHoldCapacitor := by
  refine ⟨fun s st rest hpor hstores hsize _ hsram hlive hwipes hcheck => ?_,
    fun s st rest hpor hstores hsize hsram hlive hfree => ?_,
    fun s st rest hpor hstores hsize _ hnv hhold hmoving hcheck hboot => ?_,
    fun s st rest hpor hstores hsize hnv hhold _ hfree => ?_⟩
  · let u := setStores s rest
    have hcounted := counted_noteConf u st.addr
    have hput := wordPut_sramPut (noteConf u .core st.addr) st.addr st.val
    have hdx : (sramPut (noteConf u .core st.addr) st.addr st.val).dx = { s.dx with stores := rest } := hput.dx.trans hcounted.dx
    have hexec := exec_bufferedStore hstores hpor hsize hsram
      (sramWrite_word (s := u) ((setStores_inLiveCopy s rest _).trans hlive) hwipes st.val)
    rw [if_pos rfl, noteLater_none (by rw [hdx]; exact hcheck)] at hexec
    refine ⟨_, hexec, by rw [hdx], hput.word, fun a ha => ?_, by rw [hdx], by rw [hdx]; exact hcheck, fun f hf => ?_⟩
    · rw [hput.others a ha]
      unfold State.byte
      rw [hcounted.mem]
      rfl
    · rw [hput.get]
      exact hcounted.get f (key_ne_of_page fun hpage => hf (List.mem_singleton.mpr hpage))
  · let u := setStores s rest
    have hexec := exec_bufferedStore hstores hpor hsize hsram
      (sramWrite_live (s := u) ((setStores_inLiveCopy s rest _).trans hlive) 4 st.val)
    rw [if_neg Bool.false_ne_true] at hexec
    obtain ⟨haddr, hvalid, hcode, hlater⟩ := lateError_record (s := u) hfree st
    have hdx := lateError_dx (s := u) hfree st
    refine ⟨_, hexec, congrArg Dx.stores hdx, haddr, hvalid, ?_, hlater, congrArg Dx.mcPend hdx, lateError_only (s := u) hfree st,
      lateError_sameRegs (s := u) hfree st⟩
    rw [hcode, hsize]
    rfl
  · let u := setStores (s.put NVS_STAT_HOLDRDY 1) rest
    have hput := wordPut_nvPut u st.addr st.val
    have hup : holdUp s = nvPut u st.addr st.val := by
      have hgo := headGo_word (s := s.put NVS_STAT_HOLDRDY 1) hstores hsize hmoving hcheck
      have hnone : (nvPut u st.addr st.val).boot = none := (congrArg State.boot hput.rest).symm.trans hboot
      have hnow := (holdComesNow_head s (headWaits_of_nv hstores hnv hhold)).trans hgo
      exact (holdUp_unbooted (by rw [hnow]; exact hnone)).trans hnow
    have hexec : exec .holdCapacitorReady s = .next (nvPut u st.addr st.val) := by
      rw [← hup]
      exact live_run s _ hpor
    refine ⟨_, hexec, ?_, congrArg Dx.stores hput.dx, hput.word, fun a ha => hput.others a ha, fun f hf => ?_⟩
    · rw [hput.get]
      exact get_put_self s NVS_STAT_HOLDRDY 1
    · rw [hput.get]
      exact get_put_page s NVS_STAT_HOLDRDY f 1 fun hpage => hf (by rw [hpage]; decide)
  · let u := setStores s rest
    have hready : holdReady s = false := hhold
    have hexec : exec .holdWaitTimeout s = .next (if holdReady s then s else if headWaits s then failHead s else opFail s) :=
      live_run s _ hpor
    rw [hready, headWaits_of_nv hstores hnv hhold, failHead_cons hstores, if_neg Bool.false_ne_true, if_pos rfl] at hexec
    obtain ⟨haddr, hvalid, -⟩ := lateError_record (s := u) hfree st
    have hdx := lateError_dx (s := u) hfree st
    exact ⟨_, hexec, congrArg Dx.stores hdx, haddr, hvalid, congrArg Dx.mcPend hdx, lateError_only (s := u) hfree st,
      lateError_sameRegs (s := u) hfree st⟩

end Sys2Proof.Machine.Exceptions
end

section
/-! A counterexample that the model runs: an access to the page of the table server, which starts LINK. -/

namespace Sys2Proof.Machine.Exceptions

open Sys2Proof Sys2Proof.Machine Sys2Proof.Machine.PowerStates

/-- The part in Run in state MADE with LINK stopped, and an event held for consumer 8, capture unit 0, which LINK clocks. -/
def captureHeld : State := { inRun with sec := { inRun.sec with fuses := 1 }, evHeld := 2 ^ 8 }

/-- Refutes O37: the third clause, of a write by access codes, keeps every page but PWR_ and that of the register. A write of
TBL_INTEN by the core reaches it, but it starts LINK for the access (R64), capture unit 0 takes the event held for it (R285), and
EVF_CAPSTAT0.VALID in the EVF_ page is set. -/
theorem not_busAccesses : ¬ Obligations.BusAccesses := by
  rintro ⟨-, -, hplain, -⟩
  obtain ⟨t, ht, -, -, -, -, hregs⟩ := hplain captureHeld .core 0x40007018 1 rfl (by decide +kernel) (by decide)
  have hcaptured : readsAfter (.registerWrite .core 0x40007018 1) captureHeld (EVF_CAPSTAT_VALID 0) = some 1 := by decide +kernel
  have hempty : captureHeld.get (EVF_CAPSTAT_VALID 0) = 0 := by decide +kernel
  rw [readsAfter_of_next ht, hregs (EVF_CAPSTAT_VALID 0) (by decide), hempty] at hcaptured
  exact absurd hcaptured (by decide)

end Sys2Proof.Machine.Exceptions
end

section
/-! Counterexamples of the memories' upkeep that the model runs: a log whose sequence numbers run in a circle, a close of a session
that releases a held mover channel, and a descriptor fetched from a bank that the mover does not own. -/

namespace Sys2Proof.Machine.Memories

open Sys2Proof Sys2Proof.Machine Sys2Proof.Machine.PowerStates

/-! ### Two log entries at one place (R179, R312, R433) -/

/-- The word that memory holds after a command; none where the command stops the model. -/
def wordAfter (i : Instr) (s : State) (a : Nat) : Option Nat :=
  match exec i s with
  | .next t => some (t.rd a 4)
  | _ => none

theorem wordAfter_of_next {i : Instr} {s t : State} (h : exec i s = .next t) (a : Nat) : wordAfter i s a = some (t.rd a 4) := by
  unfold wordAfter
  rw [h]

/-- Three log entries, at the places 1, 2 and 7,167, the last place: each SEQ is newer than the one before it (R312), and after an
entry of SEQ 2 at place 0 the first of them is newer than that one too. -/
def circlingLog (s : State) : State :=
  ((s.wr (0x201E4000 + 16 * 1 + 12) 4 (2 + 2 ^ 30)).wr (0x201E4000 + 16 * 2 + 12) 4 (2 + 2 ^ 31)).wr
    (0x201E4000 + 16 * 7167 + 12) 4 1

/-- The part in Run with the hold capacitor ready. Row 0 of bank 0 is due to move, seven of the bank's spare rows are used, and the
log's sequence numbers run in a circle: State does not ask for a log whose SEQs are in order. -/
def lastSpareRowDue : State :=
  { circlingLog ((inRun.put NVS_STAT_HOLDRDY 1).put (MEM_SPARE_ROWS 0) 7) with ms := { inRun.ms with moveDue := [(0, 0)] } }

/-- The newest entry is the one at place 7,167, so the repair's entry goes to place 0. -/
theorem lastSpareRowDue_entry : (0x201E4000, 2) ∈ (logWords lastSpareRowDue 2 0 0).drop 1 := by decide +kernel

/-- Refutes O39: the second clause has the repair's log entry stand also where the eighth spare row is taken and SPAREOUT's entry
follows it. Where SEQs run in a circle the walk over the log ends at place 7,167 before and after the repair's entry, and SPAREOUT's
entry, of code 3, is written over it. -/
theorem not_sramUpkeep : ¬ Obligations.SramUpkeep := by
  rintro ⟨-, hmove, -⟩
  obtain ⟨t, ht, -, -, -, -, -, -, hlogged, -⟩ :=
    hmove lastSpareRowDue 0 0 rfl (by decide) (by decide +kernel) (by decide +kernel)
  have hrepair : t.rd 0x201E4000 4 = 2 := hlogged (by decide +kernel) _ lastSpareRowDue_entry
  have hspareout : wordAfter (.sramRowMove 0 0) lastSpareRowDue 0x201E4000 = some 3 := by decide +kernel
  rw [wordAfter_of_next ht, hrepair] at hspareout
  exact absurd hspareout (by decide)

/-! ### A close while a cut waits (R194, R209) -/

/-- The part in state MADE with a session open that waits for its cut, and mover channel 0 held for it. -/
def heldForCut : State := { channelHeld with sec := { channelHeld.sec with fuses := 1 } }

/-- Refutes O40: the fourth clause keeps every page but PWR_, HRV_ and DRM_, yet a CLOSE that leaves no cut waiting lets the channels
held for it go on, and MOV_CHSTAT0.STATE in the MOV_ page goes from HELD to FETCH. -/
theorem not_dramUpkeep : ¬ Obligations.DramUpkeep := by
  rintro ⟨-, -, -, hclose, -⟩
  obtain ⟨t, ht, -, -, -, -, -, hregs⟩ := hclose heldForCut .core 2 rfl (by decide +kernel) (by decide) (by decide +kernel)
  have hfetch : readsAfter (.dramSessionClose .core 2) heldForCut (MOV_CHSTAT_STATE 0) = some chFetch := by decide +kernel
  have hheld : heldForCut.get (MOV_CHSTAT_STATE 0) = chHeld := by decide +kernel
  rw [readsAfter_of_next ht, hregs (MOV_CHSTAT_STATE 0) (by decide), hheld] at hfetch
  exact absurd hfetch (by decide)

/-! ### A descriptor in a bank that the mover does not own (R30, R174, R202) -/

/-- The model's counter of free values after a command; none where the command stops the model. -/
def drawnAfter (i : Instr) (s : State) : Option Nat :=
  match exec i s with
  | .next t => some t.free
  | _ => none

theorem drawnAfter_of_next {i : Instr} {s t : State} (h : exec i s = .next t) : drawnAfter i s = some t.free := by
  unfold drawnAfter
  rw [h]

/-- The part in Run with mover channel 0 in FETCH for FIRMWARE at M. Its descriptor, of zeros, stands at the start of bank 0, which
the core owns. -/
def descriptorInBank0 : State :=
  { ((inRun.put (MOV_CHSTAT_STATE 0) chFetch).put (MOV_CHSTAT_TAG 0) 8).put (MOV_CHCUR_ADDR 0) 0x800000 with
    ms := { inRun.ms with wipeQ := [] } }

/-- Refutes O41: the fifth clause keeps all but registers and the mover's own state, yet each of the eight words is read in a bank that
the mover does not own, where it waits for a FREE time, which MEM_CONF1 counts (R174): eight free values are drawn. -/
theorem not_moverChannels : ¬ Obligations.MoverChannels := by
  rintro ⟨-, -, -, -, hfetch, -⟩
  obtain ⟨t, ht, -, -, -, -, -, hsame, -⟩ := hfetch descriptorInBank0 0 0x10000000 (List.replicate 8 0)
    ⟨List.replicate 8 0, [], none, 0, 0, 0⟩ rfl (by decide) rfl (by decide +kernel) (by decide +kernel) (by decide +kernel)
    (by decide +kernel) rfl (by decide +kernel) rfl rfl (by decide +kernel) rfl (by decide +kernel) (by decide +kernel)
  have hdraws : drawnAfter (.moverDescriptorFetch 0) descriptorInBank0 = some (descriptorInBank0.free + 8) := by decide +kernel
  have hfree : t.free = descriptorInBank0.free := (congrArg State.free hsame).symm
  rw [drawnAfter_of_next ht, hfree] at hdraws
  exact absurd hdraws (by decide)

end Sys2Proof.Machine.Memories
end

section
/-! The link engine's operations: what each changes in the registers and in the engine, and what it leaves alone (R212 to R219, R227,
R237, R239). -/

namespace Sys2Proof.Machine.BolinaLink

open Sys2Proof Sys2Proof.Machine Sys2Proof.Machine.PowerStates

/-! ### The state and lock fields of the ports (R216) -/

/-- The keys of the three state fields. -/
def portKeys : List Nat := [LNK_STAT_PU.key, LNK_STAT_PD1.key, LNK_STAT_PD2.key]

/-- The keys of the three lock fields. -/
def laneKeys : List Nat := [LNK_STAT_LU.key, LNK_STAT_LD1.key, LNK_STAT_LD2.key]

theorem portFld_mem (p : Nat) : (portFld p).key ∈ portKeys := by unfold portFld; split <;> decide

theorem laneFld_mem (p : Nat) : (laneFld p).key ∈ laneKeys := by unfold laneFld; split <;> decide

@[simp] theorem portFld_w (p : Nat) : (portFld p).w = 2 := by unfold portFld; split <;> rfl

@[simp] theorem laneFld_w (p : Nat) : (laneFld p).w = 2 := by unfold laneFld; split <;> rfl

@[simp] theorem pageOf_portFld (p : Nat) : pageOf (portFld p) = 6 := by unfold portFld; split <;> rfl

@[simp] theorem pageOf_laneFld (p : Nat) : pageOf (laneFld p) = 6 := by unfold laneFld; split <;> rfl

theorem portFld_inj {p q : Nat} (hp : p < 3) (hq : q < 3) (h : q ≠ p) : (portFld q).key ≠ (portFld p).key := by
  have hall : ∀ p < 3, ∀ q < 3, q ≠ p → (portFld q).key ≠ (portFld p).key := by decide
  exact hall p hp q hq h

theorem get_put_port (s : State) (p v : Nat) {f : Fld} (h : f.key ∉ portKeys) : (s.put (portFld p) v).get f = s.get f :=
  get_put_ne s _ f v fun e => h (e ▸ portFld_mem p)

theorem get_put_lane (s : State) (p v : Nat) {f : Fld} (h : f.key ∉ laneKeys) : (s.put (laneFld p) v).get f = s.get f :=
  get_put_ne s _ f v fun e => h (e ▸ laneFld_mem p)

theorem get_portFld_put (s : State) (f : Fld) (v p : Nat) (h : f.key ∉ portKeys) :
    (s.put f v).get (portFld p) = s.get (portFld p) :=
  get_put_ne s f _ v fun e => h (e ▸ portFld_mem p)

theorem get_laneFld_put (s : State) (f : Fld) (v p : Nat) (h : f.key ∉ laneKeys) :
    (s.put f v).get (laneFld p) = s.get (laneFld p) :=
  get_put_ne s f _ v fun e => h (e ▸ laneFld_mem p)

/-- A list that holds none of the three keys does not hold a port's key. -/
theorem portFld_notMem {l : List Nat} (h : ∀ k ∈ portKeys, k ∉ l) (p : Nat) : (portFld p).key ∉ l := h _ (portFld_mem p)

theorem laneFld_notMem {l : List Nat} (h : ∀ k ∈ laneKeys, k ∉ l) (p : Nat) : (laneFld p).key ∉ l := h _ (laneFld_mem p)

theorem portFld_ne {f : Fld} (h : f.key ∉ portKeys) (p : Nat) : (portFld p).key ≠ f.key := fun e => h (e ▸ portFld_mem p)

theorem laneFld_ne {f : Fld} (h : f.key ∉ laneKeys) (p : Nat) : (laneFld p).key ≠ f.key := fun e => h (e ▸ laneFld_mem p)

/-! ### Events of the fabric by clocked producers (R281 to R286) -/

/-- `t` differs from `s` in what the event fabric holds alone. -/
def OnlyFabric (s t : State) : Prop :=
  { s with evHeld := t.evHeld, evCap := t.evCap, evWin := t.evWin, free := t.free } = t

theorem OnlyFabric.trans {s t u : State} (h : OnlyFabric s t) (k : OnlyFabric t u) : OnlyFabric s u := by
  unfold OnlyFabric at *
  rw [← k, ← h]

theorem OnlyFabric.get {s t : State} (h : OnlyFabric s t) (f : Fld) : t.get f = s.get f := by
  unfold State.get
  rw [← h]

theorem OnlyFabric.lnk {s t : State} (h : OnlyFabric s t) : t.lnk = s.lnk := (congrArg State.lnk h).symm

theorem OnlyFabric.cmd {s t : State} (h : OnlyFabric s t) : t.cmd = s.cmd := (congrArg State.cmd h).symm

/-- An event of a producer without a level goes to the fabric alone. -/
theorem onlyFabric_yieldEv (s : State) {p : Nat} (h : levelProds.contains p = false) : OnlyFabric s (yieldEv s p) := by
  have hwin : OnlyFabric s (windows s) := by
    unfold windows
    split <;> rfl
  have hpulse : ∀ (t : State) (c : Nat), OnlyFabric t (addPulses t c) := fun _ _ => rfl
  have hcarry : ∀ (t : State) (c : Nat) (e : Bool), OnlyFabric t (carry t c e false) := fun _ _ _ => rfl
  unfold yieldEv yieldAt
  simp only [h, Bool.false_eq_true, if_false]
  split
  · exact hwin.trans (hpulse _ _)
  · exact (hwin.trans (hpulse _ _)).trans (hcarry _ _ _)

/-! ### Transmitters -/

theorem txAt_setTx_same {s : State} {q : Nat} (h : q < s.lnk.tx.length) (f : Tx → Tx) : txAt (setTx s q f) q = f (txAt s q) := by
  simp [txAt, setTx, List.getD_eq_getElem?_getD, h]

theorem txAt_setTx_ne (s : State) {q r : Nat} (h : r ≠ q) (f : Tx → Tx) : txAt (setTx s q f) r = txAt s r := by
  simp [txAt, setTx, List.getD_eq_getElem?_getD, List.getElem?_set_ne (Ne.symm h)]

@[simp] theorem txAt_put (s : State) (f : Fld) (v q : Nat) : txAt (s.put f v) q = txAt s q := rfl

@[simp] theorem setTx_length (s : State) (q : Nat) (f : Tx → Tx) : (setTx s q f).lnk.tx.length = s.lnk.tx.length := by
  simp [setTx]

@[simp] theorem setTx_get (s : State) (q : Nat) (f : Tx → Tx) (g : Fld) : (setTx s q f).get g = s.get g := rfl

/-- A walk over the transmitters whose step at `q` touches no other: what becomes of transmitter `q` is what the step makes of it. -/
theorem txAt_walk {step : State → Nat → State} {R : State → State → Prop} (hrefl : ∀ s, R s s)
    (htrans : ∀ {s t u}, R s t → R t u → R s u) (hstep : ∀ s q, R s (step s q))
    (hother : ∀ s q r, r ≠ q → txAt (step s q) r = txAt s r) (s : State) {q : Nat} (hq : q < 3) :
    ∃ u, R s u ∧ txAt u q = txAt s q ∧ txAt ((List.range 3).foldl step s) q = txAt (step u q) q ∧
      R (step u q) ((List.range 3).foldl step s) := by
  have hwalk : (List.range 3).foldl step s = step (step (step s 0) 1) 2 := rfl
  rw [hwalk]
  obtain rfl | rfl | rfl : q = 0 ∨ q = 1 ∨ q = 2 := by omega
  · exact ⟨s, hrefl s, rfl, by rw [hother _ _ _ (by decide), hother _ _ _ (by decide)], htrans (hstep _ _) (hstep _ _)⟩
  · exact ⟨step s 0, hstep _ _, hother _ _ _ (by decide), hother _ _ _ (by decide), hstep _ _⟩
  · exact ⟨step (step s 0) 1, htrans (hstep _ _) (hstep _ _), by rw [hother _ _ _ (by decide), hother _ _ _ (by decide)], rfl,
      hrefl _⟩

theorem foldl_rel {step : State → Nat → State} {R : State → State → Prop} (hrefl : ∀ s, R s s)
    (htrans : ∀ {s t u}, R s t → R t u → R s u) (hstep : ∀ s q, R s (step s q)) (l : List Nat) : ∀ s, R s (l.foldl step s) := by
  induction l with
  | nil => exact hrefl
  | cons q l ih => exact fun s => htrans (hstep s q) (ih _)

/-! ### The route (R218, R219) -/

/-- Ports, joins and narrowings stand in `t` as in `s`, and so does the route. -/
structure SameRoute (s t : State) : Prop where
  port : ∀ p, t.get (portFld p) = s.get (portFld p)
  joined : t.lnk.joined = s.lnk.joined
  narrow : t.lnk.narrow = s.lnk.narrow

theorem SameRoute.refl (s : State) : SameRoute s s := ⟨fun _ => rfl, rfl, rfl⟩

theorem SameRoute.trans {s t u : State} (h : SameRoute s t) (k : SameRoute t u) : SameRoute s u :=
  ⟨fun p => (k.port p).trans (h.port p), k.joined.trans h.joined, k.narrow.trans h.narrow⟩

section
variable {s t : State} (h : SameRoute s t)
include h

theorem SameRoute.portUp (p : Nat) : portUp t p = portUp s p := by unfold Machine.portUp; rw [h.port]

theorem SameRoute.inRoute : inRoute t = inRoute s := by
  funext p
  unfold Machine.inRoute
  rw [h.portUp, h.joined, h.narrow]

theorem SameRoute.srcOf (q : Nat) : srcOf t q = srcOf s q := by unfold Machine.srcOf; rw [h.inRoute]

theorem SameRoute.destOf (p : Nat) : destOf t p = destOf s p := by
  unfold Machine.destOf
  simp only [h.srcOf]

theorem SameRoute.feedPort : feedPort t = feedPort s := by unfold Machine.feedPort; rw [h.inRoute]

theorem SameRoute.oneLane : oneLane t = oneLane s := by
  unfold Machine.oneLane
  simp only [h.port]

end

/-- A write of a field that is no port's state keeps the route. -/
theorem sameRoute_put (s : State) (f : Fld) (v : Nat) (h : f.key ∉ portKeys) : SameRoute s (s.put f v) :=
  ⟨fun p => get_portFld_put s f v p h, rfl, rfl⟩

/-! ### Cuts and unclean ends (R227, R237) -/

/-- The fields that a cut and an unclean end write. -/
def cutKeys : List Nat := [LNK_EVT_CUT.key, LNK_EVT_NOEND.key, LNK_ERRCNT1_NOEND.key]

/-- Frames have ended, at the processing point or on transmitters: in `t` these, the captures, and the flags and the count of cuts and
unclean ends may differ from `s`. -/
structure FramesCut (s t : State) : Prop where
  rest : { s with regs := t.regs, lnk := { s.lnk with frame := t.lnk.frame, tx := t.lnk.tx }, cmd := t.cmd } = t
  get : ∀ f : Fld, f.key ∉ cutKeys → t.get f = s.get f
  cut : s.get LNK_EVT_CUT = 1 → t.get LNK_EVT_CUT = 1
  noend : s.get LNK_EVT_NOEND = 1 → t.get LNK_EVT_NOEND = 1
  length : t.lnk.tx.length = s.lnk.tx.length
  closed : s.lnk.frame = none → t.lnk.frame = none
  discarded : s.cmd.capture = [] → t.cmd.capture = []

theorem FramesCut.refl (s : State) : FramesCut s s := ⟨rfl, fun _ _ => rfl, id, id, rfl, id, id⟩

theorem FramesCut.trans {s t u : State} (h : FramesCut s t) (k : FramesCut t u) : FramesCut s u where
  rest := by rw [← k.rest, ← h.rest]
  get f hf := (k.get f hf).trans (h.get f hf)
  cut := k.cut ∘ h.cut
  noend := k.noend ∘ h.noend
  length := k.length.trans h.length
  closed := k.closed ∘ h.closed
  discarded := k.discarded ∘ h.discarded

theorem FramesCut.sameRoute {s t : State} (h : FramesCut s t) : SameRoute s t :=
  ⟨fun p => h.get _ (portFld_notMem (by decide) p), by rw [← h.rest], by rw [← h.rest]⟩

theorem FramesCut.sameRegs {s t : State} (h : FramesCut s t) : sameRegs [6] s t := by
  intro f hf
  refine h.get f fun hk => hf ?_
  simp only [cutKeys, List.mem_cons, List.not_mem_nil, or_false] at hk
  have hpage : pageOf f = 6 := by
    unfold pageOf
    rcases hk with hk | hk | hk <;> rw [hk] <;> rfl
  simp [hpage]

theorem framesCut_setTx (s : State) (q : Nat) (f : Tx → Tx) : FramesCut s (setTx s q f) :=
  ⟨rfl, fun _ _ => rfl, id, id, setTx_length s q f, id, id⟩

theorem sendCut_eq (s : State) (q : Nat) :
    sendCut s q = (setTx s q fun x => { x with frame := none, ends := x.ends + 1 }).put LNK_EVT_CUT 1 := rfl

theorem framesCut_sendCut (s : State) (q : Nat) : FramesCut s (sendCut s q) := by
  rw [sendCut_eq]
  refine ⟨rfl, fun f hf => ?_, fun _ => get_put_self _ _ _, fun h => ?_, by simp, id, id⟩
  · simp only [cutKeys, List.mem_cons, not_or] at hf
    rw [get_put_ne _ _ _ _ hf.1, setTx_get]
  · rw [get_put_ne _ _ _ _ (by decide), setTx_get, h]

theorem sendCut_txAt {s : State} {q : Nat} (h : q < s.lnk.tx.length) :
    (txAt (sendCut s q) q).frame = none ∧ (txAt (sendCut s q) q).ends = (txAt s q).ends + 1 := by
  have hset := txAt_setTx_same h fun x => { x with frame := none, ends := x.ends + 1 }
  exact ⟨congrArg Tx.frame hset, congrArg Tx.ends hset⟩

theorem sendCut_cut (s : State) (q : Nat) : (sendCut s q).get LNK_EVT_CUT = 1 := get_put_self _ _ _

/-- What an unclean end of an open frame does (R227, R260). -/
def frameAborted (s : State) : State :=
  ({ (lk s fun l => { l with frame := none }) with cmd := { s.cmd with capture := [] } }.put LNK_EVT_NOEND 1).bump
    LNK_ERRCNT1_NOEND 1

theorem uncleanEnd_open {s : State} {f : Frame} (h : s.lnk.frame = some f) : uncleanEnd s = frameAborted s := by
  unfold uncleanEnd
  rw [h]
  rfl

theorem uncleanEnd_closed {s : State} (h : s.lnk.frame = none) : uncleanEnd s = s := by
  unfold uncleanEnd
  rw [h]

theorem frameAborted_count (s : State) :
    (frameAborted s).get LNK_ERRCNT1_NOEND = min (s.get LNK_ERRCNT1_NOEND + 1) 65535 := by
  unfold frameAborted State.bump
  rw [get_put_self, get_put_ne _ _ _ _ (by decide)]
  exact Nat.mod_eq_of_lt (by simp only [LNK_ERRCNT1_NOEND]; omega)

theorem frameAborted_noend (s : State) : (frameAborted s).get LNK_EVT_NOEND = 1 := by
  unfold frameAborted State.bump
  rw [get_put_ne _ _ _ _ (by decide), get_put_self]
  rfl

theorem framesCut_frameAborted (s : State) : FramesCut s (frameAborted s) := by
  refine ⟨rfl, fun f hf => ?_, fun h => ?_, fun _ => frameAborted_noend s, rfl, fun _ => rfl,
    fun _ => rfl⟩
  · simp only [cutKeys, List.mem_cons, List.not_mem_nil, or_false, not_or] at hf
    obtain ⟨-, hnoend, hcount⟩ := hf
    unfold frameAborted State.bump
    rw [get_put_ne _ _ _ _ hcount, get_put_ne _ _ _ _ hnoend]
    rfl
  · rw [← h]
    unfold frameAborted State.bump
    rw [get_put_ne _ _ _ _ (by decide), get_put_ne _ _ _ _ (by decide)]
    rfl

theorem framesCut_uncleanEnd (s : State) : FramesCut s (uncleanEnd s) := by
  cases hf : s.lnk.frame with
  | none => rw [uncleanEnd_closed hf]; exact .refl s
  | some f => rw [uncleanEnd_open hf]; exact framesCut_frameAborted s

/-! ### A changed route (R237) -/

/-- The processing point ends the frame that its feed no longer carries. -/
def rerouteProc (s : State) : State :=
  match s.lnk.frame with
  | some f => if feedPort s == some f.port then s else uncleanEnd s
  | none => s

/-- Transmitter `q` cuts the frame whose source it has lost. -/
def rerouteTx (s : State) (q : Nat) : State :=
  match (txAt s q).frame with
  | none => s
  | some f =>
    if !portUp s q then setTx s q fun x => { x with frame := none } else if srcOf s q == some f.src then s else sendCut s q

theorem reroute_eq (s : State) : reroute s = (List.range 3).foldl rerouteTx (rerouteProc s) := rfl

theorem framesCut_rerouteProc (s : State) : FramesCut s (rerouteProc s) := by
  unfold rerouteProc
  split
  · split
    · exact .refl s
    · exact framesCut_uncleanEnd s
  · exact .refl s

theorem rerouteProc_tx (s : State) : (rerouteProc s).lnk.tx = s.lnk.tx := by
  unfold rerouteProc uncleanEnd
  split
  · split
    · rfl
    · split <;> rfl
  · rfl

theorem framesCut_rerouteTx (s : State) (q : Nat) : FramesCut s (rerouteTx s q) := by
  unfold rerouteTx
  split
  · exact .refl s
  · split
    · exact framesCut_setTx s q _
    · split
      · exact .refl s
      · exact framesCut_sendCut s q

theorem rerouteTx_other (s : State) (q r : Nat) (h : r ≠ q) : txAt (rerouteTx s q) r = txAt s r := by
  unfold rerouteTx
  split
  · rfl
  · split
    · exact txAt_setTx_ne s h _
    · split
      · rfl
      · rw [sendCut_eq, txAt_put, txAt_setTx_ne s h]

theorem framesCut_reroute (s : State) : FramesCut s (reroute s) :=
  (framesCut_rerouteProc s).trans (foldl_rel .refl .trans framesCut_rerouteTx _ _)

/-- The processing point's frame is gone where the route no longer feeds it from that port. -/
theorem reroute_closes {s : State} {f : Frame} (hf : s.lnk.frame = some f) (hfeed : feedPort s ≠ some f.port) :
    (reroute s).lnk.frame = none ∧ (reroute s).cmd.capture = [] ∧ (reroute s).get LNK_EVT_NOEND = 1 := by
  have hproc : rerouteProc s = frameAborted s := by
    unfold rerouteProc
    rw [hf]
    simp [hfeed, uncleanEnd_open hf]
  have hwalk : FramesCut (frameAborted s) (reroute s) := by
    rw [reroute_eq, hproc]
    exact foldl_rel .refl .trans framesCut_rerouteTx _ _
  exact ⟨hwalk.closed rfl, hwalk.discarded rfl, hwalk.noend (frameAborted_noend s)⟩

/-- A transmitter of an UP port that has lost its source cuts its frame. -/
theorem reroute_cuts {s : State} {q : Nat} {f : TxFrame} (hq : q < 3) (hlen : s.lnk.tx.length = 3)
    (hf : (txAt s q).frame = some f) (hup : portUp s q = true) (hsrc : srcOf s q ≠ some f.src) :
    (txAt (reroute s) q).frame = none ∧ (txAt (reroute s) q).ends = (txAt s q).ends + 1 ∧ (reroute s).get LNK_EVT_CUT = 1 := by
  obtain ⟨u, hu, htx, hend, hrest⟩ :=
    txAt_walk FramesCut.refl FramesCut.trans framesCut_rerouteTx rerouteTx_other (rerouteProc s) hq
  have hsu : FramesCut s u := (framesCut_rerouteProc s).trans hu
  have htxs : txAt u q = txAt s q := by rw [htx]; unfold txAt; rw [rerouteProc_tx]
  have hcut : rerouteTx u q = sendCut u q := by
    unfold rerouteTx
    rw [htxs, hf]
    simp [hsu.sameRoute.portUp, hsu.sameRoute.srcOf, hup, hsrc]
  rw [hcut] at hend hrest
  obtain ⟨hnone, hends⟩ := sendCut_txAt (s := u) (q := q) (by rw [hsu.length, hlen]; exact hq)
  rw [reroute_eq, hend]
  exact ⟨hnone, by rw [hends, htxs], hrest.cut (sendCut_cut u q)⟩

/-! ### Narrowed ports and the end of a frame (R218) -/

/-- In `t` narrowings and what transmitters send may differ from `s`, and nothing else. -/
def OnlyPassage (s t : State) : Prop := { s with lnk := { s.lnk with tx := t.lnk.tx, narrow := t.lnk.narrow } } = t

theorem OnlyPassage.refl (s : State) : OnlyPassage s s := rfl

theorem OnlyPassage.trans {s t u : State} (h : OnlyPassage s t) (k : OnlyPassage t u) : OnlyPassage s u := by
  unfold OnlyPassage at *
  rw [← k, ← h]

theorem OnlyPassage.get {s t : State} (h : OnlyPassage s t) (f : Fld) : t.get f = s.get f := by
  unfold State.get
  rw [← h]

/-- Port `q` takes part again where no open frame's source then changes. -/
def settlePort (s : State) (q : Nat) : State :=
  let t := lk s fun l => { l with narrow := l.narrow.filter fun n => !(n.port == q && n.ended) }
  if routeKeeps t then t else s

theorem settle_eq (s : State) : settle s = (List.range 3).foldl settlePort s := rfl

theorem onlyPassage_settle (s : State) : OnlyPassage s (settle s) := by
  rw [settle_eq]
  refine foldl_rel OnlyPassage.refl OnlyPassage.trans (fun s q => ?_) _ s
  unfold settlePort
  dsimp only
  split <;> rfl

theorem settle_tx (s : State) : (settle s).lnk.tx = s.lnk.tx := by
  rw [settle_eq]
  refine foldl_rel (R := fun s t => t.lnk.tx = s.lnk.tx) (fun _ => rfl) (fun h k => k.trans h) (fun s q => ?_) _ s
  unfold settlePort
  dsimp only
  split <;> rfl

theorem settle_unnarrowed {s : State} (h : s.lnk.narrow = []) : settle s = s := by
  have hstep : ∀ q, settlePort s q = s := by
    intro q
    have hsame : (lk s fun l => { l with narrow := l.narrow.filter fun n => !(n.port == q && n.ended) }) = s := by
      have hlnk : { s.lnk with narrow := [] } = s.lnk := by rw [← h]
      simp only [lk, h, List.filter_nil, hlnk]
    unfold settlePort
    simp only [hsame, ite_self]
  rw [settle_eq]
  exact foldl_rel (R := fun s t => (∀ q, settlePort s q = s) → t = s) (fun _ _ => rfl)
    (fun h k hs => by have e := h hs; subst e; exact k hs) (fun s q hs => hs q) _ s hstep

/-- The frame that receiver `p` takes leaves transmitter `q`. -/
def frameLeaves (p : Nat) (s : State) (q : Nat) : State :=
  match (txAt s q).frame with
  | some f => if f.src = p then setTx s q fun x => { x with frame := none } else s
  | none => s

/-- The narrowings that the frame from `p` called for have ended. -/
def narrowEnds (p : Nat) (s : State) : State :=
  lk s fun l => { l with narrow := l.narrow.map fun n => if n.src == p then { n with ended := true } else n }

theorem frameEnds_eq (s : State) (p : Nat) : frameEnds s p = settle (narrowEnds p ((List.range 3).foldl (frameLeaves p) s)) := rfl

theorem frameLeaves_cases (p : Nat) (s : State) (q : Nat) :
    frameLeaves p s q = s ∨ frameLeaves p s q = setTx s q fun x => { x with frame := none } := by
  unfold frameLeaves
  split
  · split
    · exact .inr rfl
    · exact .inl rfl
  · exact .inl rfl

/-- Frames leave transmitters: these alone may differ. -/
structure FramesLeft (s t : State) : Prop where
  rest : { s with lnk := { s.lnk with tx := t.lnk.tx } } = t
  length : t.lnk.tx.length = s.lnk.tx.length

theorem FramesLeft.refl (s : State) : FramesLeft s s := ⟨rfl, rfl⟩

theorem FramesLeft.trans {s t u : State} (h : FramesLeft s t) (k : FramesLeft t u) : FramesLeft s u :=
  ⟨by rw [← k.rest, ← h.rest], k.length.trans h.length⟩

theorem framesLeft_setTx (s : State) (q : Nat) (f : Tx → Tx) : FramesLeft s (setTx s q f) := ⟨rfl, setTx_length s q f⟩

theorem framesLeft_frameLeaves (p : Nat) (s : State) (q : Nat) : FramesLeft s (frameLeaves p s q) := by
  rcases frameLeaves_cases p s q with h | h <;> rw [h]
  · exact .refl s
  · exact framesLeft_setTx s q _

theorem frameLeaves_other (p : Nat) (s : State) (q r : Nat) (h : r ≠ q) : txAt (frameLeaves p s q) r = txAt s r := by
  rcases frameLeaves_cases p s q with e | e <;> rw [e]
  exact txAt_setTx_ne s h _

theorem onlyPassage_frameEnds (s : State) (p : Nat) : OnlyPassage s (frameEnds s p) := by
  rw [frameEnds_eq]
  have hleft : OnlyPassage s ((List.range 3).foldl (frameLeaves p) s) :=
    foldl_rel OnlyPassage.refl OnlyPassage.trans (fun s q => by
      rcases frameLeaves_cases p s q with h | h <;> rw [h] <;> rfl) _ s
  have hends : ∀ t, OnlyPassage t (narrowEnds p t) := fun _ => rfl
  exact (hleft.trans (hends _)).trans (onlyPassage_settle _)

theorem frameEnds_length (s : State) (p : Nat) : (frameEnds s p).lnk.tx.length = s.lnk.tx.length := by
  rw [frameEnds_eq, settle_tx]
  exact (foldl_rel FramesLeft.refl FramesLeft.trans (framesLeft_frameLeaves p) _ s).length

/-- A transmitter on which the frame from `p` is open is free of it; any other goes on. -/
theorem frameEnds_txAt {s : State} {q : Nat} (hq : q < 3) (hlen : s.lnk.tx.length = 3) (p : Nat) :
    txAt (frameEnds s p) q = if (txAt s q).frame.any (fun g => g.src == p) then { txAt s q with frame := none } else txAt s q := by
  have htx : txAt (frameEnds s p) q = txAt ((List.range 3).foldl (frameLeaves p) s) q := by
    rw [frameEnds_eq]
    unfold txAt
    rw [settle_tx]
    rfl
  obtain ⟨u, hu, hsame, hend, -⟩ :=
    txAt_walk FramesLeft.refl FramesLeft.trans (framesLeft_frameLeaves p) (frameLeaves_other p) s hq
  rw [htx, hend]
  unfold frameLeaves
  rw [hsame]
  cases hf : (txAt s q).frame with
  | none => simp [hsame]
  | some f =>
    by_cases hp : f.src = p
    · rw [if_pos (by simp [hp])]
      simp only [if_pos hp]
      rw [txAt_setTx_same (by rw [hu.length, hlen]; exact hq), hsame]
    · rw [if_neg (by simp [hp])]
      simp only [if_neg hp, hsame]

/-- Where no port is treated as DOWN, the end of a frame changes transmitters alone. -/
theorem frameEnds_unnarrowed {s : State} (p : Nat) (h : s.lnk.narrow = []) :
    (frameEnds s p).lnk.narrow = [] := by
  have hleft := foldl_rel FramesLeft.refl FramesLeft.trans (framesLeft_frameLeaves p) (List.range 3) s
  have hnarrow : (narrowEnds p ((List.range 3).foldl (frameLeaves p) s)).lnk.narrow = [] := by
    unfold narrowEnds
    rw [← hleft.rest]
    simp [h]
  rw [frameEnds_eq, settle_unnarrowed hnarrow, hnarrow]

/-! ### Lost lanes and ports (R217 to R219) -/

/-- The lock bit of a lane is cleared and LANEDN set. -/
def laneCleared (s : State) (p l : Nat) : State := (s.put (laneFld p) (s.get (laneFld p) - 2 ^ l)).put LNK_EVT_LANEDN 1

theorem laneCleared_get (s : State) (p l : Nat) {f : Fld} (hl : f.key ∉ laneKeys) (he : f.key ≠ LNK_EVT_LANEDN.key) :
    (laneCleared s p l).get f = s.get f := by
  unfold laneCleared
  rw [get_put_ne _ _ _ _ he, get_put_lane _ _ _ hl]

theorem laneCleared_lane (s : State) (p l : Nat) : (laneCleared s p l).get (laneFld p) = (s.get (laneFld p) - 2 ^ l) % 4 := by
  unfold laneCleared
  rw [get_laneFld_put _ _ _ _ (by decide), get_put_self, laneFld_w]
  rfl

theorem laneCleared_lanedn (s : State) (p l : Nat) : (laneCleared s p l).get LNK_EVT_LANEDN = 1 := get_put_self _ _ _

theorem laneCleared_port (s : State) (p l q : Nat) : (laneCleared s p l).get (portFld q) = s.get (portFld q) :=
  laneCleared_get s p l (portFld_notMem (by decide) q) (portFld_ne (by decide) q)

theorem sameRegs_laneCleared (s : State) (p l : Nat) : sameRegs [6] s (laneCleared s p l) :=
  sameRegs_put _ _ (by decide) (sameRegs_put _ _ (by simp) (sameRegs_refl _ s))

/-- What the loss of a locked lane does, by the lanes that are left and by the port's state. -/
theorem laneLost_locked {s : State} {p l : Nat} (h : bitOf (s.get (laneFld p)) l = true) :
    laneLost s p l =
      let t := laneCleared s p l
      if t.get (portFld p) = 0 then t
      else if t.get (laneFld p) = 0 then portDown t p
      else if t.get (portFld p) = 3 then
        if (stripedOn s p).isEmpty then t.put (portFld p) 2 else narrowFor (t.put (portFld p) 2) p (stripedOn s p)
      else t := by
  unfold laneLost
  rw [h]
  rfl

theorem laneLost_unlocked {s : State} {p l : Nat} (h : bitOf (s.get (laneFld p)) l = false) : laneLost s p l = s := by
  unfold laneLost
  rw [h]
  rfl

/-- The port has gone DOWN and has left the route; its open frames are still to be ended. -/
def bypassed (s : State) (p : Nat) : State :=
  lk (s.put (portFld p) 0) fun l =>
    { l with
      joined := l.joined.filter fun q => !(q == p)
      narrow := (l.narrow.filter fun n => !(n.port == p)).map fun n => if n.src == p then { n with ended := true } else n }

theorem portDown_eq (s : State) (p : Nat) :
    portDown s p = yieldEv ((lostRefresh (settle (reroute (bypassed s p)))).put LNK_EVT_PORTDN 1) 3 := rfl

/-- Beside the route and its frames, the loss of a port changes LOST, PORTDN and what the fabric holds. -/
structure PortLost (s t : State) (p : Nat) : Prop where
  rest : { s with regs := t.regs, lnk := t.lnk, cmd := t.cmd, evHeld := t.evHeld, evCap := t.evCap, evWin := t.evWin, free := t.free }
    = t
  get : ∀ f : Fld, f.key ∉ cutKeys → f.key ≠ LNK_STAT_LOST.key → f.key ≠ LNK_EVT_PORTDN.key → t.get f = (bypassed s p).get f
  cut : (reroute (bypassed s p)).get LNK_EVT_CUT = 1 → t.get LNK_EVT_CUT = 1
  noend : (reroute (bypassed s p)).get LNK_EVT_NOEND = 1 → t.get LNK_EVT_NOEND = 1
  portdn : t.get LNK_EVT_PORTDN = 1
  regs : sameRegs [6] s t
  tx : t.lnk.tx = (reroute (bypassed s p)).lnk.tx
  frame : t.lnk.frame = (reroute (bypassed s p)).lnk.frame
  joined : t.lnk.joined = s.lnk.joined.filter fun q => !(q == p)
  cmd : t.cmd = (reroute (bypassed s p)).cmd

theorem lostRefresh_eq (s : State) : lostRefresh s = s.put LNK_STAT_LOST (b2n (s.lnk.everUp.any fun p => !portUp s p)) := rfl

theorem portLost_portDown (s : State) (p : Nat) : PortLost s (portDown s p) p := by
  rw [portDown_eq]
  have hroute := framesCut_reroute (bypassed s p)
  have hsettle := onlyPassage_settle (reroute (bypassed s p))
  have hev := onlyFabric_yieldEv ((lostRefresh (settle (reroute (bypassed s p)))).put LNK_EVT_PORTDN 1) (p := 3) (by decide)
  have hget : ∀ f : Fld, f.key ≠ LNK_STAT_LOST.key → f.key ≠ LNK_EVT_PORTDN.key →
      (yieldEv ((lostRefresh (settle (reroute (bypassed s p)))).put LNK_EVT_PORTDN 1) 3).get f =
        (reroute (bypassed s p)).get f := by
    intro f hlost hdn
    rw [hev.get, get_put_ne _ _ _ _ hdn, lostRefresh_eq, get_put_ne _ _ _ _ hlost, hsettle.get]
  have hlnk : (yieldEv ((lostRefresh (settle (reroute (bypassed s p)))).put LNK_EVT_PORTDN 1) 3).lnk =
      { (reroute (bypassed s p)).lnk with narrow := (settle (reroute (bypassed s p))).lnk.narrow } := by
    rw [hev.lnk, put_lnk, lostRefresh_eq, put_lnk, ← hsettle, settle_tx]
  have hbypassed : sameRegs [6] s (bypassed s p) := sameRegs_put _ _ (by simp) (sameRegs_refl _ s)
  have hregs : sameRegs [6] s ((lostRefresh (settle (reroute (bypassed s p)))).put LNK_EVT_PORTDN 1) := by
    refine sameRegs_put _ _ (by decide) (sameRegs_put _ _ (by decide) fun f hf => ?_)
    rw [hsettle.get, hroute.sameRegs f hf, hbypassed f hf]
  refine ⟨?_, fun f hc hlost hdn => (hget f hlost hdn).trans (hroute.get f hc), fun h => ?_, fun h => ?_, ?_, fun f hf => ?_, ?_, ?_,
    ?_, ?_⟩
  · rw [← hev, lostRefresh_eq, ← hsettle, ← hroute.rest]
    rfl
  · rw [hget _ (by decide) (by decide), h]
  · rw [hget _ (by decide) (by decide), h]
  · rw [hev.get, get_put_self]
    rfl
  · rw [hev.get, hregs f hf]
  · rw [hlnk]
  · rw [hlnk]
  · rw [hlnk, ← hroute.rest]
    rfl
  · rw [hev.cmd, put_cmd, lostRefresh_eq, put_cmd, ← hsettle]

/-- The same seen from a state that differs in registers alone. -/
theorem PortLost.rest_of_regs {s u t : State} {p : Nat} (h : PortLost u t p) (hu : { s with regs := u.regs } = u) :
    { s with regs := t.regs, lnk := t.lnk, cmd := t.cmd, evHeld := t.evHeld, evCap := t.evCap, evWin := t.evWin, free := t.free }
      = t := by
  rw [← h.rest, ← hu]

theorem bypassed_get (s : State) (p : Nat) {f : Fld} (h : f.key ∉ portKeys) : (bypassed s p).get f = s.get f :=
  get_put_port s p 0 h

theorem bypassed_port (s : State) (p : Nat) : (bypassed s p).get (portFld p) = 0 := by
  unfold bypassed
  rw [lk_get, get_put_self, Nat.zero_mod]

/-! ### Link time (R236) -/

/-- With no cycle-start waiting, link time and the open frame's cycles move, and nothing else (R236). -/
theorem advance_calm {s : State} (h : s.lnk.csAt = []) (n : Nat) :
    advance s n = lk s fun l =>
      { l with time := (s.lnk.time + 20 * n) % 2 ^ 64, frame := l.frame.map fun f => { f with n := f.n + n } } := by
  simp [advance, fireDue, h, lk]

end Sys2Proof.Machine.BolinaLink
end

section
/-! Ports and lanes: training, UP, loss of a lane or of a port, joins and probes (R211, R216 to R219, R238, R239). -/

namespace Sys2Proof.Machine.BolinaLink

open Sys2Proof Sys2Proof.Machine Sys2Proof.Machine.PowerStates

/-! ### A port comes UP (R216, R241) -/

/-- Port `p` is UP, on one lane or two, and counts as UP in this spell. -/
def portRises (s : State) (p v : Nat) : State :=
  (lk (s.put (portFld p) v) fun l => { l with everUp := p :: l.everUp.filter fun q => !(q == p) }).put LNK_EVT_PORTUP 1

theorem exec_portUp {s : State} {p : Nat} {two : Bool} (hpor : s.por = false) (hrun : 2 ≤ s.get LNK_STAT_STATE)
    (htrain : s.get (portFld p) = 1) (hlanes : if two then s.get (laneFld p) = 3 else s.get (laneFld p) ≠ 0) :
    exec (.portUp p two) s = .next (lostRefresh (
      let t := portRises s p (if two then 3 else 2)
      if t.get LNK_STAT_STATE = 2 then engineUp t p else t)) := by
  refine (live_run s _ hpor).trans (congrArg Host.Outcome.next ?_)
  have hone : ¬s.get (portFld p) = 2 := by omega
  have hrun' : 1 < s.get LNK_STAT_STATE := hrun
  dsimp only
  rw [if_neg (by cases two <;> simp_all), if_neg hone]
  rfl

theorem portRises_get (s : State) (p v : Nat) {f : Fld} (hp : f.key ∉ portKeys) (he : f.key ≠ LNK_EVT_PORTUP.key) :
    (portRises s p v).get f = s.get f := by
  unfold portRises
  rw [get_put_ne _ _ _ _ he, lk_get, get_put_port _ _ _ hp]

theorem portRises_port (s : State) (p v : Nat) : (portRises s p v).get (portFld p) = v % 4 := by
  unfold portRises
  rw [get_portFld_put _ _ _ _ (by decide), lk_get, get_put_self, portFld_w]
  rfl

theorem portRises_portup (s : State) (p v : Nat) : (portRises s p v).get LNK_EVT_PORTUP = 1 := get_put_self _ _ _

theorem sameRegs_portRises (s : State) (p v : Nat) : sameRegs [0, 6] s (portRises s p v) :=
  sameRegs_put _ _ (by decide) (sameRegs_put _ _ (by simp) (sameRegs_refl _ s))

/-- The engine UP: LNK_STAT.STATE, and in Basalt PWR_DOMSTAT.STATE, change. -/
theorem engineUp_get (s : State) (p : Nat) {f : Fld} (h : f.key ≠ LNK_STAT_STATE.key) (hd : f.key ≠ PWR_DOMSTAT_STATE.key) :
    (engineUp s p).get f = s.get f := by
  unfold engineUp
  dsimp only
  split
  · rw [get_put_ne _ _ _ _ hd]
    exact get_put_ne s _ f 3 h
  · exact get_put_ne s _ f 3 h

theorem engineUp_state (s : State) (p : Nat) : (engineUp s p).get LNK_STAT_STATE = 3 := by
  have hup : (s.put LNK_STAT_STATE 3).get LNK_STAT_STATE = 3 := get_put_self _ _ _
  unfold engineUp
  dsimp only
  split
  · rw [get_put_ne _ _ _ _ (by decide)]
    exact hup
  · exact hup

theorem engineUp_domain (s : State) (p : Nat) :
    (engineUp s p).get PWR_DOMSTAT_STATE = if s.get PWR_DOMSTAT_STATE = 4 then 3 else s.get PWR_DOMSTAT_STATE := by
  have hdom : (s.put LNK_STAT_STATE 3).get PWR_DOMSTAT_STATE = s.get PWR_DOMSTAT_STATE := get_put_ne _ _ _ _ (by decide)
  unfold engineUp
  simp only [lk_get, hdom]
  split
  · rw [get_put_self]
    rfl
  · exact hdom

theorem engineUp_rest (s : State) (p : Nat) :
    { s with regs := (engineUp s p).regs, lnk := (engineUp s p).lnk, pwr := (engineUp s p).pwr } = engineUp s p := by
  unfold engineUp
  dsimp only
  split <;> rfl

theorem engineUp_everUp (s : State) (p : Nat) : (engineUp s p).lnk.everUp = [p] := by
  unfold engineUp
  dsimp only
  split <;> rfl

theorem sameRegs_engineUp (s : State) (p : Nat) : sameRegs [0, 6] s (engineUp s p) := by
  have hup : sameRegs [0, 6] s (s.put LNK_STAT_STATE 3) := sameRegs_put _ _ (by decide) (sameRegs_refl _ s)
  unfold engineUp
  dsimp only
  split
  · exact sameRegs_put PWR_DOMSTAT_STATE 3 (by decide) hup
  · exact hup

/-! ### Loss of a lane -/

/-- The errors that lose a lane are counted (R212). -/
def errorsCounted (s : State) (e : Bool) : State := if e then s.bump LNK_ERRCNT1_CODE 4 else s

theorem exec_laneLoss {s : State} {p l : Nat} (hpor : s.por = false) (h : bitOf (s.get (laneFld p)) l = true) (e : Bool) :
    exec (.laneLoss p l e) s = .next (laneLost (errorsCounted s e) p l) := by
  refine (live_run s _ hpor).trans (congrArg Host.Outcome.next ?_)
  rw [h]
  rfl

theorem errorsCounted_get (s : State) (e : Bool) {f : Fld} (h : f.key ≠ LNK_ERRCNT1_CODE.key) :
    (errorsCounted s e).get f = s.get f := by
  unfold errorsCounted
  split
  · exact get_put_ne s _ f _ h
  · rfl

theorem errorsCounted_code (s : State) (e : Bool) : (errorsCounted s e).get LNK_ERRCNT1_CODE =
    if e then min (s.get LNK_ERRCNT1_CODE + 4) 65535 else s.get LNK_ERRCNT1_CODE := by
  unfold errorsCounted
  split
  · unfold State.bump
    rw [get_put_self]
    exact Nat.mod_eq_of_lt (by simp only [LNK_ERRCNT1_CODE]; omega)
  · rfl

theorem errorsCounted_lane (s : State) (e : Bool) (p : Nat) : (errorsCounted s e).get (laneFld p) = s.get (laneFld p) :=
  errorsCounted_get s e (laneFld_ne (by decide) p)

theorem errorsCounted_port (s : State) (e : Bool) (p : Nat) : (errorsCounted s e).get (portFld p) = s.get (portFld p) :=
  errorsCounted_get s e (portFld_ne (by decide) p)

/-- The count changes one register. -/
theorem errorsCounted_regs (s : State) (e : Bool) : { s with regs := (errorsCounted s e).regs } = errorsCounted s e := by
  unfold errorsCounted
  split <;> rfl

theorem sameRegs_errorsCounted (s : State) (e : Bool) : sameRegs [6] s (errorsCounted s e) := by
  unfold errorsCounted
  split
  · exact sameRegs_put _ _ (by decide) (sameRegs_refl _ s)
  · exact sameRegs_refl _ s

theorem errorsCounted_lnk (s : State) (e : Bool) : (errorsCounted s e).lnk = s.lnk := by rw [← errorsCounted_regs]

theorem laneCleared_counted_regs (s : State) (p l : Nat) (e : Bool) :
    { s with regs := (laneCleared (errorsCounted s e) p l).regs } = laneCleared (errorsCounted s e) p l := by
  unfold laneCleared
  rw [← errorsCounted_regs]
  rfl

/-- Striped frames rest on what transmitters and the processing point hold. -/
theorem stripedOn_congr {s t : State} (h : t.lnk = s.lnk) (p : Nat) : stripedOn t p = stripedOn s p := by
  unfold stripedOn txAt
  rw [h]

/-- A port treated as DOWN is out of the route (R218). -/
theorem inRoute_narrowed {s : State} {p : Nat} (h : s.lnk.narrow.any (fun n => n.port == p) = true) : inRoute s p = false := by
  unfold inRoute
  simp [h]

/-- The lane that is left, of two. -/
theorem bitOf_lane_left {v l : Nat} (hv : v < 4) (hl : l < 2) (hbit : bitOf v l = true) (hne : v ≠ 2 ^ l) :
    v = 3 ∧ (v - 2 ^ l) % 4 = v - 2 ^ l ∧ v - 2 ^ l ≠ 0 := by
  obtain rfl | rfl : l = 0 ∨ l = 1 := by omega
  all_goals
    simp only [bitOf, beq_iff_eq] at hbit
    omega

/-- One of two lanes lost with no striped frame open on the port: UP one lane (R218). -/
theorem laneLost_unstriped {s : State} {p l : Nat} (hbit : bitOf (s.get (laneFld p)) l = true) (hl : l < 2)
    (hlast : s.get (laneFld p) ≠ 2 ^ l) (hlanes : s.get (laneFld p) < 4) (hstriped : stripedOn s p = []) :
    laneLost s p l = if s.get (portFld p) = 3 then (laneCleared s p l).put (portFld p) 2 else laneCleared s p l := by
  obtain ⟨-, hmod, hleft⟩ := bitOf_lane_left hlanes hl hbit hlast
  rw [laneLost_locked hbit]
  simp only [laneCleared_port, laneCleared_lane, hmod, if_neg hleft, hstriped, List.isEmpty_nil, if_true]
  by_cases hdown : s.get (portFld p) = 0
  · rw [if_pos hdown, if_neg (by omega)]
  · rw [if_neg hdown]

/-- One of two lanes lost with striped frames open on the port: it is treated as DOWN for them (R218). -/
theorem laneLost_striped {s : State} {p l : Nat} (hlanes : s.get (laneFld p) = 3) (hl : l < 2) (hup : s.get (portFld p) = 3)
    (hstriped : stripedOn s p ≠ []) :
    laneLost s p l = narrowFor ((laneCleared s p l).put (portFld p) 2) p (stripedOn s p) := by
  have hbit : bitOf 3 l = true ∧ 3 ≠ 2 ^ l := by
    have hall : ∀ l < 2, bitOf 3 l = true ∧ 3 ≠ 2 ^ l := by decide
    exact hall l hl
  obtain ⟨-, hmod, hleft⟩ := bitOf_lane_left (v := 3) (by decide) hl hbit.1 hbit.2
  have hsome : (stripedOn s p).isEmpty = false := by simpa using hstriped
  rw [laneLost_locked (by rw [hlanes]; exact hbit.1)]
  simp only [laneCleared_port, laneCleared_lane, hlanes, hmod, if_neg hleft, hup, hsome]
  rfl

/-- The last lane lost: the port goes DOWN. -/
theorem laneLost_last {s : State} {p l : Nat} (hlanes : s.get (laneFld p) = 2 ^ l) (hup : s.get (portFld p) ≠ 0) :
    laneLost s p l = portDown (laneCleared s p l) p := by
  have hbit : bitOf (2 ^ l) l = true := by simp [bitOf]
  rw [laneLost_locked (by rw [hlanes]; exact hbit)]
  simp only [laneCleared_port, laneCleared_lane, hlanes, Nat.sub_self, if_neg hup, Nat.zero_mod, if_true]

/-- Ports that receive a striped frame are added to those the port is treated as DOWN for. -/
theorem narrowFor_eq (s : State) (p : Nat) (l : List Nat) :
    narrowFor s p l = reroute (lk s fun k => { k with narrow := (l.map fun q => ⟨p, q, false⟩) ++ k.narrow }) := rfl

theorem linkQuiet_iff (s : State) : s.linkQuiet = true ↔
    s.lnk.frame = none ∧ s.lnk.tx.length = 3 ∧ (∀ x ∈ s.lnk.tx, x.frame = none) ∧ s.lnk.narrow = [] := by
  simp [State.linkQuiet, and_assoc]

theorem txAt_quiet {s : State} (h : ∀ x ∈ s.lnk.tx, x.frame = none) (q : Nat) : (txAt s q).frame = none := by
  unfold txAt
  rw [List.getD_eq_getElem?_getD]
  cases hq : s.lnk.tx[q]? with
  | none => rfl
  | some x => exact h x (List.mem_of_getElem? hq)

/-- With no frame open every change of the route keeps their sources. -/
theorem routeKeeps_quiet {s : State} (hf : s.lnk.frame = none) (htx : ∀ x ∈ s.lnk.tx, x.frame = none) : routeKeeps s = true := by
  unfold routeKeeps
  simp [hf, txAt_quiet htx]

/-- A lane's lock bit is cleared after the errors that lost it were counted. -/
structure LaneCounted (s c : State) (p l : Nat) (e : Bool) : Prop where
  lane : c.get (laneFld p) = (s.get (laneFld p) - 2 ^ l) % 4
  lanedn : c.get LNK_EVT_LANEDN = 1
  port : ∀ q, c.get (portFld q) = s.get (portFld q)
  code : c.get LNK_ERRCNT1_CODE = if e then min (s.get LNK_ERRCNT1_CODE + 4) 65535 else s.get LNK_ERRCNT1_CODE
  rest : { s with regs := c.regs } = c
  regs : sameRegs [6] s c

theorem laneCounted (s : State) (p l : Nat) (e : Bool) : LaneCounted s (laneCleared (errorsCounted s e) p l) p l e where
  lane := by rw [laneCleared_lane, errorsCounted_lane]
  lanedn := laneCleared_lanedn _ p l
  port q := by rw [laneCleared_port, errorsCounted_port]
  code := by rw [laneCleared_get _ _ _ (by decide) (by decide), errorsCounted_code]
  rest := laneCleared_counted_regs s p l e
  regs := sameRegs_trans (sameRegs_errorsCounted s e) (sameRegs_laneCleared _ p l)

theorem exec_laneLoss_unstriped {s : State} {p l : Nat} (hpor : s.por = false) (hbit : bitOf (s.get (laneFld p)) l = true) (hl : l < 2)
    (hlast : s.get (laneFld p) ≠ 2 ^ l) (hlanes : s.get (laneFld p) < 4) (hstriped : stripedOn s p = []) (e : Bool) :
    exec (.laneLoss p l e) s = .next (if s.get (portFld p) = 3 then (laneCleared (errorsCounted s e) p l).put (portFld p) 2
      else laneCleared (errorsCounted s e) p l) := by
  have hlost := laneLost_unstriped (s := errorsCounted s e) (p := p) (l := l) (by rwa [errorsCounted_lane]) hl
    (by rwa [errorsCounted_lane]) (by rwa [errorsCounted_lane]) (by rwa [stripedOn_congr (errorsCounted_lnk s e)])
  rw [errorsCounted_port] at hlost
  rw [exec_laneLoss hpor hbit, hlost]

/-- The port is UP one lane and treated as DOWN for the striped frames that are open on it; the route is still to follow. -/
def laneNarrowed (s : State) (p l : Nat) (e : Bool) : State :=
  lk ((laneCleared (errorsCounted s e) p l).put (portFld p) 2) fun k =>
    { k with narrow := ((stripedOn s p).map fun r => ⟨p, r, false⟩) ++ k.narrow }

theorem exec_laneLoss_striped {s : State} {p l : Nat} (hpor : s.por = false) (hlanes : s.get (laneFld p) = 3) (hl : l < 2)
    (hup : s.get (portFld p) = 3) (hstriped : stripedOn s p ≠ []) (e : Bool) :
    exec (.laneLoss p l e) s = .next (reroute (laneNarrowed s p l e)) := by
  have hbit : bitOf (s.get (laneFld p)) l = true := by
    have hall : ∀ l < 2, bitOf 3 l = true := by decide
    rw [hlanes]
    exact hall l hl
  have hcount := stripedOn_congr (errorsCounted_lnk s e) p
  have hlost := laneLost_striped (s := errorsCounted s e) (p := p) (l := l) (by rwa [errorsCounted_lane]) hl
    (by rwa [errorsCounted_port]) (by rwa [hcount])
  rw [hcount, narrowFor_eq] at hlost
  rw [exec_laneLoss hpor hbit, hlost, laneNarrowed]

/-- What the narrowing leaves before the route follows. -/
structure LaneNarrowed (s u : State) (p : Nat) : Prop where
  port : u.get (portFld p) = 2
  lanedn : u.get LNK_EVT_LANEDN = 1
  lnk : u.lnk = { s.lnk with narrow := ((stripedOn s p).map fun r => ⟨p, r, false⟩) ++ s.lnk.narrow }
  rest : { s with regs := u.regs, lnk := u.lnk } = u
  regs : sameRegs [6] s u

theorem laneNarrowed_state (s : State) (p l : Nat) (e : Bool) : LaneNarrowed s (laneNarrowed s p l e) p := by
  have hcounted := laneCounted s p l e
  unfold laneNarrowed
  refine ⟨?_, ?_, ?_, ?_, fun f hf => ?_⟩
  · rw [lk_get, get_put_self, portFld_w]
    rfl
  · rw [lk_get, get_put_port _ _ _ (by decide), hcounted.lanedn]
  · rw [lk, put_lnk, ← hcounted.rest]
  · rw [← hcounted.rest]
    rfl
  · rw [lk_get, sameRegs_put _ _ (by simp) hcounted.regs f hf]

/-- The transmitter of a narrowed port ends its frame and counts it as cut (R218, R237). -/
theorem LaneNarrowed.cuts {s u : State} {p : Nat} (h : LaneNarrowed s u p) (hp : p < 3) (hout : inRoute u p = false)
    (hopen : (txAt s p).frame.isSome = true) (hlen : s.lnk.tx.length = 3) :
    (txAt (reroute u) p).frame = none ∧ (txAt (reroute u) p).ends = (txAt s p).ends + 1 ∧ (reroute u).get LNK_EVT_CUT = 1 := by
  obtain ⟨f, hf⟩ := Option.isSome_iff_exists.mp hopen
  have htx : txAt u p = txAt s p := by unfold txAt; rw [h.lnk]
  have hsrc : srcOf u p = none := by unfold srcOf; rw [hout]; rfl
  have hends := reroute_cuts (s := u) (f := f) hp (by rw [h.lnk]; exact hlen) (by rw [htx, hf])
    (by unfold portUp; rw [h.port]; rfl) (by rw [hsrc]; simp)
  rwa [htx] at hends

theorem exec_laneLoss_last {s : State} {p l : Nat} (hpor : s.por = false) (hlanes : s.get (laneFld p) = 2 ^ l)
    (hup : s.get (portFld p) ≠ 0) (e : Bool) :
    exec (.laneLoss p l e) s = .next (portDown (laneCleared (errorsCounted s e) p l) p) := by
  have hlost := laneLost_last (s := errorsCounted s e) (p := p) (l := l) (by rwa [errorsCounted_lane]) (by rwa [errorsCounted_port])
  rw [exec_laneLoss hpor (by rw [hlanes]; simp [bitOf]), hlost]

/-- Settles O42: a lane lost is `laneLost_unstriped`, `laneLost_striped` or `laneLost_last`, and what ends with it is
`reroute_cuts` and `portLost_portDown`. -/
theorem linkPorts : Obligations.LinkPorts := by
  refine ⟨?lock, ?train, ?timeout, ?up, ?unstriped, ?striped, ?last, ?join, ?wait, ?probe, ?silent⟩
  case lock =>
    intro s p l hpor hp hl hrun
    refine ⟨s.put (laneFld p) (s.get (laneFld p) ||| 2 ^ l), ?_, ?_, rfl, sameRegs_put _ _ (by simp) (sameRegs_refl _ s)⟩
    · exact (live_run s _ hpor).trans (congrArg Host.Outcome.next (if_pos hrun))
    · rw [get_put_self, laneFld_w]
      rfl
  case train =>
    intro s p hpor hp hrun hdown
    refine ⟨s.put (portFld p) 1, ?_, ?_, rfl, sameRegs_put _ _ (by simp) (sameRegs_refl _ s)⟩
    · exact (live_run s _ hpor).trans (congrArg Host.Outcome.next (if_pos (by simp [hrun, hdown])))
    · rw [get_put_self, portFld_w]
      rfl
  case timeout =>
    intro s p hpor hp htrain
    refine ⟨s.put (portFld p) 0, ?_, ?_, rfl, sameRegs_put _ _ (by simp) (sameRegs_refl _ s)⟩
    · exact (live_run s _ hpor).trans (congrArg Host.Outcome.next (if_pos htrain))
    · rw [get_put_self, Nat.zero_mod]
  case up =>
    intro s p two hpor hp hrun htrain hlanes
    refine ⟨_, exec_portUp hpor hrun htrain hlanes, ?_⟩
    have hvalue : (if two then 3 else 2) % 4 = if two then 3 else 2 := by cases two <;> rfl
    have hport := portRises_port s p (if two then 3 else 2)
    rw [hvalue] at hport
    have hstate := portRises_get s p (if two then 3 else 2) (f := LNK_STAT_STATE) (by decide) (by decide)
    have hdom := portRises_get s p (if two then 3 else 2) (f := PWR_DOMSTAT_STATE) (by decide) (by decide)
    have hregs := sameRegs_portRises s p (if two then 3 else 2)
    dsimp only
    simp only [hstate, lostRefresh_eq]
    by_cases hfirst : s.get LNK_STAT_STATE = 2
    · simp only [hfirst, if_true, true_and]
      refine ⟨?_, ?_, ?_, ?_, ?_, ?_, ?_⟩
      · rw [get_portFld_put _ _ _ _ (by decide), engineUp_get _ _ (portFld_ne (by decide) p) (portFld_ne (by decide) p),
          hport]
      · rw [get_put_ne _ _ _ _ (by decide), engineUp_get _ _ (by decide) (by decide), portRises_portup]
      · rw [get_put_ne _ _ _ _ (by decide), engineUp_state]
      · rw [get_put_ne _ _ _ _ (by decide), engineUp_domain, hdom]
      · rw [put_lnk, engineUp_everUp]
        simp
      · rw [← engineUp_rest]
        rfl
      · exact sameRegs_put _ _ (by decide) (sameRegs_trans hregs (sameRegs_engineUp _ p))
    · simp only [hfirst, false_and, if_false]
      refine ⟨?_, ?_, ?_, ?_, ?_, rfl, ?_⟩
      · rw [get_portFld_put _ _ _ _ (by decide), hport]
      · rw [get_put_ne _ _ _ _ (by decide), portRises_portup]
      · rw [get_put_ne _ _ _ _ (by decide), hstate]
      · rw [get_put_ne _ _ _ _ (by decide), hdom]
      · simp [portRises]
      · exact sameRegs_put _ _ (by decide) hregs
  case unstriped =>
    intro s p l e hpor hp hbit hl hlast hlanes hstriped
    have h := laneCounted s p l e
    obtain ⟨-, hmod, -⟩ := bitOf_lane_left hlanes hl hbit hlast
    refine ⟨_, exec_laneLoss_unstriped hpor hbit hl hlast hlanes hstriped e, ?_⟩
    by_cases htwo : s.get (portFld p) = 3
    · simp only [if_pos htwo]
      refine ⟨?_, ?_, ?_, ?_, ?_, sameRegs_put _ _ (by simp) h.regs⟩
      · rw [get_put_port _ _ _ (laneFld_notMem (by decide) p), h.lane, hmod]
      · rw [get_put_port _ _ _ (by decide), h.lanedn]
      · rw [get_put_self, portFld_w]
        rfl
      · rw [get_put_port _ _ _ (by decide), h.code]
      · rw [← h.rest]
        rfl
    · simp only [if_neg htwo]
      exact ⟨h.lane.trans hmod, h.lanedn, h.port p, h.code, h.rest, h.regs⟩
  case striped =>
    intro s p l q l2 e hpor hp hlanes hl hup hstriped
    have hexec := exec_laneLoss_striped hpor hlanes hl hup (by rw [hstriped]; simp) e
    have h := laneNarrowed_state s p l e
    have hcut := framesCut_reroute (laneNarrowed s p l e)
    have hout : inRoute (laneNarrowed s p l e) p = false := inRoute_narrowed (by rw [h.lnk, hstriped]; simp)
    refine ⟨_, hexec, (hcut.sameRoute.port p).trans h.port, (hcut.get _ (by decide)).trans h.lanedn, ?_,
      by rw [hcut.sameRoute.inRoute, hout], h.cuts hp hout, ?_, sameRegs_trans h.regs hcut.sameRegs⟩
    · rw [hcut.sameRoute.narrow, h.lnk, hstriped]
      rfl
    · rw [← hcut.rest, ← h.rest]
  case last =>
    intro s p l e hpor hp hlanes hl hup
    have h := laneCounted s p l e
    have hdown := portLost_portDown (laneCleared (errorsCounted s e) p l) p
    refine ⟨_, exec_laneLoss_last hpor hlanes hup e, ?_, ?_, ?_, hdown.portdn, by rw [hdown.joined]; simp,
      hdown.rest_of_regs h.rest, sameRegs_trans h.regs hdown.regs⟩
    · rw [hdown.get _ (laneFld_notMem (by decide) p) (laneFld_ne (by decide) p) (laneFld_ne (by decide) p),
        bypassed_get _ _ (laneFld_notMem (by decide) p), h.lane, hlanes, Nat.sub_self]
    · rw [hdown.get _ (portFld_notMem (by decide) p) (portFld_ne (by decide) p) (portFld_ne (by decide) p), bypassed_port]
    · rw [hdown.get _ (by decide) (by decide) (by decide), bypassed_get _ _ (by decide), h.lanedn]
  case join =>
    intro s p hpor hp hup hnew hquiet
    obtain ⟨hframe, -, htx, -⟩ := (linkQuiet_iff s).mp hquiet
    have hkeeps : routeKeeps (lk s fun l => { l with joined := l.joined ++ [p] }) = true := routeKeeps_quiet hframe htx
    refine ⟨lostRefresh (lk s fun l => { l with joined := l.joined ++ [p] }), ?_, rfl, rfl, ?_⟩
    · refine (live_run s _ hpor).trans (congrArg Host.Outcome.next (if_pos ?_))
      rw [hup, hnew, hkeeps]
      rfl
    · exact sameRegs_put _ _ (by decide) (sameRegs_refl _ s)
  case wait =>
    intro s p hpor hkeeps
    refine ⟨s, (live_run s _ hpor).trans (congrArg Host.Outcome.next (if_neg ?_)), rfl⟩
    have hkeeps' : routeKeeps (lk s fun l => { l with joined := l.joined ++ [p] }) = false := hkeeps
    simp [hkeeps']
  case probe =>
    intro s p hpor hp hrun hdown hsilent
    refine ⟨setTx s p fun x => { x with probes := x.probes + 1 }, ?_, rfl, rfl⟩
    exact (live_run s _ hpor).trans (congrArg Host.Outcome.next (if_pos (by simp [hrun, hdown, hsilent])))
  case silent =>
    intro s p hpor hsilent
    exact ⟨s, (live_run s _ hpor).trans (congrArg Host.Outcome.next (if_neg (by simp [hsilent]))), rfl⟩

end Sys2Proof.Machine.BolinaLink
end

section
/-! Pending tables flip (R254): what the flip of each table writes, and what the flip of all of them does. -/

namespace Sys2Proof.Machine.BolinaLink

open Sys2Proof Sys2Proof.Machine Sys2Proof.Machine.PowerStates Sys2Proof.Machine.InstructionSet

/-! ### One table -/

/-- The live fields of a table, each with the shadow field it takes. -/
def flipCopies (n : Nat) : List (Fld × Fld) :=
  [(TBL_LDESC0_BASE n, TBL_SDESC0_BASE n), (TBL_LDESC0_ESIZE n, TBL_SDESC0_ESIZE n), (TBL_LDESC0_MR n, TBL_SDESC0_MR n),
    (TBL_LDESC0_MW n, TBL_SDESC0_MW n), (TBL_LDESC0_CMDW n, TBL_SDESC0_CMDW n), (TBL_LDESC1_COUNT n, TBL_SDESC1_COUNT n)]

/-- The generation after a flip (R254). -/
def nextGen (s : State) (n : Nat) : Nat :=
  if s.get (TBL_LDESC1_GEN n) = 0xFFFF then 1 else s.get (TBL_LDESC1_GEN n) + 1

/-- What the flip of one table writes. -/
def flipWrites (s : State) (n : Nat) : List (Fld × Nat) :=
  (TBL_LIVE_LIVE, s.get TBL_LIVE_LIVE ^^^ 2 ^ n) :: (flipCopies n).map (fun c => (c.1, s.get c.2)) ++
    [(TBL_LDESC1_GEN n, nextGen s n), (TBL_READY_READY, s.get TBL_READY_READY ||| 2 ^ n),
      (TBL_CMTSTAT_PEND, s.get TBL_CMTSTAT_PEND - (s.get TBL_CMTSTAT_PEND &&& 2 ^ n))]

/-- The keys of a table's own live fields. -/
def liveKeys (n : Nat) : List Nat := (flipCopies n).map (·.1.key) ++ [(TBL_LDESC1_GEN n).key]

/-- The keys that every flip writes. -/
def flipKeys : List Nat := [TBL_LIVE_LIVE.key, TBL_READY_READY.key, TBL_CMTSTAT_PEND.key]

/-- The keys of table `n`'s live fields as numbers: the words at 8 and 12 of its four (R251). -/
theorem liveKeys_eq (n : Nat) : liveKeys n =
    [(0x40007108 + 16 * n) * 32, (0x40007108 + 16 * n) * 32 + 14, (0x40007108 + 16 * n) * 32 + 16,
      (0x40007108 + 16 * n) * 32 + 17, (0x40007108 + 16 * n) * 32 + 18, (0x4000710C + 16 * n) * 32,
      (0x4000710C + 16 * n) * 32 + 16] := rfl

theorem flipOne_eq (s : State) (n : Nat) : flipOne s n = putAll s (flipWrites s n) := by
  simp (disch := (simp only [Fld.key, TBL_LIVE_LIVE, TBL_READY_READY, TBL_CMTSTAT_PEND, TBL_LDESC0_BASE, TBL_LDESC0_ESIZE,
    TBL_LDESC0_MR, TBL_LDESC0_MW, TBL_LDESC0_CMDW, TBL_LDESC1_COUNT, TBL_LDESC1_GEN, TBL_SDESC0_BASE, TBL_SDESC0_ESIZE,
    TBL_SDESC0_MR, TBL_SDESC0_MW, TBL_SDESC0_CMDW, TBL_SDESC1_COUNT]; omega)) only [flipOne, State.clrBits, get_put_ne]
  rfl

theorem flipWrites_keys (s : State) (n : Nat) : (flipWrites s n).map (·.1.key) =
    TBL_LIVE_LIVE.key :: liveKeys n ++ [TBL_READY_READY.key, TBL_CMTSTAT_PEND.key] := rfl

theorem flipWrites_nodup (s : State) (n : Nat) : ((flipWrites s n).map (·.1.key)).Nodup := by
  rw [flipWrites_keys, liveKeys_eq]
  simp only [Fld.key, TBL_LIVE_LIVE, TBL_READY_READY, TBL_CMTSTAT_PEND, List.cons_append, List.nil_append, List.nodup_cons,
    List.mem_cons, List.not_mem_nil, or_false, not_or]
  simp only [List.nodup_nil, not_false_eq_true, and_true]
  omega

theorem flipOne_get_ne {s : State} {n : Nat} {f : Fld} (hshared : f.key ∉ flipKeys) (hown : f.key ∉ liveKeys n) :
    (flipOne s n).get f = s.get f := by
  rw [flipOne_eq]
  refine get_putAll_ne _ _ _ ?_
  rw [flipWrites_keys]
  simp only [flipKeys, List.mem_cons, List.not_mem_nil, or_false, not_or] at hshared
  obtain ⟨hlive, hready, hpend⟩ := hshared
  simp [hlive, hready, hpend, hown]

theorem flipOne_get_mem {s : State} {n : Nat} {f : Fld} {v : Nat} (h : (f, v) ∈ flipWrites s n) :
    (flipOne s n).get f = v % 2 ^ f.w := by
  rw [flipOne_eq]
  exact get_putAll_mem h (flipWrites_nodup s n) s

theorem flipOne_regs (s : State) (n : Nat) : { s with regs := (flipOne s n).regs } = flipOne s n := by
  rw [flipOne_eq]
  exact putAll_only s _

theorem sameRegs_flipOne {s : State} {n : Nat} (hn : n < 16) : sameRegs [7] s (flipOne s n) := by
  rw [flipOne_eq]
  refine sameRegs_putAll (fun w hw => ?_) s
  have hkey := List.mem_map_of_mem (f := fun w : Fld × Nat => w.1.key) hw
  rw [flipWrites_keys, liveKeys_eq] at hkey
  have hpage : pageOf w.1 = 7 := by
    unfold pageOf
    simp only [Fld.key, TBL_LIVE_LIVE, TBL_READY_READY, TBL_CMTSTAT_PEND, List.cons_append, List.nil_append, List.mem_cons,
      List.not_mem_nil, or_false] at hkey ⊢
    omega
  simp [hpage]

/-! ### All tables of a mask -/

/-- The tables below `k` of a mask have flipped. -/
def flips (m k : Nat) (s : State) : State := (List.range k).foldl (fun s n => if bitOf m n then flipOne s n else s) s

theorem flips_succ (m k : Nat) (s : State) :
    flips m (k + 1) s = if bitOf m k then flipOne (flips m k s) k else flips m k s := by
  unfold flips
  rw [List.range_succ, List.foldl_append]
  rfl

theorem flips_regs (m k : Nat) (s : State) : { s with regs := (flips m k s).regs } = flips m k s := by
  induction k with
  | zero => rfl
  | succ k ih =>
    rw [flips_succ]
    split
    · rw [← flipOne_regs, ← ih]
    · exact ih

theorem sameRegs_flips {m k : Nat} (hk : k ≤ 16) (s : State) : sameRegs [7] s (flips m k s) := by
  induction k with
  | zero => exact sameRegs_refl _ s
  | succ k ih =>
    have hbelow := ih (by omega)
    rw [flips_succ]
    split
    · exact sameRegs_trans hbelow (sameRegs_flipOne (by omega))
    · exact hbelow

/-- A field that belongs to no table below `k` keeps its value. -/
theorem flips_get_ne {m k : Nat} {s : State} {f : Fld} (hshared : f.key ∉ flipKeys) (hown : ∀ n < k, f.key ∉ liveKeys n) :
    (flips m k s).get f = s.get f := by
  induction k with
  | zero => rfl
  | succ k ih =>
    have hbelow := ih fun n hn => hown n (by omega)
    rw [flips_succ]
    split
    · rw [flipOne_get_ne hshared (hown k (by omega)), hbelow]
    · exact hbelow

/-- The bits of LIVE have changed for the tables that flipped. -/
theorem flips_live {m k j : Nat} (hj : j < 16) (s : State) :
    (flips m k s).bit TBL_LIVE_LIVE j = (s.bit TBL_LIVE_LIVE j ^^ (decide (j < k) && bitOf m j)) := by
  induction k with
  | zero => simp [flips]
  | succ k ih =>
    rw [flips_succ]
    split
    · rename_i hbit
      have hlive := flipOne_get_mem (s := flips m k s) (n := k) (f := TBL_LIVE_LIVE) (List.mem_cons_self ..)
      rw [bit_eq_testBit, hlive, Nat.testBit_mod_two_pow, Nat.testBit_xor, Nat.testBit_two_pow, ← bit_eq_testBit, ih]
      rcases Nat.lt_trichotomy j k with h | rfl | h
      · simp [TBL_LIVE_LIVE, hj, h, Nat.lt_succ_of_lt h, Nat.ne_of_gt h]
      · simp [TBL_LIVE_LIVE, hj, hbit]
      · simp [TBL_LIVE_LIVE, hj, Nat.not_lt_of_gt h, Nat.ne_of_lt h, Nat.not_lt.mpr h]
    · rename_i hbit
      rw [ih]
      rcases Nat.lt_trichotomy j k with h | rfl | h
      · simp [h, Nat.lt_succ_of_lt h]
      · simp [hbit]
      · simp [Nat.not_lt_of_gt h, Nat.not_lt.mpr h]

/-- A table of the mask that was passed is no longer pending; the others are as they were. -/
theorem flips_pend {m k j : Nat} (hj : j < 16) (s : State) :
    (flips m k s).bit TBL_CMTSTAT_PEND j = (s.bit TBL_CMTSTAT_PEND j && !(decide (j < k) && bitOf m j)) := by
  induction k with
  | zero => simp [flips]
  | succ k ih =>
    rw [flips_succ]
    split
    · rename_i hbit
      have hpend := flipOne_get_mem (s := flips m k s) (n := k) (List.mem_append_right _ (List.mem_of_getLast? rfl))
      rw [bit_eq_testBit, hpend, Nat.testBit_mod_two_pow, testBit_sub_and, Nat.testBit_two_pow, ← bit_eq_testBit, ih]
      rcases Nat.lt_trichotomy j k with h | rfl | h
      · simp [TBL_CMTSTAT_PEND, hj, h, Nat.lt_succ_of_lt h, Nat.ne_of_gt h]
      · simp [TBL_CMTSTAT_PEND, hj, hbit]
      · simp [TBL_CMTSTAT_PEND, hj, Nat.not_lt_of_gt h, Nat.ne_of_lt h, Nat.not_lt.mpr h]
    · rename_i hbit
      rw [ih]
      rcases Nat.lt_trichotomy j k with h | rfl | h
      · simp [h, Nat.lt_succ_of_lt h]
      · simp [hbit]
      · simp [Nat.not_lt_of_gt h, Nat.not_lt.mpr h]

/-- What holds of a table as it flips stands while the tables after it flip. -/
theorem flips_after {m k j : Nat} {P : State → Prop} {s : State} (hj : j < k) (hk : k ≤ 16) (hbit : bitOf m j = true)
    (hflip : P (flipOne (flips m j s) j)) (hnext : ∀ t n, n < 16 → j < n → P t → P (flipOne t n)) : P (flips m k s) := by
  induction k with
  | zero => exact absurd hj (by omega)
  | succ k ih =>
    rw [flips_succ]
    rcases Nat.lt_succ_iff_lt_or_eq.mp hj with h | rfl
    · have hbelow := ih h (by omega)
      split
      · exact hnext _ _ (by omega) h hbelow
      · exact hbelow
    · rw [if_pos hbit]
      exact hflip

theorem flips_ready {m k j : Nat} (hj : j < k) (hk : k ≤ 16) (hbit : bitOf m j = true) (s : State) :
    (flips m k s).bit TBL_READY_READY j = true := by
  have hready : ∀ t n, (flipOne t n).bit TBL_READY_READY j = (t.bit TBL_READY_READY j || decide (n = j)) := by
    intro t n
    have hput := flipOne_get_mem (s := t) (n := n) (f := TBL_READY_READY) (v := t.get TBL_READY_READY ||| 2 ^ n)
      (List.mem_append_right _ (by simp))
    have hwidth : decide (j < TBL_READY_READY.w) = true := decide_eq_true (by simp only [TBL_READY_READY]; omega)
    rw [bit_eq_testBit, hput, Nat.testBit_mod_two_pow, Nat.testBit_or, Nat.testBit_two_pow, hwidth, Bool.true_and,
      ← bit_eq_testBit]
  exact flips_after (P := fun t => t.bit TBL_READY_READY j = true) hj hk hbit (by simp [hready])
    fun t n _ _ h => by simp [hready, h]

/-- A live field of a table that has flipped holds what its flip wrote. -/
theorem flips_own {m k j : Nat} (hj : j < k) (hk : k ≤ 16) (hbit : bitOf m j = true) (s : State) {f : Fld} {v : Nat}
    (hf : f.key ∈ liveKeys j) (hv : (f, v) ∈ flipWrites (flips m j s) j) : (flips m k s).get f = v % 2 ^ f.w := by
  refine flips_after (P := fun t => t.get f = v % 2 ^ f.w) hj hk hbit (flipOne_get_mem hv) fun t n hn hlt h => ?_
  rw [liveKeys_eq] at hf
  rw [← h]
  refine flipOne_get_ne ?_ ?_
  · simp only [flipKeys, Fld.key, TBL_LIVE_LIVE, TBL_READY_READY, TBL_CMTSTAT_PEND, List.mem_cons, List.not_mem_nil,
      or_false] at hf ⊢
    omega
  · rw [liveKeys_eq]
    simp only [Fld.key, List.mem_cons, List.not_mem_nil, or_false] at hf ⊢
    omega

/-- The key of a table's shadow field. -/
theorem shadow_key {n : Nat} {c : Fld × Fld} (hc : c ∈ flipCopies n) :
    0x40007100 + 16 * n ≤ c.2.addr ∧ c.2.addr < 0x40007108 + 16 * n ∧ c.2.lo < 32 := by
  simp only [flipCopies, List.mem_cons, List.not_mem_nil, or_false] at hc
  rcases hc with rfl | rfl | rfl | rfl | rfl | rfl <;>
    simp [TBL_SDESC0_BASE, TBL_SDESC0_ESIZE, TBL_SDESC0_MR, TBL_SDESC0_MW, TBL_SDESC0_CMDW, TBL_SDESC1_COUNT]

theorem flips_shadow (m k : Nat) (s : State) {n : Nat} {c : Fld × Fld} (hc : c ∈ flipCopies n) :
    (flips m k s).get c.2 = s.get c.2 := by
  obtain ⟨hlow, hhigh, hbit⟩ := shadow_key hc
  refine flips_get_ne ?_ fun i _ => ?_
  · simp only [flipKeys, Fld.key, TBL_LIVE_LIVE, TBL_READY_READY, TBL_CMTSTAT_PEND, List.mem_cons, List.not_mem_nil, or_false]
    omega
  · rw [liveKeys_eq]
    simp only [Fld.key, List.mem_cons, List.not_mem_nil, or_false]
    omega

/-- Each live field of a flipped table takes its shadow field (R254). -/
theorem flips_copied {m k j : Nat} (hj : j < k) (hk : k ≤ 16) (hbit : bitOf m j = true) (s : State) {c : Fld × Fld}
    (hc : c ∈ flipCopies j) : (flips m k s).get c.1 = s.get c.2 % 2 ^ c.1.w := by
  rw [← flips_shadow m j s hc]
  refine flips_own hj hk hbit s (List.mem_append_left _ (List.mem_map_of_mem hc)) ?_
  exact List.mem_append_left _ (List.mem_cons_of_mem _ (List.mem_map_of_mem hc))

/-- The generation of a flipped table steps (R254). -/
theorem flips_gen {m k j : Nat} (hj : j < k) (hk : k ≤ 16) (hbit : bitOf m j = true) (s : State) :
    (flips m k s).get (TBL_LDESC1_GEN j) = nextGen s j % 2 ^ 16 := by
  have hgen : (flips m j s).get (TBL_LDESC1_GEN j) = s.get (TBL_LDESC1_GEN j) := by
    refine flips_get_ne ?_ fun n hn => ?_
    · simp only [flipKeys, Fld.key, TBL_LIVE_LIVE, TBL_READY_READY, TBL_CMTSTAT_PEND, TBL_LDESC1_GEN, List.mem_cons,
        List.not_mem_nil, or_false]
      omega
    · rw [liveKeys_eq]
      simp only [Fld.key, TBL_LDESC1_GEN, List.mem_cons, List.not_mem_nil, or_false]
      omega
  have hnext : nextGen (flips m j s) j = nextGen s j := by unfold nextGen; rw [hgen]
  rw [← hnext]
  exact flips_own hj hk hbit s (List.mem_append_right _ (by simp)) (List.mem_append_right _ (by simp))

/-! ### A frame start's flip -/

theorem flip_none (s : State) : Machine.flip s 0 = s := rfl

theorem flip_some {m : Nat} (h : m ≠ 0) (s : State) : Machine.flip s m = yieldEv ((flips m 16 s).put TBL_EVT_FLIP 1) 4 := by
  unfold Machine.flip
  rw [if_neg h]
  rfl

theorem onlyFabric_flip {m : Nat} (h : m ≠ 0) (s : State) :
    OnlyFabric ((flips m 16 s).put TBL_EVT_FLIP 1) (Machine.flip s m) := by
  rw [flip_some h]
  exact onlyFabric_yieldEv _ (by decide)

/-- A flip reads as the flips of its tables, but for TBL_EVT.FLIP. -/
theorem flip_get {m : Nat} (h : m ≠ 0) (s : State) {f : Fld} (hf : f.key ≠ TBL_EVT_FLIP.key) :
    (Machine.flip s m).get f = (flips m 16 s).get f := by
  rw [(onlyFabric_flip h s).get, get_put_ne _ _ _ _ hf]

theorem flip_event {m : Nat} (h : m ≠ 0) (s : State) : (Machine.flip s m).get TBL_EVT_FLIP = 1 := by
  rw [(onlyFabric_flip h s).get, get_put_self]
  rfl

theorem flip_rest {m : Nat} (h : m ≠ 0) (s : State) :
    { s with
      regs := (Machine.flip s m).regs, evHeld := (Machine.flip s m).evHeld, evCap := (Machine.flip s m).evCap
      evWin := (Machine.flip s m).evWin, free := (Machine.flip s m).free } = Machine.flip s m := by
  have hflip := onlyFabric_flip h s
  unfold OnlyFabric at hflip
  rw [← hflip, ← flips_regs]
  rfl

theorem sameRegs_flip {m : Nat} (h : m ≠ 0) (s : State) : sameRegs [7] s (Machine.flip s m) := fun f hf => by
  rw [(onlyFabric_flip h s).get]
  exact sameRegs_put _ _ (by decide) (sameRegs_flips (Nat.le_refl 16) s) f hf

/-- After every pending table has flipped none is pending. -/
theorem flips_all {s : State} (h : s.get TBL_CMTSTAT_PEND < 2 ^ 16) :
    (flips (s.get TBL_CMTSTAT_PEND) 16 s).get TBL_CMTSTAT_PEND = 0 := by
  have hle : ∀ m k, (flips m k s).get TBL_CMTSTAT_PEND ≤ s.get TBL_CMTSTAT_PEND := by
    intro m k
    induction k with
    | zero => exact Nat.le_refl _
    | succ k ih =>
      rw [flips_succ]
      split
      · rw [flipOne_get_mem (List.mem_append_right _ (List.mem_of_getLast? rfl))]
        exact (Nat.mod_le _ _).trans ((Nat.sub_le _ _).trans ih)
      · exact ih
  refine Nat.eq_of_testBit_eq fun j => ?_
  rw [Nat.zero_testBit]
  by_cases hj : j < 16
  · rw [← bit_eq_testBit, flips_pend hj, State.bit]
    simp [hj]
  · refine Nat.testBit_lt_two_pow (((hle _ _).trans_lt h).trans_le (Nat.pow_le_pow_right (by decide) (by omega)))

end Sys2Proof.Machine.BolinaLink
end

section
/-! Frames: their start, their header, their ends (R212, R218, R223 to R227, R236, R237, R254, R261). -/

namespace Sys2Proof.Machine.BolinaLink

open Sys2Proof Sys2Proof.Machine Sys2Proof.Machine.PowerStates

/-! ### The cycles and code errors that a command brings (R212, R236) -/

/-- Link time has moved, and what was received in error since the last command is counted. -/
def begun (s : State) (n e : Nat) : State := lineErrors (advance s n) e

theorem lineErrors_cases (s : State) (e : Nat) : lineErrors s e = s ∨ lineErrors s e = s.bump LNK_ERRCNT1_CODE e := by
  unfold lineErrors
  split
  · exact .inr rfl
  · exact .inl rfl

theorem begun_cases (s : State) (n e : Nat) :
    begun s n e = advance s n ∨ begun s n e = (advance s n).bump LNK_ERRCNT1_CODE e := lineErrors_cases _ e

section
variable {s : State} (hcs : s.lnk.csAt = []) (n e : Nat)
include hcs

theorem begun_lnk : (begun s n e).lnk =
    { s.lnk with time := (s.lnk.time + 20 * n) % 2 ^ 64, frame := s.lnk.frame.map fun f => { f with n := f.n + n } } := by
  rcases begun_cases s n e with h | h <;> rw [h, advance_calm hcs] <;> rfl

theorem begun_get {f : Fld} (hf : f.key ≠ LNK_ERRCNT1_CODE.key) : (begun s n e).get f = s.get f := by
  have hadv : (advance s n).get f = s.get f := by rw [advance_calm hcs, lk_get]
  rcases begun_cases s n e with h | h <;> rw [h]
  · exact hadv
  · exact (get_put_ne _ _ _ _ hf).trans hadv

theorem begun_code (hrun : 2 ≤ s.get LNK_STAT_STATE) :
    (begun s n e).get LNK_ERRCNT1_CODE = min (s.get LNK_ERRCNT1_CODE + e) 65535 := by
  have hrun' : 2 ≤ (advance s n).get LNK_STAT_STATE := by rwa [advance_calm hcs, lk_get]
  unfold begun lineErrors
  rw [if_pos hrun', State.bump, get_put_self, advance_calm hcs, lk_get]
  exact Nat.mod_eq_of_lt (by simp only [LNK_ERRCNT1_CODE]; omega)

theorem begun_rest : { s with regs := (begun s n e).regs, lnk := (begun s n e).lnk } = begun s n e := by
  rcases begun_cases s n e with h | h <;> rw [h, advance_calm hcs] <;> rfl

theorem begun_cmd : (begun s n e).cmd = s.cmd := by rw [← begun_rest hcs]

theorem sameRegs_begun : sameRegs [6] s (begun s n e) := fun f hf =>
  begun_get hcs n e fun h => hf (by unfold pageOf; rw [h]; decide)

theorem begun_sameRoute : SameRoute s (begun s n e) :=
  ⟨fun p => begun_get hcs n e (portFld_ne (by decide) p), by rw [begun_lnk hcs], by rw [begun_lnk hcs]⟩

theorem begun_txAt (q : Nat) : txAt (begun s n e) q = txAt s q := by unfold txAt; rw [begun_lnk hcs]

end

/-! ### A frame's start (R218, R227) -/

/-- The port takes no START: the engine is not UP, or the port is not UP and joined with a lane locked. -/
def refusesStart (s : State) (p : Nat) : Bool :=
  s.get LNK_STAT_STATE != 3 || !portUp s p || !s.lnk.joined.contains p || s.get (laneFld p) = 0

/-- The frame open at the processing point from port `p` has ended. -/
def procEnded (s : State) (p : Nat) : State := if s.lnk.frame.any fun f => f.port == p then uncleanEnd s else s

/-- What was open from port `p` has ended, and MODE shows the new frame's. -/
def cleared (s : State) (p : Nat) (r : Bool) : State := (frameEnds (procEnded s p) p).put LNK_STAT_MODE (b2n r)

/-- The frame is open on the transmitter that port `p` feeds and at the processing point. -/
def opened (s : State) (p : Nat) (r : Bool) : State :=
  lk (openTx s p r) fun l => { l with frame := some ⟨p, r, none, 128, 0, false⟩ }

/-- The rest of a START that the port takes. -/
def startTaken (s : State) (p : Nat) (r : Bool) : State :=
  if !r && s.get (portFld p) = 2 then narrowFor s p [p]
  else if !inRoute s p then s
  else
    let t := openTx (if r then s else narrowDests s p 3) p r
    if !t.lnk.procJoined || feedPort t != some p then t
    else frameStarts (lk t fun l => { l with frame := some ⟨p, r, none, 128, 0, false⟩ })

theorem exec_frameStart {s : State} (hpor : s.por = false) (p : Nat) (r : Bool) (n e : Nat) :
    exec (.frameStart p r n e) s =
      .next (if refusesStart (begun s n e) p then begun s n e else startTaken (cleared (begun s n e) p r) p r) :=
  live_run s _ hpor

theorem refusesStart_down {s : State} {p : Nat} (h : portUp s p = false) : refusesStart s p = true := by simp [refusesStart, h]

/-- A START to a port that is not UP: code errors count, and no frame opens. -/
theorem exec_frameStart_down {s : State} {p : Nat} (hpor : s.por = false) (hcs : s.lnk.csAt = []) (hdown : portUp s p = false)
    (r : Bool) (n e : Nat) : exec (.frameStart p r n e) s = .next (begun s n e) := by
  have hdown' : portUp (begun s n e) p = false := by rw [(begun_sameRoute hcs n e).portUp, hdown]
  rw [exec_frameStart hpor, if_pos (refusesStart_down hdown')]

/-- The port takes the START. -/
structure TakesStart (s : State) (p : Nat) : Prop where
  up : s.get LNK_STAT_STATE = 3
  port : portUp s p = true
  joined : s.lnk.joined.contains p = true
  lanes : s.get (laneFld p) ≠ 0

theorem exec_frameStart_taken {s : State} {p : Nat} (hpor : s.por = false) (hcs : s.lnk.csAt = []) (h : TakesStart s p) (r : Bool)
    (n e : Nat) : exec (.frameStart p r n e) s = .next (startTaken (cleared (begun s n e) p r) p r) := by
  have htakes : refusesStart (begun s n e) p = false := by
    have hlanes : (begun s n e).get (laneFld p) ≠ 0 := by rw [begun_get hcs n e (laneFld_ne (by decide) p)]; exact h.lanes
    unfold refusesStart
    rw [begun_get hcs n e (by decide), (begun_sameRoute hcs n e).portUp, (begun_sameRoute hcs n e).joined, h.up, h.port, h.joined]
    simp [hlanes]
  rw [exec_frameStart hpor, htakes]
  rfl

/-- With no port narrowed, the end of what was open keeps the route. -/
theorem framesCut_procEnded (s : State) (p : Nat) : FramesCut s (procEnded s p) := by
  unfold procEnded
  split
  · exact framesCut_uncleanEnd s
  · exact .refl s

theorem OnlyPassage.sameRoute {s t : State} (h : OnlyPassage s t) (hn : t.lnk.narrow = s.lnk.narrow) : SameRoute s t :=
  ⟨fun p => h.get _, by rw [← h], hn⟩

theorem cleared_get (s : State) (p : Nat) (r : Bool) {f : Fld} (hc : f.key ∉ cutKeys) (hm : f.key ≠ LNK_STAT_MODE.key) :
    (cleared s p r).get f = s.get f := by
  unfold cleared
  rw [get_put_ne _ _ _ _ hm, (onlyPassage_frameEnds _ p).get, (framesCut_procEnded s p).get f hc]

theorem cleared_sameRoute {s : State} (h : s.lnk.narrow = []) (p : Nat) (r : Bool) : SameRoute s (cleared s p r) := by
  have hended := framesCut_procEnded s p
  have hnarrow : (procEnded s p).lnk.narrow = [] := hended.sameRoute.narrow.trans h
  have hpass := (onlyPassage_frameEnds (procEnded s p) p).sameRoute ((frameEnds_unnarrowed p hnarrow).trans hnarrow.symm)
  exact (hended.sameRoute.trans hpass).trans (sameRoute_put _ _ _ (by decide))

theorem cleared_mode (s : State) (p : Nat) (r : Bool) : (cleared s p r).get LNK_STAT_MODE = b2n r := by
  unfold cleared
  rw [get_put_self]
  cases r <;> rfl

theorem cleared_length (s : State) (p : Nat) (r : Bool) : (cleared s p r).lnk.tx.length = s.lnk.tx.length := by
  unfold cleared
  rw [put_lnk, frameEnds_length, (framesCut_procEnded s p).length]

/-- One receiver feeds one transmitter. -/
theorem destOf_of_srcOf {s : State} {p q : Nat} (hq : q < 3) (h : srcOf s q = some p) : destOf s p = some q := by
  unfold srcOf at h
  unfold destOf srcOf
  cases h0 : inRoute s 0 <;> cases h1 : inRoute s 1 <;> cases h2 : inRoute s 2 <;>
    (obtain rfl | rfl | rfl : q = 0 ∨ q = 1 ∨ q = 2 := by omega) <;> simp [before, h0, h1, h2] at h ⊢ <;> simp [← h]

theorem inRoute_of_feedPort {s : State} {p : Nat} (h : feedPort s = some p) : inRoute s p = true :=
  List.find?_some h

/-- The transmitter that a port feeds is one of the three. -/
theorem destOf_lt {s : State} {p q : Nat} (h : destOf s p = some q) : q < 3 := by
  have hmem := List.mem_of_find?_eq_some h
  simp only [List.mem_cons, List.not_mem_nil, or_false] at hmem
  omega

theorem framesLeft_openTx (s : State) (p : Nat) (r : Bool) : FramesLeft s (openTx s p r) := by
  unfold openTx
  split
  · exact framesLeft_setTx s _ _
  · exact .refl s

theorem FramesLeft.get {s t : State} (h : FramesLeft s t) (f : Fld) : t.get f = s.get f := by
  unfold State.get
  rw [← h.rest]

theorem FramesLeft.sameRoute {s t : State} (h : FramesLeft s t) : SameRoute s t :=
  ⟨fun p => h.get _, by rw [← h.rest], by rw [← h.rest]⟩

theorem openTx_frame {s : State} {p q : Nat} (hq : q < 3) (hlen : s.lnk.tx.length = 3) (h : srcOf s q = some p) (r : Bool) :
    (txAt (openTx s p r) q).frame = some ⟨p, r, false, false⟩ := by
  unfold openTx
  rw [destOf_of_srcOf hq h]
  exact congrArg Tx.frame (txAt_setTx_same (by omega) _)

/-- No transmitter that is UP two lanes is narrowed. -/
theorem narrowDests_wide {s : State} (h : oneLane s = false) (p n : Nat) : narrowDests s p n = s := by
  have hwide : ∀ q < 3, s.get (portFld q) ≠ 2 := by
    intro q hq htwo
    have hone : oneLane s = true := List.any_eq_true.mpr ⟨q, List.mem_range.mpr hq, by simp [htwo]⟩
    rw [h] at hone
    exact absurd hone (by decide)
  cases n with
  | zero => rfl
  | succ n =>
    unfold narrowDests
    cases hd : destOf s p with
    | none => rfl
    | some q => exact if_neg (hwide q (destOf_lt hd))

/-- The START of a frame that its lanes can carry, from the port that feeds the joined processing point, opens it. -/
theorem startTaken_opens {s : State} {p : Nat} {r : Bool} (hwide : r = true ∨ oneLane s = false) (hp : p < 3)
    (hfeed : feedPort s = some p) (hproc : s.lnk.procJoined = true) : startTaken s p r = frameStarts (opened s p r) := by
  have hlanes : ¬(!r && s.get (portFld p) = 2) = true := by
    rcases hwide with rfl | hone
    · simp
    · intro h
      simp only [Bool.and_eq_true, decide_eq_true_eq] at h
      have hany : oneLane s = true := List.any_eq_true.mpr ⟨p, List.mem_range.mpr hp, by simp [h.2]⟩
      rw [hone] at hany
      exact absurd hany (by decide)
  have hnarrow : (if r then s else narrowDests s p 3) = s := by
    rcases hwide with rfl | hone
    · rfl
    · rw [narrowDests_wide hone, ite_self]
  have hopen := framesLeft_openTx s p r
  have hfeed' : feedPort (openTx s p r) = some p := by rw [hopen.sameRoute.feedPort, hfeed]
  have hproc' : (openTx s p r).lnk.procJoined = true := by rw [← hopen.rest]; exact hproc
  have hroute : inRoute s p = true := inRoute_of_feedPort hfeed
  unfold startTaken
  simp only [if_neg hlanes, hroute, hnarrow, hproc', hfeed']
  simp [opened]

/-! ### What takes effect at a frame's start (R226, R254, R279) -/

/-- The position takes effect, and what counts frame starts counts one. -/
def startCounted (s : State) : State :=
  let t := lk s fun l => { l with posEff := s.get LNK_POS_POS, missed := false, anyFrame := true }
  { t with
    cmd := { s.cmd with resetDev := s.cmd.resetDev.map fun r => (r.1, r.2.1 - 1, r.2.2), fresh := [] }
    sec := { s.sec with trans := s.sec.trans.map fun x => { x with frames := x.frames - 1 } } }

theorem frameStarts_flips {s : State} (h : s.cmd.landing = []) :
    frameStarts s = Machine.flip (startCounted s) (s.get TBL_CMTSTAT_PEND) := by
  have hland : (startCounted s).cmd.landing.isEmpty = true := by rw [startCounted, h]; rfl
  exact if_pos hland

theorem frameStarts_waits {s : State} (h : s.cmd.landing ≠ []) :
    frameStarts s =
      { startCounted s with cmd := { (startCounted s).cmd with waitFlip := s.cmd.waitFlip ||| s.get TBL_CMTSTAT_PEND } } := by
  have hland : ¬(startCounted s).cmd.landing.isEmpty = true := by
    intro he
    exact h (List.isEmpty_iff.mp he)
  exact if_neg hland

end Sys2Proof.Machine.BolinaLink
end

section
/-! Frames: what a start leaves, the header, the ends (R212, R223 to R227, R236, R237, R260, R261). -/

namespace Sys2Proof.Machine.BolinaLink

open Sys2Proof Sys2Proof.Machine Sys2Proof.Machine.PowerStates Sys2Proof.Machine.InstructionSet

/-! ### A start that opens a frame -/

/-- A frame opened by a START after `n` cycles, with what counts frame starts counted. -/
def started (s : State) (p : Nat) (r : Bool) (n : Nat) : State := startCounted (opened (cleared (begun s n 0) p r) p r)

/-- The port of a START feeds the joined processing point and can carry the frame. -/
structure FeedsProc (s : State) (p : Nat) (r : Bool) : Prop extends TakesStart s p where
  bound : p < 3
  proc : s.lnk.procJoined = true
  feed : feedPort s = some p
  wide : r = true ∨ oneLane s = false

theorem begun_frame {s : State} (hcs : s.lnk.csAt = []) (hf : s.lnk.frame = none) (n e : Nat) : (begun s n e).lnk.frame = none := by
  rw [begun_lnk hcs, hf]
  rfl

theorem procEnded_closed {s : State} (h : s.lnk.frame = none) (p : Nat) : procEnded s p = s := by
  unfold procEnded
  rw [h]
  rfl

theorem procEnded_open {s : State} {f : Frame} (h : s.lnk.frame = some f) : procEnded s f.port = frameAborted s := by
  unfold procEnded
  rw [h, uncleanEnd_open h]
  simp

/-- Registers, the engine, the captures and what counts frame starts alone may differ. -/
def OnlyFrames (s t : State) : Prop := { s with regs := t.regs, lnk := t.lnk, cmd := t.cmd, sec := t.sec } = t

theorem OnlyFrames.trans {s t u : State} (h : OnlyFrames s t) (k : OnlyFrames t u) : OnlyFrames s u := by
  unfold OnlyFrames at *
  rw [← k, ← h]

theorem OnlyPassage.onlyFrames {s t : State} (h : OnlyPassage s t) : OnlyFrames s t := by
  unfold OnlyPassage at h
  unfold OnlyFrames
  rw [← h]

theorem FramesCut.onlyFrames {s t : State} (h : FramesCut s t) : OnlyFrames s t := by
  unfold OnlyFrames
  rw [← h.rest]

theorem onlyFrames_put (s : State) (f : Fld) (v : Nat) : OnlyFrames s (s.put f v) := rfl

theorem onlyFrames_begun {s : State} (hcs : s.lnk.csAt = []) (n e : Nat) : OnlyFrames s (begun s n e) := by
  have h := begun_rest hcs n e
  revert h
  generalize begun s n e = t
  intro h
  unfold OnlyFrames
  rw [← h]

theorem onlyFrames_cleared (s : State) (p : Nat) (r : Bool) : OnlyFrames s (cleared s p r) :=
  ((framesCut_procEnded s p).onlyFrames.trans (onlyPassage_frameEnds _ p).onlyFrames).trans (onlyFrames_put _ _ _)

theorem cleared_cmd (s : State) (p : Nat) (r : Bool) : (cleared s p r).cmd = (procEnded s p).cmd := by
  unfold cleared
  rw [put_cmd, ← onlyPassage_frameEnds]

/-- What was open from the port leaves the processing point, transmitters and narrowings; the rest of the engine stands. -/
theorem cleared_lnk (s : State) (p : Nat) (r : Bool) :
    (cleared s p r).lnk =
      { (procEnded s p).lnk with tx := (cleared s p r).lnk.tx, narrow := (cleared s p r).lnk.narrow } := by
  have hends := onlyPassage_frameEnds (procEnded s p) p
  have hput : (cleared s p r).lnk = (frameEnds (procEnded s p) p).lnk := put_lnk _ _ _
  unfold OnlyPassage at hends
  rw [hput, ← hends]

theorem sameRegs_cleared (s : State) (p : Nat) (r : Bool) : sameRegs [6] s (cleared s p r) :=
  sameRegs_put _ _ (by decide) fun f hf => by
    rw [(onlyPassage_frameEnds _ p).get, (framesCut_procEnded s p).sameRegs f hf]

theorem opened_get (s : State) (p : Nat) (r : Bool) (f : Fld) : (opened s p r).get f = s.get f :=
  (framesLeft_openTx s p r).get f

theorem opened_cmd (s : State) (p : Nat) (r : Bool) : (opened s p r).cmd = s.cmd :=
  (congrArg State.cmd (framesLeft_openTx s p r).rest).symm

theorem opened_lnk (s : State) (p : Nat) (r : Bool) :
    (opened s p r).lnk = { s.lnk with tx := (openTx s p r).lnk.tx, frame := some ⟨p, r, none, 128, 0, false⟩ } := by
  have hopen : (openTx s p r).lnk = { s.lnk with tx := (openTx s p r).lnk.tx } :=
    (congrArg State.lnk (framesLeft_openTx s p r).rest).symm
  unfold opened lk
  rw [hopen]

theorem onlyFrames_opened (s : State) (p : Nat) (r : Bool) : OnlyFrames s (opened s p r) := by
  have hopen := (framesLeft_openTx s p r).rest
  unfold OnlyFrames opened lk
  rw [← hopen]

theorem startCounted_get (s : State) (f : Fld) : (startCounted s).get f = s.get f := rfl

theorem startCounted_lnk (s : State) :
    (startCounted s).lnk = { s.lnk with posEff := s.get LNK_POS_POS, missed := false, anyFrame := true } := rfl

theorem startCounted_cmd (s : State) : (startCounted s).cmd =
    { s.cmd with resetDev := s.cmd.resetDev.map fun r => (r.1, r.2.1 - 1, r.2.2), fresh := [] } := rfl

theorem onlyFrames_startCounted (s : State) : OnlyFrames s (startCounted s) := rfl

theorem started_get (s : State) (p : Nat) (r : Bool) (n : Nat) (f : Fld) :
    (started s p r n).get f = (cleared (begun s n 0) p r).get f :=
  (startCounted_get _ f).trans (opened_get _ p r f)

theorem started_lnk (s : State) (p : Nat) (r : Bool) (n : Nat) :
    (started s p r n).lnk =
      { (cleared (begun s n 0) p r).lnk with
        tx := (openTx (cleared (begun s n 0) p r) p r).lnk.tx, frame := some ⟨p, r, none, 128, 0, false⟩
        posEff := (cleared (begun s n 0) p r).get LNK_POS_POS, missed := false, anyFrame := true } := by
  rw [started, startCounted_lnk, opened_lnk, opened_get]

theorem started_txAt (s : State) (p : Nat) (r : Bool) (n q : Nat) :
    txAt (started s p r n) q = txAt (openTx (cleared (begun s n 0) p r) p r) q := by
  unfold txAt
  rw [started_lnk]

section
variable {s : State} (hcs : s.lnk.csAt = []) (p : Nat) (r : Bool) (n : Nat)
include hcs

theorem sameRegs_started : sameRegs [6] s (started s p r n) := fun f hf => by
  rw [started_get, sameRegs_cleared _ p r f hf, sameRegs_begun hcs n 0 f hf]

theorem onlyFrames_started : OnlyFrames s (started s p r n) :=
  (((onlyFrames_begun hcs n 0).trans (onlyFrames_cleared _ p r)).trans (onlyFrames_opened _ p r)).trans (onlyFrames_startCounted _)

end

/-- The START is taken and its frame opens. -/
theorem exec_frameStart_opens {s : State} {p : Nat} {r : Bool} (hpor : s.por = false) (hcs : s.lnk.csAt = [])
    (hnarrow : s.lnk.narrow = []) (h : FeedsProc s p r) (n : Nat) :
    exec (.frameStart p r n) s = .next (frameStarts (opened (cleared (begun s n 0) p r) p r)) := by
  have hbegun := begun_sameRoute hcs n 0
  have hroute := hbegun.trans (cleared_sameRoute (hbegun.narrow.trans hnarrow) p r)
  have hproc : (cleared (begun s n 0) p r).lnk.procJoined = true := by
    rw [cleared_lnk, ← (framesCut_procEnded _ p).rest]
    dsimp only
    rw [begun_lnk hcs]
    exact h.proc
  have hopens := startTaken_opens (s := cleared (begun s n 0) p r) (p := p) (r := r) (by rw [hroute.oneLane]; exact h.wide) h.bound
    (hroute.feedPort.trans h.feed) hproc
  rw [exec_frameStart_taken hpor hcs h.toTakesStart, hopens]

theorem frameStarts_idle {s : State} (h : s.get TBL_CMTSTAT_PEND = 0) : frameStarts s = startCounted s := by
  by_cases hland : s.cmd.landing = []
  · rw [frameStarts_flips hland, h, flip_none]
  · rw [frameStarts_waits hland, h, Nat.or_zero]
    rfl

theorem opened_pend {s : State} (hcs : s.lnk.csAt = []) (p : Nat) (r : Bool) (n : Nat) :
    (opened (cleared (begun s n 0) p r) p r).get TBL_CMTSTAT_PEND = s.get TBL_CMTSTAT_PEND :=
  (startCounted_get _ _).symm.trans (sameRegs_started hcs p r n TBL_CMTSTAT_PEND (by decide))

/-- What a START leaves that no frame was open before. -/
structure FrameStarted (s t : State) (p : Nat) (r : Bool) (n : Nat) : Prop where
  frame : t.lnk.frame = some ⟨p, r, none, 128, 0, false⟩
  tx : ∀ q, q < 3 → srcOf s q = some p → (txAt t q).frame = some ⟨p, r, false, false⟩
  mode : t.get LNK_STAT_MODE = if r then 1 else 0
  pos : t.lnk.posEff = s.get LNK_POS_POS
  missed : t.lnk.missed = false
  any : t.lnk.anyFrame = true
  time : t.lnk.time = (s.lnk.time + 20 * n) % 2 ^ 64
  reset : t.cmd.resetDev = s.cmd.resetDev.map fun x => (x.1, x.2.1 - 1, x.2.2)
  landing : t.cmd.landing = s.cmd.landing
  waitFlip : t.cmd.waitFlip = s.cmd.waitFlip

theorem frameStarted {s : State} (hcs : s.lnk.csAt = []) (hquiet : s.linkQuiet = true) (p : Nat) (r : Bool) (n : Nat) :
    FrameStarted s (started s p r n) p r n := by
  obtain ⟨hframe, hlen, -, hnarrow⟩ := (linkQuiet_iff s).mp hquiet
  have hclosed := procEnded_closed (begun_frame hcs hframe n 0) p
  have hbegun := begun_sameRoute hcs n 0
  have hroute := hbegun.trans (cleared_sameRoute (hbegun.narrow.trans hnarrow) p r)
  have hcmd : (started s p r n).cmd =
      { s.cmd with resetDev := s.cmd.resetDev.map fun x => (x.1, x.2.1 - 1, x.2.2), fresh := [] } := by
    rw [started, startCounted_cmd, opened_cmd, cleared_cmd, hclosed, begun_cmd hcs]
  refine ⟨by rw [started_lnk], fun q hq hsrc => ?_, ?_, ?_, by rw [started_lnk], by rw [started_lnk], ?_, by rw [hcmd],
    by rw [hcmd], by rw [hcmd]⟩
  · have hlen' : (cleared (begun s n 0) p r).lnk.tx.length = 3 := by rw [cleared_length, begun_lnk hcs, hlen]
    rw [started_txAt]
    exact openTx_frame hq hlen' ((hroute.srcOf q).trans hsrc) r
  · rw [started_get, cleared_mode]
    rfl
  · rw [started_lnk, cleared_get _ p r (by decide) (by decide), begun_get hcs n 0 (by decide)]
  · rw [started_lnk, cleared_lnk, hclosed, begun_lnk hcs]

/-! ### A START that finds a frame open -/

theorem started_after_open {s : State} {f : Frame} (hcs : s.lnk.csAt = []) (hf : s.lnk.frame = some f) (r : Bool) (n : Nat) :
    (started s f.port r n).cmd.capture = [] ∧ (started s f.port r n).get LNK_EVT_NOEND = 1 ∧
      (started s f.port r n).get LNK_ERRCNT1_NOEND = min (s.get LNK_ERRCNT1_NOEND + 1) 65535 := by
  have hopen : (begun s n 0).lnk.frame = some { f with n := f.n + n } := by rw [begun_lnk hcs, hf]; rfl
  have hproc : procEnded (begun s n 0) f.port = frameAborted (begun s n 0) := procEnded_open (f := { f with n := f.n + n }) hopen
  have hget : ∀ g : Fld, g.key ≠ LNK_STAT_MODE.key → (started s f.port r n).get g = (frameAborted (begun s n 0)).get g := by
    intro g hg
    rw [started_get, cleared, get_put_ne _ _ _ _ hg, (onlyPassage_frameEnds _ _).get, hproc]
  refine ⟨?_, ?_, ?_⟩
  · rw [started, startCounted_cmd, opened_cmd, cleared_cmd, hproc]
    rfl
  · rw [hget _ (by decide), frameAborted_noend]
  · rw [hget _ (by decide), frameAborted_count, begun_get hcs n 0 (by decide)]

/-! ### A striped START on a port that is UP one lane (R218) -/

/-- With no frame open the route's change ends none. -/
theorem reroute_quiet {s : State} (hf : s.lnk.frame = none) (htx : ∀ q < 3, (txAt s q).frame = none) : reroute s = s := by
  have hproc : rerouteProc s = s := by unfold rerouteProc; rw [hf]
  have hstep : ∀ q < 3, rerouteTx s q = s := by
    intro q hq
    unfold rerouteTx
    rw [htx q hq]
  have hwalk : (List.range 3).foldl rerouteTx s = rerouteTx (rerouteTx (rerouteTx s 0) 1) 2 := rfl
  rw [reroute_eq, hproc, hwalk, hstep 0 (by decide), hstep 1 (by decide), hstep 2 (by decide)]

/-- The end of what was open leaves a quiet transmitter as it was. -/
theorem cleared_txAt_quiet {s : State} (hlen : s.lnk.tx.length = 3) (hf : s.lnk.frame = none) (p : Nat) (r : Bool) {q : Nat}
    (hq : q < 3) (htx : (txAt s q).frame = none) : (txAt (cleared s p r) q).frame = none := by
  unfold cleared
  rw [txAt_put, procEnded_closed hf, frameEnds_txAt hq hlen, htx]
  exact htx

theorem startTaken_narrows {s : State} {p : Nat} (hone : s.get (portFld p) = 2) : startTaken s p false = narrowFor s p [p] := by
  unfold startTaken
  exact if_pos (by simp [hone])

/-- A striped START on a quiet port that is UP one lane narrows the port. -/
theorem narrowFor_quiet {s : State} (hf : s.lnk.frame = none) (htx : ∀ q < 3, (txAt s q).frame = none) (p : Nat) :
    narrowFor s p [p] = lk s fun l => { l with narrow := ⟨p, p, false⟩ :: l.narrow } :=
  reroute_quiet (s := lk s fun l => { l with narrow := ⟨p, p, false⟩ :: l.narrow }) hf htx

/-! ### Ends (R227, R260, R261) -/

theorem advance_lnk {s : State} (hcs : s.lnk.csAt = []) (n : Nat) : { s with lnk := (advance s n).lnk } = advance s n := by
  rw [advance_calm hcs]
  rfl

/-- The frame from port `p` has ended at the processing point and on transmitters, cleanly. -/
def closed (s : State) (p : Nat) : State := frameEnds (lk s fun l => { l with frame := none }) p

theorem closed_rest (s : State) (p : Nat) : { s with lnk := (closed s p).lnk } = closed s p := by
  have hends := onlyPassage_frameEnds (lk s fun l => { l with frame := none }) p
  unfold OnlyPassage at hends
  unfold closed
  rw [← hends]
  rfl

theorem closed_frame (s : State) (p : Nat) : (closed s p).lnk.frame = none := by
  have hends := onlyPassage_frameEnds (lk s fun l => { l with frame := none }) p
  unfold OnlyPassage at hends
  unfold closed
  rw [← hends]
  rfl

theorem exec_frameEndClean {s : State} {f : Frame} (hpor : s.por = false) (hcs : s.lnk.csAt = []) (hf : s.lnk.frame = some f)
    (n : Nat) :
    exec (.frameEndClean n f.port) s = .next (yieldEv (startLanding (closed (advance s n) f.port)) 1) := by
  have hopen : ((advance s n).lnk.frame.any fun g => g.port == f.port) = true := by
    rw [advance_calm hcs, lk, hf]
    simp
  refine (live_run s _ hpor).trans (congrArg Host.Outcome.next ?_)
  simp only [hopen, if_true]
  rfl

theorem startLanding_none {s : State} (hland : s.cmd.landing = []) (hcap : s.cmd.capture = []) : startLanding s = s := by
  have hdone : landingDone s = s := by unfold landingDone; rw [hland]
  unfold startLanding
  simp only [hdone, hcap]

/-- With none that still lands, the captures of a clean end start to land. -/
theorem startLanding_some {s : State} (hland : s.cmd.landing = []) (hcap : s.cmd.capture ≠ []) :
    startLanding s = ({ s with cmd := { s.cmd with capture := [], landing := s.cmd.capture } }).put TBL_LANDSEQ_SEQ
      (s.get TBL_LANDSEQ_SEQ + 1) := by
  have hdone : landingDone s = s := by unfold landingDone; rw [hland]
  unfold startLanding
  simp only [hdone]

/-- A transmitter on which the frame from `p` is open is free of it once the frame ends. -/
theorem frameEnds_free {s : State} {q : Nat} (hq : q < 3) (hlen : s.lnk.tx.length = 3) {p : Nat}
    (h : (txAt s q).frame.any (fun g => g.src == p) = true) : (txAt (frameEnds s p) q).frame = none := by
  rw [frameEnds_txAt hq hlen, if_pos h]

theorem exec_frameEndUnclean {s : State} {f : Frame} {how : FrameEnd} (hpor : s.por = false) (hf : s.lnk.frame = some f)
    (hhow : how ≠ .portDown) : exec (.frameEndUnclean how f.port) s = .next (frameEnds (frameAborted s) f.port) := by
  have hends : endsUnclean s f.port = frameEnds (frameAborted s) f.port := congrArg (frameEnds · f.port) (procEnded_open hf)
  refine (live_run s _ hpor).trans (congrArg Host.Outcome.next ?_)
  rw [← hends]
  cases how with
  | portDown => exact absurd rfl hhow
  | _ => rfl

/-- The frame from `p` has been open for too long on transmitter `q`. -/
def framePast (p : Nat) (s : State) (q : Nat) : State :=
  match (txAt s q).frame with
  | some f => if f.src = p then setTx s q fun x => { x with frame := some { f with past := true } } else s
  | none => s

theorem exec_frameOpenTimeout {s : State} {f : Frame} (hpor : s.por = false) (hf : s.lnk.frame = some f) :
    exec (.frameOpenTimeout f.port) s = .next ((List.range 3).foldl (framePast f.port) (frameAborted s)) := by
  rw [← procEnded_open hf]
  exact live_run s _ hpor

theorem framePast_cases (p : Nat) (s : State) (q : Nat) : framePast p s q = s ∨ ∃ f, framePast p s q = setTx s q f := by
  unfold framePast
  split
  · split
    · exact .inr ⟨_, rfl⟩
    · exact .inl rfl
  · exact .inl rfl

theorem framesLeft_framePast (p : Nat) (s : State) (q : Nat) : FramesLeft s (framePast p s q) := by
  rcases framePast_cases p s q with h | ⟨f, h⟩ <;> rw [h]
  · exact .refl s
  · exact framesLeft_setTx s q f

theorem framePast_other (p : Nat) (s : State) (q r : Nat) (h : r ≠ q) : txAt (framePast p s q) r = txAt s r := by
  rcases framePast_cases p s q with e | ⟨f, e⟩ <;> rw [e]
  exact txAt_setTx_ne s h f

/-- A frame open for too long is marked on the transmitter that sends it. -/
theorem framePast_walk {s : State} {p q : Nat} (hq : q < 3) (hlen : s.lnk.tx.length = 3)
    (h : (txAt s q).frame.any (fun g => g.src == p) = true) :
    (txAt ((List.range 3).foldl (framePast p) s) q).frame = (txAt s q).frame.map fun g => { g with past := true } := by
  obtain ⟨u, hu, hsame, hend, -⟩ :=
    txAt_walk FramesLeft.refl FramesLeft.trans (framesLeft_framePast p) (framePast_other p) s hq
  obtain ⟨g, hg, hsrc⟩ := (Option.any_eq_true _ _).mp h
  rw [hend]
  unfold framePast
  rw [hsame, hg]
  simp only [if_pos (beq_iff_eq.mp hsrc), txAt_setTx_same (s := u) (q := q) (by rw [hu.length, hlen]; exact hq)]
  rfl

end Sys2Proof.Machine.BolinaLink
end

section
/-! The cycle header at the processing point and on transmitters (R212, R224 to R226, R236). -/

namespace Sys2Proof.Machine.BolinaLink

open Sys2Proof Sys2Proof.Machine Sys2Proof.Machine.PowerStates Sys2Proof.Machine.InstructionSet

/-! ### The passage of a header (R225) -/

/-- The header passes on transmitter `q`, where the frame from `p` awaits it. -/
def headerOn (p : Nat) (h : List Byte) (bad : List Nat) (s : State) (q : Nat) : State :=
  match (txAt s q).frame with
  | some f =>
    if f.src = p && !f.hdr then setTx s q fun x => { x with frame := some { f with hdr := true }, hdr := h, bad := bad } else s
  | none => s

theorem passHeader_eq (s : State) (p : Nat) (h : List Byte) (bad : List Nat) :
    passHeader s p h bad = (List.range 3).foldl (headerOn p h bad) s := rfl

theorem headerOn_cases (p : Nat) (h : List Byte) (bad : List Nat) (s : State) (q : Nat) :
    headerOn p h bad s q = s ∨ ∃ f, headerOn p h bad s q = setTx s q f := by
  unfold headerOn
  split
  · split
    · exact .inr ⟨_, rfl⟩
    · exact .inl rfl
  · exact .inl rfl

theorem framesLeft_headerOn (p : Nat) (h : List Byte) (bad : List Nat) (s : State) (q : Nat) :
    FramesLeft s (headerOn p h bad s q) := by
  rcases headerOn_cases p h bad s q with e | ⟨f, e⟩ <;> rw [e]
  · exact .refl s
  · exact framesLeft_setTx s q f

theorem headerOn_other (p : Nat) (h : List Byte) (bad : List Nat) (s : State) (q r : Nat) (hr : r ≠ q) :
    txAt (headerOn p h bad s q) r = txAt s r := by
  rcases headerOn_cases p h bad s q with e | ⟨f, e⟩ <;> rw [e]
  exact txAt_setTx_ne s hr f

theorem framesLeft_passHeader (s : State) (p : Nat) (h : List Byte) (bad : List Nat) : FramesLeft s (passHeader s p h bad) :=
  foldl_rel FramesLeft.refl FramesLeft.trans (framesLeft_headerOn p h bad) _ s

/-- A transmitter whose frame from `p` awaits its header sends this one. -/
theorem passHeader_hdr {s : State} {p q : Nat} {g : TxFrame} (hq : q < 3) (hlen : s.lnk.tx.length = 3) (hg : (txAt s q).frame = some g)
    (hsrc : g.src = p) (hhdr : g.hdr = false) (h : List Byte) (bad : List Nat) : (txAt (passHeader s p h bad) q).hdr = h := by
  obtain ⟨u, hu, hsame, hend, -⟩ :=
    txAt_walk FramesLeft.refl FramesLeft.trans (framesLeft_headerOn p h bad) (headerOn_other p h bad) s hq
  rw [passHeader_eq, hend]
  unfold headerOn
  rw [hsame, hg]
  simp only [hsrc, hhdr, decide_true, Bool.not_false, Bool.and_self, if_true]
  rw [txAt_setTx_same (by rw [hu.length, hlen]; exact hq)]

/-- Code errors are counted and the header passes on transmitters. -/
def headerSent (s : State) (p : Nat) (h : List Byte) (bad : List Nat) (errs : Nat) : State :=
  passHeader (s.bump LNK_ERRCNT1_CODE errs) p h bad

theorem headerSent_rest (s : State) (p : Nat) (h : List Byte) (bad : List Nat) (errs : Nat) :
    { s with
      regs := (headerSent s p h bad errs).regs, lnk := { s.lnk with tx := (headerSent s p h bad errs).lnk.tx } }
      = headerSent s p h bad errs := by
  have hsent := (framesLeft_passHeader (s.bump LNK_ERRCNT1_CODE errs) p h bad).rest
  unfold headerSent
  rw [← hsent]
  rfl

theorem headerSent_get (s : State) (p : Nat) (h : List Byte) (bad : List Nat) (errs : Nat) {f : Fld}
    (hf : f.key ≠ LNK_ERRCNT1_CODE.key) : (headerSent s p h bad errs).get f = s.get f :=
  ((framesLeft_passHeader _ p h bad).get f).trans (get_put_ne _ _ _ _ hf)

theorem headerSent_code (s : State) (p : Nat) (h : List Byte) (bad : List Nat) (errs : Nat) :
    (headerSent s p h bad errs).get LNK_ERRCNT1_CODE = min (s.get LNK_ERRCNT1_CODE + errs) 65535 := by
  unfold headerSent
  rw [(framesLeft_passHeader _ p h bad).get, State.bump, get_put_self]
  exact Nat.mod_eq_of_lt (by simp only [LNK_ERRCNT1_CODE]; omega)

theorem headerSent_lnk (s : State) (p : Nat) (h : List Byte) (bad : List Nat) (errs : Nat) :
    (headerSent s p h bad errs).lnk = { s.lnk with tx := (headerSent s p h bad errs).lnk.tx } :=
  (congrArg State.lnk (headerSent_rest s p h bad errs)).symm

/-! ### A header at the processing point -/

/-- The 16 bytes as taken. -/
def headerTaken (bytes : List Byte) (k : List Nat) : List Byte := asTaken ((bytes ++ List.replicate 16 0).take 16) k

theorem headerTaken_whole {bytes : List Byte} (h : bytes.length = 16) : headerTaken bytes [] = bytes := by
  unfold headerTaken asTaken
  rw [List.take_append_of_le_length (by omega), List.take_of_length_le (by omega)]
  rfl

/-- No code error was taken and the check holds. -/
def headerSound (bytes : List Byte) (k : List Nat) : Bool :=
  k.isEmpty && crc8 ((headerTaken bytes k).take 15) == ((headerTaken bytes k).getD 15 0).toNat

/-- What a header that failed its check leaves. -/
def headerFailed (s : State) (p : Nat) : State :=
  ((lk s fun l => { l with frame := l.frame.map fun f => if f.port == p then { f with hdr := some false } else f }).put
    LNK_EVT_CHDRERR 1).bump LNK_ERRCNT0_CHDR 1

/-- What a header with the bytes `l` does at the processing point. -/
def headerEffect (s : State) (p : Nat) (l : List Byte) (sound : Bool) : State :=
  if !sound then headerFailed s p
  else match s.lnk.frame with
    | some f => if f.port == p then headerPassed s l f else s
    | none => s

theorem headerEffect_open {s : State} {f : Frame} {p : Nat} (hf : s.lnk.frame = some f) (hp : f.port = p) (l : List Byte)
    (sound : Bool) : headerEffect s p l sound = if sound then headerPassed s l f else headerFailed s p := by
  unfold headerEffect
  rw [hf]
  cases sound <;> simp [hp]

/-- The places of the header taken as K30.7. -/
abbrev takenBad (s : State) (f : Frame) (errs : List (Nat × Nat)) : List Nat := badPlaces s f.port f.replicated errs

/-- The state once the header has passed on transmitters. -/
def headerGone (s : State) (f : Frame) (bytes : List Byte) (n : Nat) (errs : List (Nat × Nat)) : State :=
  headerSent (advance s n) f.port
    (sentHeader s (headerTaken bytes (takenBad s f errs)) true (headerSound bytes (takenBad s f errs)))
    ((takenBad s f errs).filter fun i => i != 15) errs.length

/-- The open frame, `n` cycles on. -/
def frameLater (f : Frame) (n : Nat) : Frame := { f with n := f.n + n }

section
variable {s : State} {f : Frame} (hcs : s.lnk.csAt = []) (hf : s.lnk.frame = some f)
include hcs hf

theorem advance_frame (n : Nat) : (advance s n).lnk.frame = some (frameLater f n) := by
  rw [advance_calm hcs, lk, hf]
  rfl

theorem headerGone_frame (bytes : List Byte) (n : Nat) (errs : List (Nat × Nat)) :
    (headerGone s f bytes n errs).lnk.frame = some (frameLater f n) := by
  unfold headerGone
  rw [headerSent_lnk]
  exact advance_frame hcs hf n

theorem exec_cycleHeader (hpor : s.por = false) (hhdr : f.hdr = none) (bytes : List Byte) (n : Nat) (errs : List (Nat × Nat)) :
    exec (.cycleHeader bytes n f.port errs) s =
      .next (if headerSound bytes (takenBad s f errs) then
          headerPassed (headerGone s f bytes n errs) (headerTaken bytes (takenBad s f errs)) (frameLater f n)
        else headerFailed (headerGone s f bytes n errs) f.port) := by
  have hframe := advance_frame hcs hf n
  have hwaits : awaitsHeader (advance s n) f.port = some f.replicated := by
    unfold awaitsHeader
    rw [hframe]
    simp [frameLater, hhdr]
  have hopen : ((advance s n).lnk.frame.any fun g => g.port == f.port) = true := by rw [hframe]; simp [frameLater]
  have hbad : badPlaces (advance s n) f.port f.replicated errs = takenBad s f errs := by rw [advance_calm hcs]; rfl
  have hsent : ∀ l pass, sentHeader (advance s n) l true pass = sentHeader s l true pass := by
    intro l pass
    rw [advance_calm hcs]
    rfl
  have hgone := headerGone_frame hcs hf bytes n errs
  refine (live_run s _ hpor).trans (congrArg Host.Outcome.next ?_)
  simp only [hwaits, hbad, hopen, hsent]
  exact headerEffect_open hgone rfl _ _

end

theorem headerGone_get {s : State} (hcs : s.lnk.csAt = []) (f : Frame) (bytes : List Byte) (n : Nat) (errs : List (Nat × Nat))
    {g : Fld} (hg : g.key ≠ LNK_ERRCNT1_CODE.key) : (headerGone s f bytes n errs).get g = s.get g := by
  unfold headerGone
  rw [headerSent_get _ _ _ _ _ hg, advance_calm hcs, lk_get]

theorem headerGone_code {s : State} (hcs : s.lnk.csAt = []) (f : Frame) (bytes : List Byte) (n : Nat) (errs : List (Nat × Nat)) :
    (headerGone s f bytes n errs).get LNK_ERRCNT1_CODE = min (s.get LNK_ERRCNT1_CODE + errs.length) 65535 := by
  unfold headerGone
  rw [headerSent_code, advance_calm hcs, lk_get]

/-- Registers and the engine alone may differ. -/
def OnlyLink (s t : State) : Prop := { s with regs := t.regs, lnk := t.lnk } = t

theorem OnlyLink.trans {s t u : State} (h : OnlyLink s t) (k : OnlyLink t u) : OnlyLink s u := by
  unfold OnlyLink at *
  rw [← k, ← h]

theorem onlyLink_put (s : State) (f : Fld) (v : Nat) : OnlyLink s (s.put f v) := rfl

theorem onlyLink_lk (s : State) (f : Link → Link) : OnlyLink s (lk s f) := rfl

theorem onlyLink_advance {s : State} (hcs : s.lnk.csAt = []) (n : Nat) : OnlyLink s (advance s n) := by
  rw [advance_calm hcs]
  exact onlyLink_lk s _

theorem onlyLink_headerSent (s : State) (p : Nat) (h : List Byte) (bad : List Nat) (errs : Nat) :
    OnlyLink s (headerSent s p h bad errs) := by
  have hsent := headerSent_rest s p h bad errs
  unfold OnlyLink
  rw [← hsent]

section
variable {s : State} (hcs : s.lnk.csAt = []) (f : Frame) (bytes : List Byte) (n : Nat) (errs : List (Nat × Nat))
include hcs

theorem onlyLink_headerGone : OnlyLink s (headerGone s f bytes n errs) := (onlyLink_advance hcs n).trans (onlyLink_headerSent _ _ _ _ _)

theorem sameRegs_headerGone : sameRegs [6] s (headerGone s f bytes n errs) := fun g hg =>
  headerGone_get hcs f bytes n errs fun e => hg (by unfold pageOf; rw [e]; decide)

theorem headerGone_csAt : (headerGone s f bytes n errs).lnk.csAt = [] := by
  unfold headerGone
  rw [headerSent_lnk, advance_calm hcs]
  exact hcs

end

/-- The transmitter that the frame's port feeds sends the header as it leaves. -/
theorem headerGone_hdr {s : State} (hcs : s.lnk.csAt = []) {f : Frame} {q : Nat} {g : TxFrame} (hq : q < 3)
    (hlen : s.lnk.tx.length = 3) (hg : (txAt s q).frame = some g) (hsrc : g.src = f.port) (hhdr : g.hdr = false) (bytes : List Byte)
    (n : Nat) (errs : List (Nat × Nat)) : (txAt (headerGone s f bytes n errs) q).hdr =
      sentHeader s (headerTaken bytes (takenBad s f errs)) true (headerSound bytes (takenBad s f errs)) := by
  refine passHeader_hdr (s := (advance s n).bump LNK_ERRCNT1_CODE errs.length) (g := g) hq ?_ ?_ hsrc hhdr _ _
  · rw [advance_calm hcs]
    exact hlen
  · rw [advance_calm hcs]
    exact hg

/-! ### A header that fails -/

theorem headerFailed_get (s : State) (p : Nat) {f : Fld} (he : f.key ≠ LNK_EVT_CHDRERR.key) (hc : f.key ≠ LNK_ERRCNT0_CHDR.key) :
    (headerFailed s p).get f = s.get f := by
  unfold headerFailed State.bump
  rw [get_put_ne _ _ _ _ hc, get_put_ne _ _ _ _ he, lk_get]

theorem headerFailed_event (s : State) (p : Nat) : (headerFailed s p).get LNK_EVT_CHDRERR = 1 := by
  unfold headerFailed State.bump
  rw [get_put_ne _ _ _ _ (by decide), get_put_self]
  rfl

theorem headerFailed_count (s : State) (p : Nat) :
    (headerFailed s p).get LNK_ERRCNT0_CHDR = min (s.get LNK_ERRCNT0_CHDR + 1) 65535 := by
  unfold headerFailed State.bump
  rw [get_put_self, get_put_ne _ _ _ _ (by decide), lk_get]
  exact Nat.mod_eq_of_lt (by simp only [LNK_ERRCNT0_CHDR]; omega)

theorem headerFailed_frame {s : State} {f : Frame} {p : Nat} (hf : s.lnk.frame = some f) (hp : f.port = p) :
    (headerFailed s p).lnk.frame = some { f with hdr := some false } := by
  have hmap : (headerFailed s p).lnk.frame =
      s.lnk.frame.map fun f => if f.port == p then { f with hdr := some false } else f := rfl
  rw [hmap, hf]
  simp [hp]

theorem sameRegs_headerFailed (s : State) (p : Nat) : sameRegs [6] s (headerFailed s p) :=
  sameRegs_put _ _ (by decide) (sameRegs_put _ _ (by decide) (sameRegs_refl _ s))

theorem onlyLink_headerFailed (s : State) (p : Nat) : OnlyLink s (headerFailed s p) := rfl

/-! ### A header that passes (R225, R226, R236) -/

/-- The cycle number, the cycle and the hop count are set, and the frame's header has passed. -/
def headerSet (s : State) (l : List Byte) (f : Frame) : State :=
  let cyc := (l.getD 14 0).toNat
  (((lk s fun k =>
    { k with frame := some { f with hdr := some true, cyc := if cyc = 0 || 128 < cyc then 128 else cyc }, timeSet := true }).put
      LNK_CYCNO_CYCNO (leNat (l.take 4))).put LNK_CYCINFO_CYC cyc).put LNK_CYCINFO_HOP (leNat ((l.drop 12).take 2) % 4096)

/-- The registers and the frame after a header that passed, before link time is set. -/
def headerNoted (s : State) (l : List Byte) (f : Frame) : State :=
  let t := headerSet s l f
  let w := leNat ((l.drop 12).take 2)
  if !t.on LNK_CFG_POSMODE && bitOf w 12 then (t.put LNK_POS_POS (w % 4096)).put LNK_EVT_LATCH 1 else t

theorem headerNoted_cases (s : State) (l : List Byte) (f : Frame) :
    headerNoted s l f = headerSet s l f ∨
      headerNoted s l f =
        ((headerSet s l f).put LNK_POS_POS (leNat ((l.drop 12).take 2) % 4096)).put LNK_EVT_LATCH 1 := by
  unfold headerNoted
  dsimp only
  split
  · exact .inr rfl
  · exact .inl rfl

/-- The time that a passed header sets (R236). -/
def headerTime (s : State) (l : List Byte) (f : Frame) : Nat :=
  (leNat ((l.drop 4).take 8) + s.get LNK_PDELAY_DELAY + 20 * f.n) % 2 ^ 64

/-- The fields that a passed header writes. -/
def headerKeys : List Nat :=
  [LNK_CYCNO_CYCNO.key, LNK_CYCINFO_CYC.key, LNK_CYCINFO_HOP.key, LNK_POS_POS.key, LNK_EVT_LATCH.key]

theorem headerSet_get (s : State) (l : List Byte) (f : Frame) {g : Fld} (hg : g.key ∉ headerKeys) :
    (headerSet s l f).get g = s.get g := by
  simp only [headerKeys, List.mem_cons, List.not_mem_nil, or_false, not_or] at hg
  obtain ⟨hno, hcyc, hhop, -, -⟩ := hg
  unfold headerSet
  rw [get_put_ne _ _ _ _ hhop, get_put_ne _ _ _ _ hcyc, get_put_ne _ _ _ _ hno, lk_get]

theorem headerNoted_get_set (s : State) (l : List Byte) (f : Frame) {g : Fld} (hpos : g.key ≠ LNK_POS_POS.key)
    (hlatch : g.key ≠ LNK_EVT_LATCH.key) : (headerNoted s l f).get g = (headerSet s l f).get g := by
  rcases headerNoted_cases s l f with h | h <;> rw [h]
  rw [get_put_ne _ _ _ _ hlatch, get_put_ne _ _ _ _ hpos]

theorem headerNoted_get (s : State) (l : List Byte) (f : Frame) {g : Fld} (hg : g.key ∉ headerKeys) :
    (headerNoted s l f).get g = s.get g := by
  have hkeys := hg
  simp only [headerKeys, List.mem_cons, List.not_mem_nil, or_false, not_or] at hkeys
  obtain ⟨-, -, -, hpos, hlatch⟩ := hkeys
  rw [headerNoted_get_set s l f hpos hlatch, headerSet_get s l f hg]

theorem headerNoted_lnk (s : State) (l : List Byte) (f : Frame) : (headerNoted s l f).lnk =
    { s.lnk with
      frame := some { f with
        hdr := some true, cyc := if (l.getD 14 0).toNat = 0 || 128 < (l.getD 14 0).toNat then 128 else (l.getD 14 0).toNat }
      timeSet := true } := by
  rcases headerNoted_cases s l f with h | h <;> rw [h] <;> rfl

theorem onlyLink_headerNoted (s : State) (l : List Byte) (f : Frame) : OnlyLink s (headerNoted s l f) := by
  rcases headerNoted_cases s l f with h | h <;> rw [h] <;> rfl

theorem sameRegs_headerNoted (s : State) (l : List Byte) (f : Frame) : sameRegs [6] s (headerNoted s l f) := fun g hg =>
  headerNoted_get s l f fun hk => hg (by
    simp only [headerKeys, List.mem_cons, List.not_mem_nil, or_false] at hk
    have hpage : pageOf g = 6 := by
      unfold pageOf
      rcases hk with hk | hk | hk | hk | hk <;> rw [hk] <;> rfl
    simp [hpage])

theorem headerNoted_cycno (s : State) (l : List Byte) (f : Frame) : (headerNoted s l f).get LNK_CYCNO_CYCNO = leNat (l.take 4) := by
  have hlt := leNat_lt (l.take 4)
  have hlen := Nat.pow_le_pow_right (n := 256) (by decide) (List.length_take_le 4 l)
  rw [headerNoted_get_set s l f (by decide) (by decide), headerSet, get_put_ne _ _ _ _ (by decide), get_put_ne _ _ _ _ (by decide),
    get_put_self]
  exact Nat.mod_eq_of_lt (hlt.trans_le hlen)

theorem headerNoted_cyc (s : State) (l : List Byte) (f : Frame) : (headerNoted s l f).get LNK_CYCINFO_CYC = (l.getD 14 0).toNat := by
  rw [headerNoted_get_set s l f (by decide) (by decide), headerSet, get_put_ne _ _ _ _ (by decide), get_put_self]
  exact Nat.mod_eq_of_lt (BitVec.isLt _)

theorem headerNoted_hop (s : State) (l : List Byte) (f : Frame) :
    (headerNoted s l f).get LNK_CYCINFO_HOP = leNat ((l.drop 12).take 2) % 4096 := by
  rw [headerNoted_get_set s l f (by decide) (by decide), headerSet, get_put_self]
  exact Nat.mod_mod _ _

/-- The header latches the position where it asks for it and POSMODE is 0 (R226). -/
theorem headerNoted_latch {s : State} {l : List Byte} (hmode : s.on LNK_CFG_POSMODE = false)
    (hask : bitOf (leNat ((l.drop 12).take 2)) 12 = true) (f : Frame) :
    (headerNoted s l f).get LNK_POS_POS = leNat ((l.drop 12).take 2) % 4096 ∧ (headerNoted s l f).get LNK_EVT_LATCH = 1 := by
  have hset : (headerSet s l f).on LNK_CFG_POSMODE = false := by
    rw [← hmode, State.on, headerSet_get s l f (by decide)]
    rfl
  unfold headerNoted
  dsimp only
  rw [if_pos (by rw [hset, hask]; rfl)]
  refine ⟨?_, by rw [get_put_self]; rfl⟩
  rw [get_put_ne _ _ _ _ (by decide), get_put_self]
  exact Nat.mod_mod _ _

/-- A cycle-start takes effect, is late or waits: nothing else changes. -/
structure CycleStarted (s t : State) : Prop where
  rest : { s with
    regs := t.regs, lnk := { s.lnk with csAt := t.lnk.csAt }, evHeld := t.evHeld, evCap := t.evCap, evWin := t.evWin, free := t.free }
    = t
  get : ∀ f : Fld, f.key ≠ LNK_EVT_CSLATE.key → t.get f = s.get f

theorem cycleStarted (s : State) (tstamp : Nat) : CycleStarted s (cycleStart s tstamp) := by
  have hev := onlyFabric_yieldEv s (p := 0) (by decide)
  have hnow : CycleStarted s (yieldEv s 0) := by
    refine ⟨?_, fun f _ => hev.get f⟩
    unfold OnlyFabric at hev
    rw [← hev]
  unfold cycleStart
  dsimp only
  split
  · exact hnow
  · split
    · refine ⟨?_, fun f hf => (get_put_ne _ _ _ _ hf).trans (hnow.get f hf)⟩
      have hrest := hnow.rest
      revert hrest
      generalize yieldEv s 0 = t
      intro hrest
      rw [← hrest]
      rfl
    · split
      · exact hnow
      · exact ⟨rfl, fun _ _ => rfl⟩

theorem fireDue_calm {s : State} (h : s.lnk.csAt = []) (n : Nat) : fireDue s n = s := by
  have hlnk : { s.lnk with csAt := [] } = s.lnk := by rw [← h]
  simp only [fireDue, h, lk, List.filter_nil, List.foldl_nil, hlnk]

theorem headerPassed_eq {s : State} (hcs : s.lnk.csAt = []) (l : List Byte) (f : Frame) :
    headerPassed s l f = cycleStart (lk (headerNoted s l f) fun k => { k with time := headerTime s l f })
      (leNat ((l.drop 4).take 8)) := by
  have htime : (leNat ((l.drop 4).take 8) + (headerNoted s l f).get LNK_PDELAY_DELAY + 20 * f.n) % 2 ^ 64 = headerTime s l f := by
    rw [headerNoted_get s l f (by decide), headerTime]
  have hcalm : (lk (headerNoted s l f) fun k => { k with time := headerTime s l f }).lnk.csAt = [] := by
    rw [lk, headerNoted_lnk]
    exact hcs
  rw [← fireDue_calm hcalm 0, ← htime]
  rfl

end Sys2Proof.Machine.BolinaLink
end

section
/-! The loss of the port that feeds the processing point with its frame open (R217 to R219, R227, R237). -/

namespace Sys2Proof.Machine.BolinaLink

open Sys2Proof Sys2Proof.Machine Sys2Proof.Machine.PowerStates Sys2Proof.Machine.InstructionSet

/-- A port that is out of the route feeds no transmitter and not the processing point. -/
theorem srcOf_ne {s : State} {p : Nat} (h : inRoute s p = false) (q : Nat) : srcOf s q ≠ some p := by
  intro hsrc
  have hroute : inRoute s p = true := by
    unfold srcOf at hsrc
    split at hsrc
    · exact List.find?_some hsrc
    · exact absurd hsrc (by simp)
  rw [h] at hroute
  exact absurd hroute (by decide)

theorem feedPort_ne {s : State} {p : Nat} (h : inRoute s p = false) : feedPort s ≠ some p := fun hfeed => by
  rw [inRoute_of_feedPort hfeed] at h
  exact absurd h (by decide)

theorem inRoute_down {s : State} {p : Nat} (h : s.get (portFld p) = 0) : inRoute s p = false := by simp [inRoute, portUp, h]

theorem portUp_of_inRoute {s : State} {p : Nat} (h : inRoute s p = true) : portUp s p = true := by
  unfold inRoute at h
  simp only [Bool.and_eq_true] at h
  exact h.1.1

/-- A transmitter that sends no frame sends none after the route has changed. -/
theorem reroute_free {s : State} {q : Nat} (hq : q < 3) (h : (txAt s q).frame = none) : (txAt (reroute s) q).frame = none := by
  obtain ⟨u, -, hsame, hend, -⟩ :=
    txAt_walk FramesCut.refl FramesCut.trans framesCut_rerouteTx rerouteTx_other (rerouteProc s) hq
  have hframe : (txAt u q).frame = none := by
    rw [hsame]
    unfold txAt
    rw [rerouteProc_tx]
    exact h
  have hidle : rerouteTx u q = u := by
    unfold rerouteTx
    rw [hframe]
  rw [reroute_eq, hend, hidle]
  exact hframe

/-- From `s` to `w` port `p`, which received the open frame, has lost one of its lanes at most: its frame is open as before, or has
ended, at the processing point and on each transmitter in the route. -/
structure LaneGone (s w : State) (p : Nat) : Prop where
  rest : { s with regs := w.regs, lnk := w.lnk, cmd := w.cmd } = w
  regs : sameRegs [6] s w
  length : w.lnk.tx.length = s.lnk.tx.length
  joined : w.lnk.joined = s.lnk.joined
  port : ∀ q < 3, q ≠ p → w.get (portFld q) = s.get (portFld q)
  up : w.get (portFld p) ≠ 0
  proc : w.lnk.frame = s.lnk.frame ∨ (w.lnk.frame = none ∧ w.cmd.capture = [] ∧ w.get LNK_EVT_NOEND = 1)
  sent : ∀ q < 3, q ≠ p → portUp s q = true → (txAt s q).frame.any (fun g => g.src == p) = true →
    txAt w q = txAt s q ∨ ((txAt w q).frame = none ∧ w.get LNK_EVT_CUT = 1)

theorem LaneGone.refl {s : State} {p : Nat} (h : s.get (portFld p) ≠ 0) : LaneGone s s p :=
  ⟨rfl, sameRegs_refl _ s, rfl, rfl, fun _ _ _ => rfl, h, .inl rfl, fun _ _ _ _ _ => .inl rfl⟩

/-- The route changes so that port `p` leaves it, after changes of registers of the engine alone: every frame from it ends. -/
theorem laneGone_reroute {s u : State} {p : Nat} {f : Frame} (hf : s.lnk.frame = some f) (hp : f.port = p)
    (hlen : s.lnk.tx.length = 3) (hrest : { s with regs := u.regs, lnk := { s.lnk with narrow := u.lnk.narrow } } = u)
    (hregs : sameRegs [6] s u) (hport : ∀ q < 3, q ≠ p → u.get (portFld q) = s.get (portFld q)) (hup : u.get (portFld p) ≠ 0)
    (hout : inRoute u p = false) : LaneGone s (reroute u) p := by
  have hlnk : u.lnk = { s.lnk with narrow := u.lnk.narrow } := (congrArg State.lnk hrest).symm
  have hcut := framesCut_reroute u
  have hframe : u.lnk.frame = some f := by rw [hlnk]; exact hf
  have hlen' : u.lnk.tx.length = 3 := by rw [hlnk]; exact hlen
  refine ⟨?_, sameRegs_trans hregs hcut.sameRegs, ?_, ?_, fun q hq hne => (hcut.sameRoute.port q).trans (hport q hq hne), ?_, ?_, ?_⟩
  · rw [← hcut.rest, ← hrest]
  · rw [hcut.length, hlen', hlen]
  · rw [hcut.sameRoute.joined, hlnk]
  · rw [hcut.sameRoute.port]
    exact hup
  · exact .inr (reroute_closes hframe (by rw [hp]; exact feedPort_ne hout))
  · intro q hq hne hupq hany
    obtain ⟨g, hg, hsrc⟩ := (Option.any_eq_true _ _).mp hany
    have htx : txAt u q = txAt s q := by unfold txAt; rw [hlnk]
    have hupq' : portUp u q = true := by unfold portUp; rw [hport q hq hne]; exact hupq
    have hlost : srcOf u q ≠ some g.src := by
      rw [beq_iff_eq.mp hsrc]
      exact srcOf_ne hout q
    obtain ⟨hnone, -, hevent⟩ := reroute_cuts hq hlen' (by rw [htx, hg]) hupq' hlost
    exact .inr ⟨hnone, hevent⟩

/-- The first of two lanes is lost. -/
theorem laneGone_first {s : State} {p : Nat} {f : Frame} (hf : s.lnk.frame = some f) (hp : f.port = p) (hp3 : p < 3)
    (hlen : s.lnk.tx.length = 3) (hup : s.get (portFld p) ≠ 0) (hlanes : s.get (laneFld p) = 3) :
    LaneGone s (laneLost s p 0) p ∧ (laneLost s p 0).get (laneFld p) = 2 := by
  have hlane : (laneCleared s p 0).get (laneFld p) = 2 := by rw [laneCleared_lane, hlanes]; rfl
  have hclear : LaneGone s (laneCleared s p 0) p :=
    ⟨rfl, sameRegs_laneCleared s p 0, rfl, rfl, fun q _ _ => laneCleared_port s p 0 q, by rwa [laneCleared_port], .inl rfl,
      fun _ _ _ _ _ => .inl rfl⟩
  have hnarrower : ∀ q < 3, q ≠ p → ((laneCleared s p 0).put (portFld p) 2).get (portFld q) = s.get (portFld q) := by
    intro q hq hne
    rw [get_put_ne _ _ _ _ (portFld_inj hp3 hq hne), laneCleared_port]
  have hregs : sameRegs [6] s ((laneCleared s p 0).put (portFld p) 2) := sameRegs_put _ _ (by simp) (sameRegs_laneCleared s p 0)
  have htwo : ((laneCleared s p 0).put (portFld p) 2).get (portFld p) = 2 := by rw [get_put_self, portFld_w]; rfl
  have hlane' : ((laneCleared s p 0).put (portFld p) 2).get (laneFld p) = 2 := by
    rw [get_put_port _ _ _ (laneFld_notMem (by decide) p), hlane]
  by_cases hthree : s.get (portFld p) = 3
  · by_cases hstriped : stripedOn s p = []
    · have hlost := laneLost_unstriped (s := s) (p := p) (l := 0) (by rw [hlanes]; rfl) (by decide) (by rw [hlanes]; decide)
        (by omega) hstriped
      rw [if_pos hthree] at hlost
      rw [hlost]
      exact ⟨⟨rfl, hregs, rfl, rfl, hnarrower, by rw [htwo]; decide, .inl rfl, fun _ _ _ _ _ => .inl rfl⟩, hlane'⟩
    · rw [laneLost_striped hlanes (by decide) hthree hstriped, narrowFor_eq]
      refine ⟨laneGone_reroute hf hp hlen rfl hregs hnarrower (by rw [lk_get, htwo]; decide) (inRoute_narrowed ?_), ?_⟩
      · obtain ⟨r, hr⟩ := List.exists_mem_of_ne_nil _ hstriped
        simp only [lk, List.any_append, List.any_map, Bool.or_eq_true, List.any_eq_true]
        exact .inl ⟨r, hr, by simp⟩
      · rw [(framesCut_reroute _).get _ (laneFld_notMem (by decide) p), lk_get, hlane']
  · have hlost : laneLost s p 0 = laneCleared s p 0 := by
      have hleft : ¬(laneCleared s p 0).get (laneFld p) = 0 := by rw [hlane]; decide
      rw [laneLost_locked (by rw [hlanes]; rfl)]
      simp only [laneCleared_port, if_neg hup, if_neg hleft, if_neg hthree]
    rw [hlost]
    exact ⟨hclear, hlane⟩

/-- The loss of both lanes is the loss of the port, after that of the first lane at most. -/
theorem lanesLost {s : State} {p : Nat} {f : Frame} (hf : s.lnk.frame = some f) (hp : f.port = p) (hp3 : p < 3)
    (hlen : s.lnk.tx.length = 3) (hup : s.get (portFld p) ≠ 0) (hlocked : s.get (laneFld p) ≠ 0) (hlanes : s.get (laneFld p) < 4) :
    ∃ w l, LaneGone s w p ∧ laneLost (laneLost s p 0) p 1 = portDown (laneCleared w p l) p := by
  obtain hone | htwo | hthree : s.get (laneFld p) = 1 ∨ s.get (laneFld p) = 2 ∨ s.get (laneFld p) = 3 := by omega
  · have hfalls : laneLost s p 0 = portDown (laneCleared s p 0) p := laneLost_last hone hup
    have hdown := portLost_portDown (laneCleared s p 0) p
    have hlane : (portDown (laneCleared s p 0) p).get (laneFld p) = 0 := by
      rw [hdown.get _ (laneFld_notMem (by decide) p) (laneFld_ne (by decide) p) (laneFld_ne (by decide) p),
        bypassed_get _ _ (laneFld_notMem (by decide) p), laneCleared_lane, hone]
      rfl
    exact ⟨s, 0, .refl hup, by rw [hfalls, laneLost_unlocked (by rw [hlane]; rfl)]⟩
  · have hkept : laneLost s p 0 = s := laneLost_unlocked (by rw [htwo]; rfl)
    exact ⟨s, 1, .refl hup, by rw [hkept]; exact laneLost_last htwo hup⟩
  · obtain ⟨hgone, hlane⟩ := laneGone_first hf hp hp3 hlen hup hthree
    exact ⟨_, 1, hgone, laneLost_last hlane hgone.up⟩

/-- What the loss of the port leaves of its frame. -/
structure FrameLost (s t : State) (p : Nat) : Prop where
  frame : t.lnk.frame = none
  capture : t.cmd.capture = []
  port : t.get (portFld p) = 0
  lanedn : t.get LNK_EVT_LANEDN = 1
  portdn : t.get LNK_EVT_PORTDN = 1
  noend : t.get LNK_EVT_NOEND = 1
  joined : t.lnk.joined.contains p = false
  cut : ∀ q < 3, q ≠ p → portUp s q = true → (txAt s q).frame.any (fun g => g.src == p) = true →
    (txAt t q).frame = none ∧ t.get LNK_EVT_CUT = 1
  rest : { s with regs := t.regs, lnk := t.lnk, cmd := t.cmd, evHeld := t.evHeld, evCap := t.evCap, evWin := t.evWin, free := t.free }
    = t
  regs : sameRegs [6] s t

theorem frameLost_portDown {s w : State} {p : Nat} {f : Frame} (hf : s.lnk.frame = some f) (hp : f.port = p) (hp3 : p < 3)
    (hlen : s.lnk.tx.length = 3) (h : LaneGone s w p) (l : Nat) : FrameLost s (portDown (laneCleared w p l) p) p := by
  have hdown := portLost_portDown (laneCleared w p l) p
  have hcut := framesCut_reroute (bypassed (laneCleared w p l) p)
  have hout : inRoute (bypassed (laneCleared w p l) p) p = false := inRoute_down (bypassed_port _ p)
  have hget : ∀ g : Fld, g.key ∉ portKeys → g.key ∉ laneKeys → g.key ≠ LNK_EVT_LANEDN.key →
      (bypassed (laneCleared w p l) p).get g = w.get g := fun g hport hlane hevent => by
    rw [bypassed_get _ _ hport, laneCleared_get _ _ _ hlane hevent]
  have hproc : (reroute (bypassed (laneCleared w p l) p)).lnk.frame = none ∧
      (reroute (bypassed (laneCleared w p l) p)).cmd.capture = [] ∧
      (reroute (bypassed (laneCleared w p l) p)).get LNK_EVT_NOEND = 1 := by
    rcases h.proc with hopen | ⟨hframe, hcapture, hevent⟩
    · exact reroute_closes (f := f) (hopen.trans hf) (by rw [hp]; exact feedPort_ne hout)
    · refine ⟨hcut.closed hframe, hcut.discarded hcapture, hcut.noend ?_⟩
      rw [hget _ (by decide) (by decide) (by decide), hevent]
  obtain ⟨hframe, hcapture, hnoend⟩ := hproc
  refine ⟨hdown.frame.trans hframe, by rw [hdown.cmd, hcapture], ?_, ?_, hdown.portdn, hdown.noend hnoend,
    by rw [hdown.joined]; simp, ?_, ?_, ?_⟩
  · rw [hdown.get _ (portFld_notMem (by decide) p) (portFld_ne (by decide) p) (portFld_ne (by decide) p), bypassed_port]
  · rw [hdown.get _ (by decide) (by decide) (by decide), bypassed_get _ _ (by decide), laneCleared_lanedn]
  · intro q hq hne hupq hany
    have htx : txAt (portDown (laneCleared w p l) p) q = txAt (reroute (bypassed (laneCleared w p l) p)) q := by
      unfold txAt
      rw [hdown.tx]
    rw [htx]
    rcases h.sent q hq hne hupq hany with hopen | ⟨hnone, hevent⟩
    · obtain ⟨g, hg, hsrc⟩ := (Option.any_eq_true _ _).mp hany
      have hport : (bypassed (laneCleared w p l) p).get (portFld q) = s.get (portFld q) := by
        rw [bypassed, lk_get, get_put_ne _ _ _ _ (portFld_inj hp3 hq hne), laneCleared_port, h.port q hq hne]
      have hupq' : portUp (bypassed (laneCleared w p l) p) q = true := by unfold portUp; rw [hport]; exact hupq
      obtain ⟨hnone, -, hevent⟩ := reroute_cuts (f := g) (s := bypassed (laneCleared w p l) p) hq (h.length.trans hlen)
        (hopen ▸ hg) hupq' (by rw [beq_iff_eq.mp hsrc]; exact srcOf_ne hout q)
      exact ⟨hnone, hdown.cut hevent⟩
    · refine ⟨reroute_free hq hnone, hdown.cut (hcut.cut ?_)⟩
      rw [hget _ (by decide) (by decide) (by decide), hevent]
  · have hclear : { w with regs := (laneCleared w p l).regs } = laneCleared w p l := rfl
    rw [← hdown.rest, ← hclear, ← h.rest]
  · exact sameRegs_trans (sameRegs_trans h.regs (sameRegs_laneCleared w p l)) hdown.regs

end Sys2Proof.Machine.BolinaLink
end

section
/-! The obligation on frames (R212, R218, R223 to R227, R236, R237, R254, R261, R472). -/

namespace Sys2Proof.Machine.BolinaLink

open Sys2Proof Sys2Proof.Machine Sys2Proof.Machine.PowerStates Sys2Proof.Machine.InstructionSet

theorem exec_portDown {s : State} (hpor : s.por = false) (p : Nat) :
    exec (.frameEndUnclean .portDown p) s = .next (laneLost (laneLost s p 0) p 1) := live_run s _ hpor

/-- Link time reaches the one cycle-start that waits. -/
theorem advance_due {s : State} {a n : Nat} (hcs : s.lnk.csAt = [a]) (ha : a ≤ s.lnk.time + 20 * n) :
    advance s n = lk (yieldEv (lk s fun l => { l with csAt := [], time := s.lnk.time + 20 * ((a - s.lnk.time + 19) / 20) }) 0)
      fun l => { l with time := (s.lnk.time + 20 * n) % 2 ^ 64, frame := l.frame.map fun f => { f with n := f.n + n } } := by
  simp [advance, fireDue, hcs, ha, lk]

theorem exec_frameMissed {s : State} (hpor : s.por = false) (hup : s.get LNK_STAT_STATE = 3) (hany : s.lnk.anyFrame = true)
    (hnew : s.lnk.missed = false) :
    exec .frameMissed s = .next ((lk s fun l => { l with missed := true }).put LNK_EVT_MISSED 1) := by
  refine (live_run s _ hpor).trans (congrArg Host.Outcome.next (if_pos ?_))
  rw [hup, hany, hnew]
  rfl

theorem takenBad_nil (s : State) (f : Frame) : takenBad s f [] = [] := rfl

theorem headerSound_whole {bytes : List Byte} (hlen : bytes.length = 16) :
    headerSound bytes [] = (crc8 (bytes.take 15) == (bytes.getD 15 0).toNat) := by
  unfold headerSound
  rw [headerTaken_whole hlen]
  rfl

theorem CycleStarted.lnk {s t : State} (h : CycleStarted s t) : t.lnk = { s.lnk with csAt := t.lnk.csAt } :=
  (congrArg State.lnk h.rest).symm

/-- What a header that passed leaves. -/
structure HeaderActed (s t : State) (l : List Byte) (f : Frame) : Prop where
  hdr : t.lnk.frame.map (fun f => f.hdr) = some (some true)
  set : t.lnk.timeSet = true
  time : t.lnk.time = headerTime s l f
  tx : t.lnk.tx = s.lnk.tx
  get : ∀ g : Fld, g.key ≠ LNK_EVT_CSLATE.key → t.get g = (headerNoted s l f).get g
  rest : { s with regs := t.regs, lnk := t.lnk, evHeld := t.evHeld, evCap := t.evCap, evWin := t.evWin, free := t.free } = t
  regs : sameRegs [6] s t

theorem headerActed {s : State} (hcs : s.lnk.csAt = []) (l : List Byte) (f : Frame) : HeaderActed s (headerPassed s l f) l f := by
  have hnoted := onlyLink_headerNoted s l f
  have hstart := cycleStarted (lk (headerNoted s l f) fun k => { k with time := headerTime s l f }) (leNat ((l.drop 4).take 8))
  have hlnk := hstart.lnk
  have hget : ∀ g : Fld, g.key ≠ LNK_EVT_CSLATE.key → _ = (headerNoted s l f).get g := hstart.get
  have hbefore : (lk (headerNoted s l f) fun k => { k with time := headerTime s l f }).lnk =
      { (headerNoted s l f).lnk with time := headerTime s l f } := rfl
  rw [hbefore, headerNoted_lnk] at hlnk
  rw [headerPassed_eq hcs]
  refine ⟨?_, ?_, ?_, ?_, hget, ?_, fun g hg => ?_⟩
  · rw [hlnk]
    rfl
  · rw [hlnk]
  · rw [hlnk]
  · rw [hlnk]
  · rw [← hstart.rest, ← hnoted]
    rfl
  · rw [hget g fun e => hg (by unfold pageOf; rw [e]; decide), sameRegs_headerNoted s l f g hg]

theorem onlyLink_fabric {s t u : State} (h : OnlyLink s t)
    (k : { t with regs := u.regs, lnk := u.lnk, evHeld := u.evHeld, evCap := u.evCap, evWin := u.evWin, free := u.free } = u) :
    { s with regs := u.regs, lnk := u.lnk, evHeld := u.evHeld, evCap := u.evCap, evWin := u.evWin, free := u.free } = u := by
  unfold OnlyLink at h
  rw [← k, ← h]

/-! ### Tables that flip with the START -/

theorem sameRegs_widen {l m : List Nat} {s t : State} (h : sameRegs l s t) (hlm : l ⊆ m) : sameRegs m s t := fun f hf =>
  h f fun hl => hf (hlm hl)

/-- A table's words are in the page of the tables. -/
theorem pageOf_table {f : Fld} {k : Nat} (hk : k < 16) (hlow : 0x40007100 + 16 * k ≤ f.addr) (hhigh : f.addr < 0x40007110 + 16 * k)
    (hlo : f.lo < 32) : pageOf f = 7 := by
  unfold pageOf Fld.key
  omega

/-- Every pending table has flipped. -/
structure TablesFlipped (s t : State) : Prop where
  pend : t.get TBL_CMTSTAT_PEND = 0
  event : t.get TBL_EVT_FLIP = 1
  live : ∀ k, k < 16 → t.bit TBL_LIVE_LIVE k = (s.bit TBL_LIVE_LIVE k ^^ s.bit TBL_CMTSTAT_PEND k)
  ready : ∀ k, k < 16 → s.bit TBL_CMTSTAT_PEND k = true → t.bit TBL_READY_READY k = true
  copied : ∀ k, k < 16 → s.bit TBL_CMTSTAT_PEND k = true → ∀ c ∈ flipCopies k, t.get c.1 = s.get c.2 % 2 ^ c.1.w
  gen : ∀ k, k < 16 → s.bit TBL_CMTSTAT_PEND k = true → t.get (TBL_LDESC1_GEN k) = nextGen s k % 2 ^ 16

theorem liveKeys_ne_event {k : Nat} {f : Fld} (hf : f.key ∈ liveKeys k) : f.key ≠ TBL_EVT_FLIP.key := by
  rw [liveKeys_eq] at hf
  simp only [List.mem_cons, List.not_mem_nil, or_false] at hf
  have hevent : TBL_EVT_FLIP.key = 0x40007014 * 32 := rfl
  omega

theorem tablesFlipped {s : State} (hpend : s.get TBL_CMTSTAT_PEND ≠ 0) (hbound : s.get TBL_CMTSTAT_PEND < 2 ^ 16) :
    TablesFlipped s (Machine.flip s (s.get TBL_CMTSTAT_PEND)) where
  pend := (flip_get hpend s (by decide)).trans (flips_all hbound)
  event := flip_event hpend s
  live k hk := by
    rw [State.bit, flip_get hpend s (by decide), ← State.bit, flips_live hk]
    simp [hk, State.bit]
  ready k hk hbit := by
    rw [State.bit, flip_get hpend s (by decide)]
    exact flips_ready hk (Nat.le_refl 16) hbit s
  copied k hk hbit c hc := by
    have hkey : c.1.key ∈ liveKeys k := List.mem_append_left _ (List.mem_map_of_mem (f := fun c : Fld × Fld => c.1.key) hc)
    rw [flip_get hpend s (liveKeys_ne_event hkey)]
    exact flips_copied hk (Nat.le_refl 16) hbit s hc
  gen k hk hbit := by
    have hkey : (TBL_LDESC1_GEN k).key ∈ liveKeys k := List.mem_append_right _ (List.mem_singleton.mpr rfl)
    rw [flip_get hpend s (liveKeys_ne_event hkey)]
    exact flips_gen hk (Nat.le_refl 16) hbit s

/-- Seen from a state with the same tables. -/
theorem TablesFlipped.of_sameRegs {s u t : State} (h : TablesFlipped u t) (hregs : sameRegs [6] s u) : TablesFlipped s t := by
  have hbit : ∀ (f : Fld) k, pageOf f = 7 → u.bit f k = s.bit f k := by
    intro f k hf
    unfold State.bit
    rw [hregs f (by rw [hf]; decide)]
  have hpend : ∀ k, u.bit TBL_CMTSTAT_PEND k = s.bit TBL_CMTSTAT_PEND k := fun k => hbit _ k (by decide)
  refine ⟨h.pend, h.event, fun k hk => ?_, fun k hk hb => ?_, fun k hk hb c hc => ?_, fun k hk hb => ?_⟩
  · rw [h.live k hk, hpend, hbit _ k (by decide)]
  · exact h.ready k hk ((hpend k).trans hb)
  · obtain ⟨hlow, hhigh, hlo⟩ := shadow_key hc
    rw [h.copied k hk ((hpend k).trans hb) c hc, hregs c.2 (by rw [pageOf_table hk hlow (by omega) hlo]; decide)]
  · have hgen : u.get (TBL_LDESC1_GEN k) = s.get (TBL_LDESC1_GEN k) :=
      hregs _ (by rw [pageOf_table hk (by simp only [TBL_LDESC1_GEN]; omega)
        (by simp only [TBL_LDESC1_GEN]; omega)        (by simp only [TBL_LDESC1_GEN]; omega)]; decide)
    rw [h.gen k hk ((hpend k).trans hb)]
    unfold nextGen
    rw [hgen]

/-- The step of the generation in the statement's words. -/
theorem nextGen_mod (s : State) (k : Nat) : nextGen s k % 2 ^ 16 =
    if s.get (TBL_LDESC1_GEN k) = 0xFFFF then 1 else (s.get (TBL_LDESC1_GEN k) + 1) % 65536 := by
  unfold nextGen
  split <;> rfl

theorem flip_lnk {m : Nat} (h : m ≠ 0) (s : State) : (Machine.flip s m).lnk = s.lnk := (congrArg State.lnk (flip_rest h s)).symm

theorem flip_cmd {m : Nat} (h : m ≠ 0) (s : State) : (Machine.flip s m).cmd = s.cmd := (congrArg State.cmd (flip_rest h s)).symm

/-- The flip of tables leaves the frame that has started. -/
theorem FrameStarted.flip {s u : State} {p : Nat} {r : Bool} {n m : Nat} (h : FrameStarted s u p r n) (hm : m ≠ 0) :
    FrameStarted s (Machine.flip u m) p r n := by
  have hlnk := flip_lnk hm u
  have hcmd := flip_cmd hm u
  refine ⟨by rw [hlnk, h.frame], fun q hq hsrc => ?_, (sameRegs_flip hm u LNK_STAT_MODE (by decide)).trans h.mode,
    by rw [hlnk, h.pos], by rw [hlnk, h.missed], by rw [hlnk, h.any], by rw [hlnk, h.time], by rw [hcmd, h.reset],
    by rw [hcmd, h.landing], by rw [hcmd, h.waitFlip]⟩
  have hopen := h.tx q hq hsrc
  unfold txAt at hopen ⊢
  rwa [hlnk]

theorem OnlyFrames.flip {s u : State} (h : OnlyFrames s u) {m : Nat} (hm : m ≠ 0) :
    { s with
      regs := (Machine.flip u m).regs, lnk := (Machine.flip u m).lnk, cmd := (Machine.flip u m).cmd, sec := (Machine.flip u m).sec
      evHeld := (Machine.flip u m).evHeld, evCap := (Machine.flip u m).evCap, evWin := (Machine.flip u m).evWin
      free := (Machine.flip u m).free } = Machine.flip u m := by
  have hflip := flip_rest hm u
  revert hflip
  generalize Machine.flip u m = t
  intro hflip
  unfold OnlyFrames at h
  rw [← hflip, ← h]

theorem opened_quiet_cmd {s : State} (hcs : s.lnk.csAt = []) (hframe : s.lnk.frame = none) (p : Nat) (r : Bool) (n : Nat) :
    (opened (cleared (begun s n 0) p r) p r).cmd = s.cmd := by
  rw [opened_cmd, cleared_cmd, procEnded_closed (begun_frame hcs hframe n 0), begun_cmd hcs]

/-- The START of a quiet port whose tables flip with it. -/
theorem exec_frameStart_flips {s : State} {p : Nat} {r : Bool} (hpor : s.por = false) (hcs : s.lnk.csAt = [])
    (hquiet : s.linkQuiet = true) (h : FeedsProc s p r) (hland : s.cmd.landing = []) (n : Nat) :
    exec (.frameStart p r n) s = .next (Machine.flip (started s p r n) (s.get TBL_CMTSTAT_PEND)) := by
  obtain ⟨hframe, -, -, hnarrow⟩ := (linkQuiet_iff s).mp hquiet
  rw [exec_frameStart_opens hpor hcs hnarrow h n, frameStarts_flips (by rw [opened_quiet_cmd hcs hframe]; exact hland),
    opened_pend hcs, started]

/-- The START of a quiet port while captures land: the tables' flip waits. -/
theorem exec_frameStart_waits {s : State} {p : Nat} {r : Bool} (hpor : s.por = false) (hcs : s.lnk.csAt = [])
    (hquiet : s.linkQuiet = true) (h : FeedsProc s p r) (hland : s.cmd.landing ≠ []) (n : Nat) :
    exec (.frameStart p r n) s = .next { started s p r n with
      cmd := { (started s p r n).cmd with waitFlip := s.cmd.waitFlip ||| s.get TBL_CMTSTAT_PEND } } := by
  obtain ⟨hframe, -, -, hnarrow⟩ := (linkQuiet_iff s).mp hquiet
  have hcmd := opened_quiet_cmd hcs hframe p r n
  rw [exec_frameStart_opens hpor hcs hnarrow h n, frameStarts_waits (by rw [hcmd]; exact hland), opened_pend hcs, hcmd]
  rfl

theorem OnlyFrames.cmd {s u : State} (h : OnlyFrames s u) (c : Cmds) : OnlyFrames s { u with cmd := c } := by
  unfold OnlyFrames at *
  rw [← h]

/-- Port `p` is treated as DOWN for the striped frame it receives. -/
def narrowed (s : State) (p : Nat) : State := lk s fun l => { l with narrow := ⟨p, p, false⟩ :: l.narrow }

theorem narrowed_frame (s : State) (p : Nat) : (narrowed s p).lnk.frame = s.lnk.frame := rfl

theorem narrowed_narrow (s : State) (p : Nat) : (narrowed s p).lnk.narrow = ⟨p, p, false⟩ :: s.lnk.narrow := rfl

theorem narrowed_inRoute (s : State) (p : Nat) : inRoute (narrowed s p) p = false := inRoute_narrowed (by simp [narrowed, lk])

theorem narrowed_get (s : State) (p : Nat) (f : Fld) : (narrowed s p).get f = s.get f := rfl

theorem onlyLink_narrowed (s : State) (p : Nat) : OnlyLink s (narrowed s p) := rfl

/-- The START of a striped frame on a quiet port that is UP one lane. -/
theorem exec_frameStart_striped {s : State} {p : Nat} (hpor : s.por = false) (hcs : s.lnk.csAt = []) (hquiet : s.linkQuiet = true)
    (h : TakesStart s p) (hone : s.get (portFld p) = 2) (n : Nat) :
    exec (.frameStart p false n) s =
      .next (narrowed (cleared (begun s n 0) p false) p) := by
  obtain ⟨hframe, hlen, htx, -⟩ := (linkQuiet_iff s).mp hquiet
  have hbegun := begun_frame hcs hframe n 0
  have hclosed : (cleared (begun s n 0) p false).lnk.frame = none := by rw [cleared_lnk, procEnded_closed hbegun]; exact hbegun
  have hfree : ∀ q < 3, (txAt (cleared (begun s n 0) p false) q).frame = none := fun q hq =>
    cleared_txAt_quiet (by rw [begun_lnk hcs]; exact hlen) hbegun p false hq (by rw [begun_txAt hcs]; exact txAt_quiet htx q)
  have hport : (cleared (begun s n 0) p false).get (portFld p) = 2 := by
    rw [cleared_get _ _ _ (portFld_notMem (by decide) p) (portFld_ne (by decide) p), (begun_sameRoute hcs n 0).port, hone]
  rw [exec_frameStart_taken hpor hcs h, startTaken_narrows hport, narrowFor_quiet hclosed hfree, narrowed]

/-! ### What ends leave -/

theorem OnlyPassage.frame {s t : State} (h : OnlyPassage s t) : t.lnk.frame = s.lnk.frame := by rw [← h]

theorem OnlyPassage.cmd {s t : State} (h : OnlyPassage s t) : t.cmd = s.cmd := by rw [← h]

theorem FramesLeft.frame {s t : State} (h : FramesLeft s t) : t.lnk.frame = s.lnk.frame := by rw [← h.rest]

theorem FramesLeft.cmd {s t : State} (h : FramesLeft s t) : t.cmd = s.cmd := by rw [← h.rest]

theorem FramesLeft.onlyPassage {s t : State} (h : FramesLeft s t) : OnlyPassage s t := by
  unfold OnlyPassage
  rw [← h.rest]

theorem FramesCut.passage {s t u : State} (h : FramesCut s t) (k : OnlyPassage t u) :
    { s with regs := u.regs, lnk := u.lnk, cmd := u.cmd } = u := by
  unfold OnlyPassage at k
  rw [← k, ← h.rest]

theorem frameAborted_frame (s : State) : (frameAborted s).lnk.frame = none := rfl

theorem frameAborted_cmd (s : State) : (frameAborted s).cmd = { s.cmd with capture := [] } := rfl

/-- The processing point's frame has ended uncleanly, and transmitters follow. -/
structure EndedUnclean (s t : State) : Prop where
  frame : t.lnk.frame = none
  cmd : t.cmd = { s.cmd with capture := [] }
  noend : t.get LNK_EVT_NOEND = 1
  count : t.get LNK_ERRCNT1_NOEND = min (s.get LNK_ERRCNT1_NOEND + 1) 65535
  rest : { s with regs := t.regs, lnk := t.lnk, cmd := t.cmd } = t
  regs : sameRegs [6] s t

theorem endedUnclean {s t : State} (h : OnlyPassage (frameAborted s) t) : EndedUnclean s t where
  frame := h.frame.trans (frameAborted_frame s)
  cmd := h.cmd.trans (frameAborted_cmd s)
  noend := (h.get _).trans (frameAborted_noend s)
  count := (h.get _).trans (frameAborted_count s)
  rest := (framesCut_frameAborted s).passage h
  regs f hf := (h.get f).trans ((framesCut_frameAborted s).sameRegs f hf)

/-- What a header that failed its check leaves. -/
structure HeaderLost (s t : State) (errs : Nat) : Prop where
  hdr : t.lnk.frame.map (fun f => f.hdr) = some (some false)
  event : t.get LNK_EVT_CHDRERR = 1
  count : t.get LNK_ERRCNT0_CHDR = min (s.get LNK_ERRCNT0_CHDR + 1) 65535
  code : t.get LNK_ERRCNT1_CODE = min (s.get LNK_ERRCNT1_CODE + errs) 65535
  cycno : t.get LNK_CYCNO_CYCNO = s.get LNK_CYCNO_CYCNO
  rest : { s with regs := t.regs, lnk := t.lnk } = t
  regs : sameRegs [6] s t

theorem headerLost {s : State} {f : Frame} (hcs : s.lnk.csAt = []) (hf : s.lnk.frame = some f) (bytes : List Byte) (n : Nat)
    (errs : List (Nat × Nat)) : HeaderLost s (headerFailed (headerGone s f bytes n errs) f.port) errs.length where
  hdr := by
    have hport : (frameLater f n).port = f.port := rfl
    rw [headerFailed_frame (headerGone_frame hcs hf bytes n errs) hport]
    rfl
  event := headerFailed_event _ _
  count := by rw [headerFailed_count, headerGone_get hcs f bytes n errs (by decide)]
  code := by rw [headerFailed_get _ _ (by decide) (by decide), headerGone_code hcs]
  cycno := by rw [headerFailed_get _ _ (by decide) (by decide), headerGone_get hcs f bytes n errs (by decide)]
  rest := (onlyLink_headerGone hcs f bytes n errs).trans (onlyLink_headerFailed _ _)
  regs := sameRegs_trans (sameRegs_headerGone hcs f bytes n errs) (sameRegs_headerFailed _ _)

/-- A clean end's passage ends the frame on transmitters and hands the captures over. -/
theorem closedAfter {s : State} (hcs : s.lnk.csAt = []) (n p : Nat) :
    { s with lnk := (closed (advance s n) p).lnk } = closed (advance s n) p := by
  have hadv := advance_lnk hcs n
  have hclosed := closed_rest (advance s n) p
  rw [← hclosed, ← hadv]

theorem fabric_after {s t u : State} (h : { s with lnk := t.lnk } = t) (k : OnlyFabric t u) :
    { s with lnk := u.lnk, evHeld := u.evHeld, evCap := u.evCap, evWin := u.evWin, free := u.free } = u := by
  unfold OnlyFabric at k
  rw [← k, ← h]

theorem landing_after {s t u : State} {c : Cmds} {g : Fld} {v : Nat} (h : { s with lnk := t.lnk } = t)
    (k : OnlyFabric ({ t with cmd := c }.put g v) u) :
    { s with regs := u.regs, lnk := u.lnk, cmd := u.cmd, evHeld := u.evHeld, evCap := u.evCap, evWin := u.evWin, free := u.free }
      = u := by
  unfold OnlyFabric at k
  rw [← k, ← h]
  rfl

/-- The narrowing that a striped START calls for on a quiet port. -/
theorem narrowed_state {s : State} (hcs : s.lnk.csAt = []) (hquiet : s.linkQuiet = true) (p n : Nat) :
    (cleared (begun s n 0) p false).lnk.frame = none ∧ (cleared (begun s n 0) p false).lnk.narrow = [] ∧
      OnlyLink s (cleared (begun s n 0) p false) := by
  obtain ⟨hframe, -, -, hnarrow⟩ := (linkQuiet_iff s).mp hquiet
  have hbegun := begun_frame hcs hframe n 0
  have hroute := begun_sameRoute hcs n 0
  have hends := onlyPassage_frameEnds (procEnded (begun s n 0) p) p
  have hrest := begun_rest hcs n 0
  rw [procEnded_closed hbegun] at hends
  refine ⟨?_, ?_, ?_⟩
  · rw [cleared_lnk, procEnded_closed hbegun]
    exact hbegun
  · rw [(cleared_sameRoute (hroute.narrow.trans hnarrow) p false).narrow, hroute.narrow, hnarrow]
  · unfold cleared
    rw [procEnded_closed hbegun]
    refine OnlyLink.trans hrest (OnlyLink.trans ?_ (onlyLink_put _ _ _))
    unfold OnlyPassage at hends
    unfold OnlyLink
    rw [← hends]

theorem OnlyFabric.txAt {s t : State} (h : OnlyFabric s t) (q : Nat) : txAt t q = txAt s q := by
  unfold Machine.txAt
  rw [h.lnk]

theorem closed_free {s : State} {q p : Nat} (hq : q < 3) (hlen : s.lnk.tx.length = 3)
    (h : (txAt s q).frame.any (fun g => g.src == p) = true) : (txAt (closed s p) q).frame = none := by
  unfold closed
  exact frameEnds_free (s := lk s fun l => { l with frame := none }) hq hlen h

/-- The captures of the frame that has ended start to land. -/
structure CapturesLand (s t : State) : Prop where
  frame : t.lnk.frame = none
  landing : t.cmd.landing = s.cmd.capture
  capture : t.cmd.capture = []
  seq : t.get TBL_LANDSEQ_SEQ = (s.get TBL_LANDSEQ_SEQ + 1) % 2 ^ 32
  rest : { s with regs := t.regs, lnk := t.lnk, cmd := t.cmd, evHeld := t.evHeld, evCap := t.evCap, evWin := t.evWin, free := t.free }
    = t
  regs : sameRegs [7] s t

theorem capturesLand {s c : State} (hrest : { s with lnk := c.lnk } = c) (hframe : c.lnk.frame = none)
    (hland : s.cmd.landing = []) (hcap : s.cmd.capture ≠ []) : CapturesLand s (yieldEv (startLanding c) 1) := by
  have hcmd : c.cmd = s.cmd := (congrArg State.cmd hrest).symm
  have hget : ∀ g : Fld, c.get g = s.get g := fun g => by rw [← hrest]; rfl
  rw [startLanding_some (by rw [hcmd, hland]) (by rw [hcmd]; exact hcap), hcmd, hget]
  have hev := onlyFabric_yieldEv (({ c with cmd := { s.cmd with capture := [], landing := s.cmd.capture } }).put TBL_LANDSEQ_SEQ
    (s.get TBL_LANDSEQ_SEQ + 1)) (p := 1) (by decide)
  refine ⟨by rw [hev.lnk, put_lnk, hframe], by rw [hev.cmd, put_cmd], by rw [hev.cmd, put_cmd], ?_, landing_after hrest hev,
    fun g hg => ?_⟩
  · rw [hev.get, get_put_self]
    rfl
  · rw [hev.get, get_put_ne _ _ _ _ fun e => hg (by unfold pageOf; rw [e]; decide), ← hget g]
    rfl

/-- What a sound header leaves, seen from the state before its command. -/
structure HeaderServed (s t : State) (bytes : List Byte) (f : Frame) (n : Nat) : Prop where
  cycno : t.get LNK_CYCNO_CYCNO = leNat (bytes.take 4)
  cyc : t.get LNK_CYCINFO_CYC = (bytes.getD 14 0).toNat
  hop : t.get LNK_CYCINFO_HOP = leNat ((bytes.drop 12).take 2) % 4096
  time : t.lnk.time = (leNat ((bytes.drop 4).take 8) + s.get LNK_PDELAY_DELAY + 20 * (f.n + n)) % 2 ^ 64
  latch : s.on LNK_CFG_POSMODE = false → bitOf (leNat ((bytes.drop 12).take 2)) 12 = true →
    t.get LNK_POS_POS = leNat ((bytes.drop 12).take 2) % 4096 ∧ t.get LNK_EVT_LATCH = 1

theorem headerServed {s t : State} {f : Frame} {bytes : List Byte} {n : Nat} (hcs : s.lnk.csAt = [])
    (h : HeaderActed (headerGone s f bytes n []) t bytes (frameLater f n)) : HeaderServed s t bytes f n where
  cycno := (h.get _ (by decide)).trans (headerNoted_cycno _ _ _)
  cyc := (h.get _ (by decide)).trans (headerNoted_cyc _ _ _)
  hop := (h.get _ (by decide)).trans (headerNoted_hop _ _ _)
  time := by
    rw [h.time, headerTime, headerGone_get hcs f bytes n [] (by decide)]
    rfl
  latch hmode hask := by
    have hmode' : (headerGone s f bytes n []).on LNK_CFG_POSMODE = false := by
      rw [State.on, headerGone_get hcs f bytes n [] (by decide)]
      exact hmode
    obtain ⟨hpos, hlatch⟩ := headerNoted_latch hmode' hask (frameLater f n)
    exact ⟨(h.get _ (by decide)).trans hpos, (h.get _ (by decide)).trans hlatch⟩

/-- Settles O44: a START is `exec_frameStart_opens` with `frameStarted`, a header `exec_cycleHeader` with `headerActed` and
`headerFailed_frame`, the ends `frameEnds_free`, `framePast_walk` and `frameLost_portDown`. -/
theorem frames : Obligations.Frames := by
  refine ⟨?start, ?flips, ?waits, ?again, ?striped, ?errors, ?down, ?header, ?crc, ?code, ?due, ?clean, ?lands, ?unclean, ?lost, ?past,
    ?missed⟩
  case start =>
    intro s p r n hpor hcs hup hport hjoined hlanes hp hproc hfeed hquiet hwide hpend
    obtain ⟨-, -, -, hnarrow⟩ := (linkQuiet_iff s).mp hquiet
    have hexec := exec_frameStart_opens hpor hcs hnarrow ⟨⟨hup, hport, hjoined, hlanes⟩, hp, hproc, hfeed, hwide⟩ n
    rw [frameStarts_idle ((opened_pend hcs p r n).trans hpend)] at hexec
    have h := frameStarted hcs hquiet p r n
    exact ⟨_, hexec, h.frame, h.tx, h.mode, h.pos, h.missed, h.any, h.time, h.reset, onlyFrames_started hcs p r n,
      sameRegs_started hcs p r n⟩
  case flips =>
    intro s p r n hpor hcs hup hport hjoined hlanes hp hproc hfeed hquiet hwide hland hpend hbound
    have hexec := exec_frameStart_flips hpor hcs hquiet ⟨⟨hup, hport, hjoined, hlanes⟩, hp, hproc, hfeed, hwide⟩ hland n
    have hregs := sameRegs_started hcs p r n
    have hmask : (started s p r n).get TBL_CMTSTAT_PEND = s.get TBL_CMTSTAT_PEND := hregs _ (by decide)
    rw [← hmask] at hexec
    have hsome : (started s p r n).get TBL_CMTSTAT_PEND ≠ 0 := by rw [hmask]; exact hpend
    have h := (frameStarted hcs hquiet p r n).flip hsome
    have htables := (tablesFlipped hsome (by rw [hmask]; exact hbound)).of_sameRegs hregs
    have hsame := sameRegs_trans (sameRegs_widen hregs (m := [6, 7]) (by decide))
      (sameRegs_widen (sameRegs_flip hsome (started s p r n)) (m := [6, 7]) (by decide))
    refine ⟨_, hexec, h.frame, h.tx, h.mode, h.pos, h.missed, h.any, h.time, h.reset, htables.pend, htables.event, htables.live,
      fun k hk hbit => ?_, (onlyFrames_started hcs p r n).flip hsome, hsame⟩
    have hcopied := htables.copied k hk hbit
    simp only [flipCopies, List.forall_mem_cons] at hcopied
    obtain ⟨hbase, hesize, hmr, hmw, -, hcount, -⟩ := hcopied
    exact ⟨htables.ready k hk hbit, hbase, hesize, hmr, hmw, hcount, (htables.gen k hk hbit).trans (nextGen_mod s k)⟩
  case waits =>
    intro s p r n hpor hcs hup hport hjoined hlanes hp hproc hfeed hquiet hwide hland
    have hexec := exec_frameStart_waits hpor hcs hquiet ⟨⟨hup, hport, hjoined, hlanes⟩, hp, hproc, hfeed, hwide⟩ hland n
    have h := frameStarted hcs hquiet p r n
    exact ⟨_, hexec, h.frame, h.tx, h.mode, h.pos, h.missed, h.any, h.time, h.reset, rfl, (onlyFrames_started hcs p r n).cmd _,
      sameRegs_started hcs p r n⟩
  case again =>
    intro s p n f hpor hcs hup hport hjoined hlanes hp hproc hfeed hnarrow hf hfp hpend
    subst hfp
    have hexec := exec_frameStart_opens hpor hcs hnarrow ⟨⟨hup, hport, hjoined, hlanes⟩, hp, hproc, hfeed, .inl rfl⟩ n
    rw [frameStarts_idle ((opened_pend hcs _ true n).trans hpend)] at hexec
    obtain ⟨hcapture, hnoend, hcount⟩ := started_after_open hcs hf true n
    exact ⟨_, hexec, congrArg Link.frame (started_lnk s f.port true n), hcapture, hnoend, hcount, onlyFrames_started hcs _ true n,
      sameRegs_started hcs _ true n⟩
  case striped =>
    intro s p n hpor hcs hup hport hjoined hlanes hp hone hquiet
    have hexec := exec_frameStart_striped hpor hcs hquiet ⟨hup, hport, hjoined, hlanes⟩ hone n
    obtain ⟨hframe, hnarrow, honly⟩ := narrowed_state hcs hquiet p n
    refine ⟨_, hexec, (narrowed_frame _ p).trans hframe, by rw [narrowed_narrow, hnarrow], narrowed_inRoute _ p,
      (narrowed_get _ p _).trans (cleared_mode _ p false), honly.trans (onlyLink_narrowed _ p), fun f hf => ?_⟩
    rw [narrowed_get, sameRegs_cleared _ p false f hf, sameRegs_begun hcs n 0 f hf]
  case errors =>
    intro s p r n e hpor hup hdown hcs
    exact ⟨_, exec_frameStart_down hpor hcs hdown r n e, begun_code hcs n e (by omega), by rw [begun_lnk hcs], begun_rest hcs n e,
      sameRegs_begun hcs n e⟩
  case down =>
    intro s p r n hpor hcs hdown
    exact ⟨_, exec_frameStart_down hpor hcs hdown r n 0, by rw [begun_lnk hcs], fun _ hf => begun_get hcs n 0 hf,
      begun_rest hcs n 0, sameRegs_begun hcs n 0⟩
  case header =>
    intro s p bytes n f hpor hcs hf hfp hhdr hlen htx hcrc
    subst hfp
    have hsound : headerSound bytes (takenBad s f []) = true := by rw [takenBad_nil, headerSound_whole hlen, hcrc]; simp
    have hexec := exec_cycleHeader hcs hf hpor hhdr bytes n []
    rw [if_pos hsound, takenBad_nil, headerTaken_whole hlen] at hexec
    have h := headerActed (headerGone_csAt hcs f bytes n []) bytes (frameLater f n)
    have hserved := headerServed hcs h
    refine ⟨_, hexec, h.hdr, hserved.cycno, hserved.cyc, hserved.hop, h.set, hserved.time, fun q hq hg => ?_, hserved.latch,
      onlyLink_fabric (onlyLink_headerGone hcs f bytes n []) h.rest, sameRegs_trans (sameRegs_headerGone hcs f bytes n []) h.regs⟩
    have hsent := headerGone_hdr hcs hq htx hg rfl rfl bytes n []
    rw [hsound, takenBad_nil, headerTaken_whole hlen] at hsent
    unfold txAt at hsent ⊢
    rw [h.tx, hsent]
  case crc =>
    intro s p bytes n f hpor hcs hf hfp hhdr hlen hcrc
    subst hfp
    have hunsound : ¬headerSound bytes (takenBad s f []) = true := by rw [takenBad_nil, headerSound_whole hlen]; simpa using hcrc
    have hexec := exec_cycleHeader hcs hf hpor hhdr bytes n []
    rw [if_neg hunsound] at hexec
    have h := headerLost hcs hf bytes n []
    exact ⟨_, hexec, h.hdr, h.event, h.count, h.cycno, h.rest, h.regs⟩
  case code =>
    intro s p bytes errs n f hpor hcs hf hfp hhdr hbad
    subst hfp
    have hunsound : ¬headerSound bytes (takenBad s f errs) = true := by simp [headerSound, hbad]
    have hexec := exec_cycleHeader hcs hf hpor hhdr bytes n errs
    rw [if_neg hunsound] at hexec
    have h := headerLost hcs hf bytes n errs
    exact ⟨_, hexec, h.hdr, h.event, h.code, h.cycno, h.rest, h.regs⟩
  case due =>
    intro s n a hpor hcs ha
    have hexec : exec (.cycleStartEvent n) s = .next (advance s n) := live_run s _ hpor
    rw [advance_due hcs ha] at hexec
    have hev := onlyFabric_yieldEv
      (lk s fun l => { l with csAt := [], time := s.lnk.time + 20 * ((a - s.lnk.time + 19) / 20) }) (p := 0) (by decide)
    refine ⟨_, hexec, ?_, rfl, ?_⟩
    · rw [lk, hev.lnk]
      rfl
    · unfold OnlyFabric at hev
      rw [← hev]
      rfl
  case clean =>
    intro s p n f hpor hcs hf hfp hcap hland htx
    subst hfp
    have hrest := closedAfter hcs n f.port
    have hcmd : (closed (advance s n) f.port).cmd = s.cmd := (congrArg State.cmd hrest).symm
    have hexec := exec_frameEndClean hpor hcs hf n
    rw [startLanding_none (by rw [hcmd, hland]) (by rw [hcmd, hcap])] at hexec
    have hev := onlyFabric_yieldEv (closed (advance s n) f.port) (p := 1) (by decide)
    refine ⟨_, hexec, by rw [hev.lnk, closed_frame], fun q hq hany => ?_, ?_⟩
    · rw [hev.txAt]
      exact closed_free hq (by rw [advance_calm hcs]; exact htx) (by rw [advance_calm hcs]; exact hany)
    · exact fabric_after hrest hev
  case lands =>
    intro s p n f hpor hcs hf hfp hcap hland
    subst hfp
    have h := capturesLand (closedAfter hcs n f.port) (closed_frame (advance s n) f.port) hland hcap
    exact ⟨_, exec_frameEndClean hpor hcs hf n, h.frame, h.landing, h.capture, h.seq, h.rest, h.regs⟩
  case unclean =>
    intro s p how f hpor hf hfp hhow htx
    subst hfp
    have h := endedUnclean (onlyPassage_frameEnds (frameAborted s) f.port)
    exact ⟨_, exec_frameEndUnclean hpor hf hhow, h.frame, fun q hq hany => frameEnds_free (s := frameAborted s) hq htx hany, h.cmd,
      h.noend, h.count, h.rest, h.regs⟩
  case lost =>
    intro s p f hpor hf hfp hfeed hp hlocked hlanes htx hnarrow
    have hroute := inRoute_of_feedPort hfeed
    have hup : s.get (portFld p) ≠ 0 := by
      have h := portUp_of_inRoute hroute
      unfold portUp at h
      simp only [decide_eq_true_eq] at h
      omega
    obtain ⟨w, l, hgone, hfalls⟩ := lanesLost hf hfp hp htx hup hlocked hlanes
    have h := frameLost_portDown hf hfp hp htx hgone l
    refine ⟨_, (exec_portDown hpor p).trans (congrArg Host.Outcome.next hfalls), h.frame, h.capture, h.port, h.lanedn, h.portdn,
      h.noend, h.joined, fun q hq hne hin => h.cut q hq hne (portUp_of_inRoute hin), h.rest, h.regs⟩
  case past =>
    intro s p f hpor hf hfp htx
    subst hfp
    have hpast := foldl_rel FramesLeft.refl FramesLeft.trans (framesLeft_framePast f.port) (List.range 3) (frameAborted s)
    have h := endedUnclean hpast.onlyPassage
    exact ⟨_, exec_frameOpenTimeout hpor hf, h.frame, fun q hq hany => framePast_walk (s := frameAborted s) hq htx hany, h.cmd, h.noend,
      h.count, h.rest, h.regs⟩
  case missed =>
    intro s hpor hup hany hnew
    exact ⟨_, exec_frameMissed hpor hup hany hnew, by rw [get_put_self]; rfl, rfl, rfl,
      sameRegs_put _ _ (by decide) fun _ _ => rfl⟩

end Sys2Proof.Machine.BolinaLink
end

section
/-! Counterexamples of the link that the model runs: activity on the listener while an EVO ball follows it, and a management command
whose last word in the link-management area is uncorrectable. -/

namespace Sys2Proof.Machine.BolinaLink

open Sys2Proof Sys2Proof.Machine Sys2Proof.Machine.PowerStates Sys2Proof.Machine.Exceptions Sys2Proof.Machine.EnergyStore

/-! ### Activity on the listener (R241, R282, R286, R464) -/

/-- The part in Run with the engine in LISTEN and energy in the store; EVO0 follows the activity of producer 38. -/
def listenerDrivesEvo : State := evoFollowsActivity.put PWR_DOMSTAT_STATE 0

/-- Refutes O43: the first clause keeps every page but PWR_, HRV_ and LNK_, but the level of producer 38 raises EVO0 on ball 4, and
GPIO_EDGE latches the rise while SYS is clocked. -/
theorem not_linkService : ¬ Obligations.LinkService := by
  rintro ⟨hlisten, -⟩
  obtain ⟨t, ht, -, -, -, -, hregs⟩ := hlisten listenerDrivesEvo rfl (by decide +kernel) (by decide +kernel) (by decide +kernel)
  have hrise : readsAfter .listenToTrain listenerDrivesEvo GPIO_EDGE_EDGE = some (2 ^ 4) := by decide +kernel
  have hlow : listenerDrivesEvo.get GPIO_EDGE_EDGE = 0 := by decide +kernel
  rw [readsAfter_of_next ht, hregs GPIO_EDGE_EDGE (by decide), hlow] at hrise
  exact absurd hrise (by decide)

/-! ### A part of an uncorrectable word is not written (R171, R177, R276) -/

/-- Below the word at `w`, link stores may have changed memory; from that word on every byte stands as it was, and the errors stored
in the word stand too. No region is being wiped. -/
structure KeptFrom (w : Nat) (s t : State) : Prop where
  wipes : t.ms.wipeQ = []
  errors : Sparse.look 0 t.ms.sramErr w = Sparse.look 0 s.ms.sramErr w
  bytes : ∀ c, w ≤ c → t.byte c = s.byte c

theorem KeptFrom.trans {w : Nat} {s t u : State} (h : KeptFrom w s t) (k : KeptFrom w t u) : KeptFrom w s u :=
  ⟨k.wipes, k.errors.trans h.errors, fun c hc => (k.bytes c hc).trans (h.bytes c hc)⟩

theorem KeptFrom.foldl {w : Nat} (f : State → Nat → State) (l : List Nat)
    (hf : ∀ i ∈ l, ∀ s, s.ms.wipeQ = [] → 2 ≤ popc 39 (Sparse.look 0 s.ms.sramErr w) → KeptFrom w s (f s i)) :
    ∀ s, s.ms.wipeQ = [] → 2 ≤ popc 39 (Sparse.look 0 s.ms.sramErr w) → KeptFrom w s (l.foldl f s) := by
  induction l with
  | nil => exact fun s hw _ => ⟨hw, rfl, fun _ _ => rfl⟩
  | cons i l ih =>
    intro s hw hbad
    have hi := hf i (by simp) s hw hbad
    exact hi.trans (ih (fun j hj => hf j (List.mem_cons_of_mem _ hj)) _ hi.wipes (by rw [hi.errors]; exact hbad))

theorem sramWait_calm {s : State} (h : s.ms.wipeQ = []) (a : Nat) : sramWait s a = s := by simp [sramWait, h]

theorem noteConf_ms (s : State) (m : Master) (a : Nat) : (noteConf s m a).ms = s.ms := by
  unfold noteConf
  split
  · rfl
  · split <;> rfl

theorem noteConf_byte (s : State) (m : Master) (a c : Nat) : (noteConf s m a).byte c = s.byte c := by
  unfold noteConf
  split
  · rfl
  · split <;> rfl

theorem wr_ms (s : State) (a n v : Nat) : (s.wr a n v).ms = s.ms := by rw [← wr_only]

/-- The errors stored in one word are gone once it is written whole (R178). -/
theorem sramPut_ms (s : State) (a v : Nat) : (sramPut s a v).ms.wipeQ = s.ms.wipeQ ∧
    (sramPut s a v).ms.sramErr = Sparse.set 0 s.ms.sramErr a 0 := by
  unfold sramPut
  dsimp only
  rw [wr_ms]
  exact ⟨rfl, rfl⟩

/-- A whole word written below. -/
theorem keptFrom_word {s : State} (hw : s.ms.wipeQ = []) {a w : Nat} (ha : a + 4 ≤ w) (v : Nat) :
    KeptFrom w s (sramWrite s .link a 4 v).2 := by
  have hlink : ¬(inLiveCopy s a && Master.link != .link) = true := by simp
  have hwrite : (sramWrite s .link a 4 v).2 = sramPut (noteConf s .link a) a v := by
    unfold sramWrite
    rw [if_neg hlink, if_pos rfl, sramWait_calm hw]
  obtain ⟨hwipes, herrors⟩ := sramPut_ms (noteConf s .link a) a v
  rw [hwrite]
  refine ⟨by rw [hwipes, noteConf_ms, hw], ?_, fun c hc => ?_⟩
  · rw [herrors, look_set, if_neg (by omega), noteConf_ms]
  · rw [(wordPut_sramPut _ a v).others c (by omega), noteConf_byte]

theorem noteUE_link (s : State) (a : Nat) : (noteUE s .link a).ms.wipeQ = s.ms.wipeQ ∧
    (noteUE s .link a).ms.sramErr = s.ms.sramErr ∧ (noteUE s .link a).mem = s.mem := by
  have hdue : ∀ (t : State) (b r : Nat), (moveDue t b r).ms.wipeQ = t.ms.wipeQ ∧
      (moveDue t b r).ms.sramErr = t.ms.sramErr ∧ (moveDue t b r).mem = t.mem := by
    intro t b r
    unfold moveDue
    split <;> exact ⟨rfl, rfl, rfl⟩
  unfold noteUE
  dsimp only
  rw [if_neg (by decide)]
  split
  · exact ⟨rfl, rfl, rfl⟩
  · exact hdue _ _ _

/-- A byte of the word itself, which is uncorrectable: the word is read and not written (R177). -/
theorem keptFrom_byte {s : State} (hw : s.ms.wipeQ = []) {a w : Nat} (ha : a - a % 4 = w)
    (hbad : 2 ≤ popc 39 (Sparse.look 0 s.ms.sramErr w)) (v : Nat) : KeptFrom w s (sramWrite s .link a 1 v).2 := by
  have hlink : ¬(inLiveCopy s a && Master.link != .link) = true := by simp
  have herr : Sparse.look 0 s.ms.sramErr w ≠ 0 := by intro h; rw [h] at hbad; exact absurd hbad (by decide)
  have hread : sramRead s .link w = (none, noteUE (noteConf s .link w) .link w) := by
    have hone : popc 39 (Sparse.look 0 s.ms.sramErr w) ≠ 1 := by omega
    simp only [sramRead, sramWait_calm hw, noteConf_ms, if_neg herr, if_neg hone]
  have hwrite : (sramWrite s .link a 1 v).2 = noteUE (noteConf s .link w) .link w := by
    unfold sramWrite
    rw [if_neg hlink, if_neg (by decide)]
    simp only [ha, hread]
  obtain ⟨hwipes, herrors, hmem⟩ := noteUE_link (noteConf s .link w) w
  rw [hwrite]
  refine ⟨by rw [hwipes, noteConf_ms, hw], by rw [herrors, noteConf_ms], fun c _ => ?_⟩
  rw [← noteConf_byte s .link w c]
  exact congrArg (Sparse.look 0 · c) hmem

/-- Bytes stored by the link whose last part of a word falls on an uncorrectable word: that word keeps its bytes. -/
theorem keptFrom_linkStore {s : State} {a : Nat} {l : List Byte} (hw : s.ms.wipeQ = []) (ha : a % 4 = 0)
    (hbad : 2 ≤ popc 39 (Sparse.look 0 s.ms.sramErr (a + 4 * (l.length / 4)))) :
    KeptFrom (a + 4 * (l.length / 4)) s (linkStore s .link a l) := by
  have hwords := KeptFrom.foldl (w := a + 4 * (l.length / 4))
    (fun s i => (sramWrite s .link (a + 4 * i) 4 (leNat ((l.drop (4 * i)).take 4))).2) (List.range (l.length / 4))
    (fun i hi t ht _ => keptFrom_word ht (by rw [List.mem_range] at hi; omega) _) s hw hbad
  refine hwords.trans (KeptFrom.foldl (w := a + 4 * (l.length / 4)) _ (List.range (l.length % 4)) (fun i hi t ht htbad => ?_) _
    hwords.wipes (by rw [hwords.errors]; exact hbad))
  rw [List.mem_range] at hi
  exact keptFrom_byte ht (by omega) htbad _

/-! ### A management command in one fragment (R231, R266 to R276) -/

/-- The slot as it reaches its answer: link time has moved, and the payload stands to be sent. -/
def atSlot (s : State) (h : SlotHdr) (genw : Word) (pl : List Word) (n : Nat) : State :=
  lk (sendSlot ((advance s n).bump LNK_ERRCNT1_CODE 0) pl (if slotFld h 15 1 = 1 then some genw else none) none) fun l =>
    { l with out := { l.out with bad := [] } }

/-- A slot that is the device's to serve is answered. -/
theorem onSlot_mine {s : State} {ty : Nat} {h : SlotHdr} {genw : Word} {pl : List Word} (hmine : s.slotMine ty h = true)
    (hlen : pl.length = slotFld h 36 12) (n : Nat) (f : State → List Word → Bool → State) :
    onSlot s ty h genw pl [] n f = f (atSlot s h genw pl n) pl true := by
  simp only [State.slotMine, Bool.and_eq_true, List.isEmpty_iff, beq_iff_eq, Bool.not_eq_true', bne_iff_ne] at hmine
  obtain ⟨⟨⟨⟨⟨⟨hcs, hserves⟩, hcrc⟩, hty⟩, hpos⟩, hset⟩, -⟩ := hmine
  have hadv := advance_calm hcs n
  have hserves' : serves (advance s n) = true := by
    rw [← hserves, hadv]
    unfold serves
    cases hf : s.lnk.frame <;> simp [hf]
  have hdev : devPos (advance s n) = devPos s := by rw [hadv]; rfl
  have htake : (pl ++ List.replicate (slotFld h 36 12) 0).take (slotFld h 36 12) = pl := by rw [← hlen]; simp
  simp only [onSlot, hserves', htake, badPlaces, badPayload, takenWords, atSlot, hcrc, hty]
  have hset' : (devPos s != 0xFFF) = true := bne_iff_ne.mpr hset
  simp [hdev, hpos, hset']

/-- COMMAND_CARRY_SLOT of a slot that is the device's to serve. -/
theorem exec_commandCarry {s : State} {h : SlotHdr} {genw : Word} {pl : List Word} (hpor : s.por = false)
    (hmine : s.slotMine 4 h = true) (hlen : pl.length = slotFld h 36 12) (n : Nat) :
    exec (.commandCarrySlot h genw pl n) s = .next (carrySlot (atSlot s h genw pl n) h pl) := by
  have hok : slotBad h 4 = false := by
    simp only [State.slotMine, Bool.and_eq_true, Bool.not_eq_true'] at hmine
    exact hmine.2
  have hslot := onSlot_mine (genw := genw) hmine hlen n fun s pl _ =>
    if slotBad h 4 then answer s h pl stBadParam 0 else carrySlot s h pl
  rw [hok] at hslot
  exact (live_run s _ hpor).trans (congrArg Host.Outcome.next (by rw [hok]; exact hslot))

/-- A whole packet in one fragment, its header sound, takes the lowest free place (R267 to R269, R273). -/
theorem downFragment_whole {s : State} {d : List Byte} {q : Nat} (hlen : 8 ≤ d.length) (hhdr : pHdrOk d = true)
    (hpay : pLen d ≤ 1024) (hall : pTotal d ≤ d.length) (hpart : s.cmd.partialPkt = none) (hfree : freePlace s = some q)
    (dseq : Nat) :
    downFragment s true dseq d =
      (true, takePlace (ck s fun c => { c with partialPkt := none, lastSeq := some dseq }) q (d.take (pTotal d))) := by
  have hne : d.isEmpty = false := by cases d <;> simp_all
  have hdone : completed d = some (d.take (pTotal d)) := by
    unfold completed
    rw [if_neg (by simp [hhdr]; omega), if_neg (by omega), if_pos hall]
  have hfree' : freePlace { s with cmd := { s.cmd with partialPkt := none } } = some q := hfree
  have haccept : acceptBytes { s with cmd := { s.cmd with partialPkt := none } } dseq d =
      (true, takePlace (ck s fun c => { c with partialPkt := none, lastSeq := some dseq }) q (d.take (pTotal d))) := by
    unfold acceptBytes
    simp only [hhdr, hdone, hfree', Bool.not_true, Bool.and_false, Bool.false_eq_true, if_false]
    rfl
  unfold downFragment
  simp [hne, haccept, hpart]

/-- A management command without AUTH is stored in its place's area after the arrival word (R273, R276). -/
theorem takePlace_mgmt {s : State} {p : Nat} {l : List Byte} (hcheck : check4 s l = none) (hauth : pAuth l = false)
    (hop : 0x40 ≤ pOp l) :
    takePlace s p l =
      linkStore (setPlace s p (some ⟨l, 5, none, false, false, s.get LNK_CYCNO_CYCNO % 65536, false⟩)) .link
        (0x103F0000 + 0x800 * p) (arrivalWord 5 (s.get LNK_CYCNO_CYCNO % 65536) ++ l) := by
  have hcheck' : ∀ x, check4 (setPlace s p x) l = none := fun _ => hcheck
  unfold takePlace
  simp [hcheck', hauth, hop, mgmtEntry]

theorem setRes_byte (s : State) (l : List Resv) (c : Nat) : (setRes s l).byte c = s.byte c := by rw [setRes_eq]; rfl

theorem answer_byte (s : State) (h : SlotHdr) (pl : List Word) (st late c : Nat) : (answer s h pl st late).byte c = s.byte c := by
  unfold answer
  dsimp only
  split
  · exact setRes_byte _ _ c
  · rfl

theorem noteFresh_byte (s t : State) (sop : Bool) (n c : Nat) : (noteFresh s t sop n).byte c = t.byte c := by
  unfold noteFresh
  split <;> rfl

/-- What a COMMAND-CARRY slot leaves in memory is what its fragment's packet left there. -/
theorem carrySlot_byte {s t : State} {w : Word} {rest : List Word} (hserving : cmdServing s = true)
    (hup : upFragment s (bitsOf w.toNat 24 8) (4 * rest.length) = (false, [], s)) (hfits : bitsOf w.toNat 0 12 ≤ 4 * rest.length)
    (hdown : downFragment s (bitOf w.toNat 12) (bitsOf w.toNat 16 8)
      ((rest.flatMap fun x => leBytes 4 x.toNat).take (bitsOf w.toNat 0 12)) = (true, t)) (h : SlotHdr) (c : Nat) :
    (carrySlot s h (w :: rest)).byte c = t.byte c := by
  unfold carrySlot upWords
  simp only [hserving, hup, if_neg (Nat.not_lt.mpr hfits), hdown, Bool.not_true, Bool.false_eq_true, if_false]
  rw [answer_byte, ← noteFresh_byte s t (bitOf w.toNat 12) (bitsOf w.toNat 0 12) c]
  rfl

/-! ### The counterexample -/

/-- A frame that serves slots is open at position 5, the interpreter serves with every place free, and the fourth word of place 0 in
the link-management area has two wrong bits. -/
def managementSlotBad : State :=
  { ((inRun.put LNK_STAT_STATE 3).put LNK_CFG_POSMODE 1).put LNK_POS_POS 5 with
    lnk := { inRun.lnk with frame := some ⟨0, true, some true, 128, 4, false⟩ }
    cmd := { inRun.cmd with serving := true, mgmtUp := true }
    ms := { inRun.ms with sramErr := [(0x103F000C, 3)] } }

/-- The header of a COMMAND-CARRY slot of four words at position 5, with its check byte. -/
def carryHeader : SlotHdr :=
  let bits := 5 + 4 * 2 ^ 12 + 4 * 2 ^ 36
  ⟨BitVec.ofNat 56 bits, BitVec.ofNat 8 (crc8 (leBytes 7 bits))⟩

/-- A packet of the management opcode 0x40 with one payload byte, 0xAA. -/
def oneBytePacket : List Byte :=
  let hdr : List Byte := [0x40, 0, 0, 0, 1, 0]
  hdr ++ leBytes 2 (crc16 hdr) ++ [0xAA]

/-- The words of a slot that carry these bytes, zero-filled to three words. -/
def packetWords (d : List Byte) : List Word :=
  (List.range 3).map fun i => BitVec.ofNat 32 (leNat ((d.drop (4 * i)).take 4))

/-- The down header of nine bytes that begin a packet. -/
def downHeader : Word := BitVec.ofNat 32 (9 + 2 ^ 12)

/-- What the slot finds as it is answered. -/
def carryReached : State := atSlot managementSlotBad carryHeader 0 (downHeader :: packetWords oneBytePacket) 0

/-- The place that the packet takes. -/
def packetPlaced : State :=
  setPlace (ck carryReached fun c => { c with partialPkt := none, lastSeq := some 0 }) 0
    (some ⟨oneBytePacket, 5, none, false, false, 0, false⟩)

/-- The packet takes place 0 and is stored in its area. -/
theorem packet_stored : downFragment carryReached true 0 oneBytePacket =
    (true, linkStore packetPlaced .link 0x103F0000 (arrivalWord 5 0 ++ oneBytePacket)) := by
  have hcyc : (ck carryReached fun c => { c with partialPkt := none, lastSeq := some 0 }).get LNK_CYCNO_CYCNO = 0 := by
    decide +kernel
  have hwhole : oneBytePacket.take (pTotal oneBytePacket) = oneBytePacket := by decide +kernel
  rw [downFragment_whole (by decide +kernel) (by decide +kernel) (by decide +kernel) (by decide +kernel) rfl
    (show freePlace carryReached = some 0 by decide +kernel), hwhole,
    takePlace_mgmt (by decide +kernel) (by decide +kernel) (by decide +kernel), hcyc]
  rfl

/-- The byte at the uncorrectable word stands as it was. -/
theorem carrySlot_keeps_bad_word :
    (carrySlot carryReached carryHeader (downHeader :: packetWords oneBytePacket)).byte 0x103F000C = 0 := by
  have hbytes : ((packetWords oneBytePacket).flatMap fun x => leBytes 4 x.toNat).take (bitsOf downHeader.toNat 0 12) =
      oneBytePacket := by decide +kernel
  have hsop : bitOf downHeader.toNat 12 = true := by decide +kernel
  have hseq : bitsOf downHeader.toNat 16 8 = 0 := by decide +kernel
  have hkept := keptFrom_linkStore (s := packetPlaced) (a := 0x103F0000) (l := arrivalWord 5 0 ++ oneBytePacket)
    (by decide +kernel) rfl (by decide +kernel)
  rw [carrySlot_byte (by decide +kernel) (by decide +kernel) (by decide +kernel) (by rw [hbytes, hsop, hseq, packet_stored]),
    hkept.bytes 0x103F000C (by decide +kernel)]
  decide +kernel

/-- Refutes O45: the clause of a management command has the arrival word and the packet stand in its area, and does not ask that no
error is stored there. The packet's last byte is part of a word, which is read before it is written; that word is uncorrectable, so
the byte is not written. -/
theorem not_slots : ¬ Obligations.Slots := by
  rintro ⟨-, -, -, -, -, -, -, -, -, -, -, -, -, -, -, -, hmgmt, -⟩
  obtain ⟨t, ht, -, hbytes, -⟩ :=
    hmgmt managementSlotBad carryHeader 0 (downHeader :: packetWords oneBytePacket) 0 downHeader (packetWords oneBytePacket)
      oneBytePacket 0 rfl (by decide +kernel) (by decide +kernel) rfl (by decide +kernel) (by decide +kernel) (by decide +kernel)
      (by decide +kernel) (by decide +kernel) (by decide +kernel) (by decide +kernel) (by decide +kernel) (by decide +kernel)
      (by decide +kernel) rfl rfl rfl rfl rfl (by decide +kernel) (by decide +kernel) rfl
  rw [exec_commandCarry rfl (by decide +kernel) (by decide +kernel)] at ht
  obtain rfl := Host.Outcome.next.inj ht
  have hlast := congrArg (fun l => l.getD 12 0) hbytes
  have hread : ∀ t : State, (t.rdBytes (0x103F0000 + 0x800 * 0) (pTotal oneBytePacket + 4)).getD 12 0 = t.byte 0x103F000C :=
    fun _ => rfl
  rw [hread, ← carryReached, carrySlot_keeps_bad_word] at hlast
  exact absurd hlast (by decide +kernel)

end Sys2Proof.Machine.BolinaLink
end

section
/-! Counterexamples of the table server and the command interpreter that the model runs: a commit requested in Slate, a TABLE_WRITE
whose staged layout meets the live copy of another table, and a record read where the engine is noted as having yielded. -/

namespace Sys2Proof.Machine.TablesAndCommands

open Sys2Proof Sys2Proof.Machine Sys2Proof.Machine.PowerStates

/-! ### A commit requested while SYS is stopped (R25, R64, R253) -/

/-- The part in Slate, its SYS interconnect stopped, with the management controller running. -/
def inSlate : State :=
  { (inRun.put PWR_DOMSTAT_STATE 2).put PWR_DOMSTAT_SYS 1 with cmd := { inRun.cmd with mgmtUp := true } }

/-- Refutes O46: the first clause keeps every page but TBL_ and EVF_. The management controller's write of TBL_COMMIT in Slate reaches
it and is decided, but its access starts SYS on demand (R64), and PWR_DOMSTAT.SYS in the PWR_ page goes from 1 to 2. -/
theorem not_tableCommits : ¬ Obligations.TableCommits := by
  rintro ⟨hcommit, -⟩
  obtain ⟨t, ht, -, -, -, -, -, hregs⟩ := hcommit inSlate .mgmt 1 rfl (by decide +kernel) (by decide) (by decide +kernel)
    (by decide +kernel)
  have hstarts : readsAfter (.tableCommitRequest .mgmt 1) inSlate PWR_DOMSTAT_SYS = some 2 := by decide +kernel
  have hstopped : inSlate.get PWR_DOMSTAT_SYS = 1 := by decide +kernel
  rw [readsAfter_of_next ht, hregs PWR_DOMSTAT_SYS (by decide), hstopped] at hstarts
  exact absurd hstarts (by decide)

/-! ### Command packets in place 0 (R263, R273, R274) -/

/-- A packet that asks for a reply: its header with its check, and its payload. -/
def packetOf (op : Byte) (payload : List Byte) : List Byte :=
  let hdr : List Byte := [op, 2, 0, 0] ++ leBytes 2 payload.length
  hdr ++ leBytes 2 (crc16 hdr) ++ payload

/-- A place that holds such a packet, which has not run, as this principal's; how the principal was proven (R265) plays no part as it
runs. -/
def holding (op : Byte) (prin : Nat) (payload : List Byte) : Place := ⟨packetOf op payload, prin, none, false, false, 0, false⟩

/-- The part in Run in state MADE, with this in place 0 and no wiper running. -/
def commanded (pl : Place) : State :=
  { inRun with
    sec := { inRun.sec with fuses := 1 }
    ms := { inRun.ms with wipeQ := [] }
    cmd := { inRun.cmd with places := [some pl, none, none, none], serving := true, mgmtUp := true } }

/-- The replies that wait after a command; none where the command stops the model. -/
def repliesAfter (i : Instr) (s : State) : Option (List (Nat × List Byte)) :=
  match exec i s with
  | .next t => some t.cmd.replies
  | _ => none

theorem repliesAfter_of_next {i : Instr} {s t : State} (h : exec i s = .next t) : repliesAfter i s = some t.cmd.replies := by
  unfold repliesAfter
  rw [h]

/-! ### A staged layout over a live copy (R250, R252, R277) -/

/-- TABLE_WRITE of one word to table 0 from its first entry. -/
def writeOfTable0 : Place := holding 8 5 [0, 0, 0, 0, 0xA5, 0xA5, 0xA5, 0xA5]

/-- Table 0 is live in copy A, and its staged layout, which no commit has checked yet (R252), is one word at byte 0. Table 1 is live in
copy B with one word at byte 0, where that layout would place table 0's shadow. -/
def shadowMeetsLive : State :=
  ((((commanded writeOfTable0).put (TBL_SDESC0_CMDW 0) 1).put (TBL_SDESC1_COUNT 0) 1).put (TBL_LDESC1_COUNT 1) 1).put TBL_LIVE_LIVE 2

/-- Refutes O47: the clause of TABLE_WRITE has the data written and answers OK wherever it lies inside the staged extent, but data that
would meet the live copy of another table is refused as out of range (log entry 55). -/
theorem not_controlAndTableCommands : ¬ Obligations.ControlAndTableCommands := by
  rintro ⟨-, -, -, -, -, -, -, -, -, -, hwrite, -⟩
  obtain ⟨t, ht, ⟨-, hreplies⟩, -⟩ := hwrite shadowMeetsLive 0 writeOfTable0 rfl (by decide +kernel) (by decide +kernel)
    (by decide +kernel) (by decide +kernel) (by decide +kernel) (by decide +kernel) (by decide +kernel) (by decide +kernel)
    (by decide +kernel) (by decide +kernel) rfl
  have hrefused : repliesAfter (.tableWrite 0) shadowMeetsLive = some [(0, replyBytes writeOfTable0 [0xB, 0, 0, 0])] := by
    decide +kernel
  rw [repliesAfter_of_next ht, hreplies] at hrefused
  exact absurd hrefused (by decide +kernel)

/-! ### The turn of the bus is forgotten as the operations change (R304, R313, R315) -/

/-- Whether the NV engine is noted as having yielded to a bus access after a command; none where the command stops the model. -/
def yieldedAfter (i : Instr) (s : State) : Option Bool :=
  match exec i s with
  | .next t => some t.nvs.yielded
  | _ => none

theorem yieldedAfter_of_next {i : Instr} {s t : State} (h : exec i s = .next t) : yieldedAfter i s = some t.nvs.yielded := by
  unfold yieldedAfter
  rw [h]

/-- RECORD_READ of record 64 by MAKER. -/
def readOfRecord64 : Place := holding 0x47 2 [64, 0, 0, 0]

/-- The record engine is idle and record 64 has no valid copy, yet the engine is noted as having yielded to a bus access. No command
leaves that note with no operation under way, but State itself does not ask for it. -/
def yieldedWhileIdle : State :=
  { commanded readOfRecord64 with nvs := { (commanded readOfRecord64).nvs with yielded := true } }

/-- Refutes O50: the clause of RECORD_READ with no valid copy keeps all but registers and the command interpreter, but a read taken up
by the record engine ends with no operation of it under way, and the note that the engine has yielded is cleared. -/
theorem not_managementCommands : ¬ Obligations.ManagementCommands := by
  rintro ⟨-, -, -, -, -, -, -, -, -, -, -, -, -, -, hread, -⟩
  obtain ⟨t, ht, -, hsame, -⟩ := hread yieldedWhileIdle 0 readOfRecord64 64 rfl (by decide +kernel) (by decide +kernel)
    (by decide) (by decide +kernel) rfl rfl rfl rfl (by decide +kernel)
  have hcleared : yieldedAfter (.recordRead 0) yieldedWhileIdle = some false := by decide +kernel
  have hkept : t.nvs.yielded = true := by rw [← hsame]; rfl
  rw [yieldedAfter_of_next ht, hkept] at hcleared
  exact absurd hcleared (by decide)

end Sys2Proof.Machine.TablesAndCommands
end

section
/-! A counterexample of the event fabric that the model runs: a channel whose level stands is put in asynchronous mode while an EVO ball
follows it. -/

namespace Sys2Proof.Machine.EventFabric

open Sys2Proof Sys2Proof.Machine Sys2Proof.Machine.PowerStates

/-- The part in Run in state MADE with every channel synchronous. Channel 0 carries EVI0, producer 34, whose ball GPIO0 stands at 1, and
consumer 18 selects it for EVO0 on GPIO4. -/
def eviStandsAtEvo : State :=
  let s := ({ inRun with sec := { inRun.sec with fuses := 1 } }.put EVF_ASYNC_ASYNC 0).put (EVF_CHPMHI_MASK 0) (2 ^ 2)
  ((((s.put (GPIO_FUNC_FUNC 0) 2).put GPIO_IN_IN 1).put (GPIO_FUNC_FUNC 4) 2).put (EVF_CSEL_EN 18) 1).put (EVF_CSEL_CH 18) 0

/-- Refutes O51: the clause of EVF_ASYNC keeps every page but EVF_, but a write that puts channel 0 in asynchronous mode lets EVO0 follow
the level of EVI0, which stands (R286), and GPIO_EDGE of the GPIO page latches the rise of its ball (R464). -/
theorem not_events : ¬ Obligations.Events := by
  rintro ⟨-, -, -, -, -, -, -, -, -, -, -, -, -, -, hasync, -⟩
  obtain ⟨t, ht, -, -, -, -, -, hregs⟩ := hasync eviStandsAtEvo .core 1 rfl (by decide +kernel)
  have hrise : readsAfter (.asyncModeWrite .core 1) eviStandsAtEvo GPIO_EDGE_EDGE = some (2 ^ 4) := by decide +kernel
  have hlow : eviStandsAtEvo.get GPIO_EDGE_EDGE = 0 := by decide +kernel
  rw [readsAfter_of_next ht, hregs GPIO_EDGE_EDGE (by decide), hlow] at hrise
  exact absurd hrise (by decide)

end Sys2Proof.Machine.EventFabric
end

section
/-! Counterexamples of the non-volatile store that the model runs: page commands that go on, and a record read, where the engine is
noted as having yielded to a bus access while no operation is under way. -/

namespace Sys2Proof.Machine.NonvolatileStore

open Sys2Proof Sys2Proof.Machine Sys2Proof.Machine.PowerStates Sys2Proof.Machine.TablesAndCommands

/-- With no operation under way no word of the engine waits, and the note that it has yielded goes (R304). -/
theorem setOps_nil_yielded (s : State) : (setOps s []).nvs.yielded = false := by simp [setOps]

/-- PAGE_COMMAND_RESUME with no operation under way writes the empty list of operations anew. -/
theorem exec_pageCommandResume_idle {s : State} (hpor : s.por = false) (hsys : 2 ≤ s.get PWR_DOMSTAT_SYS)
    (hentry : s.pwr.entry = none) (hops : s.nvs.ops = []) : exec .pageCommandResume s = .next (setOps s []) := by
  change execPageCommandResume s = _
  simp [execPageCommandResume, live_run s _ hpor, nvResume, hsys, hentry, hops]

/-- Refutes O52: the clause of PAGE_COMMAND_RESUME keeps all of the NV engine but the suspensions. In a state that notes the engine as
having yielded while no operation is under way, which no command leaves but State itself allows, the note is cleared. -/
theorem not_pageEngine : ¬ Obligations.PageEngine := by
  rintro ⟨-, -, -, -, -, -, hresume, -⟩
  have hsys : 2 ≤ yieldedWhileIdle.get PWR_DOMSTAT_SYS := by decide +kernel
  obtain ⟨t, ht, hnvs, -⟩ := hresume yieldedWhileIdle rfl hsys rfl
  obtain rfl := Host.Outcome.next.inj ((exec_pageCommandResume_idle rfl hsys rfl rfl).symm.trans ht)
  have hkept : (setOps yieldedWhileIdle []).nvs.yielded = true := by rw [hnvs]; rfl
  exact absurd ((setOps_nil_yielded _).symm.trans hkept) (by decide)

/-- Refutes O53: the clause of a record read with no valid copy keeps all but registers and the bus answer, but the read ends with no
operation under way, and the note that the engine has yielded, which `yieldedWhileIdle` holds, is cleared. -/
theorem not_recordAndTallyEngine : ¬ Obligations.RecordAndTallyEngine := by
  rintro ⟨-, hnorec, -⟩
  obtain ⟨t, ht, -, -, -, -, -, -, hsame, -⟩ := hnorec yieldedWhileIdle .core 64 64 rfl (by decide +kernel) (by decide) (by decide)
    (by decide +kernel) rfl rfl rfl rfl (by decide +kernel)
  have hcleared : yieldedAfter (.nvsRecordRead .core 64) yieldedWhileIdle = some false := by decide +kernel
  have hkept : t.nvs.yielded = true := by rw [← hsame]; rfl
  rw [yieldedAfter_of_next ht, hkept] at hcleared
  exact absurd hcleared (by decide)

end Sys2Proof.Machine.NonvolatileStore
end

section
/-! The front of the queue: what a step runs (log entry 1). -/

namespace Sys2Proof.Machine.Queue

open Sys2Proof Sys2Proof.Machine

/-- With a command at its front the queue gives it to `exec`, on the state with the queue's rest. -/
theorem step_cons (s : State) (c : Instr) (rest : List Instr) :
    step { s with pending := c :: rest } = exec c { s with pending := rest } := rfl

/-- With no command waiting the block idles. -/
theorem step_nil {s : State} (h : s.pending = []) : step s = .next s := by
  unfold step
  rw [h]

/-- Settles O1: both cases are `step` at its two forms of the queue. -/
theorem queueFront : Obligations.QueueFront := ⟨step_cons, fun _ h => step_nil h⟩

end Sys2Proof.Machine.Queue
end

section
/-! Counterexamples of the clock and the displays that the model runs: an RTC_SET answered before its commit edge, an admission that
gives an update its age anew, and a region number that does not fit its field. -/

namespace Sys2Proof.Machine.Displays

open Sys2Proof Sys2Proof.Machine Sys2Proof.Machine.PowerStates Sys2Proof.Machine.TablesAndCommands

/-- What a part of the state reads after a command; none where the command stops the model. -/
def seenAfter {α : Type} (g : State → α) (i : Instr) (s : State) : Option α :=
  match exec i s with
  | .next t => some (g t)
  | _ => none

theorem seenAfter_of_next {α : Type} {g : State → α} {i : Instr} {s t : State} (h : exec i s = .next t) :
    seenAfter g i s = some (g t) := by
  unfold seenAfter
  rw [h]

/-! ### A commit edge for a place that has been answered (R274, R332) -/

/-- RTC_SET of MAKER, whose reply has been queued already. -/
def answeredSet : Place := { holding 0x4C 2 [] with replied := true }

/-- A staged time waits for its edge on behalf of that place. No command leaves the two together, for a reply is queued once and
COMMAND_TIMEOUT cuts the tie, but State itself does not ask for it. -/
def setAnswered : State :=
  let s := commanded answeredSet
  { s.put RTC_STAT_CPEND 1 with clk := { s.clk with staged := some (s.clk.t, some 0) } }

/-- Refutes O54: the ninth clause has the commit edge answer a staged RTC_SET whatever stands in its place, but a place whose reply has
been queued is not answered again. -/
theorem not_clockAndSegments : ¬ Obligations.ClockAndSegments := by
  rintro ⟨-, -, -, -, -, -, -, -, hedge, -⟩
  obtain ⟨t, ht, ⟨-, hreplies⟩, -⟩ := hedge setAnswered setAnswered.clk.t 0 answeredSet rfl (by decide +kernel) rfl rfl
  have hnone : repliesAfter .rtcCommitEdge setAnswered = some [] := by decide +kernel
  rw [repliesAfter_of_next ht, hreplies] at hnone
  exact absurd hnone (by decide +kernel)

/-! ### The age of an admitted update (R364, R366) -/

/-- A waiting update that has an age before it is admitted. No request makes one, but State itself does not ask for it. -/
def agedUpdate : Upd := { waitingUpdate with young := 1 }

/-- It is its region's newest, and there is energy to admit it. -/
def agedUpdateWaits : State :=
  { inRun.put HRV_EAVAIL_EAVAIL 1000000 with disp := { inRun.disp with upd := [agedUpdate], nextId := 1, newest := [(0, 1)] } }

/-- Refutes O55: the sixth clause has an admission change only whether the update runs and its band, but it gives the update its place in
the order of admission too: with no other running, 0. -/
theorem not_labelRequestsAndRegions : ¬ Obligations.LabelRequestsAndRegions := by
  rintro ⟨-, -, -, -, -, hadmit, -⟩
  obtain ⟨t, ht, hupd, -⟩ := hadmit agedUpdateWaits 25 0 agedUpdate 80000 rfl (by decide) rfl rfl rfl rfl rfl rfl rfl
    (by decide +kernel) rfl (by decide +kernel) (by decide +kernel)
  have hzero : seenAfter (fun u => u.disp.upd.map Upd.young) (.epdAdmission 25 0) agedUpdateWaits = some [0] := by
    decide +kernel
  rw [seenAfter_of_next ht, hupd] at hzero
  exact absurd hzero (by decide)

/-! ### A region outside 0 to 15 (R358) -/

/-- A running update of region 112, whose status word would lie at 0x4000D00C, in the TCH_ page. A request names a region of four bits,
but State itself does not ask for it. -/
def farUpdate : Upd := { waitingUpdate with region := 112, running := true }

/-- Its rails have been asked for and are not good yet. -/
def farUpdateRuns : State := { inRun.put EPD_STAT_HVON 1 with disp := { inRun.disp with upd := [farUpdate] } }

/-- Refutes O56: the second clause has HV_TIMEOUT report the result of the update's region and change nothing outside the PWR_, HRV_ and
EPD_ pages, and does not bound the region as the clauses on a frame's end do; that of region 112 lies in another page. -/
theorem not_labelRuns : ¬ Obligations.LabelRuns := by
  rintro ⟨-, htimeout, -⟩
  obtain ⟨t, -, -, hresult, -, -, -, -, -, hregs⟩ := htimeout farUpdateRuns farUpdate rfl rfl rfl rfl (by decide +kernel) rfl rfl
  have hkept : t.get (EPD_RGNST_RESULT 112) = farUpdateRuns.get (EPD_RGNST_RESULT 112) := hregs _ (by decide)
  have hzero : farUpdateRuns.get (EPD_RGNST_RESULT 112) = 0 := by decide +kernel
  have hcut : t.get (EPD_RGNST_RESULT 112) = 0x40 := hresult
  rw [hkept, hzero] at hcut
  exact absurd hcut (by decide)

end Sys2Proof.Machine.Displays
end

section
/-! Counterexamples that the model runs: the wake scan's hit and the tamper input, each the level of an event producer, while an EVO
ball follows it. -/

namespace Sys2Proof.Machine.TouchAndTamper

open Sys2Proof Sys2Proof.Machine Sys2Proof.Machine.PowerStates

/-- The part in Run in state MADE. Channel 0 is asynchronous and carries level producer `p`, of 32 to 44, and EVO0 on ball 4 follows it. -/
def evoFollows (p : Nat) : State :=
  let s := ((inRun.put (EVF_CHPMHI_MASK 0) (2 ^ (p - 32))).put EVF_ASYNC_ASYNC 1).put (EVF_CSEL_EN 18) 1
  { s.put (GPIO_FUNC_FUNC 4) 2 with sec := { s.sec with fuses := 1 } }

/-! ### The second hit of the wake scan (R286, R380, R464) -/

/-- The wake scan samples pin 0, an idle channel that has been hit once, and producer 32, the scan's hit, drives EVO0. -/
def wakeScanHits : State :=
  let s := (((evoFollows 32).put TCH_STAT_WSCAN 1).put TCH_WAKE_SLOTEN 1).put (TCH_CHST_STATE 0) 2
  { s with tch := { s.tch with ch := s.tch.ch.set 0 { tchAt s 0 with hit := 1 } } }

/-- Refutes O57: the last clause keeps every page but PWR_ and TCH_, but the level that a second hit raises lets EVO0 rise, and GPIO_EDGE
of the GPIO page latches it while SYS is clocked. -/
theorem not_touch : ¬ Obligations.Touch := by
  rintro ⟨-, -, -, -, -, -, -, -, hsecond⟩
  obtain ⟨t, ht, -, -, hregs⟩ := hsecond wakeScanHits [60000] 0 rfl (by decide +kernel) rfl (by decide) (by decide +kernel)
    (by decide +kernel) (by decide +kernel)
  have hrise : readsAfter (.wakeScanSample [60000]) wakeScanHits GPIO_EDGE_EDGE = some (2 ^ 4) := by decide +kernel
  have hlow : wakeScanHits.get GPIO_EDGE_EDGE = 0 := by decide +kernel
  rw [readsAfter_of_next ht, hregs GPIO_EDGE_EDGE (by decide), hlow] at hrise
  exact absurd hrise (by decide)

/-! ### The rise of the tamper input (R286, R413, R464) -/

/-- The tamper input is low, the hold capacitor is ready, and producer 33, the input's level, drives EVO0. -/
def tamperDrivesEvo : State := (evoFollows 33).put NVS_STAT_HOLDRDY 1

/-- Refutes O59: the twelfth clause keeps every page but PWR_, MEM_, NVS_ and SEC_, but the level of the tamper input lets EVO0 rise, and
GPIO_EDGE of the GPIO page latches it while SYS is clocked. -/
theorem not_resets : ¬ Obligations.Resets := by
  rintro ⟨-, -, -, -, -, -, -, -, -, -, -, htamper, -⟩
  obtain ⟨t, ht, -, -, -, -, -, -, -, hregs⟩ := htamper tamperDrivesEvo true rfl rfl rfl rfl rfl rfl (by decide +kernel) rfl
    (by decide +kernel) (by decide +kernel)
  have hrise : readsAfter (.tamperEdge true) tamperDrivesEvo GPIO_EDGE_EDGE = some (2 ^ 4) := by decide +kernel
  have hlow : tamperDrivesEvo.get GPIO_EDGE_EDGE = 0 := by decide +kernel
  rw [readsAfter_of_next ht, hregs GPIO_EDGE_EDGE (by decide), hlow] at hrise
  exact absurd hrise (by decide)

end Sys2Proof.Machine.TouchAndTamper
end

section
/-! Counterexamples of the life cycle and of debug that the model runs: a time-out of a command whose label update waits, and a read of
the NV store by the debug port beside a store that waits for the hold capacitor. -/

namespace Sys2Proof.Machine.Secrecy

open Sys2Proof Sys2Proof.Machine Sys2Proof.Machine.PowerStates Sys2Proof.Machine.TablesAndCommands Sys2Proof.Machine.Displays

/-! ### COMMAND_TIMEOUT of a label update's command (R274, R278) -/

/-- DISPLAY_REGION_UPDATE of MAKER, whose update waits. -/
def updateCommand : Place := { holding 0x4F 2 [] with waiting := true }

/-- The update in the displays' list owes its reply to that place. -/
def updateOwesReply : State :=
  { commanded updateCommand with disp := { inRun.disp with upd := [{ waitingUpdate with place := some 0 }] } }

/-- Refutes O49: the last clause keeps the displays' state, but the time-out frees the place, and the update that owed it a reply owes
none from then on. -/
theorem not_lifeCycleAndFirmwareCommands : ¬ Obligations.LifeCycleAndFirmwareCommands := by
  rintro ⟨-, -, -, -, -, -, -, -, -, -, -, htimeout⟩
  obtain ⟨t, ht, -, -, -, hsame, -⟩ := htimeout updateOwesReply 0 updateCommand rfl (by decide) rfl rfl rfl (by decide +kernel)
  have hfreed : seenAfter (fun u => u.disp.upd.map Upd.place) (.commandTimeout 0) updateOwesReply = some [none] := by
    decide +kernel
  have hkept : t.disp.upd.map Upd.place = [some 0] := by rw [← hsame]; rfl
  rw [seenAfter_of_next ht, hkept] at hfreed
  exact absurd hfreed (by decide)

/-! ### A read of the NV store by the debug port (R301, R304, R463) -/

/-- Where the store at the head of the buffer waits and its page is not being moved, a turn at the NV store takes it out of the
buffer, whatever the hold capacitor does. -/
theorem headGone_nvTurn (s : State) (hw : headWaits s = true) (hm : headMoves s = false) : HeadGone s (nvTurn s) := by
  obtain ⟨st, l, hst⟩ : ∃ st l, s.dx.stores = st :: l := by
    unfold headWaits at hw
    split at hw
    · exact ⟨_, _, ‹_›⟩
    · cases hw
  have hkeeps := holdWait_keeps s
  have hst' : (holdWait s).2.dx.stores = st :: l := by rw [hkeeps.1, hst]
  unfold nvTurn holdTurn
  simp only [hw, hm, Bool.not_false, Bool.and_self, Bool.not_true, Bool.false_eq_true, if_false, if_true]
  split
  · exact .of_keeps hkeeps (headGone_nvHead _ st l hst')
  · exact .of_keeps hkeeps (headGone_failHead _ st l hst')

/-- A read of a word of the NV store by the debug access port leaves the core's state. -/
theorem dx_nvRead_dap (s : State) (a : Nat) : (nvRead s .dap a).2.dx = s.dx := by
  have hfetch := (coreKept_nvFetch s a).dx
  unfold nvRead
  split <;> rename_i h <;> rwa [h] at hfetch

/-- A read of an aligned word of the NV store by the debug access port changes the core's state as its turn there does. -/
theorem dx_readMem_dap {s : State} {a : Nat} (hal : a % 4 = 0) (hset : unalias a = a) (hrom : inRom a = false)
    (hsram : inSram a = false) (hnv : inNv a = true) (hmove : nvWait s a = s) : (readMem s .dap a 4).2.dx = (nvTurn s).dx := by
  unfold readMem readWord
  simp only [hal, Nat.sub_zero, hset, hrom, hsram, hnv, hmove, Bool.false_eq_true, if_false, if_true, Nat.reduceEqDiff]
  exact dx_nvRead_dap _ a

/-- A bus read of a memory leaves the core's state as the access of the memory itself does. -/
theorem dx_busRead {s : State} {m : Master} {p a : Nat} (hal : a % 4 = 0) (hacc : access s m p a 4 0 0 = .ok)
    (hpage : inPage a = false) : (busRead s m p a).dx = (readMem (busTurn (busWake s m a) a) m a 4).2.dx := by
  unfold busRead
  simp only [hal, hacc, hpage, Bool.false_eq_true, if_false, if_true]
  split <;> rename_i h <;> rw [h]

/-- The part in state MADE with its JTAG port up and HOLDRDY 0: a word store of the core to the NV store is buffered. -/
def storeAwaitsHold : State :=
  { inRun.put NVS_STAT_HOLDRDY 0 with
    vio := 15
    sec := { inRun.sec with fuses := 1 }
    dx := { inRun.dx with stores := [⟨0x20020000, 4, 5, 0, 8⟩] } }

/-- That state as the debug port's read of the image reaches the NV store: SYS runs already, and no engine has a word to write. -/
def turnOfRead : State := busTurn (busWake storeAwaitsHold .dap 0x20010000) 0x20010000

/-- The read has the store leave the buffer, whether it is written or fails. -/
theorem stores_busRead_storeAwaitsHold : (busRead storeAwaitsHold .dap 2 0x20010000).dx.stores = [] := by
  have hhead := headGone_nvTurn turnOfRead (by decide +kernel) (by decide +kernel)
  have hread : (readMem turnOfRead .dap 0x20010000 4).2.dx = (nvTurn turnOfRead).dx :=
    dx_readMem_dap (by decide) (by decide) (by decide) (by decide) (by decide) (by rfl)
  have hone : turnOfRead.dx.stores.tail = [] := by decide +kernel
  rw [dx_busRead (by decide) (by decide +kernel) (by decide)]
  exact (congrArg Dx.stores hread).trans (hhead.stores.trans hone)

/-- Refutes O58: the clause of a debug window keeps the core's state, but a read of the NV store comes after a store of the core that
waits for the hold capacitor, and that store leaves the buffer. -/
theorem not_debugJtagAndServices : ¬ Obligations.DebugJtagAndServices := by
  rintro ⟨-, -, -, -, -, -, -, -, -, -, -, -, hwindow, -⟩
  obtain ⟨t, ht, -, -, -, hsame, -⟩ := hwindow storeAwaitsHold 0 0x20010000 rfl rfl (by decide) (by decide) (by decide)
    (by decide +kernel)
  have hexec : exec (.dapacc 0 (some 0x20010000)) storeAwaitsHold =
      .next (dapTdo (busRead storeAwaitsHold .dap (dapTag storeAwaitsHold) 0x20010000) true) := by
    change execDapacc 0 storeAwaitsHold (some 0x20010000) = _
    exact live_run _ _ rfl
  have htag : dapTag storeAwaitsHold = 2 := by decide +kernel
  rw [htag] at hexec
  obtain rfl := Host.Outcome.next.inj (hexec.symm.trans ht)
  have hkept : (busRead storeAwaitsHold .dap 2 0x20010000).dx.stores = storeAwaitsHold.dx.stores :=
    congrArg (fun u => u.dx.stores) hsame.symm
  rw [stores_busRead_storeAwaitsHold] at hkept
  exact absurd hkept (by decide)

end Sys2Proof.Machine.Secrecy
end

section
/-! Sessions: the answer of a management command, and SESSION_OPEN, SESSION_PROVE, SESSION_CLOSE and SESSION_TIMEOUT (R274, R275, R395
to R398). -/

namespace Sys2Proof.Machine.Secrecy

open Sys2Proof Sys2Proof.Machine Sys2Proof.Machine.PowerStates

/-! ### A command and its answer (R274, R275) -/

section
variable {s : State} {p op : Nat} {pl : Place} (h : s.opReady p op pl = true)
include h

theorem placeAt_of_opReady : placeAt s p = some pl := by
  simp only [State.opReady, Bool.and_eq_true, beq_iff_eq] at h
  obtain ⟨⟨⟨⟨-, hplace⟩, -⟩, -⟩, -⟩ := h
  exact hplace

theorem lt_places_of_opReady : p < s.cmd.places.length := by
  simp only [State.opReady, Bool.and_eq_true, decide_eq_true_eq] at h
  obtain ⟨⟨⟨⟨⟨hp, hlen⟩, -⟩, -⟩, -⟩, -⟩ := h
  omega

theorem replied_of_opReady : pl.replied = false := by
  simp only [State.opReady, Bool.and_eq_true, Bool.not_eq_true'] at h
  obtain ⟨⟨-, hreplied⟩, -⟩ := h
  exact hreplied

/-- A command that is ready runs. -/
theorem runOp_of_opReady (f : State → Nat → List Byte → State) : runOp s p op f = f s pl.prin (pPay pl.pkt) := by
  have hplace := placeAt_of_opReady h
  simp only [State.opReady, Bool.and_eq_true, beq_iff_eq, Bool.not_eq_true'] at h
  obtain ⟨⟨⟨-, hop⟩, hreplied⟩, hwaiting⟩ := h
  simp [runOp, hplace, hop, hreplied, hwaiting]

end

/-- The command interpreter once place `p`'s packet is answered with this status, other than WRONG_STATE, and data. -/
def answeredCmds (c : Cmds) (p : Nat) (pl : Place) (st : Nat) (data : List Byte) : Cmds :=
  if pReply pl.pkt then
    { c with
      places := c.places.set p (some { pl with replied := true, waiting := false })
      replies := c.replies ++ [(p, replyBytes pl (BitVec.ofNat 8 st :: 0 :: 0 :: 0 :: data))] }
  else { c with places := c.places.set p none }

/-- The answer to a ready command changes the command interpreter alone, however the state has changed elsewhere. -/
theorem reply_of_opReady {s u : State} {p op : Nat} {pl : Place} (h : s.opReady p op pl = true) (hcmd : u.cmd = s.cmd) {st : Nat}
    (hst : st ≠ 2) (why : Nat) (data : List Byte) :
    reply u p st why data = { u with cmd := answeredCmds s.cmd p pl st data } := by
  have hplace : placeAt u p = some pl := by
    unfold placeAt
    rw [hcmd]
    exact placeAt_of_opReady h
  unfold reply answeredCmds
  simp only [hplace, replied_of_opReady h, Bool.false_eq_true, if_false, queueReply, statusPay, hst]
  rw [← hcmd]
  split <;> rfl

/-- The step of a command whose effect `u` leaves the command interpreter and which is answered. -/
theorem next_answered {s u : State} {i : Instr} {p op st why : Nat} {pl : Place} {data : List Byte} (h : s.opReady p op pl = true)
    (hexec : exec i s = .next (reply u p st why data)) (hcmd : u.cmd = s.cmd) (hst : st ≠ 2) :
    exec i s = .next { u with cmd := answeredCmds s.cmd p pl st data } := by
  rw [hexec, reply_of_opReady h hcmd hst]

theorem answered_of_cmd {s t : State} {p op : Nat} {pl : Place} (h : s.opReady p op pl = true) {st : Nat} {data : List Byte}
    (ht : t.cmd = answeredCmds s.cmd p pl st data) : answered s t p pl st data := by
  have hp := lt_places_of_opReady h
  unfold answered placeAt
  rw [ht, answeredCmds]
  split <;> simp [hp]

/-! ### SESSION_OPEN (R395, R396) -/

theorem exec_sessionOpen {s : State} {p : Nat} {pl : Place} (hpor : s.por = false) (h : s.opReady p 0x40 pl = true) :
    exec (.sessionOpen p) s = .next (sessionOpen s p (pPay pl.pkt)) := by
  change execSessionOpen p s = _
  rw [execSessionOpen, live_run _ _ hpor, runOp_of_opReady h]

section
variable {s : State} {p : Nat} {l : List Byte} (hlen : l.length = 20) (hslot : slotted (pf l 0 1) = true) (hzero : pf l 1 3 = 0)
  (hlow : s.sec.tampin = false) (hnone : s.sec.sess = none)
include hlen hslot hzero hlow hnone

/-- The principal of a claimed slot is given a fresh challenge. -/
theorem sessionOpen_claimed {salt : List Byte} (hsalt : saltOf s (pf l 0 1) = some salt) :
    sessionOpen s p l =
      reply (sk (s.random 16).2 fun c =>
        { c with chal := some ⟨pf l 0 1, prinKey s (pf l 0 1) salt, (l.drop 4).take 16, (s.random 16).1, 0⟩, claim := none })
        p 0 0 (s.random 16).1 := by
  have hsalt' : saltOf (s.random 16).2 (pf l 0 1) = some salt := hsalt
  simp only [sessionOpen, hlow, hlen, hslot, hzero, hsalt, hnone, hsalt', orGo, gate, Bool.not_false, beq_self_eq_true,
    Option.isSome_some, Option.isSome_none, Bool.true_or, Bool.and_self, Bool.not_true, Bool.false_eq_true, if_false, if_true]
  rfl

/-- The principal of a slot that may be claimed is given the key of a fresh salt. -/
theorem sessionOpen_claimable (hsalt : saltOf s (pf l 0 1) = none) (hclaim : claimable s (pf l 0 1) = true) :
    sessionOpen s p l =
      reply (sk (s.random 16).2 fun c =>
        { c with
          chal := some ⟨pf l 0 1, prinKey s (pf l 0 1) (s.random 16).1, (l.drop 4).take 16, zero16, 0⟩
          claim := some (s.random 16).1 })
        p 0 0 (prinKey s (pf l 0 1) (s.random 16).1) := by
  have hsalt' : saltOf (s.random 16).2 (pf l 0 1) = none := hsalt
  simp only [sessionOpen, hlow, hlen, hslot, hzero, hsalt, hclaim, hnone, hsalt', orGo, gate, Bool.not_false, beq_self_eq_true,
    Option.isSome_none, Bool.or_true, Bool.and_self, Bool.not_true, Bool.false_eq_true, if_false, if_true]
  rfl

end

/-- With the tamper input high no session opens (R413). -/
theorem sessionOpen_tamper {s : State} (p : Nat) (l : List Byte) (hhigh : s.sec.tampin = true) :
    sessionOpen s p l = reply s p 3 0 [] := by
  simp [sessionOpen, hhigh, orGo, gate]

/-! ### SESSION_PROVE (R395, R397) -/

/-- The session that a passing proof opens: the challenge's nonces give its command key, and its nonce is 1. -/
def opened (x : Sess) : Sess := { x with key := cmdKey x.key x.nh x.cd, nonce := 1 }

/-- What a passing proof leaves once a claim's slot, if it is one, has been written. -/
def sessionStarted (s : State) (x : Sess) : State :=
  ((sk s fun c => { c with chal := none, claim := none, sess := some (opened x) }).put SEC_SESS_FAILS 0).put SEC_EVT_SESSOPEN 1

/-- What a failing proof leaves (R398). -/
def proofFailed (s : State) : State :=
  ((sk s fun c => { c with chal := none, claim := none }).put SEC_AUTHCNT_COUNT (min (s.get SEC_AUTHCNT_COUNT + 1) 65535)).put
    SEC_EVT_AUTHFAIL 1

/-- A claim's slot as it is written: the salt, and the event. -/
def slotWritten (s : State) (x : Sess) (salt : List Byte) : State :=
  (sk (demandStart s 0) fun c => { c with slots := c.slots.set (x.prin - 1) (some salt) }).put SEC_EVT_CLAIM 1

theorem sessionBegin_unclaimed {s : State} (x : Sess) (h : s.sec.claim = none) :
    sessionBegin s x = (true, sessionStarted s x) := by
  simp only [sessionBegin, claimDone, h]
  rfl

theorem sessionBegin_claim {s : State} (x : Sess) {salt : List Byte} (h : s.sec.claim = some salt)
    (hready : s.on NVS_STAT_HOLDRDY = true) : sessionBegin s x = (true, sessionStarted (slotWritten s x salt) x) := by
  have hslot : claimSlot s x.prin salt = (true, slotWritten s x salt) := claimSlot_ready s x.prin salt hready
  simp only [sessionBegin, claimDone, h, hslot]
  rfl

section
variable {s : State} {p : Nat} {pl : Place} {x : Sess} (hpor : s.por = false) (h : s.opReady p 0x41 pl = true)
  (hchal : s.sec.chal = some x) (hlen : (pPay pl.pkt).length = 16)
include hpor h hchal hlen

/-- A proof that passes, whose claim, if it is one, is written. -/
theorem exec_sessionProve_pass (hmac : pPay pl.pkt = cmac x.key (proofMsg x.prin 0 x.nh x.cd)) {u : State}
    (hbegin : sessionBegin s x = (true, u)) : exec (.sessionProve p) s = .next (reply u p 0 0 []) := by
  change execSessionProve p s = _
  rw [execSessionProve, live_run _ _ hpor, runOp_of_opReady h]
  simp [orGo, gate, hlen, hchal, hbegin, ← hmac]

theorem exec_sessionProve_fail (hmac : pPay pl.pkt ≠ cmac x.key (proofMsg x.prin 0 x.nh x.cd)) :
    exec (.sessionProve p) s = .next (reply (proofFailed s) p 7 0 []) := by
  change execSessionProve p s = _
  rw [execSessionProve, live_run _ _ hpor, runOp_of_opReady h]
  simp [orGo, gate, hlen, hchal, hmac]
  rfl

end

/-! ### The end of a session (R398) -/

/-- What the end of a session leaves. -/
def sessionEnded (s : State) : State :=
  ((sk s fun c => { c with sess := none }).put SEC_EVT_SESSEND 1).put SEC_SESS_FAILS 0

theorem endSession_open {s : State} (h : s.sec.sess.isSome = true) : endSession s = sessionEnded s := by
  simp only [endSession, h, if_true]
  rfl

/-- SESSION_CLOSE of an authenticated packet ends the session and answers. -/
theorem exec_sessionClose {s : State} {p : Nat} {pl : Place} (hpor : s.por = false) (h : s.opReady p 0x42 pl = true)
    (hempty : pPay pl.pkt = []) (hauth : pl.nonce.isSome = true) (hopen : s.sec.sess.isSome = true) :
    exec (.sessionClose p) s = .next (reply (sessionEnded s) p 0 0 []) := by
  change execSessionClose p s = _
  rw [execSessionClose, live_run _ _ hpor, runOp_of_opReady h]
  simp [orGo, gate, hempty, placeAt_of_opReady h, hauth, endSession_open hopen]

/-! ### The registers these leave -/

/-- SYS starts where it is stopped (R64). -/
theorem demandStart_sys (s : State) : demandStart s 0 = s.put PWR_DOMSTAT_SYS 2 ∨ demandStart s 0 = s := by
  change (if _ then s.put PWR_DOMSTAT_SYS 2 else s) = _ ∨ (if _ then s.put PWR_DOMSTAT_SYS 2 else s) = s
  split
  · exact .inl rfl
  · exact .inr rfl

theorem sameRegs_demandStart_sys {pages : List Nat} (s : State) (h : 0 ∈ pages) : sameRegs pages s (demandStart s 0) := by
  obtain hstart | hruns := demandStart_sys s
  · rw [hstart]; exact sameRegs_put _ _ h (sameRegs_refl _ s)
  · rw [hruns]; exact sameRegs_refl _ s

theorem sameRegs_sessionStarted {pages : List Nat} (s : State) (x : Sess) (h : 14 ∈ pages) :
    sameRegs pages s (sessionStarted s x) :=
  sameRegs_put _ _ h (sameRegs_put _ _ h (sameRegs_refl _ s))

theorem sameRegs_slotWritten {pages : List Nat} (s : State) (x : Sess) (salt : List Byte) (h0 : 0 ∈ pages) (h : 14 ∈ pages) :
    sameRegs pages s (slotWritten s x salt) :=
  sameRegs_put _ _ h (sameRegs_demandStart_sys s h0)

theorem sameRegs_proofFailed (s : State) : sameRegs [14] s (proofFailed s) :=
  sameRegs_put _ _ (by decide) (sameRegs_put _ _ (by decide) (sameRegs_refl _ s))

theorem sameRegs_sessionEnded (s : State) : sameRegs [14] s (sessionEnded s) :=
  sameRegs_put _ _ (by decide) (sameRegs_put _ _ (by decide) (sameRegs_refl _ s))

/-- Beside registers the slot alone is written. -/
theorem slotWritten_eq (s : State) (x : Sess) (salt : List Byte) :
    ∃ r, slotWritten s x salt =
      { s with regs := r, sec := { s.sec with slots := s.sec.slots.set (x.prin - 1) (some salt) } } := by
  unfold slotWritten
  obtain h | h := demandStart_sys s <;> exact ⟨_, by rw [h]; rfl⟩

theorem sessionStarted_fails (s : State) (x : Sess) : (sessionStarted s x).get SEC_SESS_FAILS = 0 := by
  rw [sessionStarted, get_put_ne _ _ _ _ (by decide), get_put_self]; rfl

theorem sessionStarted_event (s : State) (x : Sess) : (sessionStarted s x).get SEC_EVT_SESSOPEN = 1 := get_put_self _ _ _

theorem sessionStarted_claimEvent (s : State) (x : Sess) (salt : List Byte) :
    (sessionStarted (slotWritten s x salt) x).get SEC_EVT_CLAIM = 1 := by
  rw [sessionStarted, get_put_ne _ _ _ _ (by decide), get_put_ne _ _ _ _ (by decide), sk_get]
  exact get_put_self _ _ _

theorem proofFailed_event (s : State) : (proofFailed s).get SEC_EVT_AUTHFAIL = 1 := get_put_self _ _ _

theorem proofFailed_count (s : State) : (proofFailed s).get SEC_AUTHCNT_COUNT = min (s.get SEC_AUTHCNT_COUNT + 1) 65535 := by
  rw [proofFailed, get_put_ne _ _ _ _ (by decide), get_put_self]
  exact Nat.mod_eq_of_lt (Nat.lt_of_le_of_lt (Nat.min_le_right _ _) (by decide))

theorem sessionEnded_fails (s : State) : (sessionEnded s).get SEC_SESS_FAILS = 0 := get_put_self _ _ _

theorem sessionEnded_event (s : State) : (sessionEnded s).get SEC_EVT_SESSEND = 1 := by
  rw [sessionEnded, get_put_ne _ _ _ _ (by decide), get_put_self]; rfl

/-- Settles O48: each command's step as one of the states above, answered; the answer changes the command interpreter alone. -/
theorem sessionCommands : Obligations.SessionCommands := by
  refine ⟨?opens, ?claims, ?denied, ?proves, ?fails, ?closes, ?timesOut, ?provesClaim⟩
  case opens =>
    intro s p pl salt hpor h hlen hslot hzero hlow hnone hsalt
    have ht := exec_sessionOpen hpor h
    rw [sessionOpen_claimed hlen hslot hzero hlow hnone hsalt] at ht
    replace ht := next_answered h ht rfl (by decide)
    exact ⟨_, ht, answered_of_cmd h rfl, rfl, rfl, hnone, rfl⟩
  case claims =>
    intro s p pl hpor h hlen hslot hzero hlow hnone hsalt hclaim
    have ht := exec_sessionOpen hpor h
    rw [sessionOpen_claimable hlen hslot hzero hlow hnone hsalt hclaim] at ht
    replace ht := next_answered h ht rfl (by decide)
    exact ⟨_, ht, answered_of_cmd h rfl, rfl, hnone, rfl⟩
  case denied =>
    intro s p pl hpor h hhigh
    have ht := exec_sessionOpen hpor h
    rw [sessionOpen_tamper p _ hhigh] at ht
    replace ht := next_answered h ht rfl (by decide)
    exact ⟨_, ht, answered_of_cmd h rfl, rfl⟩
  case proves =>
    intro s p pl x hpor h hchal hlen hmac hclaim
    have ht := next_answered h (exec_sessionProve_pass hpor h hchal hlen hmac (sessionBegin_unclaimed x hclaim)) rfl (by decide)
    refine ⟨_, ht, answered_of_cmd h rfl, ?_, sessionStarted_fails s x, sessionStarted_event s x, rfl,
      sameRegs_sessionStarted s x (by decide)⟩
    change { s.sec with chal := none, claim := none, sess := some (opened x) } = _
    rw [← hclaim]
    rfl
  case fails =>
    intro s p pl x hpor h hchal hlen hmac
    have ht := next_answered h (exec_sessionProve_fail hpor h hchal hlen hmac) rfl (by decide)
    exact ⟨_, ht, answered_of_cmd h rfl, rfl, proofFailed_count s, proofFailed_event s, rfl, sameRegs_proofFailed s⟩
  case closes =>
    intro s p pl hpor h hempty hauth hopen
    have ht := next_answered h (exec_sessionClose hpor h hempty hauth hopen) rfl (by decide)
    exact ⟨_, ht, answered_of_cmd h rfl, rfl, sessionEnded_event s, sessionEnded_fails s, rfl, sameRegs_sessionEnded s⟩
  case timesOut =>
    intro s hpor hopen
    have ht : exec .sessionTimeout s = .next (sessionEnded s) := by
      change execSessionTimeout s = _
      rw [execSessionTimeout, live_run _ _ hpor, endSession_open hopen]
    exact ⟨_, ht, rfl, sessionEnded_event s, sessionEnded_fails s, rfl, sameRegs_sessionEnded s⟩
  case provesClaim =>
    intro s p pl x salt hpor h hchal hlen hmac hclaim hready
    have hregs : sameRegs [0, 14] s (sessionStarted (slotWritten s x salt) x) :=
      sameRegs_trans (sameRegs_slotWritten s x salt (by decide) (by decide)) (sameRegs_sessionStarted _ x (by decide))
    have hevent := sessionStarted_claimEvent s x salt
    have hbegin := sessionBegin_claim x hclaim hready
    obtain ⟨r, hslot⟩ := slotWritten_eq s x salt
    rw [hslot] at hregs hevent hbegin
    have ht := next_answered h (exec_sessionProve_pass hpor h hchal hlen hmac hbegin) rfl (by decide)
    exact ⟨_, ht, answered_of_cmd h rfl, rfl, sessionStarted_fails _ x, sessionStarted_event _ x, hevent, rfl, hregs⟩

end Sys2Proof.Machine.Secrecy
end

section
/-! The serial blocks as the bus reaches them: FIFOs, SPI_CMD and I2C_CMD (R25, R465 to R468). -/

namespace Sys2Proof.Machine.SerialBlocks

open Sys2Proof Sys2Proof.Machine Sys2Proof.Machine.PowerStates Sys2Proof.Machine.EnergyStore
open Sys2Proof.Machine.BolinaLink Sys2Proof.Machine.Secrecy

/-! ### An access to a page that SYS serves (R8, R25, R64) -/

/-- An access starts SYS where it is stopped, and changes nothing but the PWR_ page's registers. -/
theorem sysAwake (s : State) : ∃ r, demandStart s 0 = { s with regs := r } ∧ sameRegs [0] s { s with regs := r } := by
  have hregs := sameRegs_demandStart_sys (pages := [0]) s (by decide)
  obtain h | h := demandStart_sys s <;> rw [h] at hregs ⊢
  · exact ⟨_, rfl, hregs⟩
  · exact ⟨_, rfl, hregs⟩

/-- The pages of the serial blocks are served while SYS runs. -/
theorem busWake_serial (s : State) (m : Master) {a : Nat} (hlow : 0x40010000 ≤ a) (hhigh : a < 0x40014000) :
    busWake s m a = demandStart s 0 := by
  have hpage : inPage a = true := by simp [inPage]; omega
  have hlcd : a / 4096 ≠ 0x4000C := by omega
  have htbl : a / 4096 ≠ 0x40007 := by omega
  simp [busWake, hpage, pageWake, hlcd, htbl, hlow]

section
variable {s : State} {m : Master} {a v : Nat} (hlow : 0x40010000 ≤ a) (hhigh : a < 0x40014000) (hal : a % 4 = 0)
include hlow hhigh hal

/-- A write that reaches a register of a serial block does what the register does and answers OK. -/
theorem rowWrite_serial (h : s.reaches m a 1 v = true) (hdx : (portWrite (demandStart s 0) a v).dx = s.dx) :
    rowWrite m a v s = writeOk (portWrite (demandStart s 0) a v) := by
  have hordered := ordered_of_reaches h
  have hwake := busWake_serial s m hlow hhigh
  have hpage : inPage a = true := by simp [inPage]; omega
  have hreg : ∀ (t : State) (p : Nat), regWrite t p a v = portWrite t a v := by
    intro t p
    obtain hk | hk | hk | hk : a / 4096 = 0x40010 ∨ a / 4096 = 0x40011 ∨ a / 4096 = 0x40012 ∨ a / 4096 = 0x40013 := by omega
    all_goals simp [regWrite, hk]
  simp only [State.reaches, Bool.and_eq_true, Bool.not_eq_true', decide_eq_true_eq] at h
  obtain ⟨⟨⟨⟨-, hacts⟩, -⟩, hmc⟩, hguard⟩ := h
  have hwrite : busWriteBy (fun t => regWrite t (masterTag s m) a v) s m (masterTag s m) a v =
      writeOk (portWrite (demandStart s 0) a v) := by
    simp [busWriteBy, writeOk, hal, hguard, hpage, hwake, hreg]
  simp only [rowWrite, rowWriteBy, hordered, hacts, Bool.not_true, Bool.false_eq_true, if_false, hwrite]
  split
  · next hcore =>
    have hnone : s.dx.mcPend = false := by simpa [hcore] using hmc
    simp [coreTakes, noteLater, writeOk, hdx, hnone]
  · rfl

/-- So it does with what the register does on the state with SYS running. -/
theorem rowWrite_effect (h : s.reaches m a 1 v = true) {r : Sparse Nat} (hawake : demandStart s 0 = { s with regs := r }) {u : State}
    (hwrite : portWrite { s with regs := r } a v = u) (hdx : u.dx = s.dx) : rowWrite m a v s = writeOk u := by
  have heffect : portWrite (demandStart s 0) a v = u := by rw [hawake, hwrite]
  rw [rowWrite_serial hlow hhigh hal h (by rw [heffect, hdx]), heffect]

/-- A read that reaches a register of a serial block answers its value. -/
theorem rowRead_serial (h : s.reaches m a 0 0 = true) :
    rowRead m a s = { (regRead (demandStart s 0) a).2 with bus := .ok (regRead (demandStart s 0) a).1 } := by
  have hordered := ordered_of_reaches h
  have hwake := busWake_serial s m hlow hhigh
  have hpage : inPage a = true := by simp [inPage]; omega
  simp only [State.reaches, Bool.and_eq_true, Bool.not_eq_true', decide_eq_true_eq] at h
  obtain ⟨⟨⟨⟨-, hacts⟩, -⟩, -⟩, hguard⟩ := h
  have hread : busRead s m (masterTag s m) a =
      { (regRead (demandStart s 0) a).2 with bus := .ok (regRead (demandStart s 0) a).1 } := by
    simp [busRead, hal, hguard, hpage, hwake]
  simp [rowRead, hordered, hacts, hread, coreTakes]

end

/-! ### The FIFOs (R465) -/

/-- Block `k` takes writes of its transmit data register: an SPI block does while it is enabled. -/
def TakesBytes (s : State) (k : Nat) : Prop := k < 2 → s.on (SPI_CFG_EN k) = true

theorem TakesBytes.guard {s : State} {k : Nat} (h : TakesBytes s k) : (decide (k < 2) && !s.on (SPI_CFG_EN k)) = false := by
  by_cases hk : k < 2
  · simp [h hk]
  · simp [hk]

/-- Whether a block does so is not in the PWR_ page. -/
theorem TakesBytes.awake {s t : State} {k : Nat} (h : TakesBytes s k) (hregs : sameRegs [0] s t) : TakesBytes t k := fun hk => by
  have hpage : pageOf (SPI_CFG_EN k) ∉ [0] := by
    obtain rfl | rfl : k = 0 ∨ k = 1 := by omega
    all_goals decide
  unfold State.on
  rw [hregs _ hpage]
  exact h hk

/-- With room a write of a transmit data register adds its byte. -/
theorem txData_room {s : State} {k : Nat} (v : Word) (hon : TakesBytes s k) (hroom : (port s k).tx.length < 16) :
    txData s k v.toNat = setPort s k { port s k with tx := (port s k).tx ++ [v.setWidth 8] } := by
  have hnot : ¬16 ≤ (port s k).tx.length := by omega
  simp only [txData, hon.guard, hnot, Bool.false_eq_true, if_false, BitVec.ofNat_toNat]

/-- TXOVF of a block. -/
abbrev txovfFld (k : Nat) : Fld := ⟨portEvtAddr k, txovf k, 1, .w1c, 0⟩

/-- A full FIFO keeps its bytes, and TXOVF is set. -/
theorem txData_full {s : State} {k : Nat} (v : Nat) (hon : TakesBytes s k) (hfull : 16 ≤ (port s k).tx.length) :
    txData s k v = s.put (txovfFld k) 1 := by
  have hflag : txovf k ≠ 0 := by unfold txovf; split <;> [decide; (split <;> decide)]
  simp only [txData, hon.guard, hfull, Bool.false_eq_true, if_false, if_true, portEvt, hflag]
  rfl

section
variable {s : State} {m : Master} {a k : Nat} {v : Word} (h : s.reaches m a 1 v.toNat = true) (hlow : 0x40010000 ≤ a)
  (hhigh : a < 0x40014000) (hal : a % 4 = 0) (hreg : ∀ t, portWrite t a v.toNat = txData t k v.toNat)
  (hon : TakesBytes s k)
include h hlow hhigh hal hreg hon

/-- A write of the transmit data register at `a` adds its byte to block `k`'s FIFO that has room. -/
theorem rowWrite_txData_room (hroom : (port s k).tx.length < 16) :
    ∃ t, rowWrite m a v.toNat s = t ∧ t.ports = s.ports.set k { port s k with tx := (port s k).tx ++ [v.setWidth 8] } ∧
      t.bus = .ok 0 ∧ { s with ports := t.ports, regs := t.regs, bus := t.bus } = t ∧ sameRegs [0] s t := by
  obtain ⟨r, hawake, hregs⟩ := sysAwake s
  have hroom' : (port { s with regs := r } k).tx.length < 16 := hroom
  exact ⟨_, rowWrite_effect hlow hhigh hal h hawake ((hreg _).trans (txData_room v (hon.awake hregs) hroom')) rfl, rfl, rfl, rfl,
    hregs⟩

/-- On a full FIFO it sets TXOVF. -/
theorem rowWrite_txData_full (hfull : 16 ≤ (port s k).tx.length) {pages : List Nat} (h0 : 0 ∈ pages)
    (hpage : pageOf (txovfFld k) ∈ pages) :
    ∃ t, rowWrite m a v.toNat s = t ∧ t.get (txovfFld k) = 1 ∧
      { s with regs := t.regs, bus := t.bus } = t ∧ sameRegs pages s t := by
  obtain ⟨r, hawake, hregs⟩ := sysAwake s
  have hfull' : 16 ≤ (port { s with regs := r } k).tx.length := hfull
  exact ⟨_, rowWrite_effect hlow hhigh hal h hawake ((hreg _).trans (txData_full _ (hon.awake hregs) hfull')) rfl,
    (writeOk_get _ _).trans (get_put_self _ _ _), rfl,
    sameRegs_writeOk (sameRegs_put _ _ hpage (sameRegs_widen hregs (by simpa using h0)))⟩

end

section
variable {s : State} {m : Master} {a k : Nat} (h : s.reaches m a 0 0 = true) (hport : rxdPort a = some k)
include h hport

/-- A read of a receive data register is one of the block's FIFO. -/
theorem rowRead_rxData :
    rowRead m a s = { (rxData (demandStart s 0) k).2 with bus := .ok (rxData (demandStart s 0) k).1 } := by
  have ha : a = 0x4001000C ∨ a = 0x4001100C ∨ a = 0x4001200C ∨ a = 0x40013008 := by
    unfold rxdPort at hport
    grind
  have hread : ∀ t, regRead t a = rxData t k := by
    intro t
    obtain rfl | rfl | rfl | rfl := ha <;> simp [regRead, hport]
  rw [rowRead_serial (by omega) (by omega) (by omega) h, hread]

theorem rowRead_rxData_empty (hrx : (port s k).rx = []) :
    ∃ t, rowRead m a s = t ∧ t.bus = .ok 0 ∧ { s with regs := t.regs, bus := t.bus } = t ∧ sameRegs [0] s t := by
  obtain ⟨r, hawake, hregs⟩ := sysAwake s
  have hdata : rxData { s with regs := r } k = (0, { s with regs := r }) := by
    have hrx' : (port { s with regs := r } k).rx = [] := hrx
    simp [rxData, hrx']
  have hrow := rowRead_rxData h hport
  rw [hawake, hdata] at hrow
  exact ⟨_, hrow, rfl, rfl, hregs⟩

/-- The oldest entry is answered with VALID, and taken. -/
theorem rowRead_rxData_entry {e : Nat} {l : List Nat} (hrx : (port s k).rx = e :: l) :
    ∃ t, rowRead m a s = t ∧ t.bus = .ok (e % 256 + 256 + e / 256 % 4 * 512) ∧
      t.ports = s.ports.set k { port s k with rx := l } ∧ { s with ports := t.ports, regs := t.regs, bus := t.bus } = t ∧
      sameRegs [0] s t := by
  obtain ⟨r, hawake, hregs⟩ := sysAwake s
  have hdata : rxData { s with regs := r } k =
      (e % 256 + 256 + e / 256 % 4 * 512, setPort { s with regs := r } k { port s k with rx := l }) := by
    have hrx' : (port { s with regs := r } k).rx = e :: l := hrx
    unfold rxData
    simp only [hrx']
    rfl
  have hrow := rowRead_rxData h hport
  rw [hawake, hdata] at hrow
  exact ⟨_, hrow, rfl, rfl, rfl, hregs⟩

end

/-! ### SPI_CMD and I2C_CMD (R466, R467) -/

/-- A change of a block's FIFOs is none of its registers. -/
theorem sameRegs_setPort {pages : List Nat} {s t : State} (h : sameRegs pages s t) (k : Nat) (x : Port) :
    sameRegs pages s (setPort t k x) := h

theorem portWrite_spiCmd (s : State) {n : Nat} (hn : n < 2) (v : Nat) : portWrite s (0x40010004 + 0x1000 * n) v = spiCmd s n v := by
  obtain rfl | rfl : n = 0 ∨ n = 1 := by omega
  all_goals simp [portWrite]

theorem portWrite_i2cCmd (s : State) (v : Nat) : portWrite s 0x40012004 v = i2cCmd s v := by
  simp [portWrite]

/-- What a command starts on an enabled idle SPI block. -/
def spiStarted (s : State) (n v : Nat) : State :=
  setPort (((s.put (SPI_DIV_N n) (spiN n (s.get PWR_LVLSTAT_CUR) (s.get (SPI_CFG_RATE n)))).put (SPI_STAT_BUSY n) 1).put
    (SPI_STAT_CSLOW n) 1) n
    { port s n with len := v % 65536, dir := if v / 65536 % 4 = 3 then 0 else v / 65536 % 4 }

/-- Beside registers the block alone is changed. -/
theorem spiStarted_eq (s : State) (n v : Nat) :
    ∃ r, spiStarted s n v = setPort { s with regs := r } n
      { port s n with len := v % 65536, dir := if v / 65536 % 4 = 3 then 0 else v / 65536 % 4 } := ⟨_, rfl⟩

theorem spiStarted_regs {s : State} {n : Nat} (v : Nat) (hn : n < 2) :
    (spiStarted s n v).get (SPI_STAT_BUSY n) = 1 ∧ (spiStarted s n v).get (SPI_STAT_CSLOW n) = 1 ∧
      sameRegs [0, 16, 17] s (spiStarted s n v) := by
  unfold spiStarted
  obtain rfl | rfl : n = 0 ∨ n = 1 := by omega
  all_goals
    simp (disch := decide) only [setPort_get, get_put_self, get_put_ne]
    exact ⟨rfl, rfl, sameRegs_setPort (sameRegs_put _ _ (by decide) (sameRegs_put _ _ (by decide)
      (sameRegs_put _ _ (by decide) (sameRegs_refl _ s)))) _ _⟩

theorem spiCmd_idle {s : State} {n v : Nat} (hen : s.on (SPI_CFG_EN n) = true) (hidle : s.on (SPI_STAT_BUSY n) = false)
    (hquad : s.on (SPI_CFG_QUAD n) = false) (hlen : v % 65536 ≠ 0) : spiCmd s n v = spiStarted s n v := by
  simp only [spiCmd, hen, hidle, hquad, hlen, Bool.not_true, Bool.false_and, Bool.false_eq_true, if_false]
  rfl

theorem spiCmd_busy {s : State} {n : Nat} (v : Nat) (hn : n < 2) (hen : s.on (SPI_CFG_EN n) = true)
    (hbusy : s.on (SPI_STAT_BUSY n) = true) : spiCmd s n v = s.put (SPI_EVT_CMDERR n) 1 := by
  simp only [spiCmd, hen, hbusy, Bool.not_true, Bool.false_eq_true, if_false, if_true]
  obtain rfl | rfl : n = 0 ∨ n = 1 := by omega
  all_goals rfl

/-- What a command starts on the enabled idle I2C block. -/
def i2cStarted (s : State) (v : Nat) : State :=
  setPort ((s.put I2C_STAT_BUSY 1).put I2C_STAT_HELD 0) 2
    { port s 2 with len := bitsOf v 8 8, dir := bitsOf v 7 1, nostop := bitOf v 16, addr := v % 128 }

theorem i2cStarted_regs (s : State) (v : Nat) :
    (i2cStarted s v).get I2C_STAT_BUSY = 1 ∧ (i2cStarted s v).get I2C_STAT_HELD = 0 ∧ sameRegs [18] s (i2cStarted s v) := by
  unfold i2cStarted
  simp (disch := decide) only [setPort_get, get_put_self, get_put_ne]
  exact ⟨rfl, rfl, sameRegs_setPort (sameRegs_put _ _ (by decide) (sameRegs_put _ _ (by decide) (sameRegs_refl _ s))) _ _⟩

theorem i2cCmd_idle {s : State} (v : Nat) (hen : s.on I2C_CFG_EN = true) (hidle : s.on I2C_STAT_BUSY = false) :
    i2cCmd s v = i2cStarted s v := by
  simp only [i2cCmd, hen, hidle, Bool.not_true, Bool.false_eq_true, if_false]
  rfl

theorem i2cCmd_busy {s : State} (v : Nat) (hen : s.on I2C_CFG_EN = true) (hbusy : s.on I2C_STAT_BUSY = true) :
    i2cCmd s v = s.put I2C_EVT_CMDERR 1 := by
  simp only [i2cCmd, hen, hbusy, Bool.not_true, Bool.false_eq_true, if_false, if_true]
  rfl

/-- A flag outside the PWR_ page stands as SYS starts. -/
theorem on_awake {s t : State} (h : sameRegs [0] s t) {f : Fld} (hf : pageOf f ∉ [0]) : t.on f = s.on f := by
  unfold State.on
  rw [h f hf]

section
variable {s : State} {m : Master} {n : Nat} {v : Word} (hn : n < 2)
  (h : s.reaches m (0x40010004 + 0x1000 * n) 1 v.toNat = true) (hen : s.on (SPI_CFG_EN n) = true)
include hn h hen

/-- A write of SPIn_CMD on an enabled idle block starts the transfer. -/
theorem rowWrite_spiCmd_idle (hidle : s.on (SPI_STAT_BUSY n) = false) (hquad : s.on (SPI_CFG_QUAD n) = false)
    (hlen : v.toNat % 65536 ≠ 0) :
    ∃ t, rowWrite m (0x40010004 + 0x1000 * n) v.toNat s = t ∧
      (t.ports = s.ports.set n
        { port s n with
          len := v.toNat % 65536, dir := if v.toNat / 65536 % 4 = 3 then 0 else v.toNat / 65536 % 4 }) ∧
      t.get (SPI_STAT_BUSY n) = 1 ∧ t.get (SPI_STAT_CSLOW n) = 1 ∧
      { s with ports := t.ports, regs := t.regs, bus := t.bus } = t ∧ sameRegs [0, 16, 17] s t := by
  obtain ⟨r, hawake, hregs⟩ := sysAwake s
  obtain rfl | rfl : n = 0 ∨ n = 1 := by omega
  all_goals
    rw [← on_awake hregs (by decide)] at hen hidle hquad
    obtain ⟨hset, hcs, hstarted⟩ := spiStarted_regs (s := { s with regs := r }) v.toNat hn
    have hcmd := (portWrite_spiCmd _ hn _).trans (spiCmd_idle hen hidle hquad hlen)
    obtain ⟨q, hq⟩ := spiStarted_eq { s with regs := r } _ v.toNat
    rw [hq] at hset hcs hstarted hcmd
    exact ⟨_, rowWrite_effect (by decide) (by decide) (by decide) h hawake hcmd rfl, rfl, hset, hcs, rfl,
      sameRegs_trans (sameRegs_widen hregs (by decide)) hstarted⟩

/-- On a busy block it sets CMDERR. -/
theorem rowWrite_spiCmd_busy (hbusy : s.on (SPI_STAT_BUSY n) = true) :
    ∃ t, rowWrite m (0x40010004 + 0x1000 * n) v.toNat s = t ∧ t.get (SPI_EVT_CMDERR n) = 1 ∧
      { s with regs := t.regs, bus := t.bus } = t ∧ sameRegs [0, 16, 17] s t := by
  obtain ⟨r, hawake, hregs⟩ := sysAwake s
  obtain rfl | rfl : n = 0 ∨ n = 1 := by omega
  all_goals
    rw [← on_awake hregs (by decide)] at hen hbusy
    exact ⟨_, rowWrite_effect (by decide) (by decide) (by decide) h hawake
      ((portWrite_spiCmd _ hn _).trans (spiCmd_busy _ hn hen hbusy)) rfl,
      (writeOk_get _ _).trans (get_put_self _ _ _), rfl,
      sameRegs_writeOk (sameRegs_put _ _ (by decide) (sameRegs_widen hregs (by decide)))⟩

end

section
variable {s : State} {m : Master} {v : Word} (h : s.reaches m 0x40012004 1 v.toNat = true) (hen : s.on I2C_CFG_EN = true)
include h hen

/-- A write of I2C_CMD on the enabled idle block starts the transaction. -/
theorem rowWrite_i2cCmd_idle (hidle : s.on I2C_STAT_BUSY = false) :
    ∃ t, rowWrite m 0x40012004 v.toNat s = t ∧
      t.ports = s.ports.set 2
        { port s 2 with
          len := bitsOf v.toNat 8 8, dir := bitsOf v.toNat 7 1, nostop := bitOf v.toNat 16, addr := v.toNat % 128 } ∧
      t.get I2C_STAT_BUSY = 1 ∧ t.get I2C_STAT_HELD = 0 ∧ { s with ports := t.ports, regs := t.regs, bus := t.bus } = t ∧
      sameRegs [0, 18] s t := by
  obtain ⟨r, hawake, hregs⟩ := sysAwake s
  rw [← on_awake hregs (by decide)] at hen hidle
  obtain ⟨hset, hheld, hstarted⟩ := i2cStarted_regs { s with regs := r } v.toNat
  exact ⟨_, rowWrite_effect (by decide) (by decide) (by decide) h hawake
    ((portWrite_i2cCmd _ _).trans (i2cCmd_idle _ hen hidle)) rfl, rfl, hset, hheld, rfl,
    sameRegs_trans (sameRegs_widen hregs (by decide)) (sameRegs_widen hstarted (by decide))⟩

/-- On a busy block it sets CMDERR. -/
theorem rowWrite_i2cCmd_busy (hbusy : s.on I2C_STAT_BUSY = true) :
    ∃ t, rowWrite m 0x40012004 v.toNat s = t ∧ t.get I2C_EVT_CMDERR = 1 ∧ { s with regs := t.regs, bus := t.bus } = t ∧
      sameRegs [0, 18] s t := by
  obtain ⟨r, hawake, hregs⟩ := sysAwake s
  rw [← on_awake hregs (by decide)] at hen hbusy
  exact ⟨_, rowWrite_effect (by decide) (by decide) (by decide) h hawake
    ((portWrite_i2cCmd _ _).trans (i2cCmd_busy _ hen hbusy)) rfl,
    (writeOk_get _ _).trans (get_put_self _ _ _), rfl,
    sameRegs_writeOk (sameRegs_put _ _ (by decide) (sameRegs_widen hregs (by decide)))⟩

end

end Sys2Proof.Machine.SerialBlocks
end

section
/-! The serial blocks at work: transfers, transactions and characters, with the events their ends yield (R283, R465 to R468). -/

namespace Sys2Proof.Machine.SerialBlocks

open Sys2Proof Sys2Proof.Machine Sys2Proof.Machine.PowerStates Sys2Proof.Machine.BolinaLink

/-! ### A block's FIFOs -/

theorem port_setPort {s : State} {k : Nat} (h : k < s.ports.length) (x : Port) : port (setPort s k x) k = x := by
  simp [port, setPort, h]

theorem setPort_setPort (s : State) (k : Nat) (x y : Port) : setPort (setPort s k x) k y = setPort s k y := by
  simp [setPort]

/-- A received entry is added to a FIFO that has room. -/
theorem rxPush_room {s : State} {k : Nat} (e : Nat) (h : (port s k).rx.length < 16) :
    rxPush s k e = setPort s k { port s k with rx := (port s k).rx ++ [e] } := by
  have hnot : ¬16 ≤ (port s k).rx.length := by omega
  simp [rxPush, hnot]

/-- Received bytes for which there is room are all added, in their order. -/
theorem foldl_rxPush (l : List Byte) : ∀ {s : State} {k : Nat}, k < s.ports.length → (port s k).rx.length + l.length ≤ 16 →
    l.foldl (fun s b => rxPush s k b.toNat) s = setPort s k { port s k with rx := (port s k).rx ++ l.map fun b => b.toNat } := by
  induction l with
  | nil =>
    intro s k hk _
    have hport : { port s k with rx := (port s k).rx ++ [] } = s.ports[k] := by simp [port, hk]
    simp only [List.foldl_nil, List.map_nil, hport, setPort, List.set_getElem_self]
  | cons b l ih =>
    intro s k hk hroom
    rw [List.length_cons] at hroom
    have hlen : k < (setPort s k { port s k with rx := (port s k).rx ++ [b.toNat] }).ports.length := by simpa [setPort] using hk
    rw [List.foldl_cons, rxPush_room _ (by omega), ih hlen (by rw [port_setPort hk]; simp; omega), port_setPort hk,
      setPort_setPort]
    simp

/-! ### The event of a block's end (R283, R465) -/

/-- The producers of the serial blocks have no level. -/
theorem levelProds_port {k : Nat} (hk : k < 4) : levelProds.contains (41 + k) = false := by
  obtain rfl | rfl | rfl | rfl : k = 0 ∨ k = 1 ∨ k = 2 ∨ k = 3 := by omega
  all_goals decide

theorem onlyFabric_portEvt (s : State) {k : Nat} (hk : k < 4) :
    OnlyFabric (s.put ⟨portEvtAddr k, 0, 1, .w1c, 0⟩ 1) (portEvt s k 0) :=
  onlyFabric_yieldEv _ (levelProds_port hk)

theorem ports_of_onlyFabric {s t : State} (h : OnlyFabric s t) : t.ports = s.ports := (congrArg State.ports h).symm

theorem sameRegs_of_onlyFabric {s u t : State} (h : OnlyFabric u t) {pages : List Nat} (hu : sameRegs pages s u) :
    sameRegs pages s t := fun f hf => (h.get f).trans (hu f hf)

/-- A step that changes registers and FIFOs, and then what the event fabric holds. -/
theorem frame_ports_of_onlyFabric {s u t : State} (h : OnlyFabric u t) (hu : { s with ports := u.ports, regs := u.regs } = u) :
    { s with ports := t.ports, regs := t.regs, evHeld := t.evHeld, evCap := t.evCap, evWin := t.evWin, free := t.free } = t := by
  unfold OnlyFabric at h
  rw [← h, ← hu]

/-- A step that changes registers, and then what the event fabric holds. -/
theorem frame_regs_of_onlyFabric {s u t : State} (h : OnlyFabric u t) (hu : { s with regs := u.regs } = u) :
    { s with regs := t.regs, evHeld := t.evHeld, evCap := t.evCap, evWin := t.evWin, free := t.free } = t := by
  unfold OnlyFabric at h
  rw [← h, ← hu]

/-! ### SPI_TRANSFER_DONE (R466) -/

/-- SPI block `n` once its transfer's last byte has moved, before its event is yielded. -/
def spiEnded (s : State) (n : Nat) (x : Port) : State :=
  (((setPort s n x).put (SPI_STAT_BUSY n) 0).put (SPI_STAT_CSLOW n) (s.get (SPI_CFG_CSHOLD n))).put (SPI_EVT_DONE n) 1

/-- The block's FIFOs as the transfer's `k` bytes leave them. -/
def spiMoved (x : Port) (k : Nat) (r : List Byte) : Port :=
  { x with
    tx := if x.dir = 2 then x.tx else x.tx.drop k
    rx := if x.dir = 1 then x.rx else x.rx ++ (r.take k).map fun b => b.toNat
    len := x.len - k }

theorem spiDone_last {s : State} {n : Nat} {r : List Byte} (hn : n < 2) (hbusy : s.on (SPI_STAT_BUSY n) = true)
    (hsys : sysRuns s = true) (hvio : bitOf s.vio 0 = true) (hall : spiMoves (port s n) r.length = (port s n).len) :
    OnlyFabric (spiEnded s n (spiMoved (port s n) (port s n).len r)) (spiDone s n r) := by
  simp only [spiDone, hbusy, hsys, hvio, hall, Bool.not_true, Bool.or_self, Bool.false_eq_true, if_false, if_true]
  obtain rfl | rfl : n = 0 ∨ n = 1 := by omega
  · exact onlyFabric_portEvt (k := 0) _ (by decide)
  · exact onlyFabric_portEvt (k := 1) _ (by decide)

theorem spiEnded_regs {s : State} {n : Nat} (x : Port) (hn : n < 2) :
    (spiEnded s n x).get (SPI_STAT_BUSY n) = 0 ∧ (spiEnded s n x).get (SPI_STAT_CSLOW n) = s.get (SPI_CFG_CSHOLD n) % 2 ∧
      (spiEnded s n x).get (SPI_EVT_DONE n) = 1 ∧ sameRegs [16, 17] s (spiEnded s n x) := by
  unfold spiEnded
  obtain rfl | rfl : n = 0 ∨ n = 1 := by omega
  all_goals
    simp (disch := decide) only [get_put_self, get_put_ne]
    exact ⟨rfl, rfl, rfl, sameRegs_put _ _ (by decide) (sameRegs_put _ _ (by decide) (sameRegs_put _ _ (by decide)
      (sameRegs_setPort (sameRegs_refl _ s) _ _)))⟩

/-! ### I2C_TRANSACTION_DONE and I2C_TIMEOUT (R467) -/

/-- The I2C block at the end of its transaction, before its event is yielded. -/
def i2cEnded (s : State) (held : Bool) : State :=
  ((s.put I2C_STAT_BUSY 0).put I2C_STAT_HELD (b2n held)).put I2C_EVT_DONE 1

theorem onlyFabric_i2cEnd (s : State) (held : Bool) : OnlyFabric (i2cEnded s held) (i2cEnd s held) :=
  onlyFabric_portEvt (k := 2) _ (by decide)

theorem i2cEnded_regs (s : State) (held : Bool) :
    (i2cEnded s held).get I2C_STAT_BUSY = 0 ∧ (i2cEnded s held).get I2C_STAT_HELD = b2n held ∧
      (i2cEnded s held).get I2C_EVT_DONE = 1 ∧ sameRegs [18] s (i2cEnded s held) := by
  unfold i2cEnded
  simp (disch := decide) only [get_put_self, get_put_ne]
  refine ⟨rfl, ?_, rfl, sameRegs_put _ _ (by decide) (sameRegs_put _ _ (by decide) (sameRegs_put _ _ (by decide)
    (sameRegs_refl _ s)))⟩
  cases held <;> rfl

/-- The end of a transaction whose bytes have left or come. -/
theorem i2cEnd_moved (s : State) (x : Port) (held : Bool) :
    ∃ t, i2cEnd (setPort s 2 x) held = t ∧ t.ports = s.ports.set 2 x ∧ t.get I2C_STAT_BUSY = 0 ∧
      t.get I2C_STAT_HELD = b2n held ∧ t.get I2C_EVT_DONE = 1 ∧
      { s with ports := t.ports, regs := t.regs, evHeld := t.evHeld, evCap := t.evCap, evWin := t.evWin, free := t.free } = t ∧
      sameRegs [18] s t := by
  have hend := onlyFabric_i2cEnd (setPort s 2 x) held
  obtain ⟨hidle, hheld, hdone, hregs⟩ := i2cEnded_regs (setPort s 2 x) held
  exact ⟨_, rfl, ports_of_onlyFabric hend, (hend.get _).trans hidle, (hend.get _).trans hheld, (hend.get _).trans hdone,
    frame_ports_of_onlyFabric hend rfl, sameRegs_of_onlyFabric hend hregs⟩

/-- The end of a transaction that failed, with flag `f` of I2C_EVT. -/
theorem i2cEnd_failed (s : State) {f : Fld} (hw : f.w = 1) (hpage : pageOf f = 18)
    (hne : ∀ g ∈ [I2C_STAT_BUSY, I2C_STAT_HELD, I2C_EVT_DONE], f.key ≠ g.key) :
    ∃ t, i2cEnd (s.put f 1) false = t ∧ t.get f = 1 ∧ t.get I2C_EVT_DONE = 1 ∧ t.get I2C_STAT_BUSY = 0 ∧
      t.get I2C_STAT_HELD = 0 ∧
      { s with regs := t.regs, evHeld := t.evHeld, evCap := t.evCap, evWin := t.evWin, free := t.free } = t ∧ sameRegs [18] s t := by
  have hend := onlyFabric_i2cEnd (s.put f 1) false
  obtain ⟨hidle, hheld, hdone, hregs⟩ := i2cEnded_regs (s.put f 1) false
  have hflag : (i2cEnded (s.put f 1) false).get f = 1 := by
    unfold i2cEnded
    rw [get_put_ne _ _ _ _ (hne _ (by simp)), get_put_ne _ _ _ _ (hne _ (by simp)), get_put_ne _ _ _ _ (hne _ (by simp)),
      get_put_self, hw]
    rfl
  have hput : sameRegs [18] s (s.put f 1) := sameRegs_put _ _ (by rw [hpage]; decide) (sameRegs_refl _ s)
  exact ⟨_, rfl, (hend.get _).trans hflag, (hend.get _).trans hdone, (hend.get _).trans hidle, (hend.get _).trans hheld,
    frame_regs_of_onlyFabric hend rfl, sameRegs_of_onlyFabric hend (sameRegs_trans hput hregs)⟩

section
variable {s : State} (hbusy : s.on I2C_STAT_BUSY = true) (hsys : sysRuns s = true)
include hbusy hsys

/-- A line stayed low for too long. -/
theorem exec_i2cTimeout (hpor : s.por = false) : exec .i2cTimeout s = .next (i2cEnd (s.put I2C_EVT_TIMEOUT 1) false) := by
  change execI2cTimeout s = _
  rw [execI2cTimeout, live_run _ _ hpor]
  simp only [hbusy, hsys, Bool.and_self, if_true]
  rfl

/-- The address was not answered. -/
theorem i2cDone_nackA (hvio : bitOf s.vio 1 = true) (b : Bool) (r : List Byte) :
    i2cDone s true b r = i2cEnd (s.put I2C_EVT_NACKA 1) false := by
  simp only [i2cDone, hbusy, hsys, hvio, Bool.not_true, Bool.or_self, Bool.false_eq_true, if_false, if_true]
  rfl

/-- All bytes have been moved. -/
theorem i2cDone_last (hvio : bitOf s.vio 1 = true) {r : List Byte} {x : Port} (hlen : 2 < s.ports.length)
    (hmove : i2cMove s r = setPort s 2 x) (hnone : x.len = 0) :
    i2cDone s false false r = i2cEnd (setPort s 2 x) (port s 2).nostop := by
  simp only [i2cDone, hbusy, hsys, hvio, Bool.not_true, Bool.or_self, Bool.false_eq_true, if_false, hmove, port_setPort hlen, hnone,
    if_true]

end

/-- A write's bytes that the FIFO holds are all sent. -/
theorem i2cMove_write {s : State} (r : List Byte) (hdir : (port s 2).dir = 0) (hall : (port s 2).len ≤ (port s 2).tx.length) :
    i2cMove s r = setPort s 2 { port s 2 with tx := (port s 2).tx.drop (port s 2).len, len := 0 } := by
  simp [i2cMove, hdir, Nat.min_eq_left hall]

/-- A read's bytes for which the FIFO has room are all received. -/
theorem i2cMove_read {s : State} {r : List Byte} (hlen : 2 < s.ports.length) (hdir : (port s 2).dir = 1)
    (hall : (port s 2).len ≤ r.length) (hroom : (port s 2).rx.length + (port s 2).len ≤ 16) :
    i2cMove s r =
      setPort s 2 { port s 2 with rx := (port s 2).rx ++ (r.take (port s 2).len).map fun b => b.toNat, len := 0 } := by
  have hcount : (r.take (port s 2).len).length = (port s 2).len := by simp [hall]
  have hports : 2 < (setPort s 2 { port s 2 with len := 0 }).ports.length := by simpa [setPort] using hlen
  have hread : ¬(port s 2).dir = 0 := by omega
  simp only [i2cMove, hread, Nat.min_eq_left hall, if_false, Nat.sub_self]
  rw [foldl_rxPush _ hports (by rw [port_setPort hlen, hcount]; exact hroom), port_setPort hlen, setPort_setPort]

/-! ### The UART (R468) -/

/-- The flags of a received character. -/
def uartFlags (s : State) (par fe : Bool) : State :=
  let s := if par then s.put UART_EVT_PERR 1 else s
  let s := if fe then s.put UART_EVT_FERR 1 else s
  s.put UART_EVT_RXBYTE 1

theorem uartFlags_only (s : State) (par fe : Bool) : { s with regs := (uartFlags s par fe).regs } = uartFlags s par fe := by
  cases par <;> cases fe <;> rfl

theorem uartFlags_regs (s : State) (par fe : Bool) :
    (uartFlags s par fe).get UART_EVT_RXBYTE = 1 ∧
      (uartFlags s par fe).get UART_EVT_PERR = (if par then 1 else s.get UART_EVT_PERR) ∧
      (uartFlags s par fe).get UART_EVT_FERR = (if fe then 1 else s.get UART_EVT_FERR) ∧ sameRegs [19] s (uartFlags s par fe) := by
  refine ⟨get_put_self _ _ _, ?_, ?_, ?_⟩
  · cases par <;> cases fe <;> simp (disch := decide) [uartFlags, get_put_self, get_put_ne]
  · cases par <;> cases fe <;> simp (disch := decide) [uartFlags, get_put_self, get_put_ne]
  · have hput : ∀ {t : State} (f : Fld) (b : Bool), pageOf f = 19 → sameRegs [19] s t →
        sameRegs [19] s (if b then t.put f 1 else t) := by
      intro t f b hf ht
      cases b
      · exact ht
      · exact sameRegs_put _ _ (by rw [hf]; decide) ht
    exact sameRegs_put _ _ (by decide) (hput _ fe rfl (hput _ par rfl (sameRegs_refl _ s)))

section
variable {s : State} (hon : s.on UART_CFG_RXEN = true) (hsys : sysRuns s = true)
include hon hsys

/-- A character is received into a FIFO with room. -/
theorem uartChar_room (b : Byte) (pe fe : Bool) {par : Bool} (hvio : bitOf s.vio 1 = true) (hlen : 3 < s.ports.length)
    (hroom : (port s 3).rx.length < 16)
    (hpar : par = (pe && (s.get UART_CFG_PARITY == 1 || s.get UART_CFG_PARITY == 2))) :
    OnlyFabric
      (uartFlags (setPort s 3
        { port s 3 with dir := 0, rx := (port s 3).rx ++ [b.toNat + 256 * b2n par + 512 * b2n fe] }) par fe)
      (uartChar s b pe fe) := by
  have hpush : ∀ e, rxPush (setPort s 3 { port s 3 with dir := 0 }) 3 e =
      setPort s 3 { port s 3 with dir := 0, rx := (port s 3).rx ++ [e] } := by
    intro e
    rw [rxPush_room e (by rw [port_setPort hlen]; exact hroom), port_setPort hlen, setPort_setPort]
  simp only [uartChar, hon, hsys, hvio, Bool.not_true, Bool.or_self, Bool.false_eq_true, if_false, if_true, ← hpar, hpush]
  exact onlyFabric_portEvt (k := 3) _ (by decide)

theorem uartStart_on : uartStart s = setPort s 3 { port s 3 with dir := 1 } := by
  simp [uartStart, hon, hsys]

end

section
variable {s : State} (hpor : s.por = false) (hon : s.on UART_CFG_TXEN = true) (hsys : sysRuns s = true)
include hpor hon hsys

/-- Bytes leave the FIFO. -/
theorem exec_uartTransmitDone_some {k : Nat} (hk : 0 < k) (hle : k ≤ (port s 3).tx.length) :
    exec (.uartTransmitDone (some k)) s = .next (setPort s 3 { port s 3 with tx := (port s 3).tx.drop k, len := 1 }) := by
  have hsends : uartSends (port s 3) = true := by
    cases htx : (port s 3).tx with
    | nil => rw [htx] at hle; exact absurd hle (by simp; omega)
    | cons b l => simp [uartSends, htx]
  have hzero : k ≠ 0 := by omega
  have hlt : ¬(port s 3).tx.length < k := by omega
  change execUartTransmitDone s (some k) = _
  rw [execUartTransmitDone, live_run _ _ hpor]
  simp [hon, hsys, hsends, hzero, hlt]

/-- The FIFO is empty and the last stop bit has been sent. -/
theorem exec_uartTransmitDone_none (hsends : (port s 3).tx ≠ [] ∨ (port s 3).len ≠ 0) :
    exec .uartTransmitDone s = .next ((setPort s 3 { port s 3 with tx := [], len := 0 }).put UART_EVT_TXDONE 1) := by
  have hsends' : uartSends (port s 3) = true := by
    simpa [uartSends, List.isEmpty_iff] using hsends
  change execUartTransmitDone s none = _
  rw [execUartTransmitDone, live_run _ _ hpor]
  simp only [hon, hsys, hsends', Bool.not_true, Bool.or_self, Bool.false_eq_true, if_false]
  rfl

end

end Sys2Proof.Machine.SerialBlocks
end

section
/-! The balls: what a rise and a fall of an input, and of a ball that the part drives, leave in GPIO_IN and GPIO_EDGE (R464). -/

namespace Sys2Proof.Machine.Balls

open Sys2Proof Sys2Proof.Machine Sys2Proof.Machine.PowerStates Sys2Proof.Machine.InstructionSet

/-! ### Masks -/

theorem maskOf_succ (n : Nat) (p : Nat → Bool) : maskOf (n + 1) p = if p n then maskOf n p + 2 ^ n else maskOf n p := by
  simp [maskOf, List.range_succ, List.foldl_append]

theorem maskOf_lt (n : Nat) (p : Nat → Bool) : maskOf n p < 2 ^ n := by
  induction n with
  | zero => exact Nat.one_pos
  | succ n ih => rw [maskOf_succ, Nat.pow_succ]; split <;> omega

/-- Bit `k` of a mask is set where the mask is told so. -/
theorem testBit_maskOf (n : Nat) (p : Nat → Bool) (k : Nat) : (maskOf n p).testBit k = (decide (k < n) && p k) := by
  induction n with
  | zero => simp [maskOf]
  | succ n ih =>
    have hor : maskOf n p + 2 ^ n = maskOf n p ||| 2 ^ n := by
      have h := Nat.two_pow_add_eq_or_of_lt (maskOf_lt n p) 1
      rw [Nat.mul_one, Nat.add_comm, Nat.or_comm] at h
      exact h
    have hstep : (maskOf (n + 1) p).testBit k = ((maskOf n p).testBit k || (p n && decide (n = k))) := by
      rw [maskOf_succ]
      cases p n
      · simp
      · simp [hor, Nat.testBit_two_pow]
    rw [hstep, ih]
    by_cases hk : n = k
    · subst hk
      simp
    · have hlt : k < n + 1 ↔ k < n := by omega
      simp [hk, hlt]

/-- A bit that is set or not. -/
theorem testBit_bitIf (b : Bool) (n k : Nat) : (if b then 2 ^ n else 0).testBit k = (decide (k = n) && b) := by
  cases b
  · simp
  · simp [Nat.testBit_two_pow, eq_comm]

/-! ### A new level in GPIO_IN -/

section
variable {s : State} {n w : Nat} (hfunc : s.get (GPIO_FUNC_FUNC n) ≠ 2)
  (hother : ∀ k, k < 8 → k ≠ n → (s.put GPIO_IN_IN w).bit GPIO_IN_IN k = s.bit GPIO_IN_IN k)

theorem sameRegs_gpioIn (s : State) (w : Nat) : sameRegs [20] s (s.put GPIO_IN_IN w) :=
  sameRegs_put _ _ (by decide) (sameRegs_refl _ s)

theorem func_gpioIn (s : State) (w : Nat) {k : Nat} (hk : k < 8) :
    (s.put GPIO_IN_IN w).get (GPIO_FUNC_FUNC k) = s.get (GPIO_FUNC_FUNC k) :=
  get_put_ne _ _ _ _ (by simp only [Fld.key, GPIO_FUNC_FUNC, GPIO_IN_IN]; omega)

include hfunc hother

/-- The level of a ball that is no event input moves no EVI level. -/
theorem eviLevel_gpioIn {k : Nat} (hk : k < 4) : eviLevel (s.put GPIO_IN_IN w) k = eviLevel s k := by
  have hpol : (s.put GPIO_IN_IN w).bit GPIO_POL_INV k = s.bit GPIO_POL_INV k := by
    unfold State.bit
    rw [get_put_ne _ _ _ _ (by decide)]
  unfold eviLevel
  rw [func_gpioIn s w (by omega), hpol]
  by_cases hkn : k = n
  · subst hkn
    rw [beq_eq_false_iff_ne.mpr hfunc, Bool.false_and, Bool.false_and]
  · rw [hother k (by omega) hkn]

theorem eviEdges_gpioIn : eviEdges s (s.put GPIO_IN_IN w) = s.put GPIO_IN_IN w := by
  have hnone : ((List.range 4).filter fun k => !eviLevel s k && eviLevel (s.put GPIO_IN_IN w) k) = [] := by
    refine List.filter_eq_nil_iff.mpr fun k hk => ?_
    rw [eviLevel_gpioIn hfunc hother (List.mem_range.mp hk)]
    simp
  simp [eviEdges, hnone]

/-- The A producers stand as they stood. -/
theorem aLevel_gpioIn {p : Nat} (hp : p ∈ levelProds) : aLevel (s.put GPIO_IN_IN w) p = aLevel s p := by
  have hevi := @eviLevel_gpioIn s n w hfunc hother
  have hfloor : (s.put GPIO_IN_IN w).on HRV_STAT_FLOOR = s.on HRV_STAT_FLOOR := by
    unfold State.on
    rw [get_put_ne _ _ _ _ (by decide)]
  simp only [levelProds, List.mem_cons, List.not_mem_nil, or_false] at hp
  obtain rfl | rfl | rfl | rfl | rfl | rfl | rfl | rfl | rfl := hp
  · exact hfloor
  · rfl
  · rfl
  · rfl
  · exact hevi (by decide)
  · exact hevi (by decide)
  · exact hevi (by decide)
  · exact hevi (by decide)
  · rfl

end

/-- What channel `c`, of those that may be asynchronous, carries is not in the GPIO page. -/
theorem carries_gpioIn (s : State) (w : Nat) {c : Nat} (hc : c < 8) (p : Nat) :
    carries (s.put GPIO_IN_IN w) c p = carries s c p := by
  have hpages : ∀ c, c < 8 → pageOf (EVF_CHPMLO_MASK c) ∉ [20] ∧ pageOf (EVF_CHPMHI_MASK c) ∉ [20] ∧
      pageOf (EVF_CHOWN_PRIN c) ∉ [20] := by decide
  obtain ⟨hlo, hhi, hown⟩ := hpages c hc
  have hregs := sameRegs_gpioIn s w
  have hright : ∀ a q, right (s.put GPIO_IN_IN w) a q false = right s a q false := by
    intro a q
    unfold right State.on
    rw [hregs _ (by decide)]
    rfl
  unfold carries producerAllowed State.bit
  simp only [hregs _ hlo, hregs _ hhi, hregs _ hown, hright]

section
variable {s : State} {n w : Nat} (hfunc : s.get (GPIO_FUNC_FUNC n) ≠ 2)
  (hother : ∀ k, k < 8 → k ≠ n → (s.put GPIO_IN_IN w).bit GPIO_IN_IN k = s.bit GPIO_IN_IN k)
include hfunc hother

theorem asyncHigh_gpioIn (c p : Nat) : asyncHigh (s.put GPIO_IN_IN w) c p = asyncHigh s c p := by
  have hasync : isAsync (s.put GPIO_IN_IN w) c = isAsync s c := by
    unfold isAsync State.bit
    rw [get_put_ne _ _ _ _ (by decide)]
  unfold asyncHigh
  rw [hasync]
  by_cases hc : c < 8
  · congr 1
    rw [Bool.eq_iff_iff, List.any_eq_true, List.any_eq_true]
    refine exists_congr fun q => and_congr_right fun hq => ?_
    rw [carries_gpioIn s w hc, aLevel_gpioIn hfunc hother hq]
  · simp [isAsync, hc]

theorem evoLevel_gpioIn {k : Nat} (hk : k < 4) : evoLevel (s.put GPIO_IN_IN w) k = evoLevel s k := by
  have hpages : ∀ k, k < 4 → pageOf (EVF_CSEL_EN (18 + k)) ∉ [20] ∧ pageOf (EVF_CSEL_CH (18 + k)) ∉ [20] := by decide
  obtain ⟨hen, hch⟩ := hpages k hk
  have hregs := sameRegs_gpioIn s w
  unfold evoLevel evoOn State.on
  rw [hregs _ hen, hregs _ hch, func_gpioIn s w (by omega), asyncHigh_gpioIn hfunc hother, put_vio]

/-- The level of every other ball stands as it stood. -/
theorem gpioLevel_gpioIn_ne {k : Nat} (hk : k < 8) (hkn : k ≠ n) : gpioLevel (s.put GPIO_IN_IN w) k = gpioLevel s k := by
  have hout : (s.put GPIO_IN_IN w).bit GPIO_OUT_OUT k = s.bit GPIO_OUT_OUT k := by
    unfold State.bit
    rw [get_put_ne _ _ _ _ (by decide)]
  have hevo : (if 4 ≤ k then evoLevel (s.put GPIO_IN_IN w) (k - 4) else s.bit GPIO_IN_IN k) =
      if 4 ≤ k then evoLevel s (k - 4) else s.bit GPIO_IN_IN k := by
    split
    · exact evoLevel_gpioIn hfunc hother (by omega)
    · rfl
  unfold gpioLevel
  rw [func_gpioIn s w hk, hother k hk hkn, hout, hevo, put_vio]

/-- The edges of such a change: a rise of ball `n` is latched while SYS runs. -/
theorem gpioEdges_gpioIn (hn : n < 8) :
    gpioEdges s (s.put GPIO_IN_IN w) =
      if sysClocked s then
        (s.put GPIO_IN_IN w).put GPIO_EDGE_EDGE (s.get GPIO_EDGE_EDGE |||
          if !gpioLevel s n && gpioLevel (s.put GPIO_IN_IN w) n then 2 ^ n else 0)
      else s.put GPIO_IN_IN w := by
  have hmask : (maskOf 8 fun k => !gpioLevel s k && gpioLevel (s.put GPIO_IN_IN w) k) =
      if !gpioLevel s n && gpioLevel (s.put GPIO_IN_IN w) n then 2 ^ n else 0 := by
    refine Nat.eq_of_testBit_eq fun k => ?_
    rw [testBit_maskOf, testBit_bitIf]
    by_cases hkn : k = n
    · subst hkn
      simp [hn]
    · by_cases hk : k < 8
      · simp [gpioLevel_gpioIn_ne hfunc hother hk hkn, hkn]
      · simp [hk, hkn]
  have hclock : sysClocked (s.put GPIO_IN_IN w) = sysClocked s := by
    unfold sysClocked sysRuns
    rw [get_put_ne _ _ _ _ (by decide), get_put_ne _ _ _ _ (by decide)]
  have hedge : (s.put GPIO_IN_IN w).get GPIO_EDGE_EDGE = s.get GPIO_EDGE_EDGE := get_put_ne _ _ _ _ (by decide)
  simp only [gpioEdges, eviEdges_gpioIn hfunc hother, hclock, hmask, hedge]

end

/-! ### A ball that the board takes high or low -/

/-- From `s` to `t` ball `n` has come to the level `high` in GPIO_IN, its edge is latched where it `rose`, and no other ball has
moved. -/
structure BallMoved (s t : State) (n : Nat) (high rose : Bool) : Prop where
  level : t.bit GPIO_IN_IN n = high
  others : ∀ k, k < 8 → k ≠ n → t.bit GPIO_IN_IN k = s.bit GPIO_IN_IN k
  edge : ∀ k, k < 8 → t.bit GPIO_EDGE_EDGE k = (s.bit GPIO_EDGE_EDGE k || (decide (k = n) && rose))
  only : { s with regs := t.regs } = t
  other_fields : ∀ f : Fld, f.key ≠ GPIO_IN_IN.key → f.key ≠ GPIO_EDGE_EDGE.key → t.get f = s.get f

theorem BallMoved.sameRegs {s t : State} {n : Nat} {high rose : Bool} (h : BallMoved s t n high rose) : sameRegs [20] s t := by
  intro f hf
  refine h.other_fields f ?_ ?_
  all_goals
    intro e
    refine hf ?_
    unfold pageOf
    rw [e]
    decide

/-- A write of GPIO_IN that moves ball `n` alone, and its edge. -/
theorem ballMoved_gpioIn {s : State} {n w : Nat} {high rose : Bool} (hn : n < 8) (hfunc : s.get (GPIO_FUNC_FUNC n) ≠ 2)
    (hother : ∀ k, k < 8 → k ≠ n → (s.put GPIO_IN_IN w).bit GPIO_IN_IN k = s.bit GPIO_IN_IN k)
    (hlevel : (s.put GPIO_IN_IN w).bit GPIO_IN_IN n = high)
    (hrose : (sysClocked s && (!gpioLevel s n && gpioLevel (s.put GPIO_IN_IN w) n)) = rose) :
    BallMoved s (gpioEdges s (s.put GPIO_IN_IN w)) n high rose := by
  have hbit : ∀ (v k : Nat), ((s.put GPIO_IN_IN w).put GPIO_EDGE_EDGE v).bit GPIO_IN_IN k =
      (s.put GPIO_IN_IN w).bit GPIO_IN_IN k := by
    intro v k
    unfold State.bit
    rw [get_put_ne _ _ _ _ (by decide)]
  have hedge : ∀ k, (s.put GPIO_IN_IN w).bit GPIO_EDGE_EDGE k = s.bit GPIO_EDGE_EDGE k := by
    intro k
    unfold State.bit
    rw [get_put_ne _ _ _ _ (by decide)]
  rw [gpioEdges_gpioIn hfunc hother hn]
  subst hrose
  cases hclock : sysClocked s
  · refine ⟨hlevel, hother, fun k _ => ?_, rfl, fun f hf _ => get_put_ne _ _ _ _ hf⟩
    simp [hedge]
  · refine ⟨(hbit _ _).trans hlevel, fun k hk hkn => (hbit _ _).trans (hother k hk hkn), fun k hk => ?_, rfl, fun f hf he => ?_⟩
    · have hw : decide (k < GPIO_EDGE_EDGE.w) = true := decide_eq_true hk
      rw [if_pos rfl, bit_put_same, hw, Nat.testBit_or, ← bit_eq_testBit, testBit_bitIf, Bool.true_and, Bool.true_and]
    · rw [if_pos rfl, get_put_ne _ _ _ _ he, get_put_ne _ _ _ _ hf]


theorem BallMoved.refl {s : State} {n : Nat} {high : Bool} (h : s.bit GPIO_IN_IN n = high) : BallMoved s s n high false :=
  ⟨h, fun _ _ _ => rfl, fun k _ => by simp, rfl, fun _ _ _ => rfl⟩

theorem BallMoved.trans {s t u : State} {n : Nat} {a b x y : Bool} (h : BallMoved s t n a x) (k : BallMoved t u n b y) :
    BallMoved s u n b (x || y) := by
  refine ⟨k.level, fun j hj hjn => (k.others j hj hjn).trans (h.others j hj hjn), fun j hj => ?_, ?_,
    fun f hf he => (k.other_fields f hf he).trans (h.other_fields f hf he)⟩
  · rw [k.edge j hj, h.edge j hj, Bool.and_or_distrib_left, Bool.or_assoc]
  · rw [← k.only, ← h.only]

/-- What a ball that is no event function of its own presents. -/
theorem gpioLevel_input {s : State} {n : Nat} (hfunc : s.get (GPIO_FUNC_FUNC n) = 0) :
    gpioLevel s n = (bitOf s.vio 1 && s.bit GPIO_IN_IN n) := by
  unfold gpioLevel
  rw [hfunc]
  rfl

theorem gpioLevel_driven {s : State} {n : Nat} (hfunc : s.get (GPIO_FUNC_FUNC n) = 1) :
    gpioLevel s n = (bitOf s.vio 1 && s.bit GPIO_OUT_OUT n) := by
  unfold gpioLevel
  rw [hfunc]
  rfl

theorem bit_clrBits_gpioIn (s : State) (n : Nat) {k : Nat} (hk : k < 8) :
    (s.clrBits GPIO_IN_IN (2 ^ n)).bit GPIO_IN_IN k = (s.bit GPIO_IN_IN k && !decide (n = k)) := by
  have hw : decide (k < GPIO_IN_IN.w) = true := decide_eq_true hk
  rw [State.clrBits, bit_put_same, hw, testBit_sub_and, ← bit_eq_testBit, Nat.testBit_two_pow, Bool.true_and]

theorem bit_setBit_gpioIn (s : State) (n : Nat) {k : Nat} (hk : k < 8) :
    (s.setBit GPIO_IN_IN n).bit GPIO_IN_IN k = (s.bit GPIO_IN_IN k || decide (n = k)) := by
  have hw : decide (k < GPIO_IN_IN.w) = true := decide_eq_true hk
  rw [State.setBit, bit_put_same, hw, Nat.testBit_or, ← bit_eq_testBit, Nat.testBit_two_pow, Bool.true_and]

/-- GPIO_IN moves no ball's function and no output. -/
theorem bit_out_gpioIn (s : State) (w k : Nat) : (s.put GPIO_IN_IN w).bit GPIO_OUT_OUT k = s.bit GPIO_OUT_OUT k := by
  unfold State.bit
  rw [get_put_ne _ _ _ _ (by decide)]

/-- Ball `n` is an input, or an output that the part drives. -/
def InOrOut (s : State) (n : Nat) : Prop := s.get (GPIO_FUNC_FUNC n) = 0 ∨ s.get (GPIO_FUNC_FUNC n) = 1

theorem InOrOut.ne {s : State} {n : Nat} (h : InOrOut s n) : s.get (GPIO_FUNC_FUNC n) ≠ 2 := by
  unfold InOrOut at h
  omega

/-- A fall clears the ball's level and has no edge. -/
theorem ballMoved_gpioFall {s : State} {n : Nat} (hn : n < 8) (hfunc : InOrOut s n) : BallMoved s (gpioFall s n) n false false := by
  have hbit := fun k (hk : k < 8) => bit_clrBits_gpioIn s n hk
  have hlow : (s.clrBits GPIO_IN_IN (2 ^ n)).bit GPIO_IN_IN n = false := by simp [hbit n hn]
  refine ballMoved_gpioIn hn hfunc.ne (fun k hk hkn => ?_) hlow ?_
  · exact (hbit k hk).trans (by simp [Ne.symm hkn])
  · obtain h0 | h1 := hfunc
    · have hlevel := gpioLevel_input (s := s.clrBits GPIO_IN_IN (2 ^ n)) ((func_gpioIn s _ hn).trans h0)
      rw [hlow, Bool.and_false] at hlevel
      rw [show gpioLevel (s.put GPIO_IN_IN _) n = false from hlevel, Bool.and_false, Bool.and_false]
    · rw [gpioLevel_driven h1, gpioLevel_driven ((func_gpioIn s _ hn).trans h1), bit_out_gpioIn, put_vio, Bool.not_and_self,
        Bool.and_false]

/-- A ball that GPIO_IN holds high falls before it rises again; one that it holds low stays. -/
theorem ballMoved_lowered {s : State} {n : Nat} (hn : n < 8) (hfunc : InOrOut s n) :
    BallMoved s (if s.bit GPIO_IN_IN n then gpioFall s n else s) n false false := by
  cases h : s.bit GPIO_IN_IN n
  · exact .refl h
  · exact ballMoved_gpioFall hn hfunc

/-- What a rise of a low ball writes to GPIO_IN moves that ball alone. -/
theorem gpioRise_others (s : State) (n : Nat) {k : Nat} (hk : k < 8) (hkn : k ≠ n) :
    (s.setBit GPIO_IN_IN n).bit GPIO_IN_IN k = s.bit GPIO_IN_IN k := by
  rw [bit_setBit_gpioIn s n hk]
  simp [Ne.symm hkn]

theorem gpioRise_level (s : State) {n : Nat} (hn : n < 8) : (s.setBit GPIO_IN_IN n).bit GPIO_IN_IN n = true := by
  simp [bit_setBit_gpioIn s n hn]

/-- A rise of an input sets its level, and while SYS runs its edge. -/
theorem ballMoved_gpioRise_input {s : State} {n : Nat} (hn : n < 8) (hvio : bitOf s.vio 1 = true)
    (hfunc : s.get (GPIO_FUNC_FUNC n) = 0) (hlow : s.bit GPIO_IN_IN n = false) :
    BallMoved s (gpioRise s n) n true (sysClocked s) := by
  refine ballMoved_gpioIn hn (InOrOut.ne (.inl hfunc)) (fun k => gpioRise_others s n) (gpioRise_level s hn) ?_
  have hlevel := gpioLevel_input (s := s.setBit GPIO_IN_IN n) ((func_gpioIn s _ hn).trans hfunc)
  rw [gpioRise_level s hn, Bool.and_true] at hlevel
  rw [show gpioLevel (s.put GPIO_IN_IN _) n = bitOf s.vio 1 from hlevel, gpioLevel_input hfunc, hlow, hvio]
  simp

/-- What the board does to a ball that the part drives is no edge. -/
theorem ballMoved_gpioRise_driven {s : State} {n : Nat} (hn : n < 8) (hfunc : s.get (GPIO_FUNC_FUNC n) = 1) :
    BallMoved s (gpioRise s n) n true false := by
  refine ballMoved_gpioIn hn (InOrOut.ne (.inr hfunc)) (fun k => gpioRise_others s n) (gpioRise_level s hn) ?_
  rw [gpioLevel_driven hfunc, gpioLevel_driven ((func_gpioIn s _ hn).trans hfunc), bit_out_gpioIn, put_vio, Bool.not_and_self,
    Bool.and_false]

/-! ### GPIO_EDGE -/

/-- The ball is low before it rises, and nothing else that a rise depends on has moved. -/
structure LowBefore (s t : State) (n : Nat) : Prop where
  moved : BallMoved s t n false false
  func : t.get (GPIO_FUNC_FUNC n) = s.get (GPIO_FUNC_FUNC n)
  clocked : sysClocked t = sysClocked s
  vio : t.vio = s.vio

theorem lowBefore_lowered {s : State} {n : Nat} (hn : n < 8) (hfunc : InOrOut s n) :
    LowBefore s (if s.bit GPIO_IN_IN n then gpioFall s n else s) n := by
  have hmoved := ballMoved_lowered hn hfunc
  refine ⟨hmoved, hmoved.other_fields _ ?_ ?_, ?_, (congrArg State.vio hmoved.only).symm⟩
  · simp only [Fld.key, GPIO_FUNC_FUNC, GPIO_IN_IN]; omega
  · simp only [Fld.key, GPIO_FUNC_FUNC, GPIO_EDGE_EDGE]; omega
  · unfold sysClocked sysRuns
    rw [hmoved.sameRegs _ (by decide), hmoved.sameRegs _ (by decide)]

section
variable {s : State} {n : Nat} (hpor : s.por = false) (hvio : bitOf s.vio 1 = true)
include hpor hvio

theorem exec_gpioEdge_fall : exec (.gpioEdge n true) s = .next (if s.bit GPIO_IN_IN n then gpioFall s n else s) := by
  change execGpioEdge n s true = _
  rw [execGpioEdge, live_run _ _ hpor]
  simp [hvio]

theorem exec_gpioEdge_rise :
    exec (.gpioEdge n) s = .next (gpioRise (if s.bit GPIO_IN_IN n then gpioFall s n else s) n) := by
  change execGpioEdge n s false = _
  rw [execGpioEdge, live_run _ _ hpor]
  simp [hvio]

/-- A rise of an input, from whatever level. -/
theorem ballMoved_rise_input (hn : n < 8) (hfunc : s.get (GPIO_FUNC_FUNC n) = 0) :
    ∃ t, exec (.gpioEdge n) s = .next t ∧ BallMoved s t n true (sysClocked s) := by
  have hlow := lowBefore_lowered hn (.inl hfunc)
  have hrise := ballMoved_gpioRise_input hn (by rw [hlow.vio, hvio]) (hlow.func.trans hfunc) hlow.moved.level
  rw [hlow.clocked] at hrise
  exact ⟨_, exec_gpioEdge_rise hpor hvio, hlow.moved.trans hrise⟩

/-- A rise that the board tries at a driven ball. -/
theorem ballMoved_rise_driven (hn : n < 8) (hfunc : s.get (GPIO_FUNC_FUNC n) = 1) :
    ∃ t, exec (.gpioEdge n) s = .next t ∧ BallMoved s t n true false := by
  have hlow := lowBefore_lowered hn (.inr hfunc)
  exact ⟨_, exec_gpioEdge_rise hpor hvio, hlow.moved.trans (ballMoved_gpioRise_driven hn (hlow.func.trans hfunc))⟩

end

/-- Beside registers a moved ball leaves the state, what the fabric holds included. -/
theorem BallMoved.frame {s t : State} {n : Nat} {high rose : Bool} (h : BallMoved s t n high rose) :
    { s with regs := t.regs, evHeld := t.evHeld, evCap := t.evCap, evWin := t.evWin, free := t.free } = t := by
  rw [← h.only]

end Sys2Proof.Machine.Balls
end

section
/-! The ports' statement, from the serial blocks and the balls. -/

namespace Sys2Proof.Machine.SerialBlocks

open Sys2Proof Sys2Proof.Machine Sys2Proof.Machine.PowerStates Sys2Proof.Machine.BolinaLink Sys2Proof.Machine.Balls

/-- A row that makes one register access is that access. -/
theorem exists_next {s : State} {i : Instr} {row : State → State} (hpor : s.por = false) (hexec : exec i s = live s (row s))
    {P : State → Prop} (h : ∃ t, row s = t ∧ P t) : ∃ t, exec i s = .next t ∧ P t := by
  obtain ⟨t, ht, hP⟩ := h
  exact ⟨t, by rw [hexec, live_run _ _ hpor, ht], hP⟩

/-- Settles O60: the accesses from the rules of the FIFOs and of the commands, the ends from the states before their event, and the
balls from what a moved ball leaves. -/
theorem ports : Obligations.Ports := by
  refine ⟨?spiTx, ?i2cTx, ?uartTx, ?spiTxFull, ?i2cTxFull, ?spiRxEmpty, ?i2cRxEmpty, ?uartTxFull, ?spiRx, ?i2cRx, ?uartRx,
    ?uartRxEmpty, ?spiStarts, ?spiBusy, ?spiEnds, ?i2cStarts, ?i2cBusy, ?i2cWrites, ?i2cReads, ?i2cNackA, ?i2cTimesOut,
    ?uartReceives, ?uartStarts, ?uartTakes, ?uartEmpties, ?falls, ?driven, ?rises⟩
  case spiTx =>
    intro s m n v hpor h hlen hroom hn hen
    refine exists_next hpor rfl ?_
    obtain rfl | rfl : n = 0 ∨ n = 1 := by omega
    · exact rowWrite_txData_room h (by decide) (by decide) (by decide) (fun _ => rfl) (fun _ => hen) hroom
    · exact rowWrite_txData_room h (by decide) (by decide) (by decide) (fun _ => rfl) (fun _ => hen) hroom
  case i2cTx =>
    intro s m v hpor h hlen hroom
    exact exists_next hpor rfl
      (rowWrite_txData_room h (by decide) (by decide) (by decide) (fun _ => rfl) (fun hk => absurd hk (by decide)) hroom)
  case uartTx =>
    intro s m v hpor h hlen hroom
    exact exists_next hpor rfl
      (rowWrite_txData_room h (by decide) (by decide) (by decide) (fun _ => rfl) (fun hk => absurd hk (by decide)) hroom)
  case spiTxFull =>
    intro s m n v hpor hn hen h hfull
    refine exists_next hpor rfl ?_
    obtain rfl | rfl : n = 0 ∨ n = 1 := by omega
    · exact rowWrite_txData_full (k := 0) h (by decide) (by decide) (by decide) (fun _ => rfl) (fun _ => hen) hfull (by decide)
        (by decide)
    · exact rowWrite_txData_full (k := 1) h (by decide) (by decide) (by decide) (fun _ => rfl) (fun _ => hen) hfull (by decide)
        (by decide)
  case i2cTxFull =>
    intro s m v hpor h hfull
    exact exists_next hpor rfl (rowWrite_txData_full (k := 2) h (by decide) (by decide) (by decide) (fun _ => rfl)
      (fun hk => absurd hk (by decide)) hfull (by decide) (by decide))
  case spiRxEmpty =>
    intro s m n hpor hn h hrx
    refine exists_next hpor rfl ?_
    obtain rfl | rfl : n = 0 ∨ n = 1 := by omega
    · exact rowRead_rxData_empty h rfl hrx
    · exact rowRead_rxData_empty h rfl hrx
  case i2cRxEmpty =>
    intro s m hpor h hrx
    exact exists_next hpor rfl (rowRead_rxData_empty h rfl hrx)
  case uartTxFull =>
    intro s m v hpor h hfull
    exact exists_next hpor rfl (rowWrite_txData_full (k := 3) h (by decide) (by decide) (by decide) (fun _ => rfl)
      (fun hk => absurd hk (by decide)) hfull (by decide) (by decide))
  case spiRx =>
    intro s m n e l hpor hn h hlen hrx
    refine exists_next hpor rfl ?_
    obtain rfl | rfl : n = 0 ∨ n = 1 := by omega
    · exact rowRead_rxData_entry h rfl hrx
    · exact rowRead_rxData_entry h rfl hrx
  case i2cRx =>
    intro s m e l hpor h hlen hrx
    exact exists_next hpor rfl (rowRead_rxData_entry h rfl hrx)
  case uartRx =>
    intro s m e l hpor h hlen hrx
    exact exists_next hpor rfl (rowRead_rxData_entry h rfl hrx)
  case uartRxEmpty =>
    intro s m hpor h hrx
    exact exists_next hpor rfl (rowRead_rxData_empty h rfl hrx)
  case spiStarts =>
    intro s m n v hpor hn h hen hidle hquad hlen
    exact exists_next hpor rfl (rowWrite_spiCmd_idle hn h hen hidle hquad hlen)
  case spiBusy =>
    intro s m n v hpor hn h hen hbusy
    exact exists_next hpor rfl (rowWrite_spiCmd_busy hn h hen hbusy)
  case spiEnds =>
    intro s n r hpor hn hbusy hsys hlen hvio hall
    have hend := spiDone_last hn hbusy hsys hvio hall
    have hport : port (spiDone s n r) n = spiMoved (port s n) (port s n).len r := by
      have hset : n < s.ports.length := by omega
      unfold port
      rw [ports_of_onlyFabric hend]
      exact port_setPort hset _
    obtain ⟨hidle, hcs, hdone, hregs⟩ := spiEnded_regs (s := s) (spiMoved (port s n) (port s n).len r) hn
    refine ⟨_, live_run s _ hpor, ?_, ?_, ?_, ?_, ?_, ?_, frame_ports_of_onlyFabric hend rfl,
      sameRegs_of_onlyFabric hend hregs⟩
    · rw [hport]; exact Nat.sub_self _
    · rw [hport]; rfl
    · rw [hport]; rfl
    · rw [hend.get, hidle]
    · rw [hend.get, hcs]
    · rw [hend.get, hdone]
  case i2cStarts =>
    intro s m v hpor h hen hidle
    exact exists_next hpor rfl (rowWrite_i2cCmd_idle h hen hidle)
  case i2cBusy =>
    intro s m v hpor h hen hbusy
    exact exists_next hpor rfl (rowWrite_i2cCmd_busy h hen hbusy)
  case i2cWrites =>
    intro s r hpor hbusy hsys hvio hlen hdir hall
    have hdone := i2cDone_last hbusy hsys hvio (by omega) (i2cMove_write r hdir hall) rfl
    obtain ⟨t, ht, hports, hidle, hheld, hflag, hframe, hregs⟩ := i2cEnd_moved s
      { port s 2 with tx := (port s 2).tx.drop (port s 2).len, len := 0 } (port s 2).nostop
    exact exists_next (row := fun s => i2cDone s false false r) hpor rfl
      ⟨t, hdone.trans ht, hports, hidle, hheld, hflag, hframe, hregs⟩
  case i2cReads =>
    intro s r hpor hbusy hsys hvio hlen hdir hall hroom
    have hdone := i2cDone_last hbusy hsys hvio (by omega) (i2cMove_read (by omega) hdir hall hroom) rfl
    obtain ⟨t, ht, hports, hidle, -, hflag, hframe, hregs⟩ := i2cEnd_moved s
      { port s 2 with rx := (port s 2).rx ++ (r.take (port s 2).len).map fun b => b.toNat, len := 0 } (port s 2).nostop
    exact exists_next (row := fun s => i2cDone s false false r) hpor rfl
      ⟨t, hdone.trans ht, hports, hidle, hflag, hframe, hregs⟩
  case i2cNackA =>
    intro s b r hpor hbusy hsys hvio
    have hfailed := i2cEnd_failed s (f := I2C_EVT_NACKA) rfl rfl (by decide)
    rw [← i2cDone_nackA hbusy hsys hvio b r] at hfailed
    exact exists_next (row := fun s => i2cDone s true b r) hpor rfl hfailed
  case i2cTimesOut =>
    intro s hpor hbusy hsys
    obtain ⟨t, rfl, hfailed⟩ := i2cEnd_failed s (f := I2C_EVT_TIMEOUT) rfl rfl (by decide)
    exact ⟨_, exec_i2cTimeout hbusy hsys hpor, hfailed⟩
  case uartReceives =>
    intro s b pe fe par hpor hon hsys hvio hlen hroom hpar
    have hend := uartChar_room hon hsys b pe fe hvio (by omega) hroom hpar
    have honly := uartFlags_only (setPort s 3
      { port s 3 with dir := 0, rx := (port s 3).rx ++ [b.toNat + 256 * b2n par + 512 * b2n fe] }) par fe
    obtain ⟨hbyte, hperr, hferr, hregs⟩ := uartFlags_regs (setPort s 3
      { port s 3 with dir := 0, rx := (port s 3).rx ++ [b.toNat + 256 * b2n par + 512 * b2n fe] }) par fe
    refine ⟨_, live_run s _ hpor, ?_, (hend.get _).trans hbyte, (hend.get _).trans hperr, (hend.get _).trans hferr,
      frame_ports_of_onlyFabric hend ?_, sameRegs_of_onlyFabric hend hregs⟩
    · exact (ports_of_onlyFabric hend).trans (congrArg State.ports honly).symm
    · rw [← honly]
      rfl
  case uartStarts =>
    intro s b pe fe hpor hon hsys
    have hstart := uartStart_on hon hsys
    exact ⟨_, live_run s _ hpor, by rw [if_pos rfl, hstart]; rfl, by rw [if_pos rfl, hstart]; rfl⟩
  case uartTakes =>
    intro s k hpor hon hsys hk hle
    exact ⟨_, exec_uartTransmitDone_some hpor hon hsys hk hle, rfl, rfl⟩
  case uartEmpties =>
    intro s hpor hon hsys hsends
    exact ⟨_, exec_uartTransmitDone_none hpor hon hsys hsends, rfl, get_put_self _ _ _, rfl,
      sameRegs_put _ _ (by decide) (sameRegs_refl _ s)⟩
  case falls =>
    intro s n hpor hn hvio hfunc _
    have hmoved := ballMoved_lowered hn (.inl hfunc)
    exact ⟨_, exec_gpioEdge_fall hpor hvio, hmoved.level, hmoved.others, fun k hk => by simpa using hmoved.edge k hk, hmoved.frame,
      hmoved.sameRegs⟩
  case driven =>
    intro s n hpor hn hvio hfunc
    obtain ⟨t, ht, hmoved⟩ := ballMoved_rise_driven hpor hvio hn hfunc
    exact ⟨t, ht, fun k hk => by simpa using hmoved.edge k hk, hmoved.frame, hmoved.sameRegs⟩
  case rises =>
    intro s n hpor hn hvio hfunc _
    obtain ⟨t, ht, hmoved⟩ := ballMoved_rise_input hpor hvio hn hfunc
    exact ⟨t, ht, hmoved.level, by simpa using hmoved.edge n hn,
      fun k hk hkn => ⟨hmoved.others k hk hkn, by simpa [hkn] using hmoved.edge k hk⟩, hmoved.frame, hmoved.sameRegs⟩

end Sys2Proof.Machine.SerialBlocks
end
